-- ==== Sys2Proof/Word.lean ====
section
/-!
DEFINITION. The word types of the Foaskio, its place names (core kind, slot), and the plain data that
the steps of other agents carry as arguments. Nothing here computes an effect of an instruction.
-/

namespace Sys2Proof

/-- A 64-bit register or memory word (spec/06 R104, spec/00 R7). -/
abbrev Word := BitVec 64

/-- A byte of memory. -/
abbrev Byte := BitVec 8

/-- A vector register: 128 bytes, byte j in bits [8j+7:8j] (spec/08 R143). -/
abbrev V128 := BitVec 1024

/-- A 6-bit register specifier of Table 1.2 (spec/01 R17). The field's role, not the specifier, says
whether it names a scalar or a vector register. -/
abbrev Spec := BitVec 6

/-- The core kinds of a tile, numbered 0 M, 1 C, 2 A (spec/05 R95). -/
inductive Core
  | m | c | a
  deriving DecidableEq, Repr

/-- The number that member bits and sid use for a core kind. -/
def Core.num : Core → Nat
  | .m => 0
  | .c => 1
  | .a => 2

/-- One barrel slot of one core of one tile; `tile` is a tile number (spec/00 R4). -/
structure SlotId where
  tile : Nat
  core : Core
  slot : Nat
  deriving DecidableEq, Repr

/-- The member bit of a slot, 8·core + slot (spec/05 R95). -/
def SlotId.member (x : SlotId) : Nat := 8 * x.core.num + x.slot

/-- What the checks of an access find (spec/15 R315): nothing, an error that a retry or the code
corrects, or one that it does not. It rides on the step because soft errors arrive from outside. -/
inductive ErrKind
  | ok | corrected | uncorrectable
  deriving DecidableEq, Repr

/-- What the checks of a copied element find, and whether its write finds it or its read (spec/17 R356). -/
structure CopyErr where
  kind : ErrKind
  wr : Bool
  deriving DecidableEq, Repr

/-- The supervisors' choice for an eviction (spec/15 R314): the launch, and where in protected HBM its contents go. -/
structure Eviction where
  lid : Nat
  base : Nat
  deriving DecidableEq, Repr

/-- A machine-check bank (spec/15 R317). -/
inductive BankId
  | tile (n : Nat) | home (n : Nat) | port (n : Nat)
  deriving DecidableEq, Repr

/-- Where the supervisors put one member of a wave: its slot and the bottom of its stack reservation
(spec/12 R237). -/
structure MemberPlace where
  at_ : SlotId
  stackBot : Nat
  deriving DecidableEq, Repr

/-- What the supervisors give a launch on a tile that did not hold it yet: the first byte of its `.pad`
region, its physical ring descriptors and the wave's physical tile barriers (spec/12 R237). -/
structure TilePlace where
  tile : Nat
  padLo : Nat
  rings : List Nat
  bars : List Nat
  deriving DecidableEq, Repr

/-- The supervisors' choice for one wave (spec/12 R237). `rowBars` are the wired barriers of a
row-shaped wave. -/
structure Placement where
  members : List MemberPlace
  tiles : List TilePlace
  rowBars : List Nat
  deriving DecidableEq, Repr

/-- The options of a UEC 1.0 connection offer (spec/17 Table 17.6). -/
inductive UetOption
  | aiBase | aiFull | hpc
  | rod | rud | rudi | uud
  | nscc | rccc
  | linkRetry | creditFlow
  | tssAesGcm256 | unencrypted
  deriving DecidableEq, Repr

end Sys2Proof
end

