-- ==== Sys2Proof/Syntax.lean ====
section
/-!
DEFINITION. The steps of the Foaskio: one constructor per row of spec/opcode_table.json, in the table's order. The
first 201 are instruction words (spec/01 R28, Tables 1.6 to 1.19); `m` is the switch marker M (R16), `d`,
`a` and `b` are register specifiers, and fields are named as the spec names them. The other 88 are steps of
the device's other agents (spec/95), which have no encoding; their arguments say which agent moves and carry what
the spec leaves to a supervisor or to the outside world.
-/

namespace Sys2Proof

/-- One step of the device (spec/opcode_table.json). -/
inductive Instr
  -- Scalar integer (spec/06 R113 to R118)
  | add (m : Bool) (d a b : Spec)
  | sub (m : Bool) (d a b : Spec)
  | and (m : Bool) (d a b : Spec)
  | or (m : Bool) (d a b : Spec)
  | xor (m : Bool) (d a b : Spec)
  | shl (m : Bool) (d a b : Spec)
  | shr (m : Bool) (d a b : Spec)
  | sha (m : Bool) (d a b : Spec)
  | min (m : Bool) (d a b : Spec)
  | max (m : Bool) (d a b : Spec)
  | minn (m : Bool) (d a b : Spec)
  | maxn (m : Bool) (d a b : Spec)
  | sel (m : Bool) (d a b : Spec)
  | clz (m : Bool) (d a : Spec)
  | popc (m : Bool) (d a : Spec)
  | mul (m : Bool) (d a b : Spec)
  | mulh (m : Bool) (d a b : Spec)
  | mulhn (m : Bool) (d a b : Spec)
  | div (m : Bool) (d a b : Spec)
  | divn (m : Bool) (d a b : Spec)
  | rem (m : Bool) (d a b : Spec)
  | remn (m : Bool) (d a b : Spec)
  | addi (m : Bool) (d a : Spec) (imm : BitVec 12)
  | andi (m : Bool) (d a : Spec) (imm : BitVec 12)
  | ori (m : Bool) (d a : Spec) (imm : BitVec 12)
  | xori (m : Bool) (d a : Spec) (imm : BitVec 12)
  | shli (m : Bool) (d a : Spec) (sh : BitVec 6)
  | shri (m : Bool) (d a : Spec) (sh : BitVec 6)
  | shai (m : Bool) (d a : Spec) (sh : BitVec 6)
  | lih (m : Bool) (d : Spec) (imm : BitVec 18)
  | addpc (m : Bool) (d : Spec) (imm : BitVec 18)
  | bext (m : Bool) (d a : Spec) (pos len : BitVec 6)
  | bins (m : Bool) (d a : Spec) (pos len : BitVec 6)
  -- Compare and control flow (spec/06 R126 to R130)
  | cmp (m : Bool) (cond : BitVec 3) (sk : BitVec 2) (a b : Spec)
  | cmpi (m : Bool) (cond : BitVec 3) (sk : BitVec 2) (a : Spec) (imm : BitVec 6)
  | set (m : Bool) (cond : BitVec 3) (d a b : Spec)
  | seti (m : Bool) (cond : BitVec 3) (d a : Spec) (imm : BitVec 6)
  | br (m : Bool) (cond : BitVec 3) (a : Spec) (disp : BitVec 15)
  | j (m : Bool) (disp : BitVec 18)
  | call (m : Bool) (d : Spec) (disp : BitVec 18)
  | calli (m : Bool) (d a : Spec) (imm : BitVec 12)
  | enter (m : Bool) (imm : BitVec 18)
  | leave (m : Bool) (imm : BitVec 18)
  -- Scalar floating point (spec/06 R119 to R125)
  | fadd (m : Bool) (ty : BitVec 1) (d a b : Spec)
  | fsub (m : Bool) (ty : BitVec 1) (d a b : Spec)
  | fmul (m : Bool) (ty : BitVec 1) (d a b : Spec)
  | fdiv (m : Bool) (ty : BitVec 1) (d a b : Spec)
  | fmin (m : Bool) (ty : BitVec 1) (d a b : Spec)
  | fmax (m : Bool) (ty : BitVec 1) (d a b : Spec)
  | fsqrt (m : Bool) (ty : BitVec 1) (d a : Spec)
  | fclass (m : Bool) (ty : BitVec 1) (d a : Spec)
  | fmv (m : Bool) (ty : BitVec 1) (d a : Spec)
  | ffma (m : Bool) (ty : BitVec 1) (d a b : Spec)
  | fcvt (m : Bool) (dt st : BitVec 3) (d a : Spec)
  | fcmp (m : Bool) (cond : BitVec 3) (sk : BitVec 2) (ty : BitVec 1) (a b : Spec)
  | tsum (m : Bool) (d a b : Spec)
  -- Loads, stores and fences (spec/03, spec/05, spec/10, spec/11)
  | lds (m : Bool) (d a : Spec) (off : BitVec 9) (z : BitVec 3)
  | sts (m : Bool) (b a : Spec) (off : BitVec 9) (z : BitVec 3)
  | ldg (m : Bool) (d a : Spec) (off : BitVec 9) (z : BitVec 3)
  | stg (m : Bool) (b a : Spec) (off : BitVec 9) (z : BitVec 3)
  | ldsv (m : Bool) (d a : Spec) (imm : BitVec 12)
  | stsv (m : Bool) (b a : Spec) (imm : BitVec 12)
  | ldgv (m : Bool) (d a : Spec) (imm : BitVec 12)
  | stgv (m : Bool) (b a : Spec) (imm : BitVec 12)
  | ldc (m : Bool) (d a : Spec) (imm : BitVec 12)
  | stp (m : Bool) (b a : Spec) (imm : BitVec 12)
  | ldx (m : Bool) (d a : Spec)
  | stx (m : Bool) (d a b : Spec)
  | fence (m : Bool) (pred : BitVec 6) (scope : BitVec 3) (succ : BitVec 6)
  | fencex (m : Bool) (pred : BitVec 6) (scope : BitVec 3) (succ : BitVec 6)
  -- Atomics, transactions and semaphores (spec/11)
  | atomAdd (m : Bool) (ord : BitVec 2) (d a b : Spec)
  | atomAnd (m : Bool) (ord : BitVec 2) (d a b : Spec)
  | atomOr (m : Bool) (ord : BitVec 2) (d a b : Spec)
  | atomXor (m : Bool) (ord : BitVec 2) (d a b : Spec)
  | atomMin (m : Bool) (ord : BitVec 2) (d a b : Spec)
  | atomMax (m : Bool) (ord : BitVec 2) (d a b : Spec)
  | atomMinn (m : Bool) (ord : BitVec 2) (d a b : Spec)
  | atomMaxn (m : Bool) (ord : BitVec 2) (d a b : Spec)
  | atomSwap (m : Bool) (ord : BitVec 2) (d a b : Spec)
  | atomCas (m : Bool) (ord : BitVec 2) (d a b : Spec)
  | atomFaddF64 (m : Bool) (ord : BitVec 2) (d a b : Spec)
  | atomFaddF32 (m : Bool) (ord : BitVec 2) (d a b : Spec)
  | atomnAdd (m : Bool) (rel : BitVec 1) (a b : Spec)
  | atomnAnd (m : Bool) (rel : BitVec 1) (a b : Spec)
  | atomnOr (m : Bool) (rel : BitVec 1) (a b : Spec)
  | atomnXor (m : Bool) (rel : BitVec 1) (a b : Spec)
  | atomnMin (m : Bool) (rel : BitVec 1) (a b : Spec)
  | atomnMax (m : Bool) (rel : BitVec 1) (a b : Spec)
  | atomnMinn (m : Bool) (rel : BitVec 1) (a b : Spec)
  | atomnMaxn (m : Bool) (rel : BitVec 1) (a b : Spec)
  | atomnFaddF64 (m : Bool) (rel : BitVec 1) (a b : Spec)
  | atomnFaddF32 (m : Bool) (rel : BitVec 1) (a b : Spec)
  | redpReg (m : Bool) (ty : BitVec 2) (a : Spec)
  | redpRel (m : Bool) (a : Spec)
  | txb (m : Bool) (disp : BitVec 18)
  | txe (m : Bool)
  | txa (m : Bool) (a : Spec)
  | retry (m : Bool)
  | txst (m : Bool) (d : Spec)
  | oth (m : Bool) (disp : BitVec 18)
  | sempost (m : Bool) (k : BitVec 5) (a : Spec)
  | semtry (m : Bool) (d : Spec) (k : BitVec 5)
  -- Block transfer and lock rings (spec/04, spec/05)
  | cpset (m : Bool) (ch : BitVec 2) (field : BitVec 6) (a : Spec)
  | cpseti (m : Bool) (ch : BitVec 2) (field : BitVec 6) (imm : BitVec 12)
  | cpget (m : Bool) (d : Spec) (ch : BitVec 2) (field : BitVec 6)
  | cplaunch (m : Bool) (d : Spec) (ch : BitVec 2)
  | cpstat (m : Bool) (d : Spec) (ch : BitVec 2)
  | cpstop (m : Bool) (ch : BitVec 2)
  | lkcfg (m : Bool) (ring : BitVec 3) (a : Spec)
  | lkadv (m : Bool) (ring : BitVec 3)
  | lkpos (m : Bool) (d : Spec) (ring : BitVec 3)
  | lkjoin (m : Bool) (ring : BitVec 3) (a : Spec)
  -- Vector floating point (spec/08)
  | vadd (m : Bool) (rnd t : BitVec 2) (d a b : Spec)
  | vsub (m : Bool) (rnd t : BitVec 2) (d a b : Spec)
  | vmul (m : Bool) (rnd t : BitVec 2) (d a b : Spec)
  | vfma (m : Bool) (rnd t : BitVec 2) (d a b : Spec)
  | vfms (m : Bool) (rnd t : BitVec 2) (d a b : Spec)
  | vfnma (m : Bool) (rnd t : BitVec 2) (d a b : Spec)
  | vdiv (m : Bool) (rnd t : BitVec 2) (d a b : Spec)
  | vsqrt (m : Bool) (rnd t : BitVec 2) (d a : Spec)
  | vabs (m : Bool) (rnd t : BitVec 2) (d a : Spec)
  | vneg (m : Bool) (rnd t : BitVec 2) (d a : Spec)
  | vrcp (m : Bool) (rnd t : BitVec 2) (d a : Spec)
  | vrsq (m : Bool) (rnd t : BitVec 2) (d a : Spec)
  | vexp2 (m : Bool) (rnd t : BitVec 2) (d a : Spec)
  | vmin (m : Bool) (t : BitVec 2) (d a b : Spec)
  | vmax (m : Bool) (t : BitVec 2) (d a b : Spec)
  | vcmp (m : Bool) (cnd : BitVec 2) (t : BitVec 4) (d a b : Spec)
  | vsel (m : Bool) (t : BitVec 4) (d a b : Spec)
  | vredAdd (m : Bool) (t : BitVec 2) (d a : Spec)
  | vredMin (m : Bool) (t : BitVec 2) (d a : Spec)
  | vredMax (m : Bool) (t : BitVec 2) (d a : Spec)
  | vtsum (m : Bool) (d a : Spec)
  -- Vector conversion, permutation and integer (spec/08)
  | vcvt (m : Bool) (dt st : BitVec 4) (rnd : BitVec 2) (d a : Spec)
  | vperm (m : Bool) (d a b : Spec)
  | vshufZlo (m : Bool) (d a b : Spec)
  | vshufZhi (m : Bool) (d a b : Spec)
  | vshufEven (m : Bool) (d a b : Spec)
  | vshufOdd (m : Bool) (d a b : Spec)
  | vbcast (m : Bool) (t : BitVec 4) (d a : Spec)
  | vmov (m : Bool) (t : BitVec 4) (d a : Spec)
  | vext (m : Bool) (t : BitVec 4) (d a : Spec) (idx : BitVec 6)
  | vextHigh (m : Bool) (t : BitVec 4) (d a : Spec) (idx : BitVec 6)
  | viadd (m : Bool) (t : BitVec 3) (d a b : Spec)
  | visub (m : Bool) (t : BitVec 3) (d a b : Spec)
  | vimul (m : Bool) (t : BitVec 3) (d a b : Spec)
  | vand (m : Bool) (d a b : Spec)
  | vor (m : Bool) (d a b : Spec)
  | vxor (m : Bool) (d a b : Spec)
  | vshl (m : Bool) (t : BitVec 3) (d a b : Spec)
  | vshr (m : Bool) (t : BitVec 3) (d a b : Spec)
  -- Conversion unit (spec/08)
  | plane (m : Bool) (pm1 : BitVec 5) (d a b : Spec)
  | unplane (m : Bool) (pm1 : BitVec 5) (d a b : Spec)
  | p2enc (m : Bool) (t : BitVec 2) (d a : Spec)
  | p2dec (m : Bool) (t : BitVec 2) (d a : Spec)
  | bscale (m : Bool) (t : BitVec 4) (d a b : Spec)
  | srnd (m : Bool) (t : BitVec 4) (d a : Spec)
  -- Matrix (spec/09)
  | mptrOpa (m : Bool) (a b : Spec)
  | mptrOpb (m : Bool) (a b : Spec)
  | msclOpa (m : Bool) (a b : Spec)
  | msclOpb (m : Bool) (a b : Spec)
  | mspar (m : Bool) (a b : Spec)
  | mgang (m : Bool) (k : BitVec 3)
  | mmul (m : Bool)
  | mzero (m : Bool) (a : Spec)
  | mwr (m : Bool) (a b : Spec)
  | mrdhi (m : Bool) (d a : Spec)
  | mrdlo (m : Bool) (d a : Spec)
  | mrds (m : Bool) (d a : Spec)
  -- Cells (spec/13)
  | cbind (m : Bool) (a b : Spec)
  | cunbind (m : Bool) (a : Spec)
  | cwopen (m : Bool) (d a : Spec)
  | ccommit (m : Bool) (d a b : Spec)
  | cdone (m : Bool) (a : Spec)
  | cpin (m : Bool) (d a : Spec)
  | cunpin (m : Bool) (a b : Spec)
  | cgen (m : Bool) (d a : Spec)
  | cstat (m : Bool) (d a : Spec)
  -- Execution (spec/12)
  | fork (m : Bool) (disp : BitVec 18)
  | join (m : Bool) (a : Spec)
  | mig (m : Bool) (row : BitVec 8) (col : BitVec 4) (a : Spec)
  | gang (m : Bool) (a : Spec)
  | barTile (m : Bool) (k : BitVec 2)
  | barRow (m : Bool) (k : BitVec 3)
  | exit (m : Bool)
  | yield (m : Bool)
  -- Network and serving (spec/11, spec/16)
  | nred (m : Bool) (t : BitVec 4) (a b : Spec)
  | nsend (m : Bool) (a b : Spec)
  | intk (m : Bool) (d a : Spec)
  | outf (m : Bool) (d a : Spec)
  | rndcLo (m : Bool) (d a b : Spec)
  | rndcHi (m : Bool) (d a b : Spec)
  -- System (spec/15)
  | trap (m : Bool) (code : BitVec 18)
  | sret (m : Bool)
  | sysr (m : Bool) (d : Spec) (num : BitVec 12)
  | sysw (m : Bool) (num : BitVec 12) (a : Spec)
  | tlbinvPage (m : Bool) (a : Spec)
  | tlbinvAsid (m : Bool) (a : Spec)
  | tlbinvAll (m : Bool)
  | selftest (m : Bool) (d a : Spec)
  | brk (m : Bool) (code : BitVec 18)
  -- Steps of the other agents (spec/95)
  | annulledWord
  | longResultReturn (id : Nat)
  | translationWalk (who : SlotId)
  | globalAccessPerformed (id : Nat) (err : ErrKind) (answer : V128)
  | storeBufferDrain (id : Nat)
  | homeAtomic (id : Nat) (err : ErrKind) (answer : V128)
  | fullEmptyRetest (id : Nat) (err : ErrKind) (answer : V128)
  | patrolScrub (pa : Nat) (err : ErrKind)
  | tileWindowAccess (id : Nat) (err : ErrKind)
  | transferStart (tile ch : Nat)
  | copyElement (tile ch : Nat) (old : Bool) (err : CopyErr) (answer : V128)
  | transferComplete (tile ch : Nat)
  | sendPacketAccept (tile ch : Nat)
  | cpctlResume (tile ch : Nat)
  | cpctlCancel (tile ch : Nat)
  | asyncDelivery
  | preemption (who : SlotId)
  | spill (who : SlotId) (base : Nat)
  | restore (who : SlotId) (uid : Nat)
  | restoreDeadline (tile : Nat) (waveId : Nat)
  | launchEvict (tile : Nat) (ev : Eviction)
  | wavePlace (req : Nat) (place : Placement)
  | dequeTake (who : SlotId) (stackBot : Nat)
  | dequeOverflowMove (tile : Nat)
  | continuationArrive (idx : Nat)
  | loadExchange (src dst : Nat) (kind : Core)
  | classWindow (tile : Nat)
  | eventTake (tile : Nat)
  | seventRead (tile : Nat)
  | trunResume (tile : Nat) (v : Word)
  | trunEndLaunch (tile : Nat) (v : Word)
  | supervisorMemoryError (tile : Nat) (queues mirrorLost : Bool)
  | mcstatusClear (tile : Nat) (v : Word)
  | mccountClear (tile : Nat)
  | fatalError (bank : BankId) (src : BitVec 8) (addr detail : Word)
  | linkResend (bank : BankId) (fails : Nat) (addr detail : Word)
  | selftestComplete (tile : Nat) (fail : BitVec 10)
  | txConflict (who : SlotId)
  | txWake (who : SlotId)
  | editAccept (sheet : Nat)
  | publicationStep (sheet : Nat)
  | taskRelease (sheet cell : Nat)
  | formulaPublish (sheet : Nat)
  | routerPacketArrive (idx : Nat)
  | routerTimeout (die group router : Nat)
  | nsendDeliver (idx : Nat)
  | matrixOpStart (tile : Nat)
  | matrixBlockApply (tile : Nat) (err : ErrKind)
  | ringReserve (n : Nat)
  | ringCommit (n : Nat) (t : BitVec 32)
  | rcfgWrite (n : Nat) (v : Word)
  | rerrClear (n : Nat)
  | launch (n : Nat)
  | commit (n : Nat)
  | bind (n : Nat)
  | sheetnew (n : Nat)
  | cellnew (n : Nat)
  | sheetend (n : Nat)
  | sheetDestroy (sheet : Nat)
  | launchend (n : Nat)
  | fwopSelftest (n : Nat)
  | turnarm (n : Nat)
  | copy (n : Nat)
  | reduce (n : Nat)
  | nop (n : Nat)
  | completionWord (cid : Nat)
  | launchComplete (lid : Nat)
  | turnoutCount (die : Nat) (tag : BitVec 32)
  | turnoutInsert (k : Nat)
  | turnoutDisarm (k : Nat)
  | chunkCommit (lid : Nat)
  | sqMessageArrive (handle asid : BitVec 16) (msg : List Byte)
  | intake (idx : Nat)
  | outfallVersion (cell : Nat)
  | reset
  | bootgo
  | lcreq (v : BitVec 3)
  | attgo
  | reportComplete
  | ckctlGo (tier : BitVec 1)
  | ckctlRestore (tier : BitVec 1)
  | checkpointComplete (fail : Bool) (ms : BitVec 32)
  | deviceRegisterWrite (off : Nat) (v : Word)
  | remoteTimeout (id : Nat)
  | peerReset (dev : BitVec 12)
  | uetConnect (port : Nat) (offer : List UetOption)
  | wakeWithNoWrite (who : SlotId)
  | hostDebuggerResume (who : SlotId)
  deriving DecidableEq, Repr

end Sys2Proof
end

