-- ==== Sys2Proof/WellFormed.lean ====
section
/-!
DEFINITION. Which operands make a word legal: the conditions of spec/01 R17 to R29 that a constructor of Instr
can break, each with the reason code of Table 1.20 that it raises. Whether the core kind allows the
instruction (reason 3) depends on the strand and is in Decode.lean.
-/

namespace Sys2Proof

/-- A scalar source: Table 1.2 reserves 44 to 63. -/
def sSrc (x : Spec) : Bool := decide (x.toNat ≤ 43)

/-- A scalar destination: pc and sid may not be named (R18). -/
def sDst (x : Spec) : Bool := decide (x.toNat ≤ 41)

/-- A vector register: v0 to v31, w0 to w3, qv, zv (Table 1.2). -/
def vReg (x : Spec) : Bool := decide (x.toNat ≤ 35) || x == 40#6 || x == 41#6

/-- The codes of Table 1.3 that are not illegal. -/
def condOk (c : BitVec 3) : Bool := decide (c.toNat ≤ 5)

/-- The type codes of Table 1.5 that are not reserved. -/
def typeOk (t : BitVec 4) : Bool := t != 6#4 && t != 7#4

/-- Element width in bytes of a type code (spec/08 Table 8.1); 1 for the reserved codes. -/
def widthOf (t : BitVec 4) : Nat :=
  match t.toNat with
  | 0 | 11 | 15 => 8
  | 1 | 10 | 14 => 4
  | 2 | 3 | 9 | 13 => 2
  | _ => 1

/-- The pairs of type codes that fcvt accepts (spec/06 R123). -/
def fcvtPairOk (dt st : BitVec 3) : Bool :=
  decide (dt.toNat ≤ 5) && decide (st.toNat ≤ 5) && dt != st && !(decide (4 ≤ dt.toNat) && decide (4 ≤ st.toNat))

/-- The first register of a group of four (spec/08 R157). -/
def groupOf4 (g : Spec) : Bool := decide (g.toNat ≤ 28) && g.toNat % 4 == 0

/-- A plane group of ceil(P / 8) registers ending at v31 or below, with P = pm1 + 1 (spec/08 R157). -/
def planeGroup (g : Spec) (pm1 : BitVec 5) : Bool := decide (g.toNat + (pm1.toNat + 8) / 8 ≤ 32)

/-- The register numbers of spec/15 Table 15.1. -/
def sysNumOk (n : BitVec 12) : Bool :=
  let k := n.toNat
  decide (k ≤ 0x012) || decide (0x020 ≤ k ∧ k ≤ 0x042) || decide (0x050 ≤ k ∧ k ≤ 0x05B) ||
    decide (0x080 ≤ k ∧ k ≤ 0x085) || decide (0x090 ≤ k ∧ k ≤ 0x09A) || k == 0x0A0 || k == 0x0A1 ||
    decide (0x0B0 ≤ k ∧ k ≤ 0x0B4)

/-- The legality conditions of a word's operands: each pairs a condition that must hold with the reason code of
Table 1.20 raised when it does not. The steps without encodings have none. -/
def Instr.conds : Instr → List (Bool × Nat)
  | .add _ d a b => [(sDst d && sSrc a && sSrc b, 7)]
  | .sub _ d a b => [(sDst d && sSrc a && sSrc b, 7)]
  | .and _ d a b => [(sDst d && sSrc a && sSrc b, 7)]
  | .or _ d a b => [(sDst d && sSrc a && sSrc b, 7)]
  | .xor _ d a b => [(sDst d && sSrc a && sSrc b, 7)]
  | .shl _ d a b => [(sDst d && sSrc a && sSrc b, 7)]
  | .shr _ d a b => [(sDst d && sSrc a && sSrc b, 7)]
  | .sha _ d a b => [(sDst d && sSrc a && sSrc b, 7)]
  | .min _ d a b => [(sDst d && sSrc a && sSrc b, 7)]
  | .max _ d a b => [(sDst d && sSrc a && sSrc b, 7)]
  | .minn _ d a b => [(sDst d && sSrc a && sSrc b, 7)]
  | .maxn _ d a b => [(sDst d && sSrc a && sSrc b, 7)]
  | .sel _ d a b => [(sDst d && sSrc a && sSrc b, 7)]
  | .clz _ d a => [(sDst d && sSrc a, 7)]
  | .popc _ d a => [(sDst d && sSrc a, 7)]
  | .mul _ d a b => [(sDst d && sSrc a && sSrc b, 7)]
  | .mulh _ d a b => [(sDst d && sSrc a && sSrc b, 7)]
  | .mulhn _ d a b => [(sDst d && sSrc a && sSrc b, 7)]
  | .div _ d a b => [(sDst d && sSrc a && sSrc b, 7)]
  | .divn _ d a b => [(sDst d && sSrc a && sSrc b, 7)]
  | .rem _ d a b => [(sDst d && sSrc a && sSrc b, 7)]
  | .remn _ d a b => [(sDst d && sSrc a && sSrc b, 7)]
  | .addi _ d a _ => [(sDst d && sSrc a, 7)]
  | .andi _ d a _ => [(sDst d && sSrc a, 7)]
  | .ori _ d a _ => [(sDst d && sSrc a, 7)]
  | .xori _ d a _ => [(sDst d && sSrc a, 7)]
  | .shli _ d a _ => [(sDst d && sSrc a, 7)]
  | .shri _ d a _ => [(sDst d && sSrc a, 7)]
  | .shai _ d a _ => [(sDst d && sSrc a, 7)]
  | .lih _ d _ => [(sDst d, 7)]
  | .addpc _ d _ => [(sDst d, 7)]
  | .bext _ d a pos len => [(decide (pos.toNat + len.toNat + 1 ≤ 64), 6), (sDst d && sSrc a, 7)]
  | .bins _ d a pos len => [(decide (pos.toNat + len.toNat + 1 ≤ 64), 6), (sDst d && sSrc a, 7)]
  | .cmp _ cond _ a b => [(condOk cond, 4), (sSrc a && sSrc b, 7)]
  | .cmpi _ cond _ a _ => [(condOk cond, 4), (sSrc a, 7)]
  | .set _ cond d a b => [(condOk cond, 4), (sDst d && sSrc a && sSrc b, 7)]
  | .seti _ cond d a _ => [(condOk cond, 4), (sDst d && sSrc a, 7)]
  | .br _ cond a _ => [(condOk cond, 4), (sSrc a, 7)]
  | .j _ _ => []
  | .call _ d _ => [(sDst d, 7)]
  | .calli _ d a _ => [(sDst d && sSrc a, 7)]
  | .enter _ imm => [(imm.toNat % 8 == 0, 6)]
  | .leave _ imm => [(imm.toNat % 8 == 0, 6)]
  | .fadd _ _ d a b => [(sDst d && sSrc a && sSrc b, 7)]
  | .fsub _ _ d a b => [(sDst d && sSrc a && sSrc b, 7)]
  | .fmul _ _ d a b => [(sDst d && sSrc a && sSrc b, 7)]
  | .fdiv _ _ d a b => [(sDst d && sSrc a && sSrc b, 7)]
  | .fmin _ _ d a b => [(sDst d && sSrc a && sSrc b, 7)]
  | .fmax _ _ d a b => [(sDst d && sSrc a && sSrc b, 7)]
  | .fsqrt _ _ d a => [(sDst d && sSrc a, 7)]
  | .fclass _ _ d a => [(sDst d && sSrc a, 7)]
  | .fmv _ _ d a => [(sDst d && sSrc a, 7)]
  | .ffma _ _ d a b => [(sDst d && sSrc a && sSrc b, 7)]
  | .fcvt _ dt st d a => [(fcvtPairOk dt st, 2), (sDst d && sSrc a, 7)]
  | .fcmp _ cond _ _ a b => [(condOk cond, 4), (sSrc a && sSrc b, 7)]
  | .tsum _ d a b => [(sDst d && sSrc a && sSrc b, 7)]
  | .lds _ d a _ z => [(z != 7#3, 5), (sDst d && sSrc a, 7)]
  | .sts _ b a _ z => [(!z.getLsbD 0, 5), (sSrc a && sSrc b, 7)]
  | .ldg _ d a _ z => [(z != 7#3, 5), (sDst d && sSrc a, 7)]
  | .stg _ b a _ z => [(!z.getLsbD 0, 5), (sSrc a && sSrc b, 7)]
  | .ldsv _ d a _ => [(vReg d && sSrc a, 7)]
  | .stsv _ b a _ => [(sSrc a && vReg b, 7)]
  | .ldgv _ d a _ => [(vReg d && sSrc a, 7)]
  | .stgv _ b a _ => [(sSrc a && vReg b, 7)]
  | .ldc _ d a _ => [(sDst d && sSrc a, 7)]
  | .stp _ b a _ => [(sSrc a && sSrc b, 7)]
  | .ldx _ d a => [(sDst d && sSrc a, 7)]
  | .stx _ d a b => [(sDst d && sSrc a && sSrc b, 7)]
  | .fence _ pred scope succ => [(pred != 0#6 && succ != 0#6 && !pred.getLsbD 5 && !succ.getLsbD 5 && decide (scope.toNat ≤ 4), 5)]
  | .fencex _ pred scope succ => [(pred != 0#6 && succ != 0#6 && decide (scope.toNat ≤ 4), 5)]
  | .atomAdd _ _ d a b => [(sDst d && sSrc a && sSrc b, 7)]
  | .atomAnd _ _ d a b => [(sDst d && sSrc a && sSrc b, 7)]
  | .atomOr _ _ d a b => [(sDst d && sSrc a && sSrc b, 7)]
  | .atomXor _ _ d a b => [(sDst d && sSrc a && sSrc b, 7)]
  | .atomMin _ _ d a b => [(sDst d && sSrc a && sSrc b, 7)]
  | .atomMax _ _ d a b => [(sDst d && sSrc a && sSrc b, 7)]
  | .atomMinn _ _ d a b => [(sDst d && sSrc a && sSrc b, 7)]
  | .atomMaxn _ _ d a b => [(sDst d && sSrc a && sSrc b, 7)]
  | .atomSwap _ _ d a b => [(sDst d && sSrc a && sSrc b, 7)]
  | .atomCas _ _ d a b => [(sDst d && sSrc a && sSrc b, 7)]
  | .atomFaddF64 _ _ d a b => [(sDst d && sSrc a && sSrc b, 7)]
  | .atomFaddF32 _ _ d a b => [(sDst d && sSrc a && sSrc b, 7)]
  | .atomnAdd _ _ a b => [(sSrc a && sSrc b, 7)]
  | .atomnAnd _ _ a b => [(sSrc a && sSrc b, 7)]
  | .atomnOr _ _ a b => [(sSrc a && sSrc b, 7)]
  | .atomnXor _ _ a b => [(sSrc a && sSrc b, 7)]
  | .atomnMin _ _ a b => [(sSrc a && sSrc b, 7)]
  | .atomnMax _ _ a b => [(sSrc a && sSrc b, 7)]
  | .atomnMinn _ _ a b => [(sSrc a && sSrc b, 7)]
  | .atomnMaxn _ _ a b => [(sSrc a && sSrc b, 7)]
  | .atomnFaddF64 _ _ a b => [(sSrc a && sSrc b, 7)]
  | .atomnFaddF32 _ _ a b => [(sSrc a && sSrc b, 7)]
  | .redpReg _ ty a => [(ty != 3#2, 5), (sSrc a, 7)]
  | .redpRel _ a => [(sSrc a, 7)]
  | .txb _ _ => []
  | .txe _ => []
  | .txa _ a => [(sSrc a, 7)]
  | .retry _ => []
  | .txst _ d => [(sDst d, 7)]
  | .oth _ _ => []
  | .sempost _ _ a => [(sSrc a, 7)]
  | .semtry _ d _ => [(sDst d, 7)]
  | .cpset _ _ field a => [(decide (field.toNat < 42), 2), (sSrc a, 7)]
  | .cpseti _ _ field _ => [(decide (field.toNat < 42), 6)]
  | .cpget _ d _ field => [(decide (field.toNat < 42), 2), (sDst d, 7)]
  | .cplaunch _ d _ => [(sDst d, 7)]
  | .cpstat _ d _ => [(sDst d, 7)]
  | .cpstop _ _ => []
  | .lkcfg _ _ a => [(sSrc a, 7)]
  | .lkadv _ _ => []
  | .lkpos _ d _ => [(sDst d, 7)]
  | .lkjoin _ _ a => [(sSrc a, 7)]
  | .vadd _ _ _ d a b => [(vReg d && vReg a && vReg b, 7)]
  | .vsub _ _ _ d a b => [(vReg d && vReg a && vReg b, 7)]
  | .vmul _ _ _ d a b => [(vReg d && vReg a && vReg b, 7)]
  | .vfma _ _ _ d a b => [(vReg d && vReg a && vReg b, 7)]
  | .vfms _ _ _ d a b => [(vReg d && vReg a && vReg b, 7)]
  | .vfnma _ _ _ d a b => [(vReg d && vReg a && vReg b, 7)]
  | .vdiv _ _ _ d a b => [(vReg d && vReg a && vReg b, 7)]
  | .vsqrt _ _ _ d a => [(vReg d && vReg a, 7)]
  | .vabs _ _ _ d a => [(vReg d && vReg a, 7)]
  | .vneg _ _ _ d a => [(vReg d && vReg a, 7)]
  | .vrcp _ _ _ d a => [(vReg d && vReg a, 7)]
  | .vrsq _ _ _ d a => [(vReg d && vReg a, 7)]
  | .vexp2 _ _ _ d a => [(vReg d && vReg a, 7)]
  | .vmin _ _ d a b => [(vReg d && vReg a && vReg b, 7)]
  | .vmax _ _ d a b => [(vReg d && vReg a && vReg b, 7)]
  | .vcmp _ _ t d a b => [(typeOk t, 5), (vReg d && vReg a && vReg b, 7)]
  | .vsel _ t d a b => [(typeOk t, 5), (vReg d && vReg a && vReg b, 7)]
  | .vredAdd _ _ d a => [(sDst d && vReg a, 7)]
  | .vredMin _ _ d a => [(sDst d && vReg a, 7)]
  | .vredMax _ _ d a => [(sDst d && vReg a, 7)]
  | .vtsum _ d a => [(sDst d && vReg a, 7)]
  | .vcvt _ dt st _ d a => [(typeOk dt && typeOk st && dt != st, 5), (vReg d && vReg a, 7)]
  | .vperm _ d a b => [(vReg d && vReg a && vReg b, 7)]
  | .vshufZlo _ d a b => [(vReg d && vReg a && vReg b, 7)]
  | .vshufZhi _ d a b => [(vReg d && vReg a && vReg b, 7)]
  | .vshufEven _ d a b => [(vReg d && vReg a && vReg b, 7)]
  | .vshufOdd _ d a b => [(vReg d && vReg a && vReg b, 7)]
  | .vbcast _ t d a => [(typeOk t, 5), (vReg d && sSrc a, 7)]
  | .vmov _ t d a => [(typeOk t, 5), (vReg d && vReg a, 7)]
  | .vext _ t d a idx => [(typeOk t, 5), (!typeOk t || decide (idx.toNat < 128 / widthOf t), 6), (sDst d && vReg a, 7)]
  | .vextHigh _ t d a _ => [(t == 4#4 || t == 5#4 || t == 8#4 || t == 12#4, 2), (sDst d && vReg a, 7)]
  | .viadd _ _ d a b => [(vReg d && vReg a && vReg b, 7)]
  | .visub _ _ d a b => [(vReg d && vReg a && vReg b, 7)]
  | .vimul _ _ d a b => [(vReg d && vReg a && vReg b, 7)]
  | .vand _ d a b => [(vReg d && vReg a && vReg b, 7)]
  | .vor _ d a b => [(vReg d && vReg a && vReg b, 7)]
  | .vxor _ d a b => [(vReg d && vReg a && vReg b, 7)]
  | .vshl _ _ d a b => [(vReg d && vReg a && vReg b, 7)]
  | .vshr _ _ d a b => [(vReg d && vReg a && vReg b, 7)]
  | .plane _ pm1 d a b => [(decide (pm1.toNat ≤ 23), 6), (groupOf4 a && planeGroup d pm1 && sSrc b, 7)]
  | .unplane _ pm1 d a b => [(decide (pm1.toNat ≤ 23), 6), (groupOf4 d && planeGroup a pm1 && sSrc b, 7)]
  | .p2enc _ _ d a => [(vReg d && vReg a, 7)]
  | .p2dec _ _ d a => [(vReg d && vReg a, 7)]
  | .bscale _ t d a b => [(decide (t.toNat ≤ 5), 5), (vReg d && vReg a && vReg b, 7)]
  | .srnd _ t d a => [(decide (1 ≤ t.toNat ∧ t.toNat ≤ 5), 5), (vReg d && vReg a, 7)]
  | .mptrOpa _ a b => [(sSrc a && sSrc b, 7)]
  | .mptrOpb _ a b => [(sSrc a && sSrc b, 7)]
  | .msclOpa _ a b => [(sSrc a && sSrc b, 7)]
  | .msclOpb _ a b => [(sSrc a && sSrc b, 7)]
  | .mspar _ a b => [(sSrc a && sSrc b, 7)]
  | .mgang _ _ => []
  | .mmul _ => []
  | .mzero _ a => [(sSrc a, 7)]
  | .mwr _ a b => [(sSrc a && vReg b, 7)]
  | .mrdhi _ d a => [(vReg d && sSrc a, 7)]
  | .mrdlo _ d a => [(vReg d && sSrc a, 7)]
  | .mrds _ d a => [(vReg d && sSrc a, 7)]
  | .cbind _ a b => [(sSrc a && sSrc b, 7)]
  | .cunbind _ a => [(sSrc a, 7)]
  | .cwopen _ d a => [(sDst d && sSrc a, 7)]
  | .ccommit _ d a b => [(sDst d && sSrc a && sSrc b, 7)]
  | .cdone _ a => [(sSrc a, 7)]
  | .cpin _ d a => [(sDst d && sSrc a, 7)]
  | .cunpin _ a b => [(sSrc a && sSrc b, 7)]
  | .cgen _ d a => [(sDst d && sSrc a, 7)]
  | .cstat _ d a => [(sDst d && sSrc a, 7)]
  | .fork _ _ => []
  | .join _ a => [(sSrc a, 7)]
  | .mig _ _ _ a => [(sSrc a, 7)]
  | .gang _ a => [(sSrc a, 7)]
  | .barTile _ _ => []
  | .barRow _ _ => []
  | .exit _ => []
  | .yield _ => []
  | .nred _ t a b => [(t == 0#4 || t == 1#4 || t == 11#4, 5), (sSrc a && sSrc b, 7)]
  | .nsend _ a b => [(sSrc a && sSrc b, 7)]
  | .intk _ d a => [(sDst d && sSrc a, 7)]
  | .outf _ d a => [(sDst d && sSrc a, 7)]
  | .rndcLo _ d a b => [(sDst d && sSrc a && sSrc b, 7)]
  | .rndcHi _ d a b => [(sDst d && sSrc a && sSrc b, 7)]
  | .trap _ _ => []
  | .sret _ => []
  | .sysr _ d num => [(sysNumOk num, 6), (sDst d, 7)]
  | .sysw _ num a => [(sysNumOk num, 6), (sSrc a, 7)]
  | .tlbinvPage _ a => [(sSrc a, 7)]
  | .tlbinvAsid _ a => [(sSrc a, 7)]
  | .tlbinvAll _ => []
  | .selftest _ d a => [(sDst d && sSrc a, 7)]
  | .brk _ _ => []
  | .annulledWord => []
  | .longResultReturn _ => []
  | .translationWalk _ => []
  | .globalAccessPerformed _ _ _ => []
  | .storeBufferDrain _ => []
  | .homeAtomic _ _ _ => []
  | .fullEmptyRetest _ _ _ => []
  | .patrolScrub _ _ => []
  | .tileWindowAccess _ _ => []
  | .transferStart _ _ => []
  | .copyElement _ _ _ _ _ => []
  | .transferComplete _ _ => []
  | .sendPacketAccept _ _ => []
  | .cpctlResume _ _ => []
  | .cpctlCancel _ _ => []
  | .asyncDelivery => []
  | .preemption _ => []
  | .spill _ _ => []
  | .restore _ _ => []
  | .restoreDeadline _ _ => []
  | .launchEvict _ _ => []
  | .wavePlace _ _ => []
  | .dequeTake _ _ => []
  | .dequeOverflowMove _ => []
  | .continuationArrive _ => []
  | .loadExchange _ _ _ => []
  | .classWindow _ => []
  | .eventTake _ => []
  | .seventRead _ => []
  | .trunResume _ _ => []
  | .trunEndLaunch _ _ => []
  | .supervisorMemoryError _ _ _ => []
  | .mcstatusClear _ _ => []
  | .mccountClear _ => []
  | .fatalError _ _ _ _ => []
  | .linkResend _ _ _ _ => []
  | .selftestComplete _ _ => []
  | .txConflict _ => []
  | .txWake _ => []
  | .editAccept _ => []
  | .publicationStep _ => []
  | .taskRelease _ _ => []
  | .formulaPublish _ => []
  | .routerPacketArrive _ => []
  | .routerTimeout _ _ _ => []
  | .nsendDeliver _ => []
  | .matrixOpStart _ => []
  | .matrixBlockApply _ _ => []
  | .ringReserve _ => []
  | .ringCommit _ _ => []
  | .rcfgWrite _ _ => []
  | .rerrClear _ => []
  | .launch _ => []
  | .commit _ => []
  | .bind _ => []
  | .sheetnew _ => []
  | .cellnew _ => []
  | .sheetend _ => []
  | .sheetDestroy _ => []
  | .launchend _ => []
  | .fwopSelftest _ => []
  | .turnarm _ => []
  | .copy _ => []
  | .reduce _ => []
  | .nop _ => []
  | .completionWord _ => []
  | .launchComplete _ => []
  | .turnoutCount _ _ => []
  | .turnoutInsert _ => []
  | .turnoutDisarm _ => []
  | .chunkCommit _ => []
  | .sqMessageArrive _ _ _ => []
  | .intake _ => []
  | .outfallVersion _ => []
  | .reset => []
  | .bootgo => []
  | .lcreq _ => []
  | .attgo => []
  | .reportComplete => []
  | .ckctlGo _ => []
  | .ckctlRestore _ => []
  | .checkpointComplete _ _ => []
  | .deviceRegisterWrite _ _ => []
  | .remoteTimeout _ => []
  | .peerReset _ => []
  | .uetConnect _ _ => []
  | .wakeWithNoWrite _ => []
  | .hostDebuggerResume _ => []

/-- Every condition of the word holds (spec/01 R30). -/
def Instr.wellFormed (i : Instr) : Bool := i.conds.all (·.1)

/-- The constructor stands for an instruction word, not for a step of another agent. -/
def Instr.isWord : Instr → Bool
  | .annulledWord => false
  | .longResultReturn _ => false
  | .translationWalk _ => false
  | .globalAccessPerformed _ _ _ => false
  | .storeBufferDrain _ => false
  | .homeAtomic _ _ _ => false
  | .fullEmptyRetest _ _ _ => false
  | .patrolScrub _ _ => false
  | .tileWindowAccess _ _ => false
  | .transferStart _ _ => false
  | .copyElement _ _ _ _ _ => false
  | .transferComplete _ _ => false
  | .sendPacketAccept _ _ => false
  | .cpctlResume _ _ => false
  | .cpctlCancel _ _ => false
  | .asyncDelivery => false
  | .preemption _ => false
  | .spill _ _ => false
  | .restore _ _ => false
  | .restoreDeadline _ _ => false
  | .launchEvict _ _ => false
  | .wavePlace _ _ => false
  | .dequeTake _ _ => false
  | .dequeOverflowMove _ => false
  | .continuationArrive _ => false
  | .loadExchange _ _ _ => false
  | .classWindow _ => false
  | .eventTake _ => false
  | .seventRead _ => false
  | .trunResume _ _ => false
  | .trunEndLaunch _ _ => false
  | .supervisorMemoryError _ _ _ => false
  | .mcstatusClear _ _ => false
  | .mccountClear _ => false
  | .fatalError _ _ _ _ => false
  | .linkResend _ _ _ _ => false
  | .selftestComplete _ _ => false
  | .txConflict _ => false
  | .txWake _ => false
  | .editAccept _ => false
  | .publicationStep _ => false
  | .taskRelease _ _ => false
  | .formulaPublish _ => false
  | .routerPacketArrive _ => false
  | .routerTimeout _ _ _ => false
  | .nsendDeliver _ => false
  | .matrixOpStart _ => false
  | .matrixBlockApply _ _ => false
  | .ringReserve _ => false
  | .ringCommit _ _ => false
  | .rcfgWrite _ _ => false
  | .rerrClear _ => false
  | .launch _ => false
  | .commit _ => false
  | .bind _ => false
  | .sheetnew _ => false
  | .cellnew _ => false
  | .sheetend _ => false
  | .sheetDestroy _ => false
  | .launchend _ => false
  | .fwopSelftest _ => false
  | .turnarm _ => false
  | .copy _ => false
  | .reduce _ => false
  | .nop _ => false
  | .completionWord _ => false
  | .launchComplete _ => false
  | .turnoutCount _ _ => false
  | .turnoutInsert _ => false
  | .turnoutDisarm _ => false
  | .chunkCommit _ => false
  | .sqMessageArrive _ _ _ => false
  | .intake _ => false
  | .outfallVersion _ => false
  | .reset => false
  | .bootgo => false
  | .lcreq _ => false
  | .attgo => false
  | .reportComplete => false
  | .ckctlGo _ => false
  | .ckctlRestore _ => false
  | .checkpointComplete _ _ => false
  | .deviceRegisterWrite _ _ => false
  | .remoteTimeout _ => false
  | .peerReset _ => false
  | .uetConnect _ _ => false
  | .wakeWithNoWrite _ => false
  | .hostDebuggerResume _ => false
  | _ => true

end Sys2Proof
end

