-- ==== Sys2Proof/Decode.lean ====
section
/-!
DEFINITION. Reading a 32-bit word (spec/01): its fields, the instruction it holds or the lowest reason code of
Table 1.20, for a core kind; and the encoder, written from the same tables.
-/

namespace Sys2Proof

/-! The fields of Table 1.1. -/

/-- M, the switch marker, bit 31 of every format (R14). -/
def fM (w : BitVec 32) : Bool := w.getLsbD 31
/-- OP, the major opcode, bits [6:0] of every format (R14). -/
def fOp (w : BitVec 32) : BitVec 7 := w.extractLsb' 0 7
def fFn (w : BitVec 32) : BitVec 6 := w.extractLsb' 25 6
def fB (w : BitVec 32) : BitVec 6 := w.extractLsb' 19 6
def fA (w : BitVec 32) : BitVec 6 := w.extractLsb' 13 6
def fD (w : BitVec 32) : BitVec 6 := w.extractLsb' 7 6
/-- IMM12 of format I. -/
def fImm12 (w : BitVec 32) : BitVec 12 := w.extractLsb' 19 12
/-- IMMH·64 + IMML of format S (R15). -/
def fImmS (w : BitVec 32) : BitVec 12 := w.extractLsb' 25 6 ++ w.extractLsb' 7 6
/-- IMM18 of format U and DISP18 of format J. -/
def fImm18 (w : BitVec 32) : BitVec 18 := w.extractLsb' 13 18
def kCond (w : BitVec 32) : BitVec 3 := w.extractLsb' 28 3
def kSk (w : BitVec 32) : BitVec 2 := w.extractLsb' 26 2
def kX (w : BitVec 32) : Bool := w.getLsbD 25
def bDisp (w : BitVec 32) : BitVec 15 := w.extractLsb' 16 15
def bA (w : BitVec 32) : BitVec 6 := w.extractLsb' 10 6
def bCond (w : BitVec 32) : BitVec 3 := w.extractLsb' 7 3
def cRow (w : BitVec 32) : BitVec 8 := w.extractLsb' 23 8
def cCol (w : BitVec 32) : BitVec 4 := w.extractLsb' 19 4

/-- The lowest reason code among the conditions that fail (R30). -/
def lowestReason (cs : List (Bool × Nat)) : Option Nat :=
  cs.foldl (fun r c => if c.1 then r else some (match r with | none => c.2 | some k => Nat.min k c.2)) none

/-- The word's instruction, once its own conditions and those on the fields it does not use hold. -/
def fin (pre : List (Bool × Nat)) (i : Instr) : Except Nat Instr :=
  match lowestReason (pre ++ i.conds) with
  | none => .ok i
  | some r => .error r

/-- The instruction that a word holds, whatever the core kind, or the lowest reason code of Table 1.20 other
than 3 (R28, R30). -/
def decodeFields (w : BitVec 32) : Except Nat Instr :=
  let m := fM w; let fn := fFn w; let b := fB w; let a := fA w; let d := fD w
  match (fOp w).toNat with
  | 0x01 =>
    match fn.toNat with
      | 0 => fin [] (.add m d a b)
      | 1 => fin [] (.sub m d a b)
      | 2 => fin [] (.and m d a b)
      | 3 => fin [] (.or m d a b)
      | 4 => fin [] (.xor m d a b)
      | 5 => fin [] (.shl m d a b)
      | 6 => fin [] (.shr m d a b)
      | 7 => fin [] (.sha m d a b)
      | 8 => fin [] (.min m d a b)
      | 9 => fin [] (.max m d a b)
      | 10 => fin [] (.minn m d a b)
      | 11 => fin [] (.maxn m d a b)
      | 12 => fin [] (.sel m d a b)
      | 13 => fin [(b == 41#6, 6)] (.clz m d a)
      | 14 => fin [(b == 41#6, 6)] (.popc m d a)
      | _ => .error 2
  | 0x02 =>
    match fn.toNat with
      | 0 => fin [] (.mul m d a b)
      | 1 => fin [] (.mulh m d a b)
      | 2 => fin [] (.mulhn m d a b)
      | 3 => fin [] (.div m d a b)
      | 4 => fin [] (.divn m d a b)
      | 5 => fin [] (.rem m d a b)
      | 6 => fin [] (.remn m d a b)
      | _ => .error 2
  | 0x03 =>
    let imm := fImm12 w; fin [] (.addi m d a imm)
  | 0x04 =>
    let imm := fImm12 w; fin [] (.andi m d a imm)
  | 0x05 =>
    let imm := fImm12 w; fin [] (.ori m d a imm)
  | 0x06 =>
    let imm := fImm12 w; fin [] (.xori m d a imm)
  | 0x07 =>
    match fn.toNat with
      | 0 => fin [] (.shli m d a b)
      | 1 => fin [] (.shri m d a b)
      | 2 => fin [] (.shai m d a b)
      | _ => .error 2
  | 0x08 =>
    let imm := fImm18 w; fin [] (.lih m d imm)
  | 0x09 =>
    let imm := fImm18 w; fin [] (.addpc m d imm)
  | 0x0A =>
    let imm := fImm12 w; fin [] (.bext m d a (imm.extractLsb' 6 6) (imm.extractLsb' 0 6))
  | 0x0B =>
    let imm := fImm12 w; fin [] (.bins m d a (imm.extractLsb' 6 6) (imm.extractLsb' 0 6))
  | 0x10 =>
    if d != 0#6 then .error 2 else if kX w then fin [] (.cmpi m (kCond w) (kSk w) a b) else fin [] (.cmp m (kCond w) (kSk w) a b)
  | 0x11 =>
    if fn.extractLsb' 4 2 != 0#2 then .error 2 else if fn.getLsbD 3 then fin [] (.seti m (fn.extractLsb' 0 3) d a b) else fin [] (.set m (fn.extractLsb' 0 3) d a b)
  | 0x12 =>
    fin [] (.br m (bCond w) (bA w) (bDisp w))
  | 0x13 =>
    let imm := fImm18 w; fin [(d == 41#6, 6)] (.j m imm)
  | 0x14 =>
    let imm := fImm18 w; fin [] (.call m d imm)
  | 0x15 =>
    let imm := fImm12 w; fin [] (.calli m d a imm)
  | 0x16 =>
    let imm := fImm18 w; fin [(d == 41#6, 6)] (.enter m imm)
  | 0x17 =>
    let imm := fImm18 w; fin [(d == 41#6, 6)] (.leave m imm)
  | 0x18 =>
    if fn.getLsbD 1 then .error 2 else
      match (fn.extractLsb' 2 4).toNat with
      | 0 => fin [] (.fadd m (fn.extractLsb' 0 1) d a b)
      | 1 => fin [] (.fsub m (fn.extractLsb' 0 1) d a b)
      | 2 => fin [] (.fmul m (fn.extractLsb' 0 1) d a b)
      | 3 => fin [] (.fdiv m (fn.extractLsb' 0 1) d a b)
      | 4 => fin [] (.fmin m (fn.extractLsb' 0 1) d a b)
      | 5 => fin [] (.fmax m (fn.extractLsb' 0 1) d a b)
      | 6 => fin [(b == 41#6, 6)] (.fsqrt m (fn.extractLsb' 0 1) d a)
      | 7 => fin [(b == 41#6, 6)] (.fclass m (fn.extractLsb' 0 1) d a)
      | 8 => fin [(b == 41#6, 6)] (.fmv m (fn.extractLsb' 0 1) d a)
      | _ => .error 2
  | 0x19 =>
    if fn.extractLsb' 1 5 != 0#5 then .error 2 else fin [] (.ffma m (fn.extractLsb' 0 1) d a b)
  | 0x1A =>
    fin [(b == 41#6, 6)] (.fcvt m (fn.extractLsb' 3 3) (fn.extractLsb' 0 3) d a)
  | 0x1B =>
    if d.extractLsb' 1 5 != 0#5 then .error 2 else fin [(!kX w, 6)] (.fcmp m (kCond w) (kSk w) (d.extractLsb' 0 1) a b)
  | 0x1C =>
    match fn.toNat with
      | 0 => fin [] (.tsum m d a b)
      | _ => .error 2
  | 0x20 =>
    let imm := fImm12 w; fin [] (.lds m d a (imm.extractLsb' 3 9) (imm.extractLsb' 0 3))
  | 0x21 =>
    let imm := fImmS w; fin [] (.sts m b a (imm.extractLsb' 3 9) (imm.extractLsb' 0 3))
  | 0x22 =>
    let imm := fImm12 w; fin [] (.ldg m d a (imm.extractLsb' 3 9) (imm.extractLsb' 0 3))
  | 0x23 =>
    let imm := fImmS w; fin [] (.stg m b a (imm.extractLsb' 3 9) (imm.extractLsb' 0 3))
  | 0x24 =>
    let imm := fImm12 w; fin [] (.ldsv m d a imm)
  | 0x25 =>
    let imm := fImmS w; fin [] (.stsv m b a imm)
  | 0x26 =>
    let imm := fImm12 w; fin [] (.ldgv m d a imm)
  | 0x27 =>
    let imm := fImmS w; fin [] (.stgv m b a imm)
  | 0x28 =>
    let imm := fImm12 w; fin [] (.ldc m d a imm)
  | 0x29 =>
    let imm := fImmS w; fin [] (.stp m b a imm)
  | 0x2A =>
    match fn.toNat with
      | 0 => fin [(b == 41#6, 6)] (.ldx m d a)
      | 1 => fin [] (.stx m d a b)
      | _ => .error 2
  | 0x2B =>
    match fn.toNat with
      | 0 => fin [(decide (a.toNat < 8), 6)] (.fence m d (a.extractLsb' 0 3) b)
      | 1 => fin [(decide (a.toNat < 8), 6)] (.fencex m d (a.extractLsb' 0 3) b)
      | _ => .error 2
  | 0x2C =>
    match (fn.extractLsb' 0 4).toNat with
      | 0 => fin [] (.atomAdd m (fn.extractLsb' 4 2) d a b)
      | 1 => fin [] (.atomAnd m (fn.extractLsb' 4 2) d a b)
      | 2 => fin [] (.atomOr m (fn.extractLsb' 4 2) d a b)
      | 3 => fin [] (.atomXor m (fn.extractLsb' 4 2) d a b)
      | 4 => fin [] (.atomMin m (fn.extractLsb' 4 2) d a b)
      | 5 => fin [] (.atomMax m (fn.extractLsb' 4 2) d a b)
      | 6 => fin [] (.atomMinn m (fn.extractLsb' 4 2) d a b)
      | 7 => fin [] (.atomMaxn m (fn.extractLsb' 4 2) d a b)
      | 8 => fin [] (.atomSwap m (fn.extractLsb' 4 2) d a b)
      | 9 => fin [] (.atomCas m (fn.extractLsb' 4 2) d a b)
      | 10 => fin [] (.atomFaddF64 m (fn.extractLsb' 4 2) d a b)
      | 11 => fin [] (.atomFaddF32 m (fn.extractLsb' 4 2) d a b)
      | _ => .error 2
  | 0x2D =>
    if fn.getLsbD 4 then .error 2 else
      match (fn.extractLsb' 0 4).toNat with
      | 0 => fin [(d == 41#6, 6)] (.atomnAdd m (fn.extractLsb' 5 1) a b)
      | 1 => fin [(d == 41#6, 6)] (.atomnAnd m (fn.extractLsb' 5 1) a b)
      | 2 => fin [(d == 41#6, 6)] (.atomnOr m (fn.extractLsb' 5 1) a b)
      | 3 => fin [(d == 41#6, 6)] (.atomnXor m (fn.extractLsb' 5 1) a b)
      | 4 => fin [(d == 41#6, 6)] (.atomnMin m (fn.extractLsb' 5 1) a b)
      | 5 => fin [(d == 41#6, 6)] (.atomnMax m (fn.extractLsb' 5 1) a b)
      | 6 => fin [(d == 41#6, 6)] (.atomnMinn m (fn.extractLsb' 5 1) a b)
      | 7 => fin [(d == 41#6, 6)] (.atomnMaxn m (fn.extractLsb' 5 1) a b)
      | 10 => fin [(d == 41#6, 6)] (.atomnFaddF64 m (fn.extractLsb' 5 1) a b)
      | 11 => fin [(d == 41#6, 6)] (.atomnFaddF32 m (fn.extractLsb' 5 1) a b)
      | _ => .error 2
  | 0x2E =>
    match (fn.extractLsb' 2 4).toNat with
      | 0 => fin [(b == 41#6, 6), (d == 41#6, 6)] (.redpReg m (fn.extractLsb' 0 2) a)
      | 1 => fin [(fn.extractLsb' 0 2 == 0#2, 5), (b == 41#6, 6), (d == 41#6, 6)] (.redpRel m a)
      | _ => .error 2
  | 0x2F =>
    let imm := fImm18 w; fin [(d == 41#6, 6)] (.txb m imm)
  | 0x30 =>
    match fn.toNat with
      | 0 => fin [(b == 41#6, 6), (a == 41#6, 6), (d == 41#6, 6)] (.txe m)
      | 1 => fin [(b == 41#6, 6), (d == 41#6, 6)] (.txa m a)
      | 2 => fin [(b == 41#6, 6), (a == 41#6, 6), (d == 41#6, 6)] (.retry m)
      | 3 => fin [(b == 41#6, 6), (a == 41#6, 6)] (.txst m d)
      | _ => .error 2
  | 0x31 =>
    let imm := fImm18 w; fin [(d == 41#6, 6)] (.oth m imm)
  | 0x32 =>
    match fn.toNat with
      | 0 => fin [(decide (b.toNat < 32), 6), (d == 41#6, 6)] (.sempost m (b.extractLsb' 0 5) a)
      | 1 => fin [(decide (b.toNat < 32), 6), (a == 41#6, 6)] (.semtry m d (b.extractLsb' 0 5))
      | _ => .error 2
  | 0x34 =>
    fin [(decide (b.toNat < 4), 6), (d == 41#6, 6)] (.cpset m (b.extractLsb' 0 2) fn a)
  | 0x35 =>
    let imm := fImm12 w; fin [(decide (d.toNat < 4), 6)] (.cpseti m (d.extractLsb' 0 2) a imm)
  | 0x36 =>
    fin [(decide (b.toNat < 4), 6), (a == 41#6, 6)] (.cpget m d (b.extractLsb' 0 2) fn)
  | 0x37 =>
    match fn.toNat with
      | 0 => fin [(decide (b.toNat < 4), 6), (a == 41#6, 6)] (.cplaunch m d (b.extractLsb' 0 2))
      | 1 => fin [(decide (b.toNat < 4), 6), (a == 41#6, 6)] (.cpstat m d (b.extractLsb' 0 2))
      | 2 => fin [(decide (b.toNat < 4), 6), (a == 41#6, 6), (d == 41#6, 6)] (.cpstop m (b.extractLsb' 0 2))
      | _ => .error 2
  | 0x38 =>
    match fn.toNat with
      | 0 => fin [(decide (b.toNat < 8), 6), (d == 41#6, 6)] (.lkcfg m (b.extractLsb' 0 3) a)
      | 1 => fin [(decide (b.toNat < 8), 6), (a == 41#6, 6), (d == 41#6, 6)] (.lkadv m (b.extractLsb' 0 3))
      | 2 => fin [(decide (b.toNat < 8), 6), (a == 41#6, 6)] (.lkpos m d (b.extractLsb' 0 3))
      | 3 => fin [(decide (b.toNat < 8), 6), (d == 41#6, 6)] (.lkjoin m (b.extractLsb' 0 3) a)
      | _ => .error 2
  | 0x3C =>
    fin [(fn.extractLsb' 2 2 == 0#2, 5)] (.vadd m (fn.extractLsb' 4 2) (fn.extractLsb' 0 2) d a b)
  | 0x3D =>
    fin [(fn.extractLsb' 2 2 == 0#2, 5)] (.vsub m (fn.extractLsb' 4 2) (fn.extractLsb' 0 2) d a b)
  | 0x3E =>
    fin [(fn.extractLsb' 2 2 == 0#2, 5)] (.vmul m (fn.extractLsb' 4 2) (fn.extractLsb' 0 2) d a b)
  | 0x3F =>
    fin [(fn.extractLsb' 2 2 == 0#2, 5)] (.vfma m (fn.extractLsb' 4 2) (fn.extractLsb' 0 2) d a b)
  | 0x40 =>
    fin [(fn.extractLsb' 2 2 == 0#2, 5)] (.vfms m (fn.extractLsb' 4 2) (fn.extractLsb' 0 2) d a b)
  | 0x41 =>
    fin [(fn.extractLsb' 2 2 == 0#2, 5)] (.vfnma m (fn.extractLsb' 4 2) (fn.extractLsb' 0 2) d a b)
  | 0x42 =>
    fin [(fn.extractLsb' 2 2 == 0#2, 5)] (.vdiv m (fn.extractLsb' 4 2) (fn.extractLsb' 0 2) d a b)
  | 0x43 =>
    match b.toNat with
      | 0 => fin [(fn.extractLsb' 2 2 == 0#2, 5)] (.vsqrt m (fn.extractLsb' 4 2) (fn.extractLsb' 0 2) d a)
      | 1 => fin [(fn.extractLsb' 2 2 == 0#2, 5)] (.vabs m (fn.extractLsb' 4 2) (fn.extractLsb' 0 2) d a)
      | 2 => fin [(fn.extractLsb' 2 2 == 0#2, 5)] (.vneg m (fn.extractLsb' 4 2) (fn.extractLsb' 0 2) d a)
      | 3 => fin [(fn.extractLsb' 2 2 == 0#2, 5)] (.vrcp m (fn.extractLsb' 4 2) (fn.extractLsb' 0 2) d a)
      | 4 => fin [(fn.extractLsb' 2 2 == 0#2, 5)] (.vrsq m (fn.extractLsb' 4 2) (fn.extractLsb' 0 2) d a)
      | 5 => fin [(fn.extractLsb' 2 2 == 0#2, 5)] (.vexp2 m (fn.extractLsb' 4 2) (fn.extractLsb' 0 2) d a)
      | _ => .error 2
  | 0x44 =>
    if fn.extractLsb' 4 2 != 0#2 then .error 2 else fin [(fn.extractLsb' 2 2 == 0#2, 5)] (.vmin m (fn.extractLsb' 0 2) d a b)
  | 0x45 =>
    if fn.extractLsb' 4 2 != 0#2 then .error 2 else fin [(fn.extractLsb' 2 2 == 0#2, 5)] (.vmax m (fn.extractLsb' 0 2) d a b)
  | 0x46 =>
    fin [] (.vcmp m (fn.extractLsb' 4 2) (fn.extractLsb' 0 4) d a b)
  | 0x47 =>
    if fn.extractLsb' 4 2 != 0#2 then .error 2 else fin [] (.vsel m (fn.extractLsb' 0 4) d a b)
  | 0x48 =>
    if fn.extractLsb' 4 2 != 0#2 then .error 2 else
      match b.toNat with
      | 0 => fin [(fn.extractLsb' 2 2 == 0#2, 5)] (.vredAdd m (fn.extractLsb' 0 2) d a)
      | 1 => fin [(fn.extractLsb' 2 2 == 0#2, 5)] (.vredMin m (fn.extractLsb' 0 2) d a)
      | 2 => fin [(fn.extractLsb' 2 2 == 0#2, 5)] (.vredMax m (fn.extractLsb' 0 2) d a)
      | 3 => fin [(fn.extractLsb' 0 4 == 1#4, 5)] (.vtsum m d a)
      | _ => .error 2
  | 0x49 =>
    if fn.extractLsb' 4 2 != 0#2 then .error 2 else fin [] (.vcvt m (b.extractLsb' 0 4) (fn.extractLsb' 0 4) (b.extractLsb' 4 2) d a)
  | 0x4A =>
    match fn.toNat with
      | 0 => fin [] (.vperm m d a b)
      | 1 => fin [] (.vshufZlo m d a b)
      | 2 => fin [] (.vshufZhi m d a b)
      | 3 => fin [] (.vshufEven m d a b)
      | 4 => fin [] (.vshufOdd m d a b)
      | _ => .error 2
  | 0x4B =>
    match (fn.extractLsb' 4 2).toNat with
      | 0 => fin [(b == 41#6, 6)] (.vbcast m (fn.extractLsb' 0 4) d a)
      | 1 => fin [(b == 41#6, 6)] (.vmov m (fn.extractLsb' 0 4) d a)
      | 2 => fin [] (.vext m (fn.extractLsb' 0 4) d a b)
      | _ => fin [] (.vextHigh m (fn.extractLsb' 0 4) d a b)
  | 0x4C =>
    match (fn.extractLsb' 4 2).toNat with
      | 0 => fin [(fn.getLsbD 3, 5)] (.viadd m (fn.extractLsb' 0 3) d a b)
      | 1 => fin [(fn.getLsbD 3, 5)] (.visub m (fn.extractLsb' 0 3) d a b)
      | 2 => fin [(fn.getLsbD 3, 5)] (.vimul m (fn.extractLsb' 0 3) d a b)
      | _ => .error 2
  | 0x4D =>
    match fn.toNat with
      | 0 => fin [] (.vand m d a b)
      | 1 => fin [] (.vor m d a b)
      | 2 => fin [] (.vxor m d a b)
      | _ => .error 2
  | 0x4E =>
    match (fn.extractLsb' 4 2).toNat with
      | 0 => fin [(fn.getLsbD 3, 5)] (.vshl m (fn.extractLsb' 0 3) d a b)
      | 1 => fin [(fn.getLsbD 3, 5)] (.vshr m (fn.extractLsb' 0 3) d a b)
      | _ => .error 2
  | 0x50 =>
    fin [(!fn.getLsbD 5, 6)] (.plane m (fn.extractLsb' 0 5) d a b)
  | 0x51 =>
    fin [(!fn.getLsbD 5, 6)] (.unplane m (fn.extractLsb' 0 5) d a b)
  | 0x52 =>
    if fn.extractLsb' 4 2 != 0#2 then .error 2 else fin [(fn.extractLsb' 2 2 == 0#2, 5), (b == 41#6, 6)] (.p2enc m (fn.extractLsb' 0 2) d a)
  | 0x53 =>
    if fn.extractLsb' 4 2 != 0#2 then .error 2 else fin [(fn.extractLsb' 2 2 == 0#2, 5), (b == 41#6, 6)] (.p2dec m (fn.extractLsb' 0 2) d a)
  | 0x54 =>
    if fn.extractLsb' 4 2 != 0#2 then .error 2 else fin [] (.bscale m (fn.extractLsb' 0 4) d a b)
  | 0x55 =>
    if fn.extractLsb' 4 2 != 0#2 then .error 2 else fin [(b == 41#6, 6)] (.srnd m (fn.extractLsb' 0 4) d a)
  | 0x58 =>
    match fn.toNat with
      | 0 => fin [(d == 41#6, 6)] (.mptrOpa m a b)
      | 1 => fin [(d == 41#6, 6)] (.mptrOpb m a b)
      | _ => .error 2
  | 0x59 =>
    match fn.toNat with
      | 0 => fin [(d == 41#6, 6)] (.msclOpa m a b)
      | 1 => fin [(d == 41#6, 6)] (.msclOpb m a b)
      | _ => .error 2
  | 0x5A =>
    match fn.toNat with
      | 0 => fin [(d == 41#6, 6)] (.mspar m a b)
      | _ => .error 2
  | 0x5B =>
    match fn.toNat with
      | 0 => fin [(decide (b.toNat < 8), 6), (a == 41#6, 6), (d == 41#6, 6)] (.mgang m (b.extractLsb' 0 3))
      | _ => .error 2
  | 0x5C =>
    match fn.toNat with
      | 0 => fin [(b == 41#6, 6), (a == 41#6, 6), (d == 41#6, 6)] (.mmul m)
      | _ => .error 2
  | 0x5D =>
    match fn.toNat with
      | 0 => fin [(b == 41#6, 6), (d == 41#6, 6)] (.mzero m a)
      | 1 => fin [(d == 41#6, 6)] (.mwr m a b)
      | _ => .error 2
  | 0x5E =>
    match fn.toNat with
      | 0 => fin [(b == 41#6, 6)] (.mrdhi m d a)
      | 1 => fin [(b == 41#6, 6)] (.mrdlo m d a)
      | 2 => fin [(b == 41#6, 6)] (.mrds m d a)
      | _ => .error 2
  | 0x60 =>
    match fn.toNat with
      | 0 => fin [(d == 41#6, 6)] (.cbind m a b)
      | _ => .error 2
  | 0x61 =>
    match fn.toNat with
      | 0 => fin [(b == 41#6, 6), (d == 41#6, 6)] (.cunbind m a)
      | _ => .error 2
  | 0x62 =>
    match fn.toNat with
      | 0 => fin [(b == 41#6, 6)] (.cwopen m d a)
      | _ => .error 2
  | 0x63 =>
    match fn.toNat with
      | 0 => fin [] (.ccommit m d a b)
      | _ => .error 2
  | 0x64 =>
    match fn.toNat with
      | 0 => fin [(b == 41#6, 6), (d == 41#6, 6)] (.cdone m a)
      | _ => .error 2
  | 0x65 =>
    match fn.toNat with
      | 0 => fin [(b == 41#6, 6)] (.cpin m d a)
      | 1 => fin [(d == 41#6, 6)] (.cunpin m a b)
      | _ => .error 2
  | 0x66 =>
    match fn.toNat with
      | 0 => fin [(b == 41#6, 6)] (.cgen m d a)
      | _ => .error 2
  | 0x67 =>
    match fn.toNat with
      | 0 => fin [(b == 41#6, 6)] (.cstat m d a)
      | _ => .error 2
  | 0x68 =>
    let imm := fImm18 w; fin [(d == 41#6, 6)] (.fork m imm)
  | 0x69 =>
    match fn.toNat with
      | 0 => fin [(b == 41#6, 6), (d == 41#6, 6)] (.join m a)
      | _ => .error 2
  | 0x6A =>
    fin [(d == 41#6, 6)] (.mig m (cRow w) (cCol w) a)
  | 0x6B =>
    match fn.toNat with
      | 0 => fin [(b == 41#6, 6), (d == 41#6, 6)] (.gang m a)
      | _ => .error 2
  | 0x6C =>
    match fn.toNat with
      | 0 => fin [(decide (b.toNat < 4), 6), (a == 41#6, 6), (d == 41#6, 6)] (.barTile m (b.extractLsb' 0 2))
      | 1 => fin [(decide (b.toNat < 8), 6), (a == 41#6, 6), (d == 41#6, 6)] (.barRow m (b.extractLsb' 0 3))
      | _ => .error 2
  | 0x6D =>
    match fn.toNat with
      | 0 => fin [(b == 41#6, 6), (a == 41#6, 6), (d == 41#6, 6)] (.exit m)
      | _ => .error 2
  | 0x6E =>
    match fn.toNat with
      | 0 => fin [(b == 41#6, 6), (a == 41#6, 6), (d == 41#6, 6)] (.yield m)
      | _ => .error 2
  | 0x70 =>
    if fn.extractLsb' 4 2 != 0#2 then .error 2 else fin [(d == 41#6, 6)] (.nred m (fn.extractLsb' 0 4) a b)
  | 0x71 =>
    match fn.toNat with
      | 0 => fin [(d == 41#6, 6)] (.nsend m a b)
      | _ => .error 2
  | 0x72 =>
    match fn.toNat with
      | 0 => fin [(b == 41#6, 6)] (.intk m d a)
      | _ => .error 2
  | 0x73 =>
    match fn.toNat with
      | 0 => fin [(b == 41#6, 6)] (.outf m d a)
      | _ => .error 2
  | 0x74 =>
    match fn.toNat with
      | 0 => fin [] (.rndcLo m d a b)
      | 1 => fin [] (.rndcHi m d a b)
      | _ => .error 2
  | 0x78 =>
    let imm := fImm18 w; fin [(d == 41#6, 6)] (.trap m imm)
  | 0x79 =>
    match fn.toNat with
      | 0 => fin [(b == 41#6, 6), (a == 41#6, 6), (d == 41#6, 6)] (.sret m)
      | _ => .error 2
  | 0x7A =>
    let imm := fImm12 w; fin [(a == 41#6, 6)] (.sysr m d imm)
  | 0x7B =>
    let imm := fImm12 w; fin [(d == 41#6, 6)] (.sysw m imm a)
  | 0x7C =>
    match fn.toNat with
      | 0 => fin [(b == 41#6, 6), (d == 41#6, 6)] (.tlbinvPage m a)
      | 1 => fin [(b == 41#6, 6), (d == 41#6, 6)] (.tlbinvAsid m a)
      | 2 => fin [(b == 41#6, 6), (a == 41#6, 6), (d == 41#6, 6)] (.tlbinvAll m)
      | _ => .error 2
  | 0x7D =>
    match fn.toNat with
      | 0 => fin [(b == 41#6, 6)] (.selftest m d a)
      | _ => .error 2
  | 0x7E =>
    let imm := fImm18 w; fin [(d == 41#6, 6)] (.brk m imm)
  | _ => .error 1

/-- The core kinds on which a major opcode is legal (R28, Tables 1.6 to 1.19). -/
def opLegal (op : BitVec 7) (k : Core) : Bool :=
  let n := op.toNat
  if decide (0x18 ≤ n ∧ n ≤ 0x1C) || decide (0x3C ≤ n ∧ n ≤ 0x45) || n == 0x48 || decide (0x58 ≤ n ∧ n ≤ 0x5E) then
    k == .a
  else if decide (0x24 ≤ n ∧ n ≤ 0x27) || n == 0x46 || n == 0x47 || decide (0x49 ≤ n ∧ n ≤ 0x4E) then k != .m
  else if decide (0x50 ≤ n ∧ n ≤ 0x55) then k == .c
  else if decide (0x34 ≤ n ∧ n ≤ 0x37) || decide (0x60 ≤ n ∧ n ≤ 0x63) || decide (0x70 ≤ n ∧ n ≤ 0x73) ||
      n == 0x79 || n == 0x7C || n == 0x7D then k == .m
  else true

/-- sysr or sysw of an LFSR on an M-core (spec/15 R303): illegal with reason 6. -/
def lfsrOnM (w : BitVec 32) (k : Core) : Bool :=
  k == .m && (fOp w == 0x7A#7 || fOp w == 0x7B#7) && decide (0x020 ≤ (fImm12 w).toNat ∧ (fImm12 w).toNat ≤ 0x03F)

/-- What a strand of core kind `k` finds in a word: its instruction, or the lowest reason code that applies
(R30). -/
def decodeFor (k : Core) (w : BitVec 32) : Except Nat Instr :=
  match decodeFields w with
  | .ok i => if !opLegal (fOp w) k then .error 3 else if lfsrOnM w k then .error 6 else .ok i
  | .error r =>
    if r ≤ 2 then .error r
    else if !opLegal (fOp w) k then .error 3
    else if lfsrOnM w k then .error (Nat.min r 6)
    else .error r

/-- The instruction that a table word holds: the table numbers a word's bits as the word itself does, and every
instruction is one 32-bit word, so a longer or shorter table word is read as its low 32 bits. -/
def decodeTableWord (nbits w : Nat) : Option Instr :=
  if nbits ≤ 32 then
    match decodeFields (BitVec.ofNat 32 w) with
    | .ok i => some i
    | .error _ => none
  else none

/-! The encoder (Table 1.1). -/

def encA (m : Bool) (fn b a d : BitVec 6) (op : BitVec 7) : BitVec 32 := BitVec.ofBool m ++ fn ++ b ++ a ++ d ++ op
def encI (m : Bool) (imm : BitVec 12) (a d : BitVec 6) (op : BitVec 7) : BitVec 32 := BitVec.ofBool m ++ imm ++ a ++ d ++ op
def encS (m : Bool) (imm : BitVec 12) (b a : BitVec 6) (op : BitVec 7) : BitVec 32 :=
  BitVec.ofBool m ++ imm.extractLsb' 6 6 ++ b ++ a ++ imm.extractLsb' 0 6 ++ op
def encK (m : Bool) (cond : BitVec 3) (sk : BitVec 2) (x : BitVec 1) (b a fn : BitVec 6) (op : BitVec 7) : BitVec 32 :=
  BitVec.ofBool m ++ cond ++ sk ++ x ++ b ++ a ++ fn ++ op
def encB (m : Bool) (disp : BitVec 15) (a : BitVec 6) (cond : BitVec 3) (op : BitVec 7) : BitVec 32 :=
  BitVec.ofBool m ++ disp ++ a ++ cond ++ op
/-- Formats J and U. -/
def encJ (m : Bool) (imm : BitVec 18) (d : BitVec 6) (op : BitVec 7) : BitVec 32 := BitVec.ofBool m ++ imm ++ d ++ op
def encC (m : Bool) (row : BitVec 8) (col : BitVec 4) (a d : BitVec 6) (op : BitVec 7) : BitVec 32 :=
  BitVec.ofBool m ++ row ++ col ++ a ++ d ++ op

/-- The word of an instruction; a step of another agent has none. -/
def encode : Instr → Option (BitVec 32)
  | .add m d a b => some (encA m 0#6 b a d 0x01#7)
  | .sub m d a b => some (encA m 1#6 b a d 0x01#7)
  | .and m d a b => some (encA m 2#6 b a d 0x01#7)
  | .or m d a b => some (encA m 3#6 b a d 0x01#7)
  | .xor m d a b => some (encA m 4#6 b a d 0x01#7)
  | .shl m d a b => some (encA m 5#6 b a d 0x01#7)
  | .shr m d a b => some (encA m 6#6 b a d 0x01#7)
  | .sha m d a b => some (encA m 7#6 b a d 0x01#7)
  | .min m d a b => some (encA m 8#6 b a d 0x01#7)
  | .max m d a b => some (encA m 9#6 b a d 0x01#7)
  | .minn m d a b => some (encA m 10#6 b a d 0x01#7)
  | .maxn m d a b => some (encA m 11#6 b a d 0x01#7)
  | .sel m d a b => some (encA m 12#6 b a d 0x01#7)
  | .clz m d a => some (encA m 13#6 41#6 a d 0x01#7)
  | .popc m d a => some (encA m 14#6 41#6 a d 0x01#7)
  | .mul m d a b => some (encA m 0#6 b a d 0x02#7)
  | .mulh m d a b => some (encA m 1#6 b a d 0x02#7)
  | .mulhn m d a b => some (encA m 2#6 b a d 0x02#7)
  | .div m d a b => some (encA m 3#6 b a d 0x02#7)
  | .divn m d a b => some (encA m 4#6 b a d 0x02#7)
  | .rem m d a b => some (encA m 5#6 b a d 0x02#7)
  | .remn m d a b => some (encA m 6#6 b a d 0x02#7)
  | .addi m d a imm => some (encI m imm a d 0x03#7)
  | .andi m d a imm => some (encI m imm a d 0x04#7)
  | .ori m d a imm => some (encI m imm a d 0x05#7)
  | .xori m d a imm => some (encI m imm a d 0x06#7)
  | .shli m d a sh => some (encA m 0#6 sh a d 0x07#7)
  | .shri m d a sh => some (encA m 1#6 sh a d 0x07#7)
  | .shai m d a sh => some (encA m 2#6 sh a d 0x07#7)
  | .lih m d imm => some (encJ m imm d 0x08#7)
  | .addpc m d imm => some (encJ m imm d 0x09#7)
  | .bext m d a pos len => some (encI m (pos ++ len) a d 0x0A#7)
  | .bins m d a pos len => some (encI m (pos ++ len) a d 0x0B#7)
  | .cmp m cond sk a b => some (encK m cond sk 0#1 b a 0#6 0x10#7)
  | .cmpi m cond sk a imm => some (encK m cond sk 1#1 imm a 0#6 0x10#7)
  | .set m cond d a b => some (encA m (0#3 ++ cond) b a d 0x11#7)
  | .seti m cond d a imm => some (encA m (1#3 ++ cond) imm a d 0x11#7)
  | .br m cond a disp => some (encB m disp a cond 0x12#7)
  | .j m disp => some (encJ m disp 41#6 0x13#7)
  | .call m d disp => some (encJ m disp d 0x14#7)
  | .calli m d a imm => some (encI m imm a d 0x15#7)
  | .enter m imm => some (encJ m imm 41#6 0x16#7)
  | .leave m imm => some (encJ m imm 41#6 0x17#7)
  | .fadd m ty d a b => some (encA m (0#4 ++ 0#1 ++ ty) b a d 0x18#7)
  | .fsub m ty d a b => some (encA m (1#4 ++ 0#1 ++ ty) b a d 0x18#7)
  | .fmul m ty d a b => some (encA m (2#4 ++ 0#1 ++ ty) b a d 0x18#7)
  | .fdiv m ty d a b => some (encA m (3#4 ++ 0#1 ++ ty) b a d 0x18#7)
  | .fmin m ty d a b => some (encA m (4#4 ++ 0#1 ++ ty) b a d 0x18#7)
  | .fmax m ty d a b => some (encA m (5#4 ++ 0#1 ++ ty) b a d 0x18#7)
  | .fsqrt m ty d a => some (encA m (6#4 ++ 0#1 ++ ty) 41#6 a d 0x18#7)
  | .fclass m ty d a => some (encA m (7#4 ++ 0#1 ++ ty) 41#6 a d 0x18#7)
  | .fmv m ty d a => some (encA m (8#4 ++ 0#1 ++ ty) 41#6 a d 0x18#7)
  | .ffma m ty d a b => some (encA m (0#5 ++ ty) b a d 0x19#7)
  | .fcvt m dt st d a => some (encA m (dt ++ st) 41#6 a d 0x1A#7)
  | .fcmp m cond sk ty a b => some (encK m cond sk 0#1 b a (0#5 ++ ty) 0x1B#7)
  | .tsum m d a b => some (encA m 0#6 b a d 0x1C#7)
  | .lds m d a off z => some (encI m (off ++ z) a d 0x20#7)
  | .sts m b a off z => some (encS m (off ++ z) b a 0x21#7)
  | .ldg m d a off z => some (encI m (off ++ z) a d 0x22#7)
  | .stg m b a off z => some (encS m (off ++ z) b a 0x23#7)
  | .ldsv m d a imm => some (encI m imm a d 0x24#7)
  | .stsv m b a imm => some (encS m imm b a 0x25#7)
  | .ldgv m d a imm => some (encI m imm a d 0x26#7)
  | .stgv m b a imm => some (encS m imm b a 0x27#7)
  | .ldc m d a imm => some (encI m imm a d 0x28#7)
  | .stp m b a imm => some (encS m imm b a 0x29#7)
  | .ldx m d a => some (encA m 0#6 41#6 a d 0x2A#7)
  | .stx m d a b => some (encA m 1#6 b a d 0x2A#7)
  | .fence m pred scope succ => some (encA m 0#6 succ (0#3 ++ scope) pred 0x2B#7)
  | .fencex m pred scope succ => some (encA m 1#6 succ (0#3 ++ scope) pred 0x2B#7)
  | .atomAdd m ord d a b => some (encA m (ord ++ 0#4) b a d 0x2C#7)
  | .atomAnd m ord d a b => some (encA m (ord ++ 1#4) b a d 0x2C#7)
  | .atomOr m ord d a b => some (encA m (ord ++ 2#4) b a d 0x2C#7)
  | .atomXor m ord d a b => some (encA m (ord ++ 3#4) b a d 0x2C#7)
  | .atomMin m ord d a b => some (encA m (ord ++ 4#4) b a d 0x2C#7)
  | .atomMax m ord d a b => some (encA m (ord ++ 5#4) b a d 0x2C#7)
  | .atomMinn m ord d a b => some (encA m (ord ++ 6#4) b a d 0x2C#7)
  | .atomMaxn m ord d a b => some (encA m (ord ++ 7#4) b a d 0x2C#7)
  | .atomSwap m ord d a b => some (encA m (ord ++ 8#4) b a d 0x2C#7)
  | .atomCas m ord d a b => some (encA m (ord ++ 9#4) b a d 0x2C#7)
  | .atomFaddF64 m ord d a b => some (encA m (ord ++ 10#4) b a d 0x2C#7)
  | .atomFaddF32 m ord d a b => some (encA m (ord ++ 11#4) b a d 0x2C#7)
  | .atomnAdd m rel a b => some (encA m (rel ++ 0#1 ++ 0#4) b a 41#6 0x2D#7)
  | .atomnAnd m rel a b => some (encA m (rel ++ 0#1 ++ 1#4) b a 41#6 0x2D#7)
  | .atomnOr m rel a b => some (encA m (rel ++ 0#1 ++ 2#4) b a 41#6 0x2D#7)
  | .atomnXor m rel a b => some (encA m (rel ++ 0#1 ++ 3#4) b a 41#6 0x2D#7)
  | .atomnMin m rel a b => some (encA m (rel ++ 0#1 ++ 4#4) b a 41#6 0x2D#7)
  | .atomnMax m rel a b => some (encA m (rel ++ 0#1 ++ 5#4) b a 41#6 0x2D#7)
  | .atomnMinn m rel a b => some (encA m (rel ++ 0#1 ++ 6#4) b a 41#6 0x2D#7)
  | .atomnMaxn m rel a b => some (encA m (rel ++ 0#1 ++ 7#4) b a 41#6 0x2D#7)
  | .atomnFaddF64 m rel a b => some (encA m (rel ++ 0#1 ++ 10#4) b a 41#6 0x2D#7)
  | .atomnFaddF32 m rel a b => some (encA m (rel ++ 0#1 ++ 11#4) b a 41#6 0x2D#7)
  | .redpReg m ty a => some (encA m (0#4 ++ ty) 41#6 a 41#6 0x2E#7)
  | .redpRel m a => some (encA m 4#6 41#6 a 41#6 0x2E#7)
  | .txb m disp => some (encJ m disp 41#6 0x2F#7)
  | .txe m => some (encA m 0#6 41#6 41#6 41#6 0x30#7)
  | .txa m a => some (encA m 1#6 41#6 a 41#6 0x30#7)
  | .retry m => some (encA m 2#6 41#6 41#6 41#6 0x30#7)
  | .txst m d => some (encA m 3#6 41#6 41#6 d 0x30#7)
  | .oth m disp => some (encJ m disp 41#6 0x31#7)
  | .sempost m k a => some (encA m 0#6 (0#1 ++ k) a 41#6 0x32#7)
  | .semtry m d k => some (encA m 1#6 (0#1 ++ k) 41#6 d 0x32#7)
  | .cpset m ch field a => some (encA m field (0#4 ++ ch) a 41#6 0x34#7)
  | .cpseti m ch field imm => some (encI m imm field (0#4 ++ ch) 0x35#7)
  | .cpget m d ch field => some (encA m field (0#4 ++ ch) 41#6 d 0x36#7)
  | .cplaunch m d ch => some (encA m 0#6 (0#4 ++ ch) 41#6 d 0x37#7)
  | .cpstat m d ch => some (encA m 1#6 (0#4 ++ ch) 41#6 d 0x37#7)
  | .cpstop m ch => some (encA m 2#6 (0#4 ++ ch) 41#6 41#6 0x37#7)
  | .lkcfg m ring a => some (encA m 0#6 (0#3 ++ ring) a 41#6 0x38#7)
  | .lkadv m ring => some (encA m 1#6 (0#3 ++ ring) 41#6 41#6 0x38#7)
  | .lkpos m d ring => some (encA m 2#6 (0#3 ++ ring) 41#6 d 0x38#7)
  | .lkjoin m ring a => some (encA m 3#6 (0#3 ++ ring) a 41#6 0x38#7)
  | .vadd m rnd t d a b => some (encA m (rnd ++ 0#2 ++ t) b a d 0x3C#7)
  | .vsub m rnd t d a b => some (encA m (rnd ++ 0#2 ++ t) b a d 0x3D#7)
  | .vmul m rnd t d a b => some (encA m (rnd ++ 0#2 ++ t) b a d 0x3E#7)
  | .vfma m rnd t d a b => some (encA m (rnd ++ 0#2 ++ t) b a d 0x3F#7)
  | .vfms m rnd t d a b => some (encA m (rnd ++ 0#2 ++ t) b a d 0x40#7)
  | .vfnma m rnd t d a b => some (encA m (rnd ++ 0#2 ++ t) b a d 0x41#7)
  | .vdiv m rnd t d a b => some (encA m (rnd ++ 0#2 ++ t) b a d 0x42#7)
  | .vsqrt m rnd t d a => some (encA m (rnd ++ 0#2 ++ t) 0#6 a d 0x43#7)
  | .vabs m rnd t d a => some (encA m (rnd ++ 0#2 ++ t) 1#6 a d 0x43#7)
  | .vneg m rnd t d a => some (encA m (rnd ++ 0#2 ++ t) 2#6 a d 0x43#7)
  | .vrcp m rnd t d a => some (encA m (rnd ++ 0#2 ++ t) 3#6 a d 0x43#7)
  | .vrsq m rnd t d a => some (encA m (rnd ++ 0#2 ++ t) 4#6 a d 0x43#7)
  | .vexp2 m rnd t d a => some (encA m (rnd ++ 0#2 ++ t) 5#6 a d 0x43#7)
  | .vmin m t d a b => some (encA m (0#4 ++ t) b a d 0x44#7)
  | .vmax m t d a b => some (encA m (0#4 ++ t) b a d 0x45#7)
  | .vcmp m cnd t d a b => some (encA m (cnd ++ t) b a d 0x46#7)
  | .vsel m t d a b => some (encA m (0#2 ++ t) b a d 0x47#7)
  | .vredAdd m t d a => some (encA m (0#4 ++ t) 0#6 a d 0x48#7)
  | .vredMin m t d a => some (encA m (0#4 ++ t) 1#6 a d 0x48#7)
  | .vredMax m t d a => some (encA m (0#4 ++ t) 2#6 a d 0x48#7)
  | .vtsum m d a => some (encA m 1#6 3#6 a d 0x48#7)
  | .vcvt m dt st rnd d a => some (encA m (0#2 ++ st) (rnd ++ dt) a d 0x49#7)
  | .vperm m d a b => some (encA m 0#6 b a d 0x4A#7)
  | .vshufZlo m d a b => some (encA m 1#6 b a d 0x4A#7)
  | .vshufZhi m d a b => some (encA m 2#6 b a d 0x4A#7)
  | .vshufEven m d a b => some (encA m 3#6 b a d 0x4A#7)
  | .vshufOdd m d a b => some (encA m 4#6 b a d 0x4A#7)
  | .vbcast m t d a => some (encA m (0#2 ++ t) 41#6 a d 0x4B#7)
  | .vmov m t d a => some (encA m (1#2 ++ t) 41#6 a d 0x4B#7)
  | .vext m t d a idx => some (encA m (2#2 ++ t) idx a d 0x4B#7)
  | .vextHigh m t d a idx => some (encA m (3#2 ++ t) idx a d 0x4B#7)
  | .viadd m t d a b => some (encA m (0#2 ++ 1#1 ++ t) b a d 0x4C#7)
  | .visub m t d a b => some (encA m (1#2 ++ 1#1 ++ t) b a d 0x4C#7)
  | .vimul m t d a b => some (encA m (2#2 ++ 1#1 ++ t) b a d 0x4C#7)
  | .vand m d a b => some (encA m 0#6 b a d 0x4D#7)
  | .vor m d a b => some (encA m 1#6 b a d 0x4D#7)
  | .vxor m d a b => some (encA m 2#6 b a d 0x4D#7)
  | .vshl m t d a b => some (encA m (0#2 ++ 1#1 ++ t) b a d 0x4E#7)
  | .vshr m t d a b => some (encA m (1#2 ++ 1#1 ++ t) b a d 0x4E#7)
  | .plane m pm1 d a b => some (encA m (0#1 ++ pm1) b a d 0x50#7)
  | .unplane m pm1 d a b => some (encA m (0#1 ++ pm1) b a d 0x51#7)
  | .p2enc m t d a => some (encA m (0#4 ++ t) 41#6 a d 0x52#7)
  | .p2dec m t d a => some (encA m (0#4 ++ t) 41#6 a d 0x53#7)
  | .bscale m t d a b => some (encA m (0#2 ++ t) b a d 0x54#7)
  | .srnd m t d a => some (encA m (0#2 ++ t) 41#6 a d 0x55#7)
  | .mptrOpa m a b => some (encA m 0#6 b a 41#6 0x58#7)
  | .mptrOpb m a b => some (encA m 1#6 b a 41#6 0x58#7)
  | .msclOpa m a b => some (encA m 0#6 b a 41#6 0x59#7)
  | .msclOpb m a b => some (encA m 1#6 b a 41#6 0x59#7)
  | .mspar m a b => some (encA m 0#6 b a 41#6 0x5A#7)
  | .mgang m k => some (encA m 0#6 (0#3 ++ k) 41#6 41#6 0x5B#7)
  | .mmul m => some (encA m 0#6 41#6 41#6 41#6 0x5C#7)
  | .mzero m a => some (encA m 0#6 41#6 a 41#6 0x5D#7)
  | .mwr m a b => some (encA m 1#6 b a 41#6 0x5D#7)
  | .mrdhi m d a => some (encA m 0#6 41#6 a d 0x5E#7)
  | .mrdlo m d a => some (encA m 1#6 41#6 a d 0x5E#7)
  | .mrds m d a => some (encA m 2#6 41#6 a d 0x5E#7)
  | .cbind m a b => some (encA m 0#6 b a 41#6 0x60#7)
  | .cunbind m a => some (encA m 0#6 41#6 a 41#6 0x61#7)
  | .cwopen m d a => some (encA m 0#6 41#6 a d 0x62#7)
  | .ccommit m d a b => some (encA m 0#6 b a d 0x63#7)
  | .cdone m a => some (encA m 0#6 41#6 a 41#6 0x64#7)
  | .cpin m d a => some (encA m 0#6 41#6 a d 0x65#7)
  | .cunpin m a b => some (encA m 1#6 b a 41#6 0x65#7)
  | .cgen m d a => some (encA m 0#6 41#6 a d 0x66#7)
  | .cstat m d a => some (encA m 0#6 41#6 a d 0x67#7)
  | .fork m disp => some (encJ m disp 41#6 0x68#7)
  | .join m a => some (encA m 0#6 41#6 a 41#6 0x69#7)
  | .mig m row col a => some (encC m row col a 41#6 0x6A#7)
  | .gang m a => some (encA m 0#6 41#6 a 41#6 0x6B#7)
  | .barTile m k => some (encA m 0#6 (0#4 ++ k) 41#6 41#6 0x6C#7)
  | .barRow m k => some (encA m 1#6 (0#3 ++ k) 41#6 41#6 0x6C#7)
  | .exit m => some (encA m 0#6 41#6 41#6 41#6 0x6D#7)
  | .yield m => some (encA m 0#6 41#6 41#6 41#6 0x6E#7)
  | .nred m t a b => some (encA m (0#2 ++ t) b a 41#6 0x70#7)
  | .nsend m a b => some (encA m 0#6 b a 41#6 0x71#7)
  | .intk m d a => some (encA m 0#6 41#6 a d 0x72#7)
  | .outf m d a => some (encA m 0#6 41#6 a d 0x73#7)
  | .rndcLo m d a b => some (encA m 0#6 b a d 0x74#7)
  | .rndcHi m d a b => some (encA m 1#6 b a d 0x74#7)
  | .trap m code => some (encJ m code 41#6 0x78#7)
  | .sret m => some (encA m 0#6 41#6 41#6 41#6 0x79#7)
  | .sysr m d num => some (encI m num 41#6 d 0x7A#7)
  | .sysw m num a => some (encI m num a 41#6 0x7B#7)
  | .tlbinvPage m a => some (encA m 0#6 41#6 a 41#6 0x7C#7)
  | .tlbinvAsid m a => some (encA m 1#6 41#6 a 41#6 0x7C#7)
  | .tlbinvAll m => some (encA m 2#6 41#6 41#6 41#6 0x7C#7)
  | .selftest m d a => some (encA m 0#6 41#6 a d 0x7D#7)
  | .brk m code => some (encJ m code 41#6 0x7E#7)
  | .annulledWord => none
  | .longResultReturn _ => none
  | .translationWalk _ => none
  | .globalAccessPerformed _ _ _ => none
  | .storeBufferDrain _ => none
  | .homeAtomic _ _ _ => none
  | .fullEmptyRetest _ _ _ => none
  | .patrolScrub _ _ => none
  | .tileWindowAccess _ _ => none
  | .transferStart _ _ => none
  | .copyElement _ _ _ _ _ => none
  | .transferComplete _ _ => none
  | .sendPacketAccept _ _ => none
  | .cpctlResume _ _ => none
  | .cpctlCancel _ _ => none
  | .asyncDelivery => none
  | .preemption _ => none
  | .spill _ _ => none
  | .restore _ _ => none
  | .restoreDeadline _ _ => none
  | .launchEvict _ _ => none
  | .wavePlace _ _ => none
  | .dequeTake _ _ => none
  | .dequeOverflowMove _ => none
  | .continuationArrive _ => none
  | .loadExchange _ _ _ => none
  | .classWindow _ => none
  | .eventTake _ => none
  | .seventRead _ => none
  | .trunResume _ _ => none
  | .trunEndLaunch _ _ => none
  | .supervisorMemoryError _ _ _ => none
  | .mcstatusClear _ _ => none
  | .mccountClear _ => none
  | .fatalError _ _ _ _ => none
  | .linkResend _ _ _ _ => none
  | .selftestComplete _ _ => none
  | .txConflict _ => none
  | .txWake _ => none
  | .editAccept _ => none
  | .publicationStep _ => none
  | .taskRelease _ _ => none
  | .formulaPublish _ => none
  | .routerPacketArrive _ => none
  | .routerTimeout _ _ _ => none
  | .nsendDeliver _ => none
  | .matrixOpStart _ => none
  | .matrixBlockApply _ _ => none
  | .ringReserve _ => none
  | .ringCommit _ _ => none
  | .rcfgWrite _ _ => none
  | .rerrClear _ => none
  | .launch _ => none
  | .commit _ => none
  | .bind _ => none
  | .sheetnew _ => none
  | .cellnew _ => none
  | .sheetend _ => none
  | .sheetDestroy _ => none
  | .launchend _ => none
  | .fwopSelftest _ => none
  | .turnarm _ => none
  | .copy _ => none
  | .reduce _ => none
  | .nop _ => none
  | .completionWord _ => none
  | .launchComplete _ => none
  | .turnoutCount _ _ => none
  | .turnoutInsert _ => none
  | .turnoutDisarm _ => none
  | .chunkCommit _ => none
  | .sqMessageArrive _ _ _ => none
  | .intake _ => none
  | .outfallVersion _ => none
  | .reset => none
  | .bootgo => none
  | .lcreq _ => none
  | .attgo => none
  | .reportComplete => none
  | .ckctlGo _ => none
  | .ckctlRestore _ => none
  | .checkpointComplete _ _ => none
  | .deviceRegisterWrite _ _ => none
  | .remoteTimeout _ => none
  | .peerReset _ => none
  | .uetConnect _ _ => none
  | .wakeWithNoWrite _ => none
  | .hostDebuggerResume _ => none

end Sys2Proof
end

