-- ==== Sys2Proof/Machine/Flags.lean ====
section
/-!
DEFINITION. Number formats, rounding and floating-point flags (spec/07 R131 to R142, spec/06 R119 to R124, spec/00 R11): exact
values, one rounding for every unit, the five FCTL flags, comparisons and conditions.
-/

namespace Sys2Proof.Machine

/-! ## Formats (Tables 7.1, 7.2) -/

inductive Fmt
  | f64 | f32 | bf16 | f16 | e4m3 | e5m2
  deriving DecidableEq, Repr

def Fmt.expBits : Fmt → Nat
  | .f64 => 11 | .f32 => 8 | .bf16 => 8 | .f16 => 5 | .e4m3 => 4 | .e5m2 => 5

def Fmt.fracBits : Fmt → Nat
  | .f64 => 52 | .f32 => 23 | .bf16 => 7 | .f16 => 10 | .e4m3 => 3 | .e5m2 => 2

def Fmt.bias : Fmt → Nat
  | .f64 => 1023 | .f32 => 127 | .bf16 => 127 | .f16 => 15 | .e4m3 => 7 | .e5m2 => 15

def Fmt.bytes : Fmt → Nat
  | .f64 => 8 | .f32 => 4 | .bf16 => 2 | .f16 => 2 | .e4m3 => 1 | .e5m2 => 1

/-- PREC and EMIN of Table 7.1. -/
def Fmt.prec (f : Fmt) : Nat := f.fracBits + 1
def Fmt.emin (f : Fmt) : Int := 1 - (f.bias : Int)

def Fmt.signBit (f : Fmt) : Nat := 2 ^ (f.expBits + f.fracBits)

/-- The canonical quiet NaN (Table 7.2). -/
def Fmt.nan : Fmt → Nat
  | .f64 => 0x7FF8000000000000 | .f32 => 0x7FC00000 | .bf16 => 0x7FC0 | .f16 => 0x7E00 | .e4m3 => 0x7F | .e5m2 => 0x7E

/-- +infinity; E4M3 has none, and a result there is its largest value (Table 7.4). -/
def Fmt.inf : Fmt → Nat
  | .f64 => 0x7FF0000000000000 | .f32 => 0x7F800000 | .bf16 => 0x7F80 | .f16 => 0x7C00 | .e4m3 => 0x7E | .e5m2 => 0x7C

/-- The largest finite value (Table 7.2). -/
def Fmt.largest : Fmt → Nat
  | .f64 => 0x7FEFFFFFFFFFFFFF | .f32 => 0x7F7FFFFF | .bf16 => 0x7F7F | .f16 => 0x7BFF | .e4m3 => 0x7E | .e5m2 => 0x7B

def Fmt.withSign (f : Fmt) (neg : Bool) (mag : Nat) : Nat := if neg then f.signBit + mag else mag

/-! ## Values -/

/-- What bits denote: a NaN, signalling or not; an infinity; or (-1)^neg · m · 2^e. -/
inductive FVal
  | nan (sig : Bool)
  | inf (neg : Bool)
  | fin (neg : Bool) (m : Nat) (e : Int)
  deriving DecidableEq, Repr

/-- Reading a format (R131, R132). -/
def Fmt.read (f : Fmt) (bits : Nat) : FVal :=
  let frac := bits % 2 ^ f.fracBits
  let ex := bits / 2 ^ f.fracBits % 2 ^ f.expBits
  let neg := bits / f.signBit % 2 = 1
  let top := 2 ^ f.expBits - 1
  if ex = 0 then .fin neg frac (1 - (f.bias : Int) - f.fracBits)
  else if ex = top && (match f with | .e4m3 => frac = 7 | _ => true) then
    (match f with
      | .e4m3 => .nan false
      | _ => if frac = 0 then .inf neg else .nan (decide (frac < 2 ^ (f.fracBits - 1))))
  else .fin neg (2 ^ f.fracBits + frac) ((ex : Int) - f.bias - f.fracBits)

/-! ## Rounding (R134, R135) -/

/-- The rounding modes of Table 7.3; RS with the lane's word. -/
inductive RMode
  | rne | rz | ru | rd | rs (r : BitVec 32)
  deriving DecidableEq, Repr

/-- The flags of FCTL bits [12:8] (Table 6.5), bit 0 NV. -/
abbrev FFlags := BitVec 5
def fNV : FFlags := 1
def fDZ : FFlags := 2
def fOF : FFlags := 4
def fUF : FFlags := 8
def fNX : FFlags := 16

/-- Whether q goes up by one: the part below q is rem / 2^k, and something more when sticky. -/
def RMode.up (md : RMode) (neg : Bool) (q rem k : Nat) (sticky : Bool) : Bool :=
  let half := 2 ^ k / 2
  let inexact := rem != 0 || sticky
  match md with
  | .rne => if k = 0 then false else decide (half < rem) || (rem = half && (sticky || q % 2 = 1))
  | .rz => false
  | .ru => inexact && !neg
  | .rd => inexact && neg
  | .rs r => inexact && decide (2 ^ 32 ≤ rem * 2 ^ 32 / 2 ^ k + r.toNat)

/-- A magnitude m · 2^e in units of 2^u: the quotient, the rest and its width. -/
def scaleTo (m : Nat) (e u : Int) : Nat × Nat × Nat :=
  if u ≤ e then (m * 2 ^ (e - u).toNat, 0, 0)
  else
    let k := (u - e).toNat
    (m / 2 ^ k, m % 2 ^ k, k)

/-- rnd of R134 for a finite nonzero x = (-1)^neg · (m · 2^e + something below, when sticky), with the flags it sets. When
sticky, m must have more bits than any format and RS need: every caller gives at least 100. -/
def Fmt.round (f : Fmt) (md : RMode) (neg : Bool) (m : Nat) (e : Int) (sticky : Bool) : Nat × FFlags :=
  if m = 0 then (f.withSign neg 0, 0)
  else
    let lg : Int := e + Nat.log2 m
    let ex := max lg f.emin
    let u := ex - f.prec + 1
    let (q, rem, k) := scaleTo m e u
    let inexact := rem != 0 || sticky
    let q := if md.up neg q rem k sticky then q + 1 else q
    let (q, ex) := if q = 2 ^ f.prec then (2 ^ (f.prec - 1), ex + 1) else (q, ex)
    let mag : Nat := if q < 2 ^ (f.prec - 1) then q else ((ex + f.bias).toNat) * 2 ^ f.fracBits + (q - 2 ^ (f.prec - 1))
    let nx := if inexact then fNX else 0
    if f.largest < mag then
      let r := match f with
        | .e4m3 => f.largest
        | .e5m2 => f.largest
        | _ => match md with
          | .rne => f.inf
          | .rs _ => f.inf
          | .rz => f.largest
          | .ru => if neg then f.largest else f.inf
          | .rd => if neg then f.inf else f.largest
      (f.withSign neg r, fOF ||| fNX)
    else
      let tiny := decide (lg < f.emin) && !(lg = f.emin - 1 &&
        (let (q2, rem2, k2) := scaleTo m e (lg - f.prec + 1)
         q2 + (if md.up neg q2 rem2 k2 sticky then 1 else 0) = 2 ^ f.prec))
      (f.withSign neg mag, nx ||| (if tiny && inexact then fUF else 0))

/-- A value written in a format (R134): NaN canonical, infinities by Table 7.4. -/
def Fmt.write (f : Fmt) (md : RMode) : FVal → Nat × FFlags
  | .nan sig => (f.nan, if sig then fNV else 0)
  | .inf neg => (f.withSign neg f.inf, 0)
  | .fin neg m e => f.round md neg m e false

/-! ## Exact sums and products -/

def FVal.isNan : FVal → Bool
  | .nan _ => true
  | _ => false
def FVal.isSig : FVal → Bool
  | .nan s => s
  | _ => false
def FVal.neg : FVal → FVal
  | .nan s => .nan s
  | .inf n => .inf (!n)
  | .fin n m e => .fin (!n) m e
def FVal.abs : FVal → FVal
  | .nan s => .nan s
  | .inf _ => .inf false
  | .fin _ m e => .fin false m e

/-- A signed integer multiple of 2^e. -/
def signedAt (neg : Bool) (m : Nat) (e base : Int) : Int :=
  let v : Int := (m * 2 ^ (e - base).toNat : Nat)
  if neg then -v else v

/-- The exact sum of two finite values as a value; an exact zero takes the sign of R134. -/
def finSum (md : RMode) (n1 : Bool) (m1 : Nat) (e1 : Int) (n2 : Bool) (m2 : Nat) (e2 : Int) : FVal :=
  let base := min e1 e2
  let v := signedAt n1 m1 e1 base + signedAt n2 m2 e2 base
  if v = 0 then
    if m1 = 0 && m2 = 0 && n1 = n2 then .fin n1 0 base
    else .fin (match md with | .rd => true | _ => false) 0 base
  else .fin (decide (v < 0)) v.natAbs base

/-- a + b exactly, and NV where it is invalid. -/
def FVal.add (md : RMode) (a b : FVal) : FVal × FFlags :=
  let nv := if a.isSig || b.isSig then fNV else 0
  match a, b with
  | .nan _, _ => (.nan false, nv)
  | _, .nan _ => (.nan false, nv)
  | .inf x, .inf y => if x = y then (.inf x, 0) else (.nan false, fNV)
  | .inf x, _ => (.inf x, 0)
  | _, .inf y => (.inf y, 0)
  | .fin n1 m1 e1, .fin n2 m2 e2 => (finSum md n1 m1 e1 n2 m2 e2, 0)

/-- a · b exactly, and NV where it is invalid. -/
def FVal.mul (a b : FVal) : FVal × FFlags :=
  let nv := if a.isSig || b.isSig then fNV else 0
  match a, b with
  | .nan _, _ => (.nan false, nv)
  | _, .nan _ => (.nan false, nv)
  | .inf x, .inf y => (.inf (x != y), 0)
  | .inf x, .fin n m _ => if m = 0 then (.nan false, fNV) else (.inf (x != n), 0)
  | .fin n m _, .inf y => if m = 0 then (.nan false, fNV) else (.inf (n != y), 0)
  | .fin n1 m1 e1, .fin n2 m2 e2 => (.fin (n1 != n2) (m1 * m2) (e1 + e2), 0)

/-- A result and its flags, rounded once. -/
def Fmt.finish (f : Fmt) (md : RMode) (r : FVal × FFlags) : Nat × FFlags :=
  let w := f.write md r.1
  (w.1, w.2 ||| r.2)

def Fmt.add (f : Fmt) (md : RMode) (a b : Nat) : Nat × FFlags := f.finish md ((f.read a).add md (f.read b))
def Fmt.sub (f : Fmt) (md : RMode) (a b : Nat) : Nat × FFlags := f.finish md ((f.read a).add md (f.read b).neg)
def Fmt.mul (f : Fmt) (md : RMode) (a b : Nat) : Nat × FFlags := f.finish md ((f.read a).mul (f.read b))

/-- x·y + z with one rounding (R122): NV for 0·∞ whatever z is, for ∞ - ∞ and for a signalling NaN. -/
def FVal.fma (md : RMode) (x y z : FVal) : FVal × FFlags :=
  let p := x.mul y
  let s := p.1.add md z
  (s.1, s.2 ||| p.2)

def Fmt.fma (f : Fmt) (md : RMode) (x y z : FVal) : Nat × FFlags := f.finish md (FVal.fma md x y z)

/-- A quotient of magnitudes with at least 128 significant bits, and whether something is left. -/
def quotient (m1 m2 : Nat) : Nat × Nat × Bool :=
  let k := Nat.log2 m2 + 130
  (m1 * 2 ^ k / m2, k, m1 * 2 ^ k % m2 != 0)

def Fmt.div (f : Fmt) (md : RMode) (x y : FVal) : Nat × FFlags :=
  let nv := if x.isSig || y.isSig then fNV else 0
  match x, y with
  | .nan _, _ => (f.nan, nv)
  | _, .nan _ => (f.nan, nv)
  | .inf _, .inf _ => (f.nan, fNV)
  | .inf a, .fin b _ _ => (f.withSign (a != b) f.inf, 0)
  | .fin a _ _, .inf b => (f.withSign (a != b) 0, 0)
  | .fin a m1 e1, .fin b m2 e2 =>
    if m2 = 0 then (if m1 = 0 then (f.nan, fNV) else (f.withSign (a != b) f.inf, fDZ))
    else if m1 = 0 then (f.withSign (a != b) 0, 0)
    else
      let (q, k, st) := quotient m1 m2
      f.round md (a != b) q (e1 - e2 - k) st

/-- The integer square root, bit by bit from bit k - 1 down. -/
def isqrtFrom (n : Nat) : Nat → Nat → Nat
  | 0, r => r
  | k + 1, r => isqrtFrom n k (if (r + 2 ^ k) * (r + 2 ^ k) ≤ n then r + 2 ^ k else r)

def isqrt (n : Nat) : Nat := isqrtFrom n (Nat.log2 n / 2 + 1) 0

/-- √(m · 2^e) with at least 100 significant bits: the root, its exponent, whether something is left. -/
def rootOf (m : Nat) (e : Int) : Nat × Int × Bool :=
  let k : Nat := 200 + (if e % 2 = 0 then 0 else 1)
  let n := m * 2 ^ k
  let r := isqrt n
  (r, (e - (k : Int)) / 2, r * r != n)

def Fmt.sqrt (f : Fmt) (md : RMode) (x : FVal) : Nat × FFlags :=
  match x with
  | .nan s => (f.nan, if s then fNV else 0)
  | .inf true => (f.nan, fNV)
  | .inf false => (f.inf, 0)
  | .fin n m e =>
    if m = 0 then (f.withSign n 0, 0)
    else if n then (f.nan, fNV)
    else
      let (r, e', st) := rootOf m e
      f.round md false r e' st

/-! ## Comparison (Table 1.3, R121, R124) -/

/-- a < b for values that are no NaN; -0 equals +0. -/
def FVal.lt (a b : FVal) : Bool :=
  match a, b with
  | .inf x, .inf y => x && !y
  | .inf x, _ => x
  | _, .inf y => !y
  | .fin n1 m1 e1, .fin n2 m2 e2 => decide (signedAt n1 m1 e1 (min e1 e2) < signedAt n2 m2 e2 (min e1 e2))
  | _, _ => false

def FVal.eqv (a b : FVal) : Bool := !a.isNan && !b.isNan && !a.lt b && !b.lt a

def FVal.isNeg : FVal → Bool
  | .nan _ => false
  | .inf n => n
  | .fin n _ _ => n

/-- minimumNumber and maximumNumber (Table 6.6), on bits: -0 counts below +0, one NaN yields the other operand. -/
def Fmt.minmax (f : Fmt) (wantMax : Bool) (a b : Nat) : Nat × FFlags :=
  let x := f.read a
  let y := f.read b
  let nv := if x.isSig || y.isSig then fNV else 0
  match x, y with
  | .nan _, .nan _ => (f.nan, nv)
  | .nan _, _ => (b, nv)
  | _, .nan _ => (a, nv)
  | _, _ =>
    let aLess := x.lt y || (x.eqv y && x.isNeg && !y.isNeg)
    (if aLess != wantMax then a else b, nv)

/-- The integer conditions of Table 1.3. -/
def intCond (c : BitVec 3) (a b : BitVec 64) : Bool :=
  match c.toNat with
  | 0 => a == b
  | 1 => a != b
  | 2 => a.slt b
  | 3 => !a.slt b
  | 4 => a.ult b
  | _ => !a.ult b

/-- The floating-point conditions of Table 1.3 with the flags of R124. -/
def fpCond (c : BitVec 3) (a b : FVal) : Bool × FFlags :=
  let un := a.isNan || b.isNan
  let sig := if a.isSig || b.isSig then fNV else 0
  match c.toNat with
  | 0 => (a.eqv b, sig)
  | 1 => (!a.eqv b, sig)
  | 2 => (!un && a.lt b, if un then fNV else 0)
  | 3 => (!un && !a.lt b, if un then fNV else 0)
  | 4 => (un, sig)
  | _ => (!un, sig)

/-- The one-hot class code of fclass (Table 6.6). -/
def Fmt.classOf (f : Fmt) (bits : Nat) : Nat :=
  match f.read bits with
  | .inf true => 1
  | .inf false => 128
  | .nan true => 256
  | .nan false => 512
  | .fin n m _ =>
    if m = 0 then (if n then 8 else 16)
    else if m < 2 ^ f.fracBits then (if n then 4 else 32)
    else (if n then 2 else 64)

/-! ## twosum (R11) and accadd (R140) -/

def f32add (a b : Nat) : Nat := (Fmt.f32.add .rne a b).1
def f32sub (a b : Nat) : Nat := (Fmt.f32.sub .rne a b).1

/-- twosum(a, b) in the sequence of R11. -/
def twosum (a b : Nat) : Nat × Nat :=
  let s := f32add a b
  let ap := f32sub s b
  let bp := f32sub s ap
  let da := f32sub a ap
  let db := f32sub b bp
  let e := f32add da db
  match Fmt.f32.read s with
  | .fin _ _ _ => (s, e)
  | _ => (s, 0)

/-- The node of R142 and the tail of R140: two pairs added. -/
def pairAdd (h1 l1 h2 l2 : Nat) : Nat × Nat :=
  let (s, e) := twosum h1 h2
  let t := f32add e (f32add l1 l2)
  twosum s t

/-- accadd(H, L, I, σ) of R140. -/
def accadd (h l : Nat) (i sigma : Int) : Nat × Nat :=
  let rneInt := fun (v : Int) => (Fmt.f32.round .rne (decide (v < 0)) v.natAbs 0 false).1
  let scale := fun (b : Nat) => match Fmt.f32.read b with
    | .fin n m e => (Fmt.f32.round .rne n m (e + sigma) false).1
    | _ => b
  let bh := rneInt i
  let bl := match Fmt.f32.read bh with
    | .fin n m e => let v := signedAt n m e (min e 0); (rneInt (i - v / 2 ^ (0 - min e 0).toNat))
    | _ => 0
  pairAdd h l (scale bh) (scale bl)

/-! ## Integers (R134) -/

/-- An integer type: its width and whether it is signed. -/
structure IntTy where
  bits : Nat
  signed : Bool
  deriving DecidableEq, Repr

def IntTy.low (t : IntTy) : Int := if t.signed then -(2 ^ (t.bits - 1) : Nat) else 0
def IntTy.high (t : IntTy) : Int := if t.signed then (2 ^ (t.bits - 1) : Nat) - 1 else (2 ^ t.bits : Nat) - 1

/-- The bits of an integer in a width. -/
def IntTy.wrap (t : IntTy) (v : Int) : Nat := (v % (2 ^ t.bits : Nat)).toNat

/-- The value of bits. -/
def IntTy.read (t : IntTy) (b : Nat) : Int :=
  let b := b % 2 ^ t.bits
  if t.signed && decide (2 ^ (t.bits - 1) ≤ b) then (b : Int) - (2 ^ t.bits : Nat) else b

/-- A value converted to an integer type (R123, R134): NaN gives 0 with NV; outside the range the nearest bound with NV alone. -/
def IntTy.fromVal (t : IntTy) (md : RMode) : FVal → Nat × FFlags
  | .nan _ => (0, fNV)
  | .inf n => (t.wrap (if n then t.low else t.high), fNV)
  | .fin n m e =>
    let (q, rem, k) := scaleTo m e 0
    let q := if md.up n q rem k false then q + 1 else q
    let v : Int := if n then -(q : Int) else q
    if v < t.low then (t.wrap t.low, fNV)
    else if t.high < v then (t.wrap t.high, fNV)
    else (t.wrap v, if rem != 0 then fNX else 0)

/-- An integer as an exact value. -/
def valOfInt (v : Int) : FVal := .fin (decide (v < 0)) v.natAbs 0

/-! ## Philox and the LFSRs -/

/-- lfsr_next of R136. -/
def lfsrNext (s : BitVec 32) : BitVec 32 := if s.getLsbD 0 then (s >>> 1) ^^^ 0x80200003#32 else s >>> 1

end Sys2Proof.Machine
end

