-- ==== Sys2Proof/Config.lean ====
section
/-!
DEFINITION. What the spec leaves to an implementation or leaves open: the free values and the uninterpreted
functions of the security block. None of them has a body that a proof could use.
-/

namespace Sys2Proof

/-- The n-th free value: a word that the spec leaves open. State.freeCount says which n comes next (log 8). -/
opaque Config.freeWord : Nat → BitVec 64

/-- The Stavlink port by which accesses to a device leave (spec/17 R355; log 8). -/
opaque Config.portOf : Nat → Nat

/-- The number that a signature's private scalar is taken from, as a function of the key bytes that HKDF-SHA-384 derives (spec/17 R351;
log 12). -/
opaque Config.scalarOf : List (BitVec 8) → Nat

/-- The random number of the n-th signature that the security block makes (spec/17 R352; log 12). -/
opaque Config.signNonce : Nat → Nat

/-- The declarations that the bytes of a kernel header give, as numbers in the order of the fields of Header, with the sheet's as four: 1 and its
three numbers, or 0; none where they are no header. The spec leaves a header's layout open (spec/02 R38; log 7). -/
opaque Config.headerWords : List (BitVec 8) → Option (List Nat)

/-- The instruction word at a place of the supervisor's code store, once the store has been loaded from an image. The
spec leaves the layout of an image's code open, so this is a function of the image (spec/17 R350; log 6). -/
opaque Config.imageCode : List (BitVec 8) → Nat → BitVec 32

/-- The place in protected HBM of a Cell Table entry or a sheet line, which the firmware chooses (spec/03 R50; log 11). -/
opaque Config.tableLine : Nat → Nat → BitVec 56

/-- The dispatch entry of an image, a multiple of 4 when shifted (spec/17 R350; log 6). -/
opaque Config.imageEntry : List (BitVec 8) → BitVec 62

end Sys2Proof
end

