-- ==== Sys2Proof/Machine/State.lean ====
section
/-!
DEFINITION. The state of one Foaskio device as plain data, what a step can stop with, and the machine right after reset.
Each field names the rule of spec/ that gives it. "log n" is notes/assumptions/n.md.
-/

namespace Sys2Proof.Machine

/-! ## Places and accesses -/

/-- A byte of the domain: the device that holds it (0xFFF for this device, R48) and its local address there (R46). -/
structure Loc where
  dev : Nat
  addr : Nat
  deriving DecidableEq, Repr

/-- The device number that always names this device (R48). -/
def thisDev : Nat := 0xFFF

/-- The kind of an access for translation (Table 3.6). -/
inductive AccKind
  | read | write | rw | fetch
  deriving DecidableEq, Repr

/-- The operation of an atom or atomn (Table 11.1). -/
inductive AtomOp
  | add | and | or | xor | min | max | minn | maxn | swap | cas | fadd64 | fadd32
  deriving DecidableEq, Repr

/-- What a global access in flight does where it is performed (R188). -/
inductive FlightOp
  /-- ldg: n bytes, sign-extended or not (R64). -/
  | load (n : Nat) (signed : Bool)
  /-- A line of an ldgv (R61, R64): the lower, or the upper, which carries the result of both. -/
  | loadV (upper : Bool)
  /-- stg, or one line of an stgv: the bytes (R65). -/
  | store (bytes : List Byte)
  /-- atom: operation, operand, comparand (R208). -/
  | atom (op : AtomOp) (b cmp : Word)
  /-- atomn (R209). -/
  | atomn (op : AtomOp) (b : Word)
  /-- ldc; inside a transaction it only reads (R214, R215). -/
  | ldc
  /-- stp (R214). -/
  | stp (v : Word)
  /-- stp inside a transaction: the test alone (R215). -/
  | stpTest
  | ldx
  | stx (v : Word)
  | redpReg (ty : Nat)
  | redpRel
  /-- join: an atom.add of -1 with acquire and release (R250). -/
  | joinDec
  /-- A read of RESV of command ring n, which reserves a ticket (R283). -/
  | resv (n : Nat)
  /-- An ldc or stp of a transaction that found its bit wrong: it acts as a retry when the answer returns (R215). -/
  | wrongBit
  /-- A result that another unit produces: the matrix engine, the sluice, an intake or outfall engine (Table 1.21). -/
  | result
  deriving DecidableEq, Repr

/-- The register that a long result goes to (R108): a specifier in the vector or the scalar role; z and zv mark nothing. -/
structure Dest where
  vec : Bool
  spec : Spec
  deriving DecidableEq, Repr

/-- One leaf of a page table as a buffer holds it (R51, R56): the virtual page, its level, the entry, the ASID. -/
structure Leaf where
  vbase : Nat
  level : Nat
  entry : Word
  asid : BitVec 16
  deriving DecidableEq, Repr

/-- A global access, or another long result, that has been issued and is not finished (R188, R108). -/
structure Access where
  id : Nat
  who : SlotId
  /-- The launch of the issuing strand (R247), its sid, and the strand's own number (Strand.uid). -/
  lid : Nat
  sid : Word
  uid : Nat
  op : FlightOp
  loc : Loc
  dest : Option Dest
  /-- Access kind bit of Table 10.3: 0 gl, 1 gs, 4 at. -/
  kind : Nat
  /-- Performed only after every earlier access of the strand and the core's earlier stores (R198 .rel). -/
  rel : Bool
  /-- Later accesses of the strand wait for its result (R198 .acq). -/
  acq : Bool
  /-- The bytes that the strand's own write set or its core's store buffer gives (R190, R215): offset and byte. -/
  overlay : List (Nat × Byte)
  /-- The full/empty bit that the strand's own write set gives the word (R215). -/
  ovFull : Option Bool
  /-- A line of a read set to watch from the moment the value is fixed (R215). -/
  inTx : Bool
  /-- Performed; a long result then waits for its return. -/
  done : Bool
  value : V128
  /-- The virtual page its translation came from, for the completion of tlbinv (R58). -/
  trans : Option Leaf
  deriving DecidableEq, Repr

/-! ## A strand -/

/-- Why a strand is held at an instruction (R109, Table 12.1). -/
inductive Hold
  /-- Neither translation buffer holds the page (R54). -/
  | walk (va : Nat) (kind : AccKind)
  /-- A condition that the instruction tests again at the strand's next turn: a fence, a full deque, a running matrix
  operation, results still in flight before exit, mig or txe, an earlier acquire (R198). -/
  | again
  /-- Arrived at its wave's tile or row barrier (R240); `gang` when it arrived by mgang (R173). -/
  | bar (row : Bool) (phys : Nat) (gang : Bool)
  /-- Waiting for the home's answer to redp or to join's atom (R212, R250). -/
  | home (id : Nat)
  /-- join's counter has come back (R250). -/
  | joined (left : Word)
  /-- tlbinv: accesses with a lower number than `mark` may still use a removed entry (R58). -/
  | tlbinv (mark : Nat) (gone : List Leaf)
  /-- selftest running (R326). -/
  | selftest
  /-- A fault recognised, which waits for the strand's long results (R111, R305). -/
  | fault (code : Nat) (detail : Word)
  /-- Waiting for the sluice to take an edit (R275). -/
  | edit (op : Nat)
  /-- Held by its sleeping wave (R222). -/
  | wave
  /-- A deterministic lane whose chunk is full or must end here: it waits for its commit (R299, R300). -/
  | chunk
  deriving DecidableEq, Repr

/-- A strand's standing in the rotation (Tables 12.1 and 15.4). -/
inductive Run
  | ready
  | parked
  | held (h : Hold)
  | asleep
  /-- Out of the rotation after an event (R305). -/
  | out
  /-- Pre-empted (R311), with the hold that it keeps (R240). -/
  | preempted (was : Option Hold)
  deriving DecidableEq, Repr

/-- The registers and the other per-strand state that a deterministic chunk can give back (R104, R143, R300). -/
structure Regs where
  s : Vector Word 32
  o : Vector Word 8
  q : Word
  v : Vector V128 32
  w : Vector V128 4
  qv : V128
  pc : Word
  /-- SKIPN: words still to be annulled (R112). -/
  skipn : BitVec 2
  fctl : Word
  slim : Word
  padlo : Word
  padhi : Word
  ptroot : Word
  /-- TXSTAT.REASON (Table 11.3). -/
  txReason : BitVec 8
  txaddr : Word
  cellbase : Word
  cellgen : Word
  cycw : Vector Word 8
  lfsr : Vector (BitVec 32) 32
  /-- The shadow sets of the four channels (R66, R67). -/
  shadow : Vector (Vector Word 42) 4
  deriving DecidableEq, Repr

/-- A long result in flight: the number of its access, its destination, whether it acquires (R108, R198). -/
structure Long where
  id : Nat
  dest : Dest
  acq : Bool
  deriving DecidableEq, Repr

/-- One effect of a write-set entry, in order: the bytes of one store from an offset of the line up, with the page that its
translation came from (R58), or a word of the line emptied by an ldc, with that ldc's page (R215). -/
inductive WOp
  | store (off : Nat) (bs : List Byte) (leaf : Option Leaf)
  | empty (word : Nat) (leaf : Option Leaf)
  /-- A pin on a buffer of a cell, whose entry line it is (R272): false BUF0, true BUF1. -/
  | pin (buffer : Bool)
  deriving DecidableEq, Repr

/-- A write-set entry: a line, the tag it was made under, its effects (R215, R217). -/
structure WEntry where
  line : Loc
  tag : Nat
  ops : List WOp
  deriving DecidableEq, Repr

/-- One level of a transaction (R217). -/
structure TxLevel where
  tgt : Word
  next : Option Word
  chk : Nat
  alt : Nat
  deriving DecidableEq, Repr

/-- An open transaction (R215 to R217): the levels innermost first, so DEPTH is their number. -/
structure Tx where
  txpc : Word
  levels : List TxLevel
  nextTag : Nat
  wset : List WEntry
  /-- TG, once a cell instruction has set it (R272). -/
  tg : Option Nat
  deriving DecidableEq, Repr

/-- The chunk that a deterministic lane runs (R299): where it began, how many words it has run, its read lines with
whether another commit wrote them since, its write set. -/
structure Chunk where
  start : Regs
  startTx : Option Tx
  count : Nat
  reads : List (Loc × Bool)
  wset : List WEntry
  /-- Ready for its place in the round. -/
  ended : Bool
  /-- The instruction of Table 11.2 that stands next may take its effect, as a chunk of its own. -/
  solo : Bool
  deriving DecidableEq, Repr

/-- A strand: everything its slot holds (R236, R305, R312). -/
structure Strand where
  regs : Regs
  /-- STATUS.MODE: supervisor (R302). -/
  sup : Bool
  /-- STATUS.DET (R304). -/
  det : Bool
  /-- STATUS.IE (Table 15.2). -/
  ie : Bool
  tvec : Word
  sepc : Word
  scause : Word
  sdetail : Word
  /-- SKIPN as the supervisor's entry found it; sret gives it back (R22, log 43). -/
  sskipn : BitVec 2
  /-- sid (Table 12.3). -/
  sid : Word
  /-- The model's own: a number that no two strands share, so that what belongs to a strand that has left its slot is told from what
  belongs to its successor. -/
  uid : Nat
  /-- Declared scalar and vector registers (R20), barriers (R246) and lock rings (R93). -/
  nregs : Nat
  nvregs : Nat
  nbars : Nat
  nlocks : Nat
  /-- The stack reservation: first byte and the byte after the last (R41). -/
  stackBot : Nat
  stackTop : Nat
  /-- The launch, and the wave for a wave member (R237, R244). -/
  lid : Nat
  wave : Option Nat
  run : Run
  /-- The M bit of the instruction at which it is held (R16). -/
  mark : Bool
  tepc : Word
  tcause : Word
  tdetail : Word
  longs : List Long
  /-- Asynchronous deliveries waiting for a turn, oldest first: code and detail (R310). The error of an ordered access adds 512 to its code:
  until it is taken, no later ordered access is performed (R210). -/
  asyncs : List (Nat × Word)
  /-- A pre-emption has been requested (R311). -/
  preReq : Bool
  /-- It has offered its slot by yield and has not returned to it (R254). -/
  yielded : Bool
  /-- RSV of ldx (R213). -/
  rsv : Option Loc
  tx : Option Tx
  /-- An abort to take at the next turn: reason and TXADDR (R216, R221, R222). -/
  abortReq : Option (BitVec 8 × Word)
  /-- A wake that came while the strand could not take it (R223): TXADDR. -/
  wakeReq : Option Word
  /-- A residue mismatch at the strand's previous turn (R315): unit, place and syndrome, until the instruction's next attempt. -/
  redo : Option (BitVec 8 × Word × Word)
  /-- The register of which this turn's parity check finds an error, if the instruction reads it (R105, R144): vector or not, specifier. -/
  upset : Option (Bool × Spec)
  /-- How many of the strand's turns in a row have lost bank arbitration (R89). -/
  lost : Nat
  /-- The deterministic lane's number, its committed instructions and its chunk (R298, R299). -/
  lane : Nat
  committed : Word
  chunk : Option Chunk
  deriving DecidableEq, Repr

/-! ## A tile -/

/-- A tile barrier (Table 12.4); it also serves the row barriers, whose members are tile columns (R240). -/
structure Barrier where
  gen : BitVec 16
  mem : BitVec 24
  arr : BitVec 24
  /-- The wave that holds it. -/
  wave : Option Nat
  /-- Arrivals by mgang (R173). -/
  gang : BitVec 24
  deriving DecidableEq, Repr

/-- A physical lock ring (Table 5.4). -/
structure Ring where
  cfg : Bool
  desc : BitVec 63
  pgen : BitVec 32
  cgen : BitVec 32
  pmem : BitVec 24
  cmem : BitVec 24
  parr : BitVec 24
  carr : BitVec 24
  /-- The strands whose bits these are, by slot and number: a spilled member keeps its bit while another strand has its slot (R97). -/
  owners : List (Nat × Nat)
  deriving DecidableEq, Repr

/-- A row held by a channel's line buffer, keyed as R75 says: ASID, address kind, address, bytes. -/
structure HeldRow where
  asid : BitVec 16
  kind : Nat
  addr : Nat
  bytes : List Byte
  deriving DecidableEq, Repr

/-- A transfer launched and not complete (R68): its snapshot with resolved bases, and how far it has come. -/
structure Transfer where
  id : BitVec 32
  /-- The launching strand, its launch and its sid (R78). -/
  who : SlotId
  sid : Word
  uid : Nat
  lid : Nat
  /-- Address space and mode (R68). -/
  ptroot : Word
  sup : Bool
  fields : Vector Word 42
  /-- The source and the destination after ring resolution: kind and address (R69). -/
  srcKind : Nat
  src : Nat
  dstKind : Nat
  dst : Nat
  /-- Next element. -/
  x : Nat
  started : Bool
  cancelled : Bool
  /-- Bytes that it overwrote and may still read as they were (R71): place and old byte. -/
  undo : List (Loc × Byte)
  /-- Bytes gathered for the packet that is being cut (R77). -/
  packet : List Byte
  /-- Rows read so far in this transfer, latest last (R75). -/
  rows : List HeldRow
  /-- The port die has taken the transfer's first packet, so its handle is settled (R77). -/
  offered : Bool
  /-- The completion word of a COPY command (R286): its command's number. -/
  cmd : Option Nat
  deriving DecidableEq, Repr

/-- A channel of the block-transfer engine (R66 to R79). -/
structure Chan where
  nextid : BitVec 32
  doneId : BitVec 32
  queue : List Transfer
  /-- Halted, and its CAUSE (R78). -/
  halted : Bool
  cause : BitVec 8
  cpfa : Word
  cpfx : Word
  line : List HeldRow
  deriving DecidableEq, Repr

/-- A pointer record of the matrix engine (R168). -/
structure Rec where
  base : Word
  desc : Word
  deriving DecidableEq, Repr

/-- A snapshot of the five records with resolved bases (R170), and the gang that runs it: the tiles in ascending column
order, empty for a single-tile operation (R172, R173). -/
structure MatOp where
  recs : Vector Rec 5
  gang : List Nat
  deriving DecidableEq, Repr

/-- A read of the accumulator store that waits for earlier operations (R181): access number, row, form (0 hi, 1 lo, 2 sum), how
many operations stood before it. -/
structure MatRead where
  id : Nat
  row : Nat
  form : Nat
  after : Nat
  deriving DecidableEq, Repr

/-- The matrix engine of a tile (R165 to R183). Pair (m, n) is element 32·m + n of `acc`: H and L. Unlisted pairs are +0. -/
structure Matrix where
  acc : List (Nat × (BitVec 32 × BitVec 32))
  /-- The number of the strand that owns the store (R167); it stays the owner while it is spilled. -/
  owner : Option Nat
  recs : Vector Rec 5
  mprog : Nat
  running : Option MatOp
  pending : Option MatOp
  /-- The snapshot of an mgang that has arrived and waits for its gang (R170, R173). -/
  snap : Option MatOp
  reads : List MatRead
  /-- Words of the store whose parity is wrong (R166): the pair, and whether it is its low part. -/
  badPairs : List (Nat × Bool)
  deriving DecidableEq, Repr

/-- What a task starts from (R243, R244, R262): a fork's arguments, a continuation's registers, a formula task's cell. -/
inductive TaskKind
  | forked (args : Vector Word 8) (hops : Nat)
  | cont (s : Vector Word 16) (o : Vector Word 8) (skipn : BitVec 2) (cellgen : Word)
  | formula (cell gen : Nat)
  deriving DecidableEq, Repr

/-- An entry of the fork deque (R243). -/
structure Task where
  lid : Nat
  core : Core
  entry : Word
  kind : TaskKind
  /-- The lane of a deterministic launch that its strand will be (R298). -/
  lane : Nat
  deriving DecidableEq, Repr

/-- A launch's standing on a tile (R86, R93, R239, R292, R314). -/
structure Resident where
  lid : Nat
  padLo : Nat
  padLen : Nat
  /-- Physical ring of each declared ring. -/
  rings : List Nat
  /-- Member numbers of the slots it holds. -/
  slots : List Nat
  /-- Stack reservations in use: first byte, the byte after the last, the number of the strand. -/
  stackRes : List (Nat × Nat × Nat)
  ops : Nat
  lines : Nat
  cls : BitVec 2
  deriving DecidableEq, Repr

/-- A word that a core's instruction buffer holds for a launch's text: core number, launch, address, word (R59, log 44). -/
structure TextWord where
  core : Nat
  lid : Nat
  addr : Nat
  word : BitVec 32
  deriving DecidableEq, Repr

/-- An entry of the event queue and its detail word (R306); for a strand that is gone, the number of the LAUNCH command of its launch, while that
launch is there (R309). -/
structure Event where
  entry : Word
  detail : Word
  cmd : Option Nat
  deriving DecidableEq, Repr

/-- A weir-table entry (Table 11.5): `live` once the line has been read. -/
structure Weir where
  sp : Bool
  member : Nat
  sleep : Bool
  hit : Bool
  live : Bool
  line : Loc
  deriving DecidableEq, Repr

/-- A machine-check bank (Table 15.10). -/
structure Bank where
  v : Bool
  ovf : Bool
  cls : BitVec 2
  src : BitVec 8
  strand : BitVec 5
  addr : Word
  detail : Word
  corr : BitVec 32
  unc : BitVec 32
  deriving DecidableEq, Repr

/-- A tile (files 04, 05, 09, 12, 15). -/
structure Tile where
  /-- CYCLE: the tile's cycle counter (R234). -/
  cycle : Word
  /-- The position of the rotation in the cycle: 2·core, and 1 more for the turn that the owner lent (R234, R235). -/
  phase : Nat
  /-- Slots that hold a strand: member number and strand. -/
  strands : List (Nat × Strand)
  sem : Vector (BitVec 32) 32
  tbar : Vector Barrier 4
  rings : Vector Ring 8
  /-- The rings as they stood at the start of the rotation's cycle (R100). -/
  ringsAt : Vector Ring 8
  chans : Vector Chan 4
  mat : Matrix
  /-- The fork deque, top first, and the overflow lists, oldest first (R243). -/
  deque : List Task
  overflow : List Task
  resid : List Resident
  events : List Event
  waiting : List Event
  sevdet : Word
  tsel : Word
  wsel : Word
  mcsel : Word
  weir : List Weir
  tlb : List Leaf
  /-- The words that its cores' instruction buffers hold (R59). -/
  ibuf : List TextWord
  bank : Bank
  fenced : Bool
  /-- The right-hand neighbour that keeps the mirror of this tile's queue tables is gone (R319). -/
  mirrorLost : Bool
  /-- A self-test runs, for the command named if one asked for it (R321, Table 14.9); the units that it tests, and those that the last one
  found failing (R326). -/
  testing : Bool
  testCmd : Option Nat
  testMask : BitVec 10
  testFail : BitVec 10
  /-- The firmware has a fence of this tile to make (R321). -/
  mustFence : Bool
  /-- The sid of the strand last spilled from each slot (R308). -/
  lastSpilled : List (Nat × Word)
  deriving DecidableEq, Repr

/-- A physical row's own state: its wired barriers, its translation buffer, its degraded mark (R240, R56, R320). -/
structure Row where
  bars : Vector Barrier 8
  tlb : List Leaf
  degraded : Bool
  deriving DecidableEq, Repr

/-! ## The device -/

/-- A watch-filter entry (Table 11.6). KIND 0 watch, 1 reservation, 2 pending ldc, 3 pending stp; the watcher is a tile, or a
strand for the kinds 1 to 3; CTX is the access. -/
structure Watch where
  /-- DEV: the device of the watcher, 0xFFF for this one (R221). -/
  dev : Nat
  kind : Nat
  line : Loc
  tile : Nat
  member : Nat
  word : Nat
  ctx : Nat
  deriving DecidableEq, Repr

/-- A reduction word with the slots updated since the last fold: tile number and sum (R211). -/
structure RedWord where
  addr : Nat
  ty : Nat
  slots : List (Nat × Word)
  /-- The launch that registered it (R212). -/
  lid : Nat
  deriving DecidableEq, Repr

/-- A formula record as the sluice keeps it (Table 13.4). -/
structure Formula where
  core : Nat
  entry : Word
  precs : List Nat
  arg0 : Word
  arg1 : Word
  /-- The launch whose text holds the entry, and HOME (R270, R273). -/
  lid : Nat
  home : Nat
  addr : Word
  deriving DecidableEq, Repr

/-- A pending edit of a cell (R268): the formula to bind, or none to unbind; its place in the order of acceptance. -/
structure Edit where
  cell : Nat
  form : Option Formula
  nform : Word
  deriving DecidableEq, Repr

/-- A Cell Table entry (Table 13.2) with the stale marks that R258 still needs and the formula in force. -/
structure Cell where
  num : Nat
  /-- 0 fresh, 1 stale, 2 computing, 3 faulted. -/
  state : BitVec 2
  input : Bool
  cur : Bool
  opened : Bool
  rank : Nat
  sheet : Nat
  version : Nat
  stalegen : Nat
  sver : Nat
  pin0 : Nat
  pin1 : Nat
  buf0 : Word
  buf1 : Word
  bytes : Nat
  /-- The address space of its buffers, CELLNEW's (R289). -/
  asid : BitVec 16
  marks : List Nat
  /-- Generations at which an edit unbound the cell: from each on it was an input, so that no earlier mark counts there (R258, R271). -/
  freed : List Nat
  /-- Generations at which the cell is faulted (R265). -/
  faulted : List Nat
  formula : Option Formula
  deriving DecidableEq, Repr

/-- A task record of the sluice (R261): timestamp (gen, rank, cell), the formula it was seeded with, and how far it is. -/
structure Seed where
  gen : Nat
  rank : Nat
  cell : Nat
  form : Formula
  /-- Released into a deque; taken by a slot; finished by cdone and not yet published. -/
  released : Bool
  taken : Bool
  finished : Bool
  deriving DecidableEq, Repr

/-- Who asked something of a sluice: a strand, by its slot, its number, its launch. -/
structure Asker where
  at_ : SlotId
  uid : Nat
  lid : Nat
  deriving DecidableEq, Repr

/-- What waits at the sluice for its place in the sheet's order (R259): who asks, by strand or by command. -/
inductive SluiceOp
  | edit (form : Option Formula) (cell : Nat) (nform : Word) (who : Option Asker) (cmd : Option Nat) (bad : Option Nat)
  | commit (batch : List Nat) (who : Option Asker) (acc : Option Nat) (cmd : Option Nat)
  deriving DecidableEq, Repr

/-- A sheet (R255, R258): its counters, its pending edits in order of acceptance, its task records, what waits at its
sluice, and the SHEETEND command that waits to destroy it. -/
structure Sheet where
  num : Nat
  gen : Nat
  settled : Nat
  edits : List Edit
  seeds : List Seed
  ops : List SluiceOp
  ending : Option Nat
  deriving DecidableEq, Repr

/-- A cpin, or a cwopen, that waits for its cell (R276, R279): access, cell, who asked, the generation at which a formula task's cpin
reads a precedent (R263). -/
structure CellWait where
  id : Nat
  cell : Nat
  opens : Bool
  who : SlotId
  uid : Nat
  sid : Word
  lid : Nat
  gen : Option Nat
  deriving DecidableEq, Repr

/-- A command ring (Table 14.2) with the commands its port die has read in and not dispatched: ticket and eight words. -/
structure CmdRing where
  num : Nat
  rcfg : Word
  head : BitVec 32
  tail : BitVec 32
  errCount : BitVec 32
  errLast : BitVec 32
  rasid : BitVec 16
  slots : List (BitVec 32 × List Word)
  /-- Firings of turnouts that wait for a ticket (R297). -/
  firings : List (Nat × List Word)
  deriving DecidableEq, Repr

/-- A dispatched command (R285, R286): ring, ticket, where its completion word goes, its status once it is complete. -/
structure Command where
  cid : Nat
  ring : Nat
  ticket : BitVec 32
  opc : Nat
  compl : Option Loc
  /-- The status word when complete. -/
  result : Option Word
  lid : Nat
  deriving DecidableEq, Repr

/-- A COPY command that has been dispatched and finds its channel's queue full: its supervisor attempts again (R68, R285, R288). -/
structure CopyWait where
  cid : Nat
  ring : Nat
  tile : Nat
  ch : Nat
  asid : BitVec 16
  fields : Vector Word 42
  deriving DecidableEq, Repr

/-- The declarations of a kernel header (R38). For a row wave `nm` is the number of its tiles. -/
structure Header where
  row : Bool
  kind : Nat
  nm : Nat
  nc : Nat
  na : Nat
  regs : Nat
  vregs : Nat
  pad : Nat
  bars : Nat
  locks : Nat
  stackInit : Nat
  stackReserve : Nat
  /-- Sheet number, first cell and number of cells, when `.sheet` is declared (R255). -/
  sheet : Option (Nat × Nat × Nat)
  deriving DecidableEq, Repr

/-- A kernel image that fkld has loaded and mapped in an address space (R39, R287, log 7). -/
structure Image where
  addr : Word
  asid : BitVec 16
  ptroot : Word
  text : Word
  textLen : Nat
  header : Header
  /-- The bytes of the header as fkld wrote them, from the image's address up (R287). -/
  head : List Byte
  /-- Whether the header can be read where its pages can, and whether fkld would have written it (R287). -/
  readable : Bool
  proper : Bool
  deriving DecidableEq, Repr

/-- A wave that waits to be placed (R237): its launch, its entry, arguments, shape; for a row wave `nm` is the number of its tiles;
`origin` is the tile of a gang's issuer. -/
structure WaveReq where
  num : Nat
  lid : Nat
  entry : Word
  args : Vector Word 8
  argkind : BitVec 16
  row : Bool
  kind : Nat
  nm : Nat
  nc : Nat
  na : Nat
  /-- A row wave's columns when gang gave them (R252). -/
  cols : Option (BitVec 13)
  rows : Nat × Nat
  origin : Option Nat
  /-- The lane of its first member (R298). -/
  lane : Nat
  deriving DecidableEq, Repr

/-- A placed wave: its launch and its members in rank order (R236, R238). A wave that has ended has no member; it keeps its barriers until
its launch completes (R247). -/
structure Wave where
  num : Nat
  lid : Nat
  row : Bool
  members : List SlotId
  /-- The physical barriers it received: tile barriers, or row barriers of its row (R237). -/
  bars : List Nat
  /-- When it left the rotation, for a spilled wave (R293). -/
  spilled : Bool
  deriving DecidableEq, Repr

/-- A launch (R287, R290). -/
structure Launch where
  lid : Nat
  cmd : Nat
  prio : BitVec 2
  det : Bool
  cls : BitVec 2
  asid : BitVec 16
  ending : Bool
  /-- Status the launch completes with: 0x01, or 0x02 and a code (Table 14.6). -/
  status : Word
  image : Image
  waves : Nat
  /-- Lanes of wave members and lanes of tasks numbered so far, and the lane whose place in the round comes next (R298, R300). -/
  lanes : Nat
  taskLanes : Nat
  lanePos : Nat
  cellbase : Word
  deriving DecidableEq, Repr

/-- A turnout record (Table 14.7). -/
structure Turnout where
  w0 : Word
  w1 : Word
  cmd : Vector Word 8
  deriving DecidableEq, Repr

/-- A packet of nred or of nsend under way (R230 to R232): the router that it goes to and the input that it is there (its own
contribution is input 0), the record, who sent it, the command that asked for it. -/
structure Packet where
  idx : Nat
  send : Bool
  rec0 : Word
  rec1 : Word
  ty : Nat
  src : Nat
  place : Nat × Nat
  input : Nat
  who : SlotId
  sid : Word
  uid : Nat
  lid : Nat
  cmd : Option Nat
  /-- The payload's place, until the router has read it (R202). -/
  pay : Nat
  data : Option V128
  deriving DecidableEq, Repr

/-- A router that has a group open (R230, R231, R369): physical row and column, the record under which it combines, its inputs so far. -/
structure RNode where
  die : Nat
  group : Nat
  place : Nat × Nat
  rec0 : Word
  rec1 : Word
  ty : Nat
  inputs : List (Nat × V128)
  deriving DecidableEq, Repr

/-- A strand that has sent a packet: its slot, its own number, its sid, its launch. -/
structure Sender where
  who : SlotId
  uid : Nat
  sid : Word
  lid : Nat
  deriving DecidableEq, Repr

/-- A reduction group (R230, R231, R368, R369): the launch of its first packet, the tiles that its packets' records name as contributors, those
of which a packet has reached the routers, those of which one was kept, the strands that sent them by tile, the commands that wait for its
end, and the status word of one that has failed. `broken` when a packet of it was discarded, which counts as missing. -/
structure RGroup where
  die : Nat
  group : Nat
  lid : Nat
  due : List Nat
  sent : List Nat
  came : List Nat
  senders : List (Nat × Sender)
  cmds : List Nat
  failed : Option Word
  broken : Bool
  deriving DecidableEq, Repr

/-- A packet accepted into a send queue (R77). -/
structure NetPacket where
  handle : BitVec 16
  tag : BitVec 32
  eom : Bool
  bytes : List Byte
  deriving DecidableEq, Repr

/-- A service queue with its complete messages (R327). -/
structure SvcQueue where
  handle : BitVec 16
  asid : BitVec 16
  ptroot : Word
  vocab : Nat
  doorbell : Word
  slots : Word
  depth : Nat
  nslot : Nat
  msgs : List (List Byte)
  deriving DecidableEq, Repr

/-- A request that an intake engine has taken (R333): the address space of its queue, its prompt cell, its slot and where that lies, its REPLY,
the vocabulary cell; its message until the vocabulary has been snapshot, then the buffer that is pinned, false BUF0, and the ids. -/
structure IntkJob where
  ptroot : Word
  cell : Nat
  slot : Nat
  base : Nat
  reply : BitVec 16
  vocab : Nat
  msg : Option (List Byte)
  vbuf : Bool
  ids : List Nat
  deriving DecidableEq, Repr

/-- An intk at the intake engines (R333): its access, the handle and ASID that it names, what an engine has taken for it. -/
structure IntkReq where
  id : Nat
  handle : BitVec 16
  asid : BitVec 16
  /-- The tile of the strand that asked, and its mode: the engine translates with them (R55). -/
  tile : Nat
  sup : Bool
  job : Option IntkJob
  deriving DecidableEq, Repr

/-- An outfall attachment (R344 to R346): the cell, its queue and slot, its pinned versions not yet sent, the bytes held back. -/
structure Outfall where
  cell : Nat
  handle : BitVec 16
  slot : Nat
  ptroot : Word
  /-- The tile of the strand that attached it, and its mode (R55). -/
  tile : Nat
  sup : Bool
  /-- Pinned buffers, oldest first: false BUF0, true BUF1. -/
  todo : List Bool
  held : List Byte
  deriving DecidableEq, Repr

/-- A spilled strand (R312): where its context block lies, and the strand: what the block does not hold of it stays here. -/
structure Spilled where
  at_ : SlotId
  base : Nat
  strand : Strand
  mat : Option Matrix
  deriving DecidableEq, Repr

/-- A launch evicted from a tile (R314): its region, its reservations and its descriptors, and where in protected HBM their contents were
saved; the rings keep their members' numbers here. -/
structure Evicted where
  tile : Nat
  res : Resident
  base : Nat
  rings : List (Nat × Ring)
  deriving DecidableEq, Repr

/-- A miss that waits for a walker, or for the walk that it has joined (R57): die, address space, root, address, access kind, the strand. -/
structure Miss where
  die : Nat
  asid : BitVec 16
  ptroot : Word
  va : Nat
  kind : AccKind
  who : SlotId
  uid : Nat
  walking : Bool
  /-- It has its place among the 2,048 entries of its die's miss queue; one without waits at its row buffer. -/
  queued : Bool
  deriving DecidableEq, Repr

/-- A write of one path class that another class may still miss (R82, R182, R202, R205): the class that may miss it, the class and the
operation that wrote, the bytes as they were, by address, all within one 16-byte unit (log 18), and the strands that have read what was
written, by their own numbers (R201). -/
structure Lag where
  reader : Nat
  writer : Nat
  op : Nat
  old : List (Nat × Byte)
  seen : List Nat
  deriving DecidableEq, Repr

/-- What an access of a peer does to a word of this device (R189, R207, R214, R355): a store; an atomn, or an atom whose old value goes back to
it; a compare-and-swap with its comparand; an ldc or an stp, with the number by which it waits in its home's filter. -/
inductive PeerOp
  | store (bytes : List Byte)
  | update (op : AtomOp) (v : Word)
  | cas (cmp v : Word)
  | ldc (dev ctx : Nat)
  | stp (dev ctx : Nat) (v : Word)
  deriving DecidableEq, Repr

/-- A write of a peer that waits: its address and what it does. -/
structure HeldWrite where
  addr : Nat
  op : PeerOp
  deriving DecidableEq, Repr

/-- The state that a checkpoint saves (R358), as the safe tier holds it: memory with its full/empty bits; each tile's semaphores,
barriers, ring descriptors, identifiers and overflow lists; and the tables that lie in protected HBM (R50), the supervisors' own among
them (log 16). -/
structure Saved where
  mem : List Host.Cell
  full : List Nat
  sems : List (Nat × Vector (BitVec 32) 32)
  tbars : List (Nat × Vector Barrier 4)
  rings : List (Nat × Vector Ring 8)
  ids : List (Nat × Vector (BitVec 32 × BitVec 32) 4)
  tasks : List (Nat × List Task × List Task)
  resid : List (Nat × List Resident)
  spills : List Spilled
  evicted : List Evicted
  cells : List Cell
  sheets : List Sheet
  redWords : List RedWord
  svcQueues : List SvcQueue
  members : List Nat
  fwImage : List Byte
  launches : List Launch
  images : List Image
  roots : List (Nat × Word)
  waves : List Wave
  waveReqs : List WaveReq
  commands : List Command
  flight : List Access
  watches : List Watch
  cellWaits : List CellWait
  deriving DecidableEq, Repr

/-- The device control page's own registers (Table 17.2). -/
structure Ctl where
  fatal : Bool
  ready : Bool
  busy : Bool
  booterr : BitVec 8
  lcs : BitVec 2
  fwlen : BitVec 26
  devnoset : BitVec 12
  cktgt : BitVec 16
  ckstat : Word
  nonce : List Byte
  report : List Byte
  /-- A report is being built (R352); a checkpoint, or a restore, is running (R358): its tier. -/
  building : Bool
  ckpt : Option (Bool × Bool)
  deriving DecidableEq, Repr

/-- A choice of what moves next (log 2). -/
inductive Choice
  /-- The rotation of a tile makes its next turn. -/
  | turn (tile : Nat)
  /-- The strand whose turn it is loses bank arbitration (R88): a turn spent with no effect. -/
  | forfeit (tile : Nat)
  /-- The residue check of the turn's instruction finds a mismatch (R315): unit, place, syndrome. -/
  | residue (tile : Nat) (src : BitVec 8) (addr detail : Word)
  /-- A register's parity is wrong when the turn's instruction reads it (R105, R144). -/
  | parity (tile : Nat) (vec : Bool) (spec : Spec)
  /-- A bit of a scratchpad word flips (R91): corrected when it is next checked, or with two bits uncorrectable. -/
  | spoil (tile word : Nat) (corrected : Bool)
  /-- A word of an accumulator store loses its parity (R166). -/
  | spoilPair (tile pair : Nat) (low : Bool)
  /-- A wrong bit in a supervisor's code store or queue tables is corrected (R315): the tile, the place, the syndrome. -/
  | supCorrected (tile : Nat) (addr detail : Word)
  /-- Another agent makes a step. -/
  | event (i : Instr)
  /-- A translation buffer replaces an entry (R56): a tile's, or a row's. -/
  | evict (row : Bool) (place idx : Nat)
  /-- A core's instruction buffer reads in the word at an address of a launch's text, or drops what it holds (R59). -/
  | keepText (tile : Nat) (core : Core) (lid addr : Nat)
  | dropText (tile idx : Nat)
  /-- The tile whose translation buffers the engines of the port dies and of the sluices look in (R55, log 48). -/
  | engineTile (tile : Nat)
  /-- Writes of one path class may from now on be missed by another, or not (log 18); a write that was missed becomes visible. -/
  | lag (writer reader : Nat) (on : Bool)
  | catchUp (idx : Nat)
  /-- Another device's store reaches a line that a strand of this device reads or sleeps on (R216, R220); another device's own watch enters a
  home's filter, or leaves it (R221). -/
  | remoteWrite (dev line : Nat)
  | peerWatch (dev kind line tile ctx : Nat)
  | peerWatchEnd (dev ctx : Nat)
  /-- fkld loads and maps an image (log 7). -/
  | loadImage (img : Image) (bytes : List (Nat × Byte))
  /-- The host writes or reads the port window through BAR0 (R281, R347): offset from its base. -/
  | hostWrite (off : Nat) (v : Word)
  | hostRead (off : Nat)
  /-- The host reads the device control page through BAR2 (R348). -/
  | hostRegRead (off : Nat)
  /-- The host writes bytes of the boot staging buffer BAR4, or reads eight (R347). -/
  | hostStage (off : Nat) (bytes : List Byte)
  | hostStageRead (off : Nat)
  /-- A peer of the domain stores to this device (R355). -/
  | peerWrite (addr : Nat) (bytes : List Byte)
  /-- A peer's atom or atomn, compare-and-swap, ldc, stp or load of a word of this device (R207, R211, R214). -/
  | peerAdd (addr : Nat) (op : AtomOp) (v : Word)
  | peerCas (addr : Nat) (cmp v : Word)
  | peerLdc (dev addr ctx : Nat)
  | peerStp (dev addr ctx : Nat) (v : Word)
  | peerRead (addr n : Nat)
  /-- The firmware writes the domain's membership map (R355). -/
  | membership (devs : List Nat)
  /-- The firmware fences a tile that failed its self-test (R321). -/
  | fenceTile (tile : Nat)
  /-- The firmware or the transport installs or opens a queue (R77, R327). -/
  | openSendQueue (handle : BitVec 16)
  | closeSendQueue (handle : BitVec 16)
  | installQueue (q : SvcQueue)
  /-- The firmware gives an address space the root of its page tables (R50, R282, log 15). -/
  | openSpace (asid : BitVec 16) (ptroot : Word)
  /-- A host debugger attaches or goes (R322). -/
  | debugger (on : Bool)
  deriving DecidableEq, Repr

/-- The device. -/
structure State where
  /-- Tiles by tile number; an unlisted tile is as Tile.initial (log 1). -/
  tiles : List (Nat × Tile)
  /-- Physical rows; an unlisted row is as Row.initial. -/
  rows : List (Nat × Row)
  /-- Every byte that is not 0, by local address: HBM and, at the tile window's addresses, every scratchpad (R46, R47, R60). -/
  mem : List Host.Cell
  /-- The full words, by local address div 8 (R60). -/
  full : List Nat
  /-- Accesses in flight, in issue order (R188, R189). -/
  flight : List Access
  /-- The model's own: the next access, transfer, command, wave or packet number. -/
  nextId : Nat
  /-- The model's own: how many free values have been used (log 8). -/
  freeCount : Nat
  watches : List Watch
  redWords : List RedWord
  /-- Misses that wait for a walk, in the order in which they came (R57). -/
  walks : List Miss
  /-- What another path class may still miss, oldest first; the pairs of classes, writer and reader, that may lag (log 18). -/
  lags : List Lag
  lagOn : List (Nat × Nat)
  /-- The model's own: the tile whose translation buffers serve the engines of the port dies and of the sluices (R55, log 48). -/
  engineTile : Nat
  /-- Scratchpad words that hold an uncorrectable error, and those with an error that the next check corrects (R91). -/
  badWords : List Nat
  weakWords : List Nat
  /-- The fused-off physical row of each die, and the fused-off column of each row that is not column 12 (R4, log 4). -/
  fusedRows : Vector Nat 4
  fusedCols : List (Nat × Nat)
  devno : BitVec 12
  protlo : Word
  prothi : Word
  /-- The other members of the domain (R355). -/
  members : List Nat
  cells : List Cell
  sheets : List Sheet
  cellWaits : List CellWait
  cmdRings : List CmdRing
  commands : List Command
  /-- The rings that the port dies have served in their present round (R285), and the COPY commands that wait for a place in a queue. -/
  roundRings : List Nat
  copyWaits : List CopyWait
  launches : List Launch
  images : List Image
  waveReqs : List WaveReq
  waves : List Wave
  /-- Continuations on their way to a tile (R251): the destination and what will be pushed there. -/
  transit : List (Nat × Task)
  turnouts : List (Nat × Turnout)
  packets : List Packet
  rnodes : List RNode
  rgroups : List RGroup
  sendQueues : List (BitVec 16)
  netOut : List NetPacket
  /-- The page-table roots of the address spaces, by ASID, as the firmware keeps them (R282, log 15). -/
  roots : List (Nat × Word)
  svcQueues : List SvcQueue
  intkReqs : List IntkReq
  outfalls : List Outfall
  spills : List Spilled
  evicted : List Evicted
  homeBanks : List (Nat × Bank)
  portBanks : List (Nat × Bank)
  ctl : Ctl
  /-- BAR4, by offset; unlisted bytes are 0 (R347). -/
  staging : List (Nat × Byte)
  /-- The signed image in protected HBM (R350), and words of the supervisors' code store that differ from it. -/
  fwImage : List Byte
  codeStore : List (Nat × BitVec 32)
  /-- Fuses: the device secret, the anti-rollback minimum, the digest of the signing key and the key itself (R350, R351). -/
  secret : List Byte
  rollbackMin : BitVec 32
  keyDigest : BitVec 384
  key : List Byte
  /-- The checkpoints that stand in a tier: tier and target, and what they hold (R358). -/
  checkpoints : List ((Nat × Nat) × Saved)
  /-- Writes of peers that wait at their homes, oldest first: while a checkpoint runs, or a self-test of the tile (R321, R358). -/
  heldWrites : List HeldWrite
  /-- Open UET connections: port and the options in use (R357). -/
  uet : List (Nat × List UetOption)
  debugger : Bool
  /-- The model's own: what the host last read (R281, R348). -/
  hostSaw : Word
  /-- The model's own: what moves next, the tile whose rotation moves when nothing is chosen, the slot on which a word acts
  (log 2). -/
  agenda : List Choice
  focus : Nat
  cur : SlotId
  deriving DecidableEq, Repr

/-- What a step can stop with. -/
inductive Fault
  /-- exec is asked to run a word in a slot that holds no strand. step never asks for it. Safe: the hardware has no such step. -/
  | noStrand
  deriving DecidableEq, Repr

/-- Why a step has no meaning. -/
inductive Refusal
  /-- An instruction that the model rejects by name: raised by exec's refused arms alone. Safe. -/
  | notModelled (mnemonic : String)
  /-- The agenda holds an instruction word, or what a strand's turn alone comes to, where an event of another agent belongs. Raised by step.
  Safe: it is no step of the device. -/
  | notAnEvent
  deriving DecidableEq, Repr

/-! ## Initial values -/

/-- Registers with every field 0, LFSR k at k + 1 (Table 7.5). -/
def Regs.initial : Regs where
  s := Vector.replicate 32 0
  o := Vector.replicate 8 0
  q := 0
  v := Vector.replicate 32 0
  w := Vector.replicate 4 0
  qv := 0
  pc := 0
  skipn := 0
  fctl := 0
  slim := 0
  padlo := 0
  padhi := 0
  ptroot := 0
  txReason := 0
  txaddr := 0
  cellbase := 0
  cellgen := 0
  cycw := Vector.replicate 8 0
  lfsr := Vector.ofFn fun k => BitVec.ofNat 32 (k.val + 1)
  shadow := Vector.replicate 4 (Vector.replicate 42 0)

/-- A strand with every register as Regs.initial, able to issue. -/
def Strand.initial : Strand where
  regs := Regs.initial
  sup := false
  det := false
  ie := false
  tvec := 0
  sepc := 0
  scause := 0
  sdetail := 0
  sskipn := 0
  sid := 0
  uid := 0
  nregs := 32
  nvregs := 32
  nbars := 0
  nlocks := 0
  stackBot := 0
  stackTop := 0
  lid := 0
  wave := none
  run := .ready
  mark := false
  tepc := 0
  tcause := 0
  tdetail := 0
  longs := []
  asyncs := []
  preReq := false
  yielded := false
  rsv := none
  tx := none
  abortReq := none
  wakeReq := none
  redo := none
  upset := none
  lost := 0
  lane := 0
  committed := 0
  chunk := none

def Barrier.initial : Barrier := ⟨0, 0, 0, none, 0⟩
def Ring.initial : Ring := ⟨false, 0, 0, 0, 0, 0, 0, 0, []⟩
def Chan.initial : Chan := ⟨0, 0, [], false, 0, 0, 0, []⟩
def Rec.initial : Rec := ⟨0, 0⟩
def Matrix.initial : Matrix := ⟨[], none, Vector.replicate 5 Rec.initial, 0, none, none, none, [], []⟩
def Bank.initial : Bank := ⟨false, false, 0, 0, 0, 0, 0, 0, 0⟩

/-- A tile after a wipe (R353): no strand, every table empty, every counter 0. -/
def Tile.initial : Tile where
  cycle := 0
  phase := 0
  strands := []
  sem := Vector.replicate 32 0
  tbar := Vector.replicate 4 Barrier.initial
  rings := Vector.replicate 8 Ring.initial
  ringsAt := Vector.replicate 8 Ring.initial
  chans := Vector.replicate 4 Chan.initial
  mat := Matrix.initial
  deque := []
  overflow := []
  resid := []
  events := []
  waiting := []
  sevdet := 0
  tsel := 0
  wsel := 0
  mcsel := 0
  weir := []
  tlb := []
  ibuf := []
  bank := Bank.initial
  fenced := false
  mirrorLost := false
  testing := false
  testCmd := none
  testMask := 0
  testFail := 0
  mustFence := false
  lastSpilled := []

def Row.initial : Row := ⟨Vector.replicate 8 Barrier.initial, [], false⟩

def CmdRing.initial (n : Nat) : CmdRing := ⟨n, 0, 0, 0, 0, 0, 0, [], []⟩
def Turnout.initial : Turnout := ⟨0, 0, Vector.replicate 8 0⟩

/-- The control page at reset (Table 17.2): BUSY is 1; the life-cycle state is fused, PROVISIONED here (log 5). -/
def Ctl.initial : Ctl where
  fatal := false
  ready := false
  busy := true
  booterr := 0
  lcs := 1
  fwlen := 0
  devnoset := 0
  cktgt := 0
  ckstat := 0
  nonce := List.replicate 48 0
  report := List.replicate 512 0
  building := false
  ckpt := none

/-- The device right after reset (R349): wiped (R353), with no strand anywhere, waiting for BOOTGO. -/
def State.reset : State where
  tiles := []
  rows := []
  mem := []
  full := []
  flight := []
  nextId := 0
  freeCount := 0
  watches := []
  redWords := []
  walks := []
  lags := []
  lagOn := []
  engineTile := 0
  badWords := []
  weakWords := []
  fusedRows := Vector.replicate 4 32
  fusedCols := []
  devno := 0
  protlo := 0
  prothi := 0
  members := []
  cells := []
  sheets := []
  cellWaits := []
  cmdRings := []
  commands := []
  roundRings := []
  copyWaits := []
  launches := []
  images := []
  waveReqs := []
  waves := []
  transit := []
  turnouts := []
  packets := []
  rnodes := []
  rgroups := []
  sendQueues := []
  netOut := []
  roots := []
  svcQueues := []
  intkReqs := []
  outfalls := []
  spills := []
  evicted := []
  homeBanks := []
  portBanks := []
  ctl := Ctl.initial
  staging := []
  fwImage := []
  codeStore := []
  secret := List.replicate 48 0
  rollbackMin := 0
  keyDigest := 0
  key := []
  checkpoints := []
  heldWrites := []
  uet := []
  debugger := false
  hostSaw := 0
  agenda := []
  focus := 0
  cur := ⟨0, .m, 0⟩

end Sys2Proof.Machine
end

