-- ==== Sys2Proof/Machine/Base.lean ====
section
/-!
DEFINITION. The named operations over the state: tables by key, memory with its full/empty bits, places and
coordinates, registers, watches and wakes, machine-check banks and transactions' aborts.
-/

namespace Sys2Proof.Machine

/-! ## Tables kept in ascending key order -/

/-- The entry of a key. -/
def assocGet {α : Type} : List (Nat × α) → Nat → Option α
  | [], _ => none
  | (k, v) :: r, a => if k = a then some v else assocGet r a

/-- The table with a key's entry set, in ascending order of keys. -/
def assocSet {α : Type} : List (Nat × α) → Nat → α → List (Nat × α)
  | [], a, v => [(a, v)]
  | (k, w) :: r, a, v =>
    if a < k then (a, v) :: (k, w) :: r else if a = k then (a, v) :: r else (k, w) :: assocSet r a v

/-- The table without a key's entry. -/
def assocErase {α : Type} : List (Nat × α) → Nat → List (Nat × α)
  | [], _ => []
  | (k, w) :: r, a => if a = k then r else (k, w) :: assocErase r a

/-- The vector with one element changed by a function; an index outside changes nothing. -/
def vecMod {α : Type} {n : Nat} (v : Vector α n) (i : Nat) (f : α → α) : Vector α n :=
  match v[i]? with
  | some x => v.setIfInBounds i (f x)
  | none => v

/-! ## Memory -/

/-- The byte at a local address; an unlisted byte is 0 (R60, R353). -/
def memGet : List Host.Cell → Nat → Byte
  | [], _ => 0
  | (k, b) :: r, a => if k = a then b else memGet r a

/-- Memory with one byte written, in its canonical form. -/
def memSet : List Host.Cell → Nat → Byte → List Host.Cell
  | [], a, b => if b = 0 then [] else [(a, b)]
  | (k, c) :: r, a, b =>
    if a < k then (if b = 0 then (k, c) :: r else (a, b) :: (k, c) :: r)
    else if a = k then (if b = 0 then r else (a, b) :: r)
    else (k, c) :: memSet r a b

/-- The canonical form: addresses strictly rising, no byte 0. -/
def Memory.wf : List Host.Cell → Bool
  | [] => true
  | [(_, b)] => b != 0
  | (k, b) :: (k', b') :: r => b != 0 && decide (k < k') && Memory.wf ((k', b') :: r)

/-- Memory with bytes written from an address up. -/
def memSetBytes (m : List Host.Cell) (a : Nat) : List Byte → List Host.Cell
  | [] => m
  | b :: r => memSetBytes (memSet m a b) (a + 1) r

/-- n bytes from an address up. -/
def memBytes (m : List Host.Cell) (a : Nat) : Nat → List Byte
  | 0 => []
  | n + 1 => memGet m a :: memBytes m (a + 1) n

/-- A set of naturals in ascending order with one more member. -/
def natInsert : List Nat → Nat → List Nat
  | [], a => [a]
  | k :: r, a => if a < k then a :: k :: r else if a = k then k :: r else k :: natInsert r a

/-- The set in strictly ascending order. -/
def natSorted : List Nat → Bool
  | [] => true
  | [_] => true
  | a :: b :: r => decide (a < b) && natSorted (b :: r)

/-- The little-endian value of bytes (R7). -/
def bytesToNat : List Byte → Nat
  | [] => 0
  | b :: r => b.toNat + 256 * bytesToNat r

/-- The n low bytes of a value, little-endian (R7). -/
def natToBytes : Nat → Nat → List Byte
  | 0, _ => []
  | n + 1, v => BitVec.ofNat 8 v :: natToBytes n (v / 256)

/-- The words touched by n bytes at an address (R60). -/
def wordsOf (a n : Nat) : List Nat :=
  (List.range ((a + n + 7) / 8 - a / 8)).map (fun i => a / 8 + i)

/-! ## Places -/

/-- The physical row of an enabled row index (R4). -/
def State.physRow (s : State) (e : Nat) : Nat :=
  let f := s.fusedRows.getD (e / 32) 32
  33 * (e / 32) + (if e % 32 < f then e % 32 else e % 32 + 1)

/-- The fused-off column of a physical row (R4). -/
def State.fusedCol (s : State) (row : Nat) : Nat := (assocGet s.fusedCols row).getD 12

/-- Whether a physical row is enabled. -/
def State.rowOn (s : State) (row : Nat) : Bool :=
  decide (row < 132) && row % 33 != s.fusedRows.getD (row / 33) 32

/-- The tile number at physical coordinates (R4); none for a place that is fused off or outside. -/
def State.tileAt (s : State) (row col : Nat) : Option Nat :=
  let f := s.fusedCol row
  if s.rowOn row && decide (col < 13) && col != f then
    let fr := s.fusedRows.getD (row / 33) 32
    let e := 32 * (row / 33) + (if row % 33 < fr then row % 33 else row % 33 - 1)
    some (12 * e + (if col < f then col else col - 1))
  else none

/-- The physical row of a tile (R4). -/
def State.tileRow (s : State) (t : Nat) : Nat := s.physRow (t / 12)

/-- The physical column of a tile (R4). -/
def State.tileCol (s : State) (t : Nat) : Nat :=
  let k := t % 12
  if k < s.fusedCol (s.tileRow t) then k else k + 1

/-- The first local address of a tile's window entry: its scratchpad, byte for byte (R47). -/
def State.padBase (s : State) (t : Nat) : Nat :=
  0x10000000000 + (s.tileRow t * 16 + s.tileCol t) * 0x200000

/-- What a local address names (Table 3.1, R47, Table 5.2, Table 14.1). -/
inductive Region
  | hbm
  | pad (tile off : Nat)
  | ctrl (tile off : Nat)
  | port (off : Nat)
  | absentTile
  | reserved
  deriving DecidableEq, Repr

def State.region (s : State) (a : Nat) : Region :=
  if a < 0x10000000000 then .hbm
  else if a < 0x10200000000 then
    let w := a - 0x10000000000
    let i := w / 0x200000
    match s.tileAt (i / 16) (i % 16) with
    | none => .absentTile
    | some t => if w % 0x200000 < 0x100000 then .pad t (w % 0x100000) else .ctrl t (w % 0x100000)
  else if a < 0x20000000000 then .reserved
  else if a < 0x20100000000 then .port (a - 0x20000000000)
  else .reserved

/-- The home of an HBM address (R44). -/
def homeOf (pa : Nat) : Nat :=
  Nat.xor (Nat.xor (pa / 0x40 % 1024) (pa / 0x10000 % 1024)) (Nat.xor (pa / 0x4000000 % 1024) (pa / 0x1000000000 % 16))

/-- Where a global access is performed, as a key: accesses of one core with one key keep their issue order (R189). A remote access is
performed at the remote home (R355), which the address names as it does here. -/
def State.homeKey (s : State) (l : Loc) : Nat × Nat :=
  if l.dev != thisDev then (4 + l.dev, if l.addr < 2 ^ 40 then homeOf l.addr else 2 ^ 32 + l.addr / 2 ^ 21)
  else match s.region l.addr with
    | .hbm => (0, homeOf l.addr)
    | .pad t _ => (2, t)
    | .ctrl t _ => (2, t)
    | _ => (3, 0)

/-- The line that holds a byte (R7). -/
def Loc.line (l : Loc) : Loc := ⟨l.dev, l.addr / 64 * 64⟩

/-- The field die of a tile (R4). -/
def State.tileDie (s : State) (t : Nat) : Nat := s.tileRow t / 33

/-- The core kind of a number (R95). -/
def coreOf (n : Nat) : Core := if n = 0 then .m else if n = 1 then .c else .a

/-- The slot of a member number on a tile (R95). -/
def slotOf (tile m : Nat) : SlotId := ⟨tile, coreOf (m / 8), m % 8⟩

/-! ## Tiles, rows and strands -/

def State.tile (s : State) (t : Nat) : Tile := (assocGet s.tiles t).getD Tile.initial
def State.setTile (s : State) (t : Nat) (x : Tile) : State := { s with tiles := assocSet s.tiles t x }
def State.modTile (s : State) (t : Nat) (f : Tile → Tile) : State := s.setTile t (f (s.tile t))
def State.rowAt (s : State) (r : Nat) : Row := (assocGet s.rows r).getD Row.initial
def State.modRow (s : State) (r : Nat) (f : Row → Row) : State := { s with rows := assocSet s.rows r (f (s.rowAt r)) }

/-- A launch that is not complete, by its number. -/
def State.launch? (s : State) (lid : Nat) : Option Launch := s.launches.find? fun l => l.lid = lid

/-- The strand in a slot, if it holds one. -/
def State.strand? (s : State) (x : SlotId) : Option Strand := assocGet (s.tile x.tile).strands x.member

def State.setStrand (s : State) (x : SlotId) (st : Strand) : State :=
  s.modTile x.tile fun t => { t with strands := assocSet t.strands x.member st }

/-- The state with a slot's strand changed; an empty slot stays empty. -/
def State.modStrand (s : State) (x : SlotId) (f : Strand → Strand) : State :=
  match s.strand? x with
  | some st => s.setStrand x (f st)
  | none => s

/-- The state with a slot emptied (R239). -/
def State.dropStrand (s : State) (x : SlotId) : State :=
  s.modTile x.tile fun t => { t with strands := t.strands.filter fun p => p.1 != x.member }

/-- The slots of a tile that hold a strand. -/
def State.tileSlots (s : State) (t : Nat) : List SlotId := (s.tile t).strands.map fun p => slotOf t p.1

/-- Every slot that holds a strand. -/
def State.allSlots (s : State) : List SlotId := s.tiles.flatMap fun p => p.2.strands.map fun q => slotOf p.1 q.1

/-! ## Registers -/

/-- Reading a scalar specifier (Table 1.2, R18): z reads 0, pc the address of the executing instruction. -/
def Strand.rs (st : Strand) (x : Spec) : Word :=
  let n := x.toNat
  if n < 32 then st.regs.s.getD n 0
  else if n < 40 then st.regs.o.getD (n - 32) 0
  else if n = 40 then st.regs.q
  else if n = 42 then st.regs.pc
  else if n = 43 then st.sid
  else 0

/-- Reading a vector specifier (Table 1.2, R18): zv reads 0. -/
def Strand.rv (st : Strand) (x : Spec) : V128 :=
  let n := x.toNat
  if n < 32 then st.regs.v.getD n 0
  else if n < 36 then st.regs.w.getD (n - 32) 0
  else if n = 40 then st.regs.qv
  else 0

def Strand.modRegs (st : Strand) (f : Regs → Regs) : Strand := { st with regs := f st.regs }

/-- Writing the named scalar register alone; z, pc and sid discard (R18). -/
def Regs.setS (r : Regs) (x : Spec) (v : Word) : Regs :=
  let n := x.toNat
  if n < 32 then { r with s := r.s.setIfInBounds n v }
  else if n < 40 then { r with o := r.o.setIfInBounds (n - 32) v }
  else if n = 40 then { r with q := v }
  else r

/-- Writing the named vector register alone; zv discards (R18). -/
def Regs.setV (r : Regs) (x : Spec) (v : V128) : Regs :=
  let n := x.toNat
  if n < 32 then { r with v := r.v.setIfInBounds n v }
  else if n < 36 then { r with w := r.w.setIfInBounds (n - 32) v }
  else if n = 40 then { r with qv := v }
  else r

/-- A short scalar result: to d and to q; z discards and leaves q (R18). -/
def Strand.putS (st : Strand) (d : Spec) (v : Word) : Strand :=
  if d = 41 then st else st.modRegs fun r => { r.setS d v with q := v }

/-- A short vector result: to d and to qv; zv discards and leaves qv (R18). -/
def Strand.putV (st : Strand) (d : Spec) (v : V128) : Strand :=
  if d = 41 then st else st.modRegs fun r => { r.setV d v with qv := v }

/-- A long result written where it returns: to d alone, so q changes only when d is q (R18, R108). -/
def Strand.putLong (st : Strand) (d : Dest) (v : V128) : Strand :=
  st.modRegs fun r => if d.vec then r.setV d.spec v else r.setS d.spec (v.setWidth 64)

def Strand.setPc (st : Strand) (v : Word) : Strand := st.modRegs fun r => { r with pc := v }

/-- Whether a register awaits a long result (R108); z and zv never do. -/
def Strand.outstanding (st : Strand) (vec : Bool) (x : Spec) : Bool :=
  x != 41 && st.longs.any fun l => l.dest.vec == vec && l.dest.spec == x

/-- The depth of the open transaction (R217). -/
def Strand.depth (st : Strand) : Nat :=
  match st.tx with
  | some t => t.levels.length
  | none => 0

def Strand.inTx (st : Strand) : Bool := decide (0 < st.depth)

/-- TXSTAT (Table 11.3). -/
def Strand.txstat (st : Strand) : Word :=
  BitVec.ofNat 64 (256 * st.depth) ||| st.regs.txReason.setWidth 64

/-- STATUS (Table 15.2). -/
def Strand.status (st : Strand) : Word :=
  BitVec.ofNat 64 ((if st.det then 4 else 0) + (if st.sup && st.ie then 2 else 0) + (if st.sup then 1 else 0))

/-- ASID of the strand's address space (Table 3.3). -/
def asidOf (ptroot : Word) : BitVec 16 := ptroot.setWidth 16

/-- A word that carries a code in bits [63:56] and a value below (R246, R53). -/
def codeWord (code low : Nat) : Word := BitVec.ofNat 64 (code * 0x100000000000000 + low % 0x100000000000000)

/-! ## Machine-check banks -/

def satInc (x : BitVec 32) : BitVec 32 := if x = 0xFFFFFFFF then x else x + 1

/-- Logging an error (R318): classes 1 corrected, 2 contained, 3 fatal. -/
def Bank.log (b : Bank) (cls : BitVec 2) (src : BitVec 8) (strand : BitVec 5) (addr detail : Word) : Bank :=
  let c := if cls = 1 then { b with corr := satInc b.corr } else { b with unc := satInc b.unc }
  if !b.v then { c with v := true, ovf := false, cls := cls, src := src, strand := strand, addr := addr, detail := detail }
  else if b.cls.toNat < cls.toNat then
    { c with ovf := true, cls := cls, src := src, strand := strand, addr := addr, detail := detail }
  else { c with ovf := true }

def State.modBank (s : State) (b : BankId) (f : Bank → Bank) : State :=
  match b with
  | .tile n => s.modTile n fun t => { t with bank := f t.bank }
  | .home n => { s with homeBanks := assocSet s.homeBanks n (f ((assocGet s.homeBanks n).getD Bank.initial)) }
  | .port n => { s with portBanks := assocSet s.portBanks n (f ((assocGet s.portBanks n).getD Bank.initial)) }

def State.bankOf (s : State) (b : BankId) : Bank :=
  match b with
  | .tile n => (s.tile n).bank
  | .home n => (assocGet s.homeBanks n).getD Bank.initial
  | .port n => (assocGet s.portBanks n).getD Bank.initial

/-- The bank that logs an error of an access to a place (R63, R91, R356): the home's, the tile's, or the port's it left by, which is one of
the 18 Stavlink ports (R355); the route to a device is not given, so it is a free constant of the device (log 8). -/
def State.bankFor (s : State) (l : Loc) : BankId :=
  if l.dev != thisDev then .port (8 + Config.portOf l.dev % 18)
  else match s.region l.addr with
    | .pad t _ => .tile t
    | .ctrl t _ => .tile t
    | .hbm => .home (homeOf l.addr)
    | _ => .port 26

/-- The unit that an error of an access to a place names in SRC (Table 15.10). -/
def State.srcFor (s : State) (l : Loc) : BitVec 8 :=
  if l.dev != thisDev then 9
  else match s.region l.addr with
    | .pad _ _ => 5
    | .ctrl _ _ => 5
    | .hbm => 8
    | _ => 9

/-! ## Events of the tile supervisor -/

/-- Queueing an event (R306): a full queue leaves it waiting at its source, in arrival order. -/
def Tile.queueEvent (t : Tile) (e : Event) : Tile :=
  if t.events.length < 64 && t.waiting.isEmpty then { t with events := t.events ++ [e] }
  else { t with waiting := t.waiting ++ [e] }

/-- The entry for an event (R306): V, GONE, CODE, the strand's sid. -/
def eventEntry (gone : Bool) (code : Nat) (sid : Word) : Word :=
  BitVec.ofNat 64 (0x8000000000000000 + (if gone then 0x4000000000000000 else 0) + code % 256 * 0x10000000000)
    ||| (sid &&& 0x3FFFFFFFFF)

/-- Popping the oldest entry (R306): the entry read, and the tile with SEVDET set; an empty queue reads 0. -/
def Tile.popEvent (t : Tile) : Word × Tile :=
  match t.events with
  | [] => (0, t)
  | e :: r =>
    (e.entry, { t with sevdet := e.detail, events := r ++ t.waiting.take 1, waiting := t.waiting.drop 1 })

/-! ## Watches, wakes and reservations -/

/-- The lines of the Cell Table and of the sheets lie where the firmware keeps them (R50, R256): they are named here by the cell
or sheet number under device numbers that no address has (log 11). -/
def cellDev : Nat := 0x10000
def sheetDev : Nat := 0x10001

/-- The domain address that TXADDR and a weir entry show for a line (Tables 11.3, 11.5): a scratchpad address for a line that
lds or sts reached, else the device number and the local address. -/
def State.lineAddr (s : State) (sp : Bool) (l : Loc) : Nat :=
  if sp then l.addr % 0x100000
  else if l.dev = cellDev || l.dev = sheetDev then (Config.tableLine l.dev l.addr).toNat
  else (if l.dev = thisDev then s.devno.toNat else l.dev) * 0x100000000000 + l.addr

/-- A strand that may issue, unless the mark of the word that it issued last still parks it (R16). -/
def Strand.onward (st : Strand) : Run := if st.mark && !st.longs.isEmpty then .parked else .ready

/-- A strand that goes on at another place: one that its mark parks stays parked (R16, R109). -/
def Strand.goOn (st : Strand) : Run := if st.run = .parked && !st.longs.isEmpty then .parked else .ready

/-- A deterministic lane's chunk that has not begun starts from the registers that the lane has now (R300). -/
def Strand.freshChunk (st : Strand) : Strand :=
  { st with chunk := st.chunk.map fun c => if c.count = 0 && !c.ended then { c with start := st.regs, startTx := st.tx } else c }

/-- A strand woken (R220): it resumes at TXPC with REASON 0x08; out of the rotation, the wake waits (R223). -/
def Strand.wake (st : Strand) (addr : Word) : Strand :=
  match st.run, st.tx with
  | .asleep, some t =>
    { st with
      run := st.onward
      tx := none
      regs := { st.regs with pc := t.txpc, skipn := 0, txReason := 8, txaddr := addr } }.freshChunk
  | .preempted _, some t =>
    if t.levels.isEmpty && st.wakeReq.isNone then { st with wakeReq := some addr } else st
  | .held .wave, _ => { st with run := .ready }
  | _, _ => st

/-- The members of the row-shaped wave that a strand belongs to; the strand alone otherwise (R222). -/
def State.sleepers (s : State) (x : SlotId) : List SlotId :=
  match (s.strand? x).bind (·.wave) with
  | none => [x]
  | some w =>
    match s.waves.find? (·.num = w) with
    | some wv => if wv.row then wv.members else [x]
    | none => [x]

/-- Dropping a strand's entries in its tile's weir table (R219, R224). -/
def State.dropWeir (s : State) (x : SlotId) : State :=
  s.modTile x.tile fun t => { t with weir := t.weir.filter fun e => e.member != x.member }

/-- Waking a strand, and with it the wave that sleeps with it (R220, R222). -/
def State.wakeAt (s : State) (x : SlotId) (addr : Word) : State :=
  (s.sleepers x).foldl (fun s y =>
    let s := s.modStrand y fun st => st.wake addr
    match s.strand? y with
    | some st => if st.tx.isSome then s else s.dropWeir y
    | none => s) s

/-- Whether the strand's row-shaped wave sleeps: another member retried and is asleep (R222). -/
def State.waveSleeps (s : State) (x : SlotId) : Bool :=
  (s.sleepers x).any fun y => y != x && ((s.strand? y).map fun (st : Strand) => decide (st.run = .asleep)).getD false

/-- The sleeping strands of a tile that watch a line, with the form in which they read it. -/
def Tile.watching (t : Tile) (l : Loc) : List (Nat × Bool) :=
  (t.weir.filter fun e => e.sleep && e.live && e.line = l).map fun e => (e.member, e.sp)

/-- The launch of a writer that is a deterministic lane: its writes are the commits of R300. -/
def State.laneOf (s : State) (writer : Option SlotId) : Option Nat :=
  ((writer.bind s.strand?).filter fun (st : Strand) => st.chunk.isSome).map (·.lid)

/-- Whether a strand is a lane of a launch. -/
def Strand.isLane (st : Strand) (lane : Option Nat) : Bool := st.chunk.isSome && lane = some st.lid

/-- A read of a deterministic lane's chunk that a commit has made stale (R300); `watched` when the lane's transaction, or its sleep, reads the
line. -/
def Strand.hitChunk (st : Strand) (watched : Bool) (l : Loc) : Strand :=
  { st with chunk := st.chunk.map fun c => { c with
      reads := (c.reads.map fun r => if r.1 = l then (l, true) else r)
        ++ if watched && (st.inTx || c.ended) then [(l, true)] else [] } }

/-- A write to a line as a tile's strands see it (R216, R300): every other party's read of the line is hit. The commit of a deterministic lane
makes the chunks of its launch's other lanes stale, explicit transactions and all, so that they are squashed in their places. -/
def Tile.hitLine (t : Tile) (n : Nat) (writer : Option SlotId) (lane : Option Nat) (l : Loc) : Tile :=
  let fellow := fun (m : Nat) => ((assocGet t.strands m).map fun st => st.isLane lane).getD false
  let here := fun (e : Weir) => e.line = l && e.live && writer != some (slotOf n e.member)
  { t with
    weir := t.weir.map fun e => if here e && !fellow e.member then { e with hit := true } else e
    strands := t.strands.map fun p =>
      (p.1, if writer != some (slotOf n p.1) && p.2.isLane lane then p.2.hitChunk (t.weir.any fun e => here e && e.member = p.1) l else p.2) }

/-- A write performed to a line (R216, R220, R213): every other party's read of it is hit, sleepers wake, reservations end. -/
def State.notifyLine (s : State) (writer : Option SlotId) (l : Loc) : State :=
  let lane := s.laneOf writer
  let s1 : State := { s with
    tiles := s.tiles.map fun p => (p.1, p.2.hitLine p.1 writer lane l)
    spills := s.spills.map fun p => if p.strand.isLane lane then { p with strand := p.strand.hitChunk false l } else p
    watches := s.watches.filter fun w => !(w.kind = 1 && w.line = l) }
  s1.tiles.foldl (fun s2 p =>
    (p.2.watching l).foldl (fun s3 m =>
      s3.wakeAt (slotOf p.1 m.1) (BitVec.ofNat 64 (s.lineAddr m.2 l))) s2) s1

/-- The lines that n bytes at a place touch. -/
def linesOf (l : Loc) (n : Nat) : List Loc :=
  (List.range ((l.addr + n + 63) / 64 - l.addr / 64)).map fun i => ⟨l.dev, (l.addr / 64 + i) * 64⟩

def State.notify (s : State) (writer : Option SlotId) (l : Loc) (n : Nat) : State :=
  (linesOf l n).foldl (fun s l => s.notifyLine writer l) s

/-- The line of the tile's control region at an offset (Table 5.2). -/
def State.ctrlLoc (s : State) (t off : Nat) : Loc := ⟨thisDev, s.padBase t + 0x100000 + off⟩

/-! ## Writing memory -/

/-- Whether n bytes at an address cover a word whole. -/
def coversWord (a n w : Nat) : Bool := decide (a ≤ 8 * w) && decide (8 * w + 8 ≤ a + n)

/-- Writing bytes into HBM or a scratchpad of this device: the words become full (R60), and those that it covers whole hold no error any
more (R91). -/
def State.putBytes (s : State) (a : Nat) (bs : List Byte) : State :=
  { s with
    mem := memSetBytes s.mem a bs
    full := (wordsOf a bs.length).foldl natInsert s.full
    badWords := s.badWords.filter fun w => !coversWord a bs.length w
    weakWords := s.weakWords.filter fun w => !coversWord a bs.length w }

/-! ## What another path class may still miss (R82, R182, R202, R205, log 18) -/

/-- The path classes of Table 10.5. -/
def pathStrand : Nat := 0
def pathCopy : Nat := 1
def pathMatrix : Nat := 2
def pathRouter : Nat := 3
def pathCell : Nat := 4
def pathIo : Nat := 5

/-- The bytes of a write that lie in each 16-byte unit, as they were before it. -/
def State.oldUnits (s : State) (a n : Nat) : List (List (Nat × Byte)) :=
  (List.range ((a + n + 15) / 16 - a / 16)).map fun u =>
    (List.range 16).filterMap fun i =>
      let k := (a / 16 + u) * 16 + i
      if a ≤ k && k < a + n then some (k, memGet s.mem k) else none

/-- Whether an address lies in some ranges: first address, the one after the last. -/
def inRanges (rs : List (Nat × Nat)) (a : Nat) : Bool := rs.any fun p => decide (p.1 ≤ a) && decide (a < p.2)

/-- A class misses no write to the bytes that a test names any more. -/
def lagsDrop (ks : List Lag) (cls : Nat) (gone : Nat → Bool) : List Lag :=
  ks.filterMap fun k =>
    if k.reader = cls then
      let old := k.old.filter fun p => !gone p.1
      if old.isEmpty then none else some { k with old := old }
    else some k

/-- A class misses no write to n bytes any more. -/
def lagsSeen (ks : List Lag) (cls a n : Nat) : List Lag := lagsDrop ks cls (inRanges [(a, a + n)])

/-- A class is about to write n bytes: it misses nothing of its own there any more, nor does a class that sees this write at once; the classes
that may lag behind it may miss it. The bytes that lie in `shadow` the cell class misses in any case (R205). -/
def State.lagWrite (s : State) (cls op a n : Nat) (shadow : List (Nat × Nat)) : State :=
  if s.lagOn.isEmpty && s.lags.isEmpty && shadow.isEmpty then s
  else
    let misses := fun (r k : Nat) => r != cls && (s.lagOn.contains (cls, r) || (r = pathCell && inRanges shadow k))
    let here := inRanges [(a, a + n)]
    let kept := (List.range 6).foldl (fun ks r => lagsDrop ks r fun k => here k && !misses r k) s.lags
    let new := (List.range 6).flatMap fun r => (s.oldUnits a n).filterMap fun unit =>
      let old := unit.filter fun p => misses r p.1
      if old.isEmpty then none else some (⟨r, cls, op, old, []⟩ : Lag)
    { s with lags := kept ++ new }

/-- Whether a lag concerns some of n bytes. -/
def Lag.meets (k : Lag) (a n : Nat) : Bool := k.old.any fun p => decide (a ≤ p.1) && decide (p.1 < a + n)

/-- A strand, by its own number, reads n bytes: what other classes may still miss of them and it does not has been read by it (R201). -/
def State.noteSeen (s : State) (uid a n : Nat) : State :=
  if s.lags.isEmpty then s
  else
    let misses := fun (k : Lag) => s.lags.any fun j => j.reader = pathStrand && j.writer = k.writer && j.op = k.op && j.meets a n
    { s with lags := s.lags.map fun k =>
        if k.reader != pathStrand && k.meets a n && !misses k then { k with seen := natInsert k.seen uid } else k }

/-- A byte as a class finds it: the oldest value that it may still miss the writes to, else memory's. -/
def State.viewByte (s : State) (reader a : Nat) (b : Byte) : Byte :=
  (s.lags.findSome? fun k => if k.reader = reader then (k.old.find? fun p => p.1 = a).map (·.2) else none).getD b

/-- Bytes found at an address as a class finds them. -/
def State.viewOver (s : State) (reader a : Nat) (bs : List Byte) : List Byte :=
  if s.lags.isEmpty then bs else bs.mapIdx fun i b => s.viewByte reader (a + i) b

/-- A write performed in HBM or a scratchpad by a path class's operation, seen by whoever watches its lines. -/
def State.store (s : State) (writer : Option SlotId) (a : Nat) (bs : List Byte) (cls : Nat := pathStrand) (op : Nat := 0)
    (shadow : List (Nat × Nat) := []) : State :=
  ((s.lagWrite cls op a bs.length shadow).putBytes a bs).notify writer ⟨thisDev, a⟩ bs.length

/-- Emptying a word (R60, R214): a change of its line. -/
def State.emptyWord (s : State) (writer : Option SlotId) (w : Nat) : State :=
  { s with full := s.full.filter (· != w) }.notify writer ⟨thisDev, 8 * w⟩ 8

def State.isFull (s : State) (a : Nat) : Bool := s.full.contains (a / 8)

def State.readBytes (s : State) (a n : Nat) : List Byte := memBytes s.mem a n
def State.readNat (s : State) (a n : Nat) : Nat := bytesToNat (s.readBytes a n)
def State.readWord (s : State) (a : Nat) : Word := BitVec.ofNat 64 (s.readNat a 8)

/-- n bytes of this device as a path class finds them. -/
def State.viewBytes (s : State) (reader a n : Nat) : List Byte := s.viewOver reader a (s.readBytes a n)
def State.viewNat (s : State) (reader a n : Nat) : Nat := bytesToNat (s.viewBytes reader a n)

/-! ## Free values -/

/-- A value that the spec leaves open, fresh each time (log 8). -/
def State.free (s : State) : Word × State := (Config.freeWord s.freeCount, { s with freeCount := s.freeCount + 1 })

/-! ## Ending a transaction -/

/-- An access in flight of a strand whose transaction aborts: its lines are watched no more, and an ldc leaves its word full, since its
emptying was an effect of the write set (R215, R219). -/
def Access.abandoned (a : Access) : Access :=
  if a.inTx then { a with inTx := false, op := match a.op with | .ldc => .load 8 false | o => o } else a

/-- The lines that a strand's transaction, or its sleep, has read: those of the chunk that it is part of (R299). -/
def State.readLines (s : State) (x : SlotId) : List (Loc × Bool) :=
  ((s.tile x.tile).weir.filter fun e => e.member = x.member).map fun e => (e.line, false)

/-- A deterministic lane's chunk that ends with its transaction (R299). -/
def Chunk.endWith (c : Chunk) (lines : List (Loc × Bool)) : Chunk := { c with ended := true, reads := c.reads ++ lines }

/-- The abort of the whole transaction, if one is open (R219). It ends a deterministic lane's chunk (R299). -/
def State.abortTx (s : State) (x : SlotId) (reason : BitVec 8) (addr : Word) : State :=
  match s.strand? x with
  | none => s
  | some st =>
    match st.tx with
    | none => s
    | some t =>
      match t.levels.getLast? with
      | none => s
      | some l =>
        let st' := { st with
          run := st.goOn
          tx := none
          abortReq := none
          redo := none
          chunk := st.chunk.map fun c => c.endWith (s.readLines x)
          regs := { st.regs with pc := l.tgt, skipn := 0, txReason := reason, txaddr := addr } }
        let s := (s.setStrand x st').dropWeir x
        { s with flight := s.flight.map fun a => if a.who = x then a.abandoned else a }

/-- The address of the outermost level's target: where an abort resumes (R219). -/
def Strand.tgt1 (st : Strand) : Option Word := (st.tx.bind (·.levels.getLast?)).map (·.tgt)

/-- The end of the reservation that a strand holds (R213). -/
def State.endRsv (s : State) (x : SlotId) : State :=
  { (s.modStrand x fun st => { st with rsv := none }) with
    watches := s.watches.filter fun w => !(w.dev = thisDev && w.kind = 1 && w.tile = x.tile && w.member = x.member) }

/-- An ldx of a strand, issued before a mark, that is still to be performed: it reserves no more, and only loads (R213). -/
def Access.unreserve (a : Access) (x : SlotId) (mark : Nat) : Access :=
  if a.who = x && decide (a.id < mark) && !a.done && a.op = .ldx then { a with op := .load 8 false } else a

/-- Dropping the ldx reservation (R213), and that of an ldx still on its way. -/
def State.dropRsv (s : State) (x : SlotId) : State :=
  { (s.endRsv x) with flight := s.flight.map fun a => a.unreserve x s.nextId }

end Sys2Proof.Machine
end

