-- ==== Sys2Proof/Machine/Context.lean ====
section
/-!
DEFINITION. Context blocks of the spill engine (spec/15 R312, Table 15.8) and changes of a strand that lies in one.
-/

namespace Sys2Proof.Machine

def wordBytes (ws : List Word) : List Byte := ws.flatMap fun w => natToBytes 8 w.toNat
def vecBytes (v : V128) : List Byte := natToBytes 128 v.toNat
def recBytes (r : Vector Rec 5) : List Byte := wordBytes (r.toList.flatMap fun k => [k.base, k.desc])

/-- OUTST: the scalar registers that await a result left pending. -/
def Strand.outst (st : Strand) : Word :=
  BitVec.ofNat 64 ((List.range 42).foldl (fun n i => if st.outstanding false (BitVec.ofNat 6 i) then n + 2 ^ i else n) 0)

/-- The part of a block that every strand has: 2 KiB. -/
def Strand.blockHead (st : Strand) (core : Core) : List Byte :=
  let r := st.regs
  wordBytes (r.s.toList ++ r.o.toList
      ++ [r.q, r.pc, r.skipn.setWidth 64, r.fctl, r.slim, r.padlo, r.padhi, r.ptroot, st.txstat, r.txaddr, r.cellbase, r.cellgen,
        st.tepc, st.tcause, st.tdetail, st.status]
      ++ r.cycw.toList
      ++ (if core = .m then r.shadow.toList.flatMap (·.toList) else List.replicate 168 0)
      ++ [st.outst])
    ++ List.replicate 0xB8 0

/-- The vector part: to 0x1B00. -/
def Strand.blockVec (st : Strand) : List Byte :=
  (st.regs.lfsr.toList.flatMap fun x => natToBytes 4 x.toNat) ++ (st.regs.w.toList.flatMap vecBytes) ++ vecBytes st.regs.qv
    ++ st.regs.v.toList.flatMap vecBytes

/-- The matrix part: to 0xDC00. -/
def Matrix.block (m : Matrix) : List Byte :=
  let snap := fun (o : Option MatOp) => recBytes ((o.map (·.recs)).getD (Vector.replicate 5 Rec.initial))
  recBytes m.recs
    ++ wordBytes [BitVec.ofNat 64 m.mprog, BitVec.ofNat 64 ((if m.pending.isSome then 2 else 0) + if m.running.isSome then 1 else 0)]
    ++ snap m.running ++ snap m.pending
    ++ (List.range 6144).flatMap fun k =>
      let p := (assocGet m.acc k).getD (0, 0)
      natToBytes 4 p.1.toNat ++ natToBytes 4 p.2.toNat

/-- The context block of a spilled strand. -/
def Spilled.block (p : Spilled) : List Byte :=
  p.strand.blockHead p.at_.core ++ (if p.at_.core = .m then [] else p.strand.blockVec)
    ++ (match p.mat with | some m => m.block | none => [])

/-! ## What a block gives back -/

def wordAt (bs : List Byte) (off : Nat) : Word := BitVec.ofNat 64 (bytesToNat ((bs.drop off).take 8))
def vecAt (bs : List Byte) (off : Nat) : V128 := BitVec.ofNat 1024 (bytesToNat ((bs.drop off).take 128))
def recAt (bs : List Byte) (off : Nat) : Vector Rec 5 :=
  Vector.ofFn fun k => ⟨wordAt bs (off + 16 * k.val), wordAt bs (off + 16 * k.val + 8)⟩

/-- The registers that every block holds. STATUS has no field that a restore could change, and OUTST follows the results that are pending;
pc stays a multiple of 4 (R13; DESIGN CHOICE, log 56). -/
def Strand.readHead (st : Strand) (core : Core) (bs : List Byte) : Strand :=
  let w := fun i => wordAt bs (8 * i)
  { st with
    tepc := w 52
    tcause := w 53
    tdetail := w 54
    regs := { st.regs with
      s := Vector.ofFn fun i => w i.val
      o := Vector.ofFn fun i => w (32 + i.val)
      q := w 40
      pc := w 41 &&& 0xFFFFFFFFFFFFFFFC
      skipn := (w 42).setWidth 2
      fctl := w 43
      slim := w 44
      padlo := w 45
      padhi := w 46
      ptroot := w 47
      txReason := (w 48).setWidth 8
      txaddr := w 49
      cellbase := w 50
      cellgen := w 51
      cycw := Vector.ofFn fun i => w (56 + i.val)
      shadow := if core = .m then Vector.ofFn (fun c => Vector.ofFn fun i => w (64 + 42 * c.val + i.val)) else st.regs.shadow } }

/-- The vector registers of a block. -/
def Strand.readVec (st : Strand) (bs : List Byte) : Strand :=
  { st with regs := { st.regs with
      lfsr := Vector.ofFn fun i => BitVec.ofNat 32 (bytesToNat ((bs.drop (0x800 + 4 * i.val)).take 4))
      w := Vector.ofFn fun i => vecAt bs (0x880 + 128 * i.val)
      qv := vecAt bs 0xA80
      v := Vector.ofFn fun i => vecAt bs (0xB00 + 128 * i.val) } }

/-- The matrix engine's state of a block; which tiles an operation runs on stays with it. -/
def Matrix.readBlock (m : Matrix) (bs : List Byte) : Matrix :=
  let flags := (wordAt bs 0x1B58).toNat
  let op := fun (o : Option MatOp) (on : Bool) (off : Nat) =>
    if on then some (⟨recAt bs off, (o.map (·.gang)).getD []⟩ : MatOp) else none
  { m with
    recs := recAt bs 0x1B00
    mprog := (wordAt bs 0x1B50).toNat
    running := op m.running (flags % 2 = 1) 0x1B60
    pending := op m.pending (flags / 2 % 2 = 1) 0x1BB0
    acc := (List.range 6144).filterMap fun k =>
      let h := BitVec.ofNat 32 (bytesToNat ((bs.drop (0x1C00 + 8 * k)).take 4))
      let l := BitVec.ofNat 32 (bytesToNat ((bs.drop (0x1C04 + 8 * k)).take 4))
      if h = 0 && l = 0 then none else some (k, (h, l)) }

/-- A spilled strand as its block in HBM now has it: what nobody has changed there is as it was saved (R312). -/
def State.blockNow (s : State) (p : Spilled) : Spilled :=
  let b := p.block
  let bs := s.readBytes p.base b.length
  if bs = b then p
  else
    let st := p.strand.readHead p.at_.core bs
    { p with strand := if p.at_.core = .m then st else st.readVec bs, mat := p.mat.map fun m => m.readBlock bs }

/-- A change of strands that lie in context blocks; the blocks follow (R111, R312). -/
def State.modSpilled (s : State) (sel : Spilled → Bool) (f : Spilled → Spilled) : State :=
  let changed := (s.spills.filter sel).map fun p => f (s.blockNow p)
  let s : State := { s with spills := s.spills.map fun p => if sel p then f (s.blockNow p) else p }
  changed.foldl (fun s p => s.putBytes p.base p.block) s

/-- A change of a strand, told by its slot and its own number, be it in its slot or in its context block (R111, R312). -/
def State.modUid (s : State) (x : SlotId) (uid : Nat) (f : Strand → Strand) : State :=
  if ((s.strand? x).map (·.uid)) = some uid then s.modStrand x f
  else s.modSpilled (fun p => p.at_ = x && p.strand.uid = uid) fun p => { p with strand := f p.strand }

/-- Whether a strand is anywhere still, in its slot or in its context block. -/
def State.lives (s : State) (x : SlotId) (uid : Nat) : Bool :=
  ((s.strand? x).map (·.uid)) = some uid || s.spills.any fun p => p.at_ = x && p.strand.uid = uid

end Sys2Proof.Machine
end

