-- ==== Sys2Proof/Machine/Graph.lean ====
section
/-!
DEFINITION. The cell graph of the sluices (spec/13): freshness, ranks, stale marks, task records, publication and faulting.
The instructions and events that reach it are in Machine/Cells.lean.
-/

namespace Sys2Proof.Machine

/-- The number that stands for no launch, where a launch's number would stand. -/
def noLaunch : Nat := 4096

def State.cell? (s : State) (c : Nat) : Option Cell := s.cells.find? fun (x : Cell) => x.num = c
def State.sheet? (s : State) (n : Nat) : Option Sheet := s.sheets.find? fun (x : Sheet) => x.num = n

/-- A cell's entry set: a change of it is a write to its line (R256). -/
def State.putCell (s : State) (c : Cell) : State :=
  if s.cell? c.num = some c then s
  else { s with cells := s.cells.map fun (x : Cell) => if x.num = c.num then c else x }.notifyLine none ⟨cellDev, c.num⟩

def State.modCell (s : State) (n : Nat) (f : Cell → Cell) : State :=
  match s.cell? n with
  | some c => s.putCell (f c)
  | none => s

def State.modSheet (s : State) (n : Nat) (f : Sheet → Sheet) : State :=
  { s with sheets := s.sheets.map fun (x : Sheet) => if x.num = n then f x else x }

/-- A change of a sheet, which is a write to its line when its generation or its settled generation changes (R256). -/
def State.modGens (s : State) (n : Nat) (f : Sheet → Sheet) : State :=
  let t := s.modSheet n f
  if (t.sheet? n).map (fun (x : Sheet) => (x.gen, x.settled)) = (s.sheet? n).map (fun (x : Sheet) => (x.gen, x.settled)) then t
  else t.notifyLine none ⟨sheetDev, n⟩

/-- A change of a sheet's pending edits, which is a write to the line of every cell whose edit changes (R256). -/
def State.modEdits (s : State) (n : Nat) (f : List Edit → List Edit) : State :=
  match s.sheet? n with
  | none => s
  | some sh =>
    let new := f sh.edits
    let of := fun (es : List Edit) (c : Nat) => es.find? fun e => e.cell = c
    let touched := ((sh.edits ++ new).map (·.cell)).foldl natInsert []
    (touched.filter fun c => of sh.edits c != of new c).foldl (fun s c => s.notifyLine none ⟨cellDev, c⟩)
      (s.modSheet n fun sh => { sh with edits := new })

/-- The newest stale mark of a cell at or below a generation, above the version that a buffer holds (R258). A mark from before an edit that
unbound the cell says nothing of the generations from that edit on, at which the cell was an input. -/
def Cell.markIn (c : Cell) (low h : Nat) : Option Nat :=
  (c.marks.filter fun g => decide (low < g) && decide (g ≤ h) && !(c.freed.any fun f => decide (g < f) && decide (f ≤ h))).foldl (fun r g =>
    match r with
    | none => some g
    | some k => some (Nat.max k g)) none

/-- The buffer that holds a cell's value for a generation (R258): false BUF0, true BUF1; none when the cell is not fresh there. An input committed
at h and bound by an edit applied at h has VERSION h and the stale mark h: it is taken as fresh at h, since a mark must lie above the version
that a buffer holds to make it stale; CSTAT.STATE and the tasks seeded at h follow the mark (DESIGN CHOICE, log 65). -/
def Cell.freshAt (c : Cell) (h : Nat) : Option Bool :=
  if decide (c.version ≤ h) && (c.input || (c.markIn c.version h).isNone) then some c.cur
  else if decide (c.sver ≤ h) && decide (h < c.version) && (c.input || (c.markIn c.sver h).isNone) then some (!c.cur)
  else none

/-- Whether the value for a generation failed (R265): the newest mark up to it is a faulted one. -/
def Cell.faultedAt (c : Cell) (h : Nat) : Bool :=
  match c.markIn c.version h with
  | some g => !c.input && c.faulted.contains g
  | none => false

def Cell.buf (c : Cell) (b : Bool) : Word := if b then c.buf1 else c.buf0
def Cell.pins (c : Cell) (b : Bool) : Nat := if b then c.pin1 else c.pin0
def Cell.setPins (c : Cell) (b : Bool) (n : Nat) : Cell := if b then { c with pin1 := n } else { c with pin0 := n }

/-- Precedents of a cell under its pending edit if there is one, else under its formula (R269). -/
def State.precs (s : State) (sh : Sheet) (c : Nat) : List Nat :=
  match sh.edits.find? fun e => e.cell = c with
  | some e => (e.form.map (·.precs)).getD []
  | none => (((s.cell? c).bind (·.formula)).map (·.precs)).getD []

/-- Cells reached from a set in one or more steps of a relation; the fuel bounds the number of rounds. -/
def closure (step : Nat → List Nat) : Nat → List Nat → List Nat
  | 0, seen => seen
  | k + 1, seen => closure step k ((seen.flatMap step).foldl natInsert seen)

/-- The cells of a sheet. -/
def State.cellsOf (s : State) (n : Nat) : List Cell := s.cells.filter fun c => c.sheet = n

/-- The dependants of a cell under the formulas in force. -/
def State.dependants (s : State) (c : Nat) : List Nat :=
  (s.cells.filter fun d => ((d.formula.map (·.precs)).getD []).contains c).map (·.num)

/-- Every transitive dependant of some cells (R260). -/
def State.allDependants (s : State) (cs : List Nat) : List Nat :=
  closure s.dependants s.cells.length ((cs.flatMap s.dependants).foldl natInsert [])

/-- The cycle set of binding X to P (R269): empty when X cannot reach itself. -/
def State.cycleSet (s : State) (sh : Sheet) (x : Nat) (p : List Nat) : List Nat :=
  let prec := fun c => if c = x then p else s.precs sh c
  let n := s.cells.length + 1
  let reach := closure prec n (p.foldl natInsert [])
  if reach.contains x then
    let back := fun c => c = x || (closure prec n ((prec c).foldl natInsert [])).contains x
    reach.filter fun c => back c
  else []

/-- The ranks that a precedence relation gives, by rounds of relaxation (R267): an input has rank 0. -/
def ranksOf (form : Nat → Option (List Nat)) (cells : List Nat) : Nat → (Nat → Nat) → (Nat → Nat)
  | 0, r => r
  | k + 1, r =>
    let next := cells.map fun c =>
      (c, match form c with
        | none => 0
        | some ps => (ps.map r).foldl Nat.max 0 + 1)
    ranksOf form cells k fun c => match next.find? fun p => p.1 = c with | some p => p.2 | none => 0

/-- The formula of a cell once every pending edit is applied, with one edit added. -/
def State.pendingForm (s : State) (sh : Sheet) (x : Nat) (p : Option (List Nat)) (c : Nat) : Option (List Nat) :=
  if c = x then p
  else match sh.edits.find? fun e => e.cell = c with
    | some e => e.form.map (·.precs)
    | none => ((s.cell? c).bind (·.formula)).map (·.precs)

/-- Whether binding X would give some cell of the sheet a rank above 65,535 (R270). -/
def State.rankTooHigh (s : State) (sh : Sheet) (x : Nat) (p : List Nat) : Bool :=
  let cs := (s.cellsOf sh.num).map (·.num)
  let r := ranksOf (s.pendingForm sh x (some p)) cs (cs.length + 1) (fun _ => 0)
  cs.any fun c => decide (65535 < r c)

/-- Recomputing every rank of a sheet (R267, R271). -/
def State.rerank (s : State) (n : Nat) : State :=
  let cs := (s.cellsOf n).map (·.num)
  let r := ranksOf (fun c => ((s.cell? c).bind (·.formula)).map (·.precs)) cs (cs.length + 1) (fun _ => 0)
  cs.foldl (fun s c => s.modCell c fun x => { x with rank := r c }) s

/-- Whether a task of a dependant still needs the value below VERSION (R257). -/
def State.shadowNeeded (s : State) (c : Cell) : Bool :=
  match s.sheet? c.sheet with
  | none => false
  | some sh => sh.seeds.any fun q => q.form.precs.contains c.num && decide (q.gen < c.version)

/-- Whether the shadow is held (R257). -/
def State.shadowHeld (s : State) (c : Cell) : Bool := c.pins (!c.cur) != 0 || s.shadowNeeded c

/-- CUR flips, SVER := VERSION, VERSION := h (R260 step 1, R264). -/
def Cell.publish (c : Cell) (h : Nat) : Cell :=
  { c with
    cur := !c.cur
    sver := c.version
    version := h
    marks := c.marks.filter fun g => decide (c.version < g)
    freed := c.freed.filter fun g => decide (c.version < g) }

/-- Inserting a task record in the order of timestamps (gen, rank, cell) (R261). -/
def seedInsert : List Seed → Seed → List Seed
  | [], q => [q]
  | p :: r, q =>
    if decide (q.gen < p.gen) || (q.gen = p.gen && (decide (q.rank < p.rank) || (q.rank = p.rank && decide (q.cell < p.cell))))
    then q :: p :: r else p :: seedInsert r q

/-- Taking a formula task out of the deques and overflow lists that hold it (R261). -/
def State.dropTask (s : State) (c gen : Nat) : State :=
  let keep := fun (t : Task) => match t.kind with | .formula c' g' => !(c' = c && g' = gen) | _ => true
  { s with tiles := s.tiles.map fun p =>
      (p.1, { p.2 with deque := p.2.deque.filter keep, overflow := p.2.overflow.filter keep }) }

/-- A task that ends, or never starts, without cdone: its cell is faulted at h (R265); an input cell stays fresh (Table 13.3). -/
def State.faultSeed (s : State) (n : Nat) (c h : Nat) : State :=
  let s := s.modSheet n fun sh => { sh with seeds := sh.seeds.filter fun q => !(q.cell = c && q.gen = h) }
  (s.dropTask c h).modCell c fun x => if x.input then x else { x with state := 3, faulted := natInsert x.faulted h }

/-- Dropping, in timestamp order, every task with a precedent faulted at its generation (R261, R265). -/
def State.cascade (s : State) (n : Nat) : State :=
  match s.sheet? n with
  | none => s
  | some sh => sh.seeds.foldl (fun s q =>
      if !q.taken && q.form.precs.any (fun p => ((s.cell? p).map (·.faultedAt q.gen)).getD false)
      then s.faultSeed n q.cell q.gen else s) s

/-- SETTLED: the newest generation up to which nothing is stale or computing (R258). -/
def Sheet.settledNow (sh : Sheet) : Nat :=
  match sh.seeds with
  | [] => sh.gen
  | q :: r => (r.foldl (fun m x => Nat.min m x.gen) q.gen) - 1

/-- The LAUNCH command of a strand's launch, by the strand's own number: a launch that has taken the same launch id since came after it. -/
def State.launchCmd (s : State) (lid uid : Nat) : Option Nat := (s.launches.find? fun l => l.lid = lid && decide (l.cmd < uid)).map (·.cmd)

/-- Adding an asynchronous delivery to a strand, resident or spilled (R310); to its tile's supervisor when it is gone (R78, R209). -/
def State.deliver (s : State) (x : SlotId) (uid : Nat) (sid : Word) (lid code : Nat) (detail : Word) : State :=
  if s.lives x uid then s.modUid x uid fun st => { st with asyncs := st.asyncs ++ [(code, detail)] }
  else s.modTile x.tile fun t => t.queueEvent ⟨eventEntry true code sid, detail, s.launchCmd lid uid⟩

/-- The long result of an access that fails is dropped, with the mark of its register, resident or spilled (R108, R279). -/
def State.dropLong (s : State) (id : Nat) (who : SlotId) (uid : Nat) : State :=
  { s with flight := s.flight.filter fun a => a.id != id }.modUid who uid fun st =>
    { st with longs := st.longs.filter fun l => l.id != id }

/-- The result that a unit has produced for a long result: its value, for the return; with z as its destination it is finished (R108). -/
def State.finishLong (s : State) (id : Nat) (v : Word) : State :=
  match s.flight.find? fun (a : Access) => a.id = id with
  | none => s
  | some a =>
    if (a.dest.map fun d => decide (d.spec = 41)).getD false then s.dropLong id a.who a.uid
    else { s with flight := s.flight.map fun a => if a.id = id then { a with done := true, value := v.setWidth 1024 } else a }

/-- What the sluice answers a waiting cwopen or cpin (R276, R279). -/
inductive Answer
  | wait
  /-- The entry as it becomes, and the address of the buffer. -/
  | give (c : Cell) (v : Word)
  /-- A cell-state fault of a code. -/
  | refuse (code : Nat)
  deriving DecidableEq, Repr

/-- A buffer of a cell taken by a cpin: its pin count grows, unless it is full (R279). -/
def Cell.takePin (c : Cell) (b : Bool) : Answer :=
  if c.pins b = 65535 then .refuse 7 else .give (c.setPins b (c.pins b + 1)) (c.buf b)

/-- The shadow taken by a cwopen: its conditions are tested again at every try (R276). -/
def State.openAnswer (s : State) (c : Cell) : Answer :=
  if !c.input then .refuse 2
  else if c.opened then .refuse 4
  else if s.shadowHeld c then .wait
  else .give { c with opened := true } (c.buf (!c.cur))

/-- A cpin outside a transaction (R279): at a formula task's generation for a precedent, else at the newest. -/
def Cell.pinAnswer (c : Cell) (gen : Option Nat) : Answer :=
  match gen with
  | some g =>
    match c.freshAt g with
    | some b => c.takePin b
    | none => if c.faultedAt g then .refuse 0xA else .wait
  | none => if c.state = 3 then .refuse 0xA else if c.state = 0 then c.takePin c.cur else .wait

/-- Answering the cpins and cwopens that wait for one sheet's cells (R276, R279): a buffer is chosen and pinned in one step. A refusal writes 0
to the destination and is delivered, for a cwopen as R279 says it of a cpin (DEDUCED, log 53). -/
def State.answerWaits (s : State) (n : Nat) : State :=
  s.cellWaits.foldl (fun s w =>
    match s.cell? w.cell with
    | none => s
    | some c =>
      if c.sheet != n then s
      else
        let s' := { s with cellWaits := s.cellWaits.filter fun u => u.id != w.id }
        match (if w.opens then s.openAnswer c else c.pinAnswer w.gen) with
        | .wait => s
        | .give c' v => (s'.putCell c').finishLong w.id v
        | .refuse code =>
          ((s'.modUid w.who w.uid fun st =>
            match st.longs.find? fun l => l.id = w.id with
            | some l => st.putLong l.dest 0
            | none => st).dropLong w.id w.who w.uid).deliver w.who w.uid w.sid w.lid 12 (codeWord code c.num)) s

/-- What follows every operation of a sheet: tasks dropped for faulted precedents, SETTLED, the sheet's line, waiters. -/
def State.settle (s : State) (n : Nat) : State :=
  ((s.cascade n).modGens n fun sh => { sh with settled := sh.settledNow }).answerWaits n

/-- The outfall engine's pin on the new current buffer of an attached stream (R344). -/
def State.pinStream (s : State) (c : Nat) : State :=
  if s.outfalls.any fun o => o.cell = c then
    match s.cell? c with
    | none => s
    | some x =>
      { (s.putCell (x.setPins x.cur (x.pins x.cur + 1))) with
        outfalls := s.outfalls.map fun o => if o.cell = c then { o with todo := o.todo ++ [x.cur] } else o }
  else s

/-- Applying one pending edit at the boundary of a generation (R271). -/
def State.applyEdit (s : State) (h : Nat) (e : Edit) : State :=
  s.modCell e.cell fun c =>
    match e.form with
    | some f => { c with formula := some f, input := false, opened := false }
    | none => { c with formula := none, input := true, rank := 0, state := 0, freed := natInsert c.freed h }

/-- The cell's task records for earlier generations that no slot has taken are dropped (R261). -/
def State.dropUnstarted (s : State) (c : Cell) (h : Nat) : State :=
  let old := fun (q : Seed) => q.cell = c.num && decide (q.gen < h) && !q.taken
  let mine := (((s.sheet? c.sheet).map (·.seeds)).getD []).filter old
  (mine.foldl (fun s q => s.dropTask q.cell q.gen) s).modSheet c.sheet fun sh => { sh with seeds := sh.seeds.filter fun q => !old q }

/-- Marking a cell stale at h and seeding its task (R260 step 3, R261). A cell that its edit has unbound gets the generation and loses its
unstarted tasks, and as an input it stays fresh (R271, Table 13.3). -/
def State.markStale (s : State) (h : Nat) (n : Nat) : State :=
  match s.cell? n with
  | none => s
  | some c =>
    let s := s.dropUnstarted c h
    match c.formula with
    | none => s.putCell { c with stalegen := h }
    | some f =>
      (s.modSheet c.sheet fun sh => { sh with seeds := seedInsert sh.seeds ⟨h, c.rank, n, f, false, false, false⟩ }).putCell
        { c with stalegen := h, marks := natInsert c.marks h, state := if c.state = 2 then 2 else 1 }

/-- The publication step of a commit (R260): the state after it, and the new generation. -/
def State.publishBatch (s : State) (n : Nat) (batch : List Nat) : State × Nat :=
  match s.sheet? n with
  | none => (s, 0)
  | some sh =>
    let h := sh.gen + 1
    let s := batch.foldl (fun s c => (s.modCell c fun x => { x.publish h with opened := false }).pinStream c) s
    let s := sh.edits.foldl (fun s e => s.applyEdit h e) s
    let s := (s.modEdits n fun _ => []).rerank n
    let edited := sh.edits.map (·.cell)
    let marked := (edited ++ s.allDependants (batch ++ edited)).foldl natInsert []
    let s := marked.foldl (fun s c => s.markStale h c) s
    ((s.modGens n fun sh => { sh with gen := h }).settle n, h)

/-- The publication of a formula task's version (R264): fresh, or still stale for a later task, or faulted where that task has failed
already (R265). -/
def State.publishTask (s : State) (n : Nat) (q : Seed) : State :=
  let s := s.modSheet n fun sh => { sh with seeds := sh.seeds.filter fun p => !(p.cell = q.cell && p.gen = q.gen) }
  let s := s.modCell q.cell fun c =>
    let c := c.publish q.gen
    { c with state := if c.input || c.stalegen = q.gen then 0 else if c.faulted.contains c.stalegen then 3 else 1 }
  (s.pinStream q.cell).settle n

/-- A formula task that ends without cdone (R265). -/
def State.taskFailed (s : State) (c h : Nat) : State :=
  match s.cell? c with
  | none => s
  | some x => (s.faultSeed x.sheet c h).settle x.sheet

end Sys2Proof.Machine
end

