-- ==== Sys2Proof/Machine/Ops.lean ====
section
/-!
DEFINITION. The shared operations of strands: leaving rings, barriers and slots, ending a launch, fencing a tile, taking a
fault and returning from one, and the frame in which every instruction word runs: the checks before its own effect and its end.
-/

namespace Sys2Proof.Machine

/-! ## Lock rings (R95 to R98) -/

def bitOf (m : Nat) : BitVec 24 := 1#24 <<< m

/-- A side completes when its arrivals equal its members and are not empty (R98). -/
def Ring.complete (r : Ring) : Ring :=
  let r := if r.parr != 0 && r.parr = r.pmem then { r with pgen := r.pgen + 1, parr := 0 } else r
  if r.carr != 0 && r.carr = r.cmem then { r with cgen := r.cgen + 1, carr := 0 } else r

/-- Whether a strand, by its slot's member number and its own number, has a bit of the ring: the bits tell slots apart, the owners strands
(R97). -/
def Ring.has (r : Ring) (m u : Nat) : Bool := r.owners.contains (m, u)

/-- A strand joins a side (R97). -/
def Ring.join (r : Ring) (cons : Bool) (m u : Nat) : Ring :=
  let r := { r with owners := r.owners ++ [(m, u)] }
  if cons then { r with cmem := r.cmem ||| bitOf m } else { r with pmem := r.pmem ||| bitOf m }

/-- A member leaves (R97). Its bits clear, unless another strand of its slot holds them still. -/
def Ring.leave (r : Ring) (m u : Nat) : Ring :=
  let left := r.owners.filter fun o => o != (m, u)
  let k := if left.any fun o => o.1 = m then 0xFFFFFF else ~~~ bitOf m
  Ring.complete { r with pmem := r.pmem &&& k, parr := r.parr &&& k, cmem := r.cmem &&& k, carr := r.carr &&& k, owners := left }

/-- Setting a physical ring of a tile: a change of its state is a write to its status line (R92). -/
def State.putRing (s : State) (writer : Option SlotId) (t k : Nat) (r : Ring) : State :=
  let old := (s.tile t).rings.getD k Ring.initial
  let s := s.modTile t fun x => { x with rings := x.rings.setIfInBounds k r }
  if old = r then s else s.notifyLine writer (s.ctrlLoc t (0x400 + 64 * k))

/-- A strand's change of a ring of its tile. -/
def State.setRing (s : State) (x : SlotId) (k : Nat) (r : Ring) : State := s.putRing (some x) x.tile k r

/-- A strand leaves every ring of which it is a member, be it in its slot or spilled (R97). -/
def State.leaveRings (s : State) (x : SlotId) (uid : Nat) : State :=
  let s := (List.range 8).foldl (fun s k =>
    let r := (s.tile x.tile).rings.getD k Ring.initial
    if r.has x.member uid then s.setRing x k (r.leave x.member uid) else s) s
  { s with evicted := s.evicted.map fun e =>
      if e.tile = x.tile then { e with rings := e.rings.map fun k => if k.2.has x.member uid then (k.1, k.2.leave x.member uid) else k } else e }

/-! ## The matrix engine's queue of operations (R180) -/

def Matrix.enqueue (m : Matrix) (op : MatOp) : Matrix :=
  match m.pending with
  | none => { m with pending := some op }
  | some p => if m.running.isNone then { m with running := some p, pending := some op } else m

/-- How many operations of the owner have not ended. -/
def Matrix.opsLeft (m : Matrix) : Nat := (if m.running.isSome then 1 else 0) + (if m.pending.isSome then 1 else 0)

/-! ## What a launch's windows count (R292) -/

/-- Issue cycles and lines of traffic counted for a launch that is resident on a tile. -/
def State.countWork (s : State) (t lid ops lines : Nat) : State :=
  s.modTile t fun x => { x with resid := x.resid.map fun r =>
    if r.lid = lid then { r with ops := r.ops + ops, lines := r.lines + lines } else r }

/-! ## Barriers (R240, R173) -/

/-- A strand held at an instruction that has now completed: its mark takes effect (R16); out of the rotation it stays out. -/
def Strand.completeHeld (st : Strand) : Strand :=
  match st.run with
  | .held _ =>
    { st with
      run := st.onward
      regs := { st.regs with pc := st.regs.pc + 4 }
      chunk := st.chunk.map fun c => { c with count := c.count + 1 } }
  | .preempted (some _) =>
    { st with
      run := .preempted none
      regs := { st.regs with pc := st.regs.pc + 4 }
      chunk := st.chunk.map fun c => { c with count := c.count + 1 } }
  | _ => st

/-- A deterministic lane whose barrier has completed: its arrival was its chunk of the round in which it arrived, and what follows is its next
chunk (R300). -/
def Strand.afterBar (st : Strand) : Strand :=
  match st.chunk with
  | some c => { st with committed := st.committed + BitVec.ofNat 64 c.count, chunk := some ⟨st.regs, st.tx, 0, [], [], false, false⟩ }
  | none => st

/-- A strand released from the barrier at which it stands. One that a fault has taken from its bar is no longer held there: its arrival
counts, and when TRUN returns it, it executes the bar again (DESIGN CHOICE, log 45). -/
def Strand.releaseBar (st : Strand) : Strand :=
  match st.run with
  | .held (.bar _ _ _) => st.completeHeld.afterBar
  | .preempted (some (.bar _ _ _)) => st.completeHeld.afterBar
  | _ => st

/-- The strand that completes a barrier by its own arrival, as it stood before: its chunk is the one that its lane contributes now (R300). -/
def Strand.lastToArrive (st was : Strand) : Strand :=
  match st.run with
  | .held (.bar _ _ _) => st
  | _ => { st with committed := was.committed, chunk := was.chunk.map fun c => { c with count := c.count + 1 } }

/-- A member of a wave changed, in its slot or in its context block (R312). -/
def State.modMember (s : State) (w : Nat) (x : SlotId) (f : Strand → Strand) : State :=
  if ((s.strand? x).bind (·.wave)) = some w then s.modStrand x f
  else s.modSpilled (fun p => p.at_ = x && p.strand.wave = some w) fun p => { p with strand := f p.strand }

/-- The matrix engine state of a member: its tile's, or the one kept in its context block (R183). -/
def State.memberMat (s : State) (w : Nat) (x : SlotId) : Matrix :=
  match s.spills.find? fun p => p.at_ = x && p.strand.wave = some w with
  | some p => p.mat.getD Matrix.initial
  | none => (s.tile x.tile).mat

def State.modMemberMat (s : State) (w : Nat) (x : SlotId) (f : Matrix → Matrix) : State :=
  if s.spills.any fun p => p.at_ = x && p.strand.wave = some w then
    s.modSpilled (fun p => p.at_ = x && p.strand.wave = some w) fun p => { p with mat := p.mat.map f }
  else s.modTile x.tile fun t => { t with mat := f t.mat }

/-- TBARk (Table 12.4). -/
def Barrier.word (b : Barrier) : Word := b.gen ++ b.mem ++ b.arr

/-- TBARk is mirrored in the control region: a change is a write to its line (R242). -/
def State.setTBar (s : State) (writer : Option SlotId) (t k : Nat) (b : Barrier) : State :=
  let old := (s.tile t).tbar.getD k Barrier.initial
  let s := s.modTile t fun x => { x with tbar := x.tbar.setIfInBounds k b }
  if old.word = b.word then s else s.notifyLine writer (s.ctrlLoc t 0x200)

/-- A tile barrier completes when its arrivals equal its members and are not empty (R240). -/
def State.completeTBar (s : State) (writer : Option SlotId) (t k : Nat) : State :=
  let b := (s.tile t).tbar.getD k Barrier.initial
  if b.arr != 0 && b.arr = b.mem then
    let s := s.setTBar writer t k { b with gen := b.gen + 1, arr := 0 }
    (List.range 24).foldl (fun s m =>
      if b.arr &&& bitOf m != 0 then s.modMember (b.wave.getD 0) (slotOf t m) Strand.releaseBar else s) s
  else s

/-- The fields of an operand descriptor (Table 9.1). -/
def dFmt (d : Word) : Nat := d.toNat / 2 ^ 62
def dPm1 (d : Word) : Nat := d.toNat / 2 ^ 57 % 32
def dLayout (d : Word) : Nat := d.toNat / 2 ^ 56 % 2
def dSparse (d : Word) : Bool := d.toNat / 2 ^ 55 % 2 = 1
def dK (d : Word) : Nat := d.toNat / 2 ^ 16 % 2 ^ 16
def dRows (d : Word) : Nat := d.toNat % 2 ^ 8

/-- A fault that a strand will take where it stands (R173); out of the rotation it keeps it for its return. -/
def Strand.faultAt (st : Strand) (code : Nat) (detail : Word) : Strand :=
  { st with run := match st.run with
      | .preempted _ => .preempted (some (.fault code detail))
      | _ => .held (.fault code detail) }

/-- Whether a strand is held at its barrier, in the rotation or out of it; one that a fault has taken from there is not (log 45). -/
def Strand.atBar (st : Strand) : Bool :=
  match st.run with
  | .held (.bar _ _ _) => true
  | .preempted (some (.bar _ _ _)) => true
  | _ => false

/-- The gang's cross-check and its start (R173): the members are slots of one row, in ascending column order; `came` says which of them
arrived by mgang. -/
def State.startGang (s : State) (w : Nat) (ms : List SlotId) (came : SlotId → Bool) : State :=
  let descs := ms.map fun x => if came x then (s.memberMat w x).snap.map fun op => (op.recs.getD 0 Rec.initial).desc else none
  let ok := match descs with
    | some d :: _ =>
      descs.all fun e => match e with
        | some e => dK e = dK d && dFmt e = dFmt d && dPm1 e = dPm1 d
        | none => false
    | _ => false
  let m := (descs.map fun e => (e.map dRows).getD 0).foldl (· + ·) 0
  if ok && decide (1 ≤ m) && decide (m ≤ 192) then
    ms.foldl (fun s x =>
      (s.modMemberMat w x fun t =>
        match t.snap with
        | some op => { t.enqueue { op with gang := ms.map (·.tile) } with snap := none }
        | none => t).modMember w x Strand.releaseBar) s
  else
    ms.foldl (fun s x =>
      if came x then (s.modMemberMat w x fun t => { t with snap := none }).modMember w x fun st =>
        if st.atBar then st.faultAt 11 (codeWord 8 0) else st
      else s.modMember w x Strand.releaseBar) s

/-- A row barrier completes; members that came by mgang start their joint operation (R240, R173). -/
def State.completeRBar (s : State) (r k : Nat) : State :=
  let b := (s.rowAt r).bars.getD k Barrier.initial
  if b.arr != 0 && b.arr = b.mem then
    let s := s.modRow r fun x => { x with bars := x.bars.setIfInBounds k { b with gen := b.gen + 1, arr := 0, gang := 0 } }
    match b.wave.bind fun w => s.waves.find? fun v => v.num = w with
    | none => s
    | some wv =>
      if b.gang = 0 then wv.members.foldl (fun s x => s.modMember wv.num x Strand.releaseBar) s
      else s.startGang wv.num wv.members fun x => b.gang &&& bitOf (s.tileCol x.tile) != 0
  else s

/-- A strand that is no member of its wave any more leaves the wave's barriers; the departure of the last missing member completes one
(R240). -/
def State.leaveBars (s : State) (x : SlotId) (wv : Wave) : State :=
  if wv.row then
    let r := s.tileRow x.tile
    let k := ~~~ bitOf (s.tileCol x.tile)
    wv.bars.foldl (fun s p =>
      (s.modRow r fun y => { y with bars := vecMod y.bars p fun b =>
        { b with mem := b.mem &&& k, arr := b.arr &&& k, gang := b.gang &&& k } }).completeRBar r p) s
  else
    let k := ~~~ bitOf x.member
    wv.bars.foldl (fun s p =>
      let b := (s.tile x.tile).tbar.getD p Barrier.initial
      (s.setTBar none x.tile p { b with mem := b.mem &&& k, arr := b.arr &&& k }).completeTBar none x.tile p) s

/-! ## Leaving the slot -/

/-- Taking a strand out of its wave and of the wave's barriers. The wave ends with its last member; it keeps its barriers until the launch
completes (R240, R247, R290). -/
def State.leaveWave (s : State) (x : SlotId) (w : Nat) : State :=
  match s.waves.find? fun v => v.num = w with
  | none => s
  | some wv =>
    let ms := wv.members.filter fun y => y != x
    let s : State := { s with
      waves := s.waves.map fun v => if v.num = w then { v with members := ms } else v
      launches := if ms.isEmpty && !wv.members.isEmpty
        then s.launches.map fun l => if l.lid = wv.lid then { l with waves := l.waves - 1 } else l
        else s.launches }
    s.leaveBars x wv

/-- The barriers of a launch's waves are free again when it has completed (R247). -/
def State.freeBars (s : State) (lid : Nat) : State :=
  let mine := fun (b : Barrier) => decide ((b.wave.bind fun w => s.waves.find? fun v => v.num = w).map (·.lid) = some lid)
  let clear := fun (b : Barrier) => if mine b then { b with wave := none, mem := 0, arr := 0, gang := 0 } else b
  let s : State := { s with rows := s.rows.map fun (p : Nat × Row) => (p.1, { p.2 with bars := p.2.bars.map clear }) }
  let s := (s.tiles.map (·.1)).foldl (fun s t => (List.range 4).foldl (fun (s : State) k =>
    let b := (s.tile t).tbar.getD k Barrier.initial
    if mine b then s.setTBar none t k (clear b) else s) s) s
  { s with waves := s.waves.filter fun v => v.lid != lid }

/-- A formula task that has not executed cdone, when its strand ends (R265). -/
def State.endTask (s : State) (cellgen : Word) : State :=
  if cellgen.toNat / 2 ^ 63 = 1 then s.taskFailed (cellgen.toNat / 2 ^ 32 % 2 ^ 24) (cellgen.toNat % 2 ^ 32) else s

/-- The end of the matrix claim (R167). -/
def Matrix.release (m : Matrix) (uid : Nat) : Matrix :=
  if m.owner = some uid then { m with owner := none, running := none, pending := none, snap := none, reads := [] } else m

/-- A launch's reservations on a tile without that of one strand (R253). -/
def Resident.unstack (r : Resident) (uid : Nat) : Resident := { r with stackRes := r.stackRes.filter fun k => k.2.2 != uid }

/-- An access of a strand that ends is dropped when only its result is left, or when it reads alone. -/
def Access.endsWith (a : Access) (x : SlotId) (uid : Nat) : Bool :=
  a.who = x && a.uid = uid && (a.done || (match a.op with
    | .load _ _ => true
    | .loadV _ => true
    | .result => true
    | _ => false))

/-- What belongs to a strand that ends, be it in its slot or spilled: rings, matrix claim, reservation, wave and barriers (R253), with its
task's cell (R265) unless the task goes on elsewhere (`goes`, R251). -/
def State.leaveAs (s : State) (x : SlotId) (st : Strand) (goes : Bool) : State :=
  let s := s.leaveRings x st.uid
  let s := s.modTile x.tile fun t => { t with mat := t.mat.release st.uid, resid := t.resid.map fun r => r.unstack st.uid }
  let s : State := { s with evicted := s.evicted.map fun e => if e.tile = x.tile then { e with res := e.res.unstack st.uid } else e }
  let s := match st.wave with
    | some w => s.leaveWave x w
    | none => s
  let s := if goes then s else s.endTask st.regs.cellgen
  { s with flight := s.flight.filter fun a => !a.endsWith x st.uid }

/-- The strand in a slot ends, and the slot is free (R253). -/
def State.leave (s : State) (x : SlotId) (goes : Bool) : State :=
  match s.strand? x with
  | none => s
  | some st => (((s.dropRsv x).dropWeir x).dropStrand x).leaveAs x st goes

/-- Ending a launch as LAUNCHEND does (Table 14.9): every strand as an exit without waits, its tasks dropped and their cells
faulted, its formula cells unbound at their next boundary; the status that its completion will report. Its own pending binds are dropped, and an
edit that another launch has pending for a cell of its formulas is replaced by the unbind, which is the later edit (DESIGN CHOICE, log 66); the
unbinds count in no bound of 64 pending edits, since nobody is there to be refused (DESIGN CHOICE, log 66). -/
def State.endLaunch (s : State) (lid : Nat) (status : Word) : State :=
  if (s.launches.any fun l => l.lid = lid && !l.ending) then
    let s : State := { s with
      launches := s.launches.map fun l => if l.lid = lid then { l with ending := true, status := status } else l
      waveReqs := s.waveReqs.filter fun w => w.lid != lid
      cellWaits := s.cellWaits.filter fun w => w.lid != lid }
    let s := s.allSlots.foldl (fun s x =>
      match s.strand? x with
      | some st => if st.lid = lid && !st.sup then s.leave x false else s
      | none => s) s
    let gone := s.spills.filter fun p => p.strand.lid = lid
    let s : State := { s with spills := s.spills.filter fun p => p.strand.lid != lid }
    let s := gone.foldl (fun s p => s.leaveAs p.at_ p.strand false) s
    let s : State := { s with
      transit := s.transit.filter fun p => p.2.lid != lid
      tiles := s.tiles.map fun (p : Nat × Tile) =>
        (p.1, { p.2 with
          deque := p.2.deque.filter fun t => t.lid != lid
          overflow := p.2.overflow.filter fun t => t.lid != lid }) }
    let dead := s.sheets.flatMap fun sh => (sh.seeds.filter fun q => q.form.lid = lid && !q.finished).map fun q => (q.cell, q.gen)
    let s := dead.foldl (fun s q => s.taskFailed q.1 q.2) s
    (s.sheets.map (·.num)).foldl (fun (s : State) n => s.modEdits n fun es =>
      let mine := (s.cellsOf n).filter fun c => (c.formula.map (·.lid)) = some lid
      (es.filter fun e => !(mine.any (·.num = e.cell)) && ((e.form.map (·.lid)) != some lid)) ++ mine.map fun c => ⟨c.num, none, 0⟩) s
  else s

/-- The tile whose queue tables a tile mirrors: the nearest enabled one at a lower column of its row, wrapping to the highest (R319). -/
def leftTile (t : Nat) : Nat := if t % 12 = 0 then t + 11 else t - 1

/-- Fencing a tile (R320): its strands end, spilled ones and those of an evicted launch too, their launches end with status 0x02 and index
16, so do the row-shaped waves that include it; its seeded tasks' cells become faulted; it is absent until reset, its row is degraded and
the mirror that it kept is lost. -/
def State.fence (s : State) (t : Nat) : State :=
  let lids := ((s.tile t).strands.filterMap fun p => if p.2.sup then none else some p.2.lid).foldl natInsert []
  let held := (((s.tile t).resid.map (·.lid)) ++ (s.evicted.filter fun e => e.tile = t).map (·.res.lid)).foldl natInsert lids
  let s := held.foldl (fun s l => s.endLaunch l (codeWord 0 0x1002)) s
  let homes := s.sheets.flatMap fun sh =>
    (sh.seeds.filter fun q => q.form.home / 4 = t && !q.finished).map fun q => (q.cell, q.gen)
  let s := homes.foldl (fun s q => s.taskFailed q.1 q.2) s
  let s := s.modTile t fun x => { x with fenced := true, strands := [], deque := [], overflow := [] }
  let s := s.modTile (leftTile t) fun x => { x with mirrorLost := true }
  s.modRow (s.tileRow t) fun r => { r with degraded := true }

/-! ## Taking a fault, and returning -/

/-- The strand's stores that wait for their full/empty bit (R214): they hold back its trap, its exit and its mig. -/
def State.stpPending (s : State) (x : SlotId) : Bool :=
  s.flight.any fun a => a.who = x && !a.done && (match a.op with | .stp _ => true | _ => false)

/-- A user strand's fault (R305, R219): an open transaction aborts first and resumes at TGT(1); the cause is recorded and the
event queued; the strand stands out of the rotation. -/
def State.takeUser (s : State) (x : SlotId) (st : Strand) (async : Bool) (code : Nat) (detail epc : Word) : State :=
  let epc := st.tgt1.getD epc
  let s := (s.abortTx x 5 st.regs.pc).dropRsv x
  let s := s.modStrand x fun st =>
    { st with
      run := .out
      tepc := epc
      tcause := BitVec.ofNat 64 (code % 256 + if async then 256 else 0)
      tdetail := detail }
  s.modTile x.tile fun t => t.queueEvent ⟨eventEntry false code st.sid, detail, none⟩

/-- The entry of a supervisor at an address (R307): SEPC and IE change, and what is left of a skip window is kept for sret, so that it
annuls no word of the handler (R22). -/
def Strand.enterAt (st : Strand) (epc pc : Word) : Strand :=
  { st with
    run := .ready
    ie := false
    sepc := epc
    sskipn := st.regs.skipn
    regs := { st.regs with pc := pc, skipn := 0 } }

/-- The supervisor's own fault (R307, R219): an open transaction aborts first and SEPC is TGT(1), a reservation ends (R213). With IE = 1 it
enters at TVEC + 64; with IE = 0 it is a double fault, logged as fatal in the tile's bank, and the tile is fenced. -/
def State.takeSup (s : State) (x : SlotId) (st : Strand) (code : Nat) (detail epc : Word) : State :=
  let epc := st.tgt1.getD epc
  if st.ie then
    ((s.abortTx x 5 st.regs.pc).dropRsv x).modStrand x fun st =>
      { st.enterAt epc (st.tvec + 64) with scause := BitVec.ofNat 64 (code % 256), sdetail := detail }
  else
    (s.modBank (.tile x.tile) fun b =>
      b.log 3 1 (BitVec.ofNat 5 x.member) st.regs.pc (BitVec.ofNat 64 code)).fence x.tile

/-- Taking a fault, a trap or an asynchronous delivery: ONE operation (R305, R307, R111). It first waits for the strand's long
results and its stp in flight; `epc` is the address recorded. -/
def State.takeFault (s : State) (x : SlotId) (async : Bool) (code : Nat) (detail epc : Word) : State :=
  match s.strand? x with
  | none => s
  | some st =>
    if !st.longs.isEmpty || s.stpPending x then
      s.setStrand x { st with run := .held (.fault (code + if async then 256 else 0) detail) }
    else if st.sup then s.takeSup x st code detail epc
    else s.takeUser x st async code detail epc

/-- The address a fault records (R305): trap and break name the next word. -/
def faultPc (code : Nat) (pc : Word) : Word := if code = 0x20 || code = 0x21 then pc + 4 else pc

/-- The hold that a strand keeps when it is pre-empted: a translation walk, and a wave's sleep, are found again after the return, and an
open transaction that aborts leaves the instruction at which the strand was held. -/
def Strand.keptHold (st : Strand) : Option Hold :=
  if st.inTx then none
  else match st.run with
    | .held (.walk _ _) => none
    | .held .wave => none
    | .held h => some h
    | _ => none

/-- The deliveries that a pre-empted strand has still to take: one that it was taking goes back to the head when the abort of its transaction
ends that hold (R310, R311). -/
def Strand.keptAsyncs (st : Strand) : List (Nat × Word) :=
  match st.run with
  | .held (.fault code d) => if st.inTx && decide (256 ≤ code) then (code % 256, d) :: st.asyncs else st.asyncs
  | _ => st.asyncs

/-- Pre-emption's effect (R311, Table 15.6): the strand leaves the rotation with the hold that it keeps; an open transaction aborts
with reason 0x06; a reservation ends. A park, or a park that a sleep or a hold still owes, is kept by `mark`. -/
def State.preempt (s : State) (x : SlotId) : State :=
  match s.strand? x with
  | none => s
  | some old =>
    ((s.abortTx x 6 0).dropRsv x).modStrand x fun st =>
      { st with
        preReq := false
        abortReq := none
        asyncs := old.keptAsyncs
        mark := match old.run with | .parked => true | .held _ => old.mark | .asleep => old.mark | _ => false
        run := .preempted old.keptHold }

/-- A pre-empted strand's return to the rotation (R311, R223): its hold, its sleep, a wake that came meanwhile, or its park. -/
def Strand.unpreempt (st : Strand) : Strand :=
  let st := { st with yielded := false }
  match st.run with
  | .preempted (some h) => { st with run := .held h }
  | .preempted none =>
    match st.tx, st.wakeReq with
    | some _, some a => { st with run := .asleep, wakeReq := none }.wake a
    | some t, none => if t.levels.isEmpty then { st with run := .asleep } else { st with run := .ready }
    | none, _ => { st with run := st.onward, wakeReq := none }
  | _ => st

/-- The return to the rotation by TRUN (R309): the next issue is the word at TEPC, and SKIPN is kept. -/
def Strand.resume (st : Strand) : Strand := { st with run := .ready, regs := { st.regs with pc := st.tepc } }

/-! ## The frame of an instruction word -/

/-- What an instruction's own effect comes to. -/
inductive Act
  /-- It is complete, and pc goes on by 4. -/
  | ok (s : State)
  /-- It is complete, and pc is the target. -/
  | jump (s : State) (t : Word)
  /-- A precise fault: code of Table 15.3 and detail word. -/
  | fault (code : Nat) (detail : Word)
  /-- A precise fault that comes after a check has corrected what it read (R91): the corrections stand. -/
  | faultIn (s : State) (code : Nat) (detail : Word)
  /-- The strand is held at the instruction, with the effects so far. -/
  | hold (s : State) (h : Hold)
  /-- The turn is forfeited: the instruction issues again at the next turn (R62, R68, R88). -/
  | forfeit
  /-- The strand's standing and its pc have been set already; a mark parks it all the same where it could go on (R16). -/
  | placed (s : State)
  /-- A check finds an error in what the instruction reads (R91, R105, R144, R166): it has no effect but what the check has corrected beside it, the
  error is logged as contained with its unit and its place, and delivered at the instruction. -/
  | check (s : State) (src : BitVec 8) (addr : Word)
  deriving Repr

/-- The registers that an instruction names or uses, and the checks that follow from them (R18, R20, R31, R110). -/
structure Uses where
  /-- Named source fields: role of R110, vector or not, specifier. -/
  srcs : List (Nat × Bool × Spec) := []
  /-- Named destination: vector or not, specifier. -/
  dst : Option (Bool × Spec) := none
  /-- The registers of a group that it writes (R157). -/
  dsts : List (Bool × Spec) := []
  /-- Scalar registers read without a field, with the role that a marker fault gives them: R249 states fork's detail word, i alone; R110 gives
  mig's, role 2. -/
  reads : List (Nat × Spec) := []
  /-- The result is long (Table 1.21). -/
  long : Bool := false
  /-- q, or qv, read without a field naming it; q written so (R110). -/
  readsQ : Bool := false
  readsQv : Bool := false
  writesQ : Bool := false
  /-- sp read and written without a field naming it (R130). -/
  sp : Bool := false
  /-- It accesses memory, so it waits for an earlier acquire (R198). -/
  access : Bool := false
  /-- Table 11.2: it aborts an open transaction (R215). -/
  aborts : Bool := false
  /-- The detail word of the privilege fault it raises outside supervisor mode (R29). -/
  priv : Option Word := none
  deriving Repr

/-- Register fields with their roles: sources as named, the destination, be it one register or a group, in role 3. -/
def Uses.fields (u : Uses) : List (Nat × Bool × Spec) :=
  u.srcs ++ u.dsts.map (fun d => (3, d)) ++ (match u.dst with | some d => [(3, d.1, d.2)] | none => [])

/-- The least-role candidate of a list. R110 orders roles alone: within one role the first named is reported, a register group in ascending
order and before q or qv (DESIGN CHOICE, log 46). -/
def leastRole : List (Nat × Nat × Bool) → Option (Nat × Nat × Bool)
  | [] => none
  | p :: r =>
    match leastRole r with
    | none => some p
    | some q => if q.1 < p.1 then some q else some p

/-- The undeclared register named in the lowest role (R20, R246). -/
def Strand.undeclared (st : Strand) (u : Uses) : Option Word :=
  let bad := u.fields.filterMap fun f =>
    if decide (f.2.2.toNat < 32) && decide ((if f.2.1 then st.nvregs else st.nregs) ≤ f.2.2.toNat)
    then some (f.1, f.2.2.toNat, false) else none
  (leastRole bad).map fun p => codeWord 1 (256 * p.1 + p.2.1)

/-- The outstanding register found in the lowest role, as R110's detail word. -/
def Strand.marker (st : Strand) (u : Uses) : Option Word :=
  let named := u.fields.filterMap fun f => if st.outstanding f.2.1 f.2.2 then some (f.1, f.2.2.toNat, false) else none
  let sp := if u.sp && st.outstanding false 31 then [(2, 31, false)] else []
  let rq := if u.readsQ && st.outstanding false 40 then [(2, 40, true)] else []
  let rqv := if u.readsQv && st.outstanding true 40 then [(2, 40, true)] else []
  let wq :=
    if u.writesQ && st.outstanding false 40 then [(3, 40, true)]
    else match u.dst with
      | some d => if !u.long && d.2 != 41 && d.2 != 40 && st.outstanding d.1 40 then [(3, 40, true)] else []
      | none => []
  let also := u.reads.filterMap fun r => if st.outstanding false r.2 then some (r.1, r.2.toNat, false) else none
  (leastRole (also ++ named ++ sp ++ rq ++ rqv ++ wq)).map fun p =>
    BitVec.ofNat 64 (p.2.1 + 256 * p.1 + if p.2.2 then 1024 else 0)

/-- Whether a specifier names a register that carries parity: s, o and q, or v, w and qv (R105, R144). -/
def hasParity (vec : Bool) (x : Spec) : Bool := if vec then decide (x.toNat < 36) || x = 40 else decide (x.toNat < 41)

/-- The register whose parity is wrong this turn, if the instruction reads it (R105, R144): whether it is a vector register, and its
specifier. -/
def Strand.spoilt (st : Strand) (u : Uses) : Option (Bool × Spec) :=
  (st.upset.filter fun r => hasParity r.1 r.2).bind fun r =>
    let vec := r.1
    let x := r.2
    if (u.srcs.any fun f => f.2.1 = vec && f.2.2 = x) || (!vec && u.reads.any fun f => f.2 = x) || (!vec && u.sp && x = 31)
        || (!vec && u.readsQ && x = 40) || (vec && u.readsQv && x = 40)
    then some r else none

/-- Whether an earlier atom.acq or ldc of the strand has not come back (R198). -/
def Strand.acquiring (st : Strand) : Bool := st.longs.any (·.acq)

/-- What a deterministic lane must wait for before this instruction (R299): a full chunk, a chunk that ends before an
instruction of Table 11.2, or its own commit. -/
def Strand.chunkStop (st : Strand) (u : Uses) : Bool :=
  match st.chunk with
  | none => false
  | some c => c.ended || (c.solo && decide (0 < c.count)) || (!c.solo && !st.inTx && (decide (256 ≤ c.count) || u.aborts))

/-- The mark of an instruction that has set its strand's standing itself (R16): a strand that could go on parks, one that sleeps parks when it
wakes. -/
def Strand.afterMark (st : Strand) (m : Bool) : Strand :=
  match st.run with
  | .ready => if m && !st.longs.isEmpty then { st with run := .parked } else st
  | .asleep => { st with mark := m }
  | _ => st

/-! ### Misses and walkers (R57) -/

def Miss.sameWalk (a b : Miss) : Bool := a.die = b.die && a.asid = b.asid && a.va / 2 ^ 16 = b.va / 2 ^ 16

/-- The walks under way, one miss for each. -/
def walksOf (ms : List Miss) : List Miss :=
  (ms.filter (·.walking)).foldl (fun r m => if r.any m.sameWalk then r else r ++ [m]) []

/-- Whether a miss of a die finds its walk under way, or one of the die's 64 walkers free. -/
def canWalk (ms : List Miss) (m : Miss) : Bool :=
  let ws := walksOf ms
  ws.any m.sameWalk || decide ((ws.filter fun k => k.die = m.die).length < 64)

/-- Walkers take up the misses that wait, in the order in which they came; of those that wait, the first 2,048 of a die have a place in its miss
queue, and the others wait at their row buffers (R57). -/
def startWalks (ms : List Miss) : List Miss :=
  ms.foldl (fun r m =>
    let walks := m.walking || canWalk r m
    let room := decide ((r.filter fun k => k.queued && k.die = m.die).length < 2048)
    r ++ [{ m with walking := walks, queued := !walks && (m.queued || room) }]) []

/-- A strand's miss, which a walk answers (R54, R57). -/
def State.noteMiss (s : State) (x : SlotId) (va : Nat) (kind : AccKind) : State :=
  match s.strand? x with
  | none => s
  | some st =>
    let m : Miss := ⟨s.tileDie x.tile, asidOf st.regs.ptroot, st.regs.ptroot, va, kind, x, st.uid, false, false⟩
    { s with walks := startWalks ((s.walks.filter fun k => k.uid != st.uid) ++ [m]) }

/-- The strand held at its instruction; a miss asks for a walk. -/
def State.holdAt (s : State) (x : SlotId) (h : Hold) (m : Bool) : State :=
  let s := s.modStrand x fun st => { st with run := .held h, mark := m }
  match h with
  | .walk va kind => s.noteMiss x va kind
  | _ => s

/-! ### Faults of deterministic lanes (R300) -/

/-- A result that no access performs. -/
def FlightOp.isResult : FlightOp → Bool
  | .result => true
  | .wrongBit => true
  | _ => false

/-- Whether something that a strand has issued has still to be performed or to return. -/
def State.unfinished (s : State) (x : SlotId) (st : Strand) : Bool :=
  !st.longs.isEmpty || s.flight.any fun a => a.who = x && a.uid = st.uid && !a.done && !a.op.isResult

/-- A squashed chunk: the lane's registers as at its start, and it runs again (R300). -/
def Strand.squash (st : Strand) (c : Chunk) : Strand :=
  { st with
    run := .ready
    regs := c.start
    tx := c.startTx
    abortReq := none
    chunk := some { c with count := 0, reads := [], wset := [], ended := false } }

/-- The end of a deterministic lane's chunk before what does not fit it (R299). -/
def Strand.closeChunk (st : Strand) : Strand :=
  { st with run := .held .chunk, chunk := st.chunk.map fun c => { c with ended := true } }

/-- Whether a deterministic lane's place in the round has come (R300). -/
def State.inPlace (s : State) (st : Strand) : Bool := ((s.launch? st.lid).map fun l => decide (l.lanePos = st.lane)).getD true

/-- A precise fault of the word at a strand's pc. A deterministic lane is held with it until its place in the round: what it has read is then what
earlier commits left, or its chunk is squashed (R300; DEDUCED, log 20). -/
def State.faultTurn (s : State) (x : SlotId) (code : Nat) (detail epc : Word) : State :=
  match s.strand? x with
  | none => s
  | some st =>
    match st.chunk with
    | none => s.takeFault x false code detail epc
    | some c => s.setStrand x { st with run := .held (.fault code detail), chunk := some { c with ended := true } }

/-- An error found at issue: logged as contained in the tile's bank, and taken at the instruction. The syndrome and the delivery's detail word
are free (log 8). -/
def State.contained (s : State) (x : SlotId) (src : BitVec 8) (addr : Word) : State :=
  let (d1, s) := s.free
  let (d2, s) := s.free
  let s := s.modBank (.tile x.tile) fun b => b.log 2 src (BitVec.ofNat 5 x.member) addr d1
  match s.strand? x with
  | none => s
  | some st => s.takeFault x false 15 d2 st.regs.pc

/-- The end of an instruction word (R13, R16, R109, R305): where pc goes, whether the strand parks, what fault it takes. -/
def State.finish (s0 : State) (x : SlotId) (m : Bool) : Act → State
  | .ok s =>
    s.modStrand x fun st =>
      { st with
        run := if m && !st.longs.isEmpty then .parked else .ready
        regs := { st.regs with pc := st.regs.pc + 4 }
        chunk := st.chunk.map fun c => { c with count := c.count + 1 } }
  | .jump s t =>
    s.modStrand x fun st =>
      { st with
        run := if m && !st.longs.isEmpty then .parked else .ready
        regs := { st.regs with pc := t }
        chunk := st.chunk.map fun c => { c with count := c.count + 1 } }
  | .fault code detail =>
    match s0.strand? x with
    | none => s0
    | some st => s0.faultTurn x code detail (faultPc code st.regs.pc)
  | .faultIn s code detail =>
    match s.strand? x with
    | none => s
    | some st => s.faultTurn x code detail (faultPc code st.regs.pc)
  | .hold s h => s.holdAt x h m
  | .forfeit => s0.modStrand x fun st => { st with run := .ready }
  | .placed s => s.modStrand x fun st => st.afterMark m
  | .check s src addr => s.contained x src addr

/-- The checks before an instruction's own effect, in the order of Table 1.21 and R31, then the effect. -/
def Strand.checked (st : Strand) (s : State) (x : SlotId) (u : Uses) (body : Strand → Act) : Act :=
  match (if st.sup then none else u.priv) with
  | some d => .fault 2 d
  | none =>
    match st.undeclared u with
    | some d => .fault 4 d
    | none =>
      match st.marker u with
      | some d => .fault 3 d
      | none =>
        match st.spoilt u with
        | some r => .check s (if r.1 then 2 else 1) (r.2.setWidth 64)
        | none =>
        if u.aborts && st.inTx then .placed (s.abortTx x 7 st.regs.pc)
        else if st.chunkStop u then
          .hold (s.setStrand x { st with chunk := st.chunk.map fun c => { c with ended := true } }) .chunk
        else if u.access && st.acquiring then .hold s .again
        else body st

/-- Running an instruction word in the slot State.cur: ONE frame for all of them. -/
def State.issue (s : State) (m : Bool) (u : Uses) (body : Strand → Act) :
    Host.Outcome State Fault Refusal :=
  match s.strand? s.cur with
  | none => .fault .noStrand
  | some st => .next (s.finish s.cur m (st.checked s s.cur u body))

/-- The state in which the executing strand is replaced: what register-only instructions do. -/
def State.put (s : State) (st : Strand) : State := s.setStrand s.cur st

end Sys2Proof.Machine
end

