-- ==== Sys2Proof/Machine/Operands.lean ====
section
/-!
DEFINITION. The operand forms: immediates, effective addresses, scratchpad addresses plain and ring-relative (spec/05 R85), and
the translation of virtual addresses (spec/03 R49 to R57).
-/

namespace Sys2Proof.Machine

/-! ## Immediates (R15) -/

/-- sext(x, n) of Table 0.3. -/
def sext64 {n : Nat} (x : BitVec n) : Word := x.signExtend 64

/-- zext(x, n) of Table 0.3. -/
def zext64 {n : Nat} (x : BitVec n) : Word := x.setWidth 64

/-- The target of a displacement in words (R15). -/
def dispTarget {n : Nat} (pc : Word) (d : BitVec n) : Word := pc + 4 * sext64 d

/-- The access size of a size code: 2^bits(Z,2,1) (R64). -/
def sizeOf (z : BitVec 3) : Nat := 2 ^ (z.toNat / 2)

/-- The effective address of a scalar load or store: A + sext(off, 9)·n (R64, R65, R102). -/
def eaScalar (a : Word) (off : BitVec 9) (z : BitVec 3) : Word := a + sext64 off * BitVec.ofNat 64 (sizeOf z)

/-- The effective address of a vector load or store: A + sext(imm, 12)·128. -/
def eaVector (a : Word) (imm : BitVec 12) : Word := a + sext64 imm * 128

/-- The effective address of ldc and stp: A + 8·sext(imm, 12) (R214). -/
def eaWord (a : Word) (imm : BitVec 12) : Word := a + sext64 imm * 8

/-- A loaded value: sign-extended when Z[0] = 0 and n < 8, else zero-extended (R64, R102). -/
def loadValue (z : BitVec 3) (v : Nat) : Word :=
  let n := 8 * sizeOf z
  if z.getLsbD 0 then BitVec.ofNat 64 v
  else (BitVec.ofNat 64 (v * 2 ^ (64 - n))).sshiftRight (64 - n)

/-! ## Scratchpad addresses (R85, R93 to R99) -/

/-- The resident record of a launch on a tile. -/
def State.residOf (s : State) (t lid : Nat) : Option Resident := (s.tile t).resid.find? fun r => r.lid = lid

/-- The physical ring behind a declared ring number (R93). -/
def State.physRing (s : State) (x : SlotId) (st : Strand) (n : Nat) : Option Nat :=
  if n < st.nlocks then (s.residOf x.tile st.lid).bind fun r => r.rings[n]? else none

/-- The fields of a ring descriptor (Table 5.3). -/
def Ring.dist (r : Ring) : Nat := r.desc.toNat / 2 ^ 40 % 32
def Ring.nstg (r : Ring) : Nat := r.desc.toNat / 2 ^ 32 % 32
def Ring.slog2 (r : Ring) : Nat := r.desc.toNat / 2 ^ 24 % 32
def Ring.base (r : Ring) : Nat := r.desc.toNat % 2 ^ 20

/-- Whether a strand, by its slot's member number and its own number, is a producer, a consumer, or has arrived (R97, R98). -/
def Ring.isProd (r : Ring) (m u : Nat) : Bool := r.has m u && r.pmem &&& bitOf m != 0
def Ring.isCons (r : Ring) (m u : Nat) : Bool := r.has m u && r.cmem &&& bitOf m != 0
def Ring.isMem (r : Ring) (m u : Nat) : Bool := r.isProd m u || r.isCons m u
def Ring.arrived (r : Ring) (m u : Nat) : Bool := r.has m u && (r.parr ||| r.carr) &&& bitOf m != 0

/-- Whether the stage is open to a strand (R96). -/
def Ring.isOpen (r : Ring) (m u : Nat) : Bool :=
  let gap := (r.pgen - r.cgen).toNat
  r.cfg && !r.arrived m u && ((r.isProd m u && decide (gap < r.dist)) || (r.isCons m u && decide (0 < gap)))

/-- The stage index of a member's side; a non-member sees the producers' (R96, Table 5.6). -/
def Ring.idx (r : Ring) (m u : Nat) : Nat := (if r.isCons m u then r.cgen else r.pgen).toNat % Nat.max 1 r.nstg

/-- STAGE(n, side) (R96). -/
def Ring.stage (r : Ring) (m u : Nat) : Nat := r.base + r.idx m u * 2 ^ r.slog2

/-- ringcheck: the first code of Table 5.5 that applies to a use of a physical ring by a strand, in the state that the use sees. -/
def ringCheckIn (rings : Vector Ring 8) (p : Option Nat) (m u : Nat) : Except Nat Ring :=
  match p with
  | none => .error 0x20
  | some p =>
    let r := rings.getD p Ring.initial
    if !r.cfg then .error 0x21
    else if !r.isMem m u then .error 0x22
    else if !r.isOpen m u then .error 0x23
    else .ok r

/-- ringcheck of a ring instruction, which acts on the ring as the cores before it in this cycle have left it (R100). -/
def State.ringCheck (s : State) (x : SlotId) (st : Strand) (n : Nat) : Except Nat Ring :=
  ringCheckIn (s.tile x.tile).rings (s.physRing x st n) x.member st.uid

/-- ringcheck of a ring-relative address, which sees the ring as it stood at the start of the cycle (R100). -/
def State.ringCheckAt (s : State) (x : SlotId) (st : Strand) (n : Nat) : Except Nat Ring :=
  ringCheckIn (s.tile x.tile).ringsAt (s.physRing x st n) x.member st.uid

/-- The length of the range [PADLO, PADHI] (R86): empty when PADHI lies below PADLO, and for a launch with .pad 0, whose PADHI is PADLO - 1
modulo 2^64. -/
def Strand.padLen (st : Strand) : Nat :=
  if st.regs.padhi + 1 = st.regs.padlo then 0 else st.regs.padhi.toNat + 1 - st.regs.padlo.toNat

def Strand.inPad (st : Strand) (a : Nat) : Bool :=
  decide (st.regs.padlo.toNat ≤ a) && decide (a < st.regs.padlo.toNat + st.padLen)

def Strand.inStack (st : Strand) (a : Nat) : Bool := decide (st.stackBot ≤ a) && decide (a < st.stackTop)

/-- The check of a plain scratchpad range (R85): the first byte's own range must hold it whole. Table 12.5 names stack-limit for breaches of
.stack at stack accesses, where the pseudocode of R85, to which it refers, raises pad-bounds: the pseudocode is followed (DEDUCED, log 47). -/
def Strand.plainRange (st : Strand) (a len : Nat) : Except (Nat × Word) Nat :=
  if (st.inPad a && decide (a + len ≤ st.regs.padlo.toNat + st.padLen)) || (st.inStack a && decide (a + len ≤ st.stackTop))
  then .ok a
  else if st.inPad a then .error (6, BitVec.ofNat 64 (st.regs.padlo.toNat + st.padLen))
  else if st.inStack a then .error (6, BitVec.ofNat 64 st.stackTop)
  else .error (6, BitVec.ofNat 64 a)

/-- padaddr of R85: the scratchpad byte that an effective address names, or the fault it raises (code and detail). -/
def State.padAddr (s : State) (x : SlotId) (st : Strand) (ea : Word) (len : Nat) : Except (Nat × Word) Nat :=
  let a := ea.toNat
  if 2 ^ 24 ≤ a then .error (6, ea)
  else if 2 ^ 23 ≤ a then
    match s.ringCheckAt x st (a / 2 ^ 20 % 8) with
    | .error c => .error (4, codeWord c a)
    | .ok r =>
      let off := a % 2 ^ 20
      if 2 ^ r.slog2 < off + len then .error (6, ea) else .ok (r.stage x.member st.uid + off)
  else if 2 ^ 20 ≤ a then .error (6, ea)
  else st.plainRange a len

/-! ## Translation (R49 to R57) -/

/-- The bytes of a leaf page by level (Table 3.2). -/
def pageSize (lv : Nat) : Nat := if lv = 0 then 2 ^ 16 else if lv = 1 then 2 ^ 21 else 2 ^ 30

def eR (e : Word) : Bool := e.getLsbD 2
def eW (e : Word) : Bool := e.getLsbD 3
def eX (e : Word) : Bool := e.getLsbD 4
def eU (e : Word) : Bool := e.getLsbD 5
def eG (e : Word) : Bool := e.getLsbD 6

/-- The index of a virtual address at a level (Table 3.2). -/
def levelIx (va lv : Nat) : Nat :=
  if lv = 0 then va / 2 ^ 16 % 32 else if lv = 1 then va / 2 ^ 21 % 512 else if lv = 2 then va / 2 ^ 30 % 512
  else va / 2 ^ 39 % 2 ^ 17

/-- The table at NEXT, with the bits below its alignment cleared (R51, R52). -/
def nextTable (e : Word) (lv : Nat) : Nat :=
  let n := e.toNat / 256 % 2 ^ 36 * 256
  if lv = 0 then n else n / 4096 * 4096

/-- The walk of R52 from a table at a level down: the leaf, or the fault's code in bits [63:56]. -/
def State.walk (s : State) (va : Nat) (asid : BitVec 16) : Nat → Nat → Except Nat Leaf
  | lv, t =>
    let e := s.readWord (t + 8 * levelIx va lv)
    if !e.getLsbD 0 then .error (0x10 + lv)
    else if e.getLsbD 1 then
      if lv = 3 || (lv = 2 && e.toNat / 2 ^ 16 % 2 ^ 14 != 0) || (lv = 1 && e.toNat / 2 ^ 16 % 2 ^ 5 != 0)
      then .error (0x20 + lv)
      else .ok ⟨va / pageSize lv * pageSize lv, lv, e, asid⟩
    else match lv with
      | 0 => .error 0x20
      | k + 1 => s.walk va asid k (nextTable e k)

/-- The place that a leaf gives a virtual address (R52, R48). -/
def State.leafLoc (s : State) (l : Leaf) (va : Nat) : Loc :=
  let pa := l.entry.toNat / 2 ^ 16 % 2 ^ 40 * 2 ^ 16 + va % pageSize l.level
  let dev := pa / 2 ^ 44
  ⟨if dev = s.devno.toNat || dev = 0xFFF then thisDev else dev, pa % 2 ^ 44⟩

/-- Whether an HBM address lies in the protected range (Table 3.3). -/
def State.protectedAt (s : State) (a : Nat) : Bool :=
  let b := a / 2 ^ 16
  decide (s.protlo.toNat / 2 ^ 16 % 2 ^ 24 ≤ b) && decide (b ≤ s.prothi.toNat / 2 ^ 16 % 2 ^ 24)

/-- Whether a tile-window address lies outside the grid of 132 rows and 13 columns, which is the same on every device (R4, R47). -/
def outsideGrid (a : Nat) : Bool :=
  let i := (a - 0x10000000000) / 0x200000
  decide (0x10000000000 ≤ a) && decide (a < 0x10200000000) && (decide (131 < i / 16) || decide (12 < i % 16))

/-- Whether an address names an absent tile (R47): outside the grid, or on this device fused off or fenced. Which sites another device has
fused off or fenced is its own state. -/
def State.absentSite (s : State) (p : Loc) : Bool :=
  outsideGrid p.addr || (p.dev = thisDev && match s.region p.addr with
    | .absentTile => true
    | .pad t _ => (s.tile t).fenced
    | .ctrl t _ => (s.tile t).fenced
    | _ => false)

/-- check of R53: the first condition of Table 3.5 that holds, as its code. -/
def State.checkLeaf (s : State) (l : Leaf) (p : Loc) (kind : AccKind) (sup : Bool) : Option Nat :=
  let e := l.entry
  let g := s.region p.addr
  if g = .reserved then some 0x30
  else if s.absentSite p then some 0x31
  else if p.dev != thisDev && !s.members.contains p.dev then some 0x32
  else if kind = .fetch && !(p.dev = thisDev && g = .hbm) then some 0x34
  else if !sup && !eU e then some 0x43
  else if !sup && p.dev = thisDev && g = .hbm && s.protectedAt p.addr then some 0x44
  else if (kind = .read || kind = .rw) && !eR e then some 0x40
  else if (kind = .write || kind = .rw) && !eW e then some 0x41
  else if kind = .fetch && !eX e then some 0x42
  else none

/-- Whether a buffer entry maps a virtual address in an address space (R56). -/
def Leaf.maps (l : Leaf) (va : Nat) (asid : BitVec 16) : Bool :=
  decide (l.vbase ≤ va) && decide (va < l.vbase + pageSize l.level) && (eG l.entry || l.asid = asid)

/-- The leaf that the tile's buffer, or else its row's, holds for an address (R56). -/
def State.tlbFind (s : State) (t va : Nat) (asid : BitVec 16) : Option Leaf :=
  match (s.tile t).tlb.find? fun l => l.maps va asid with
  | some l => some l
  | none => (s.rowAt (s.tileRow t)).tlb.find? fun l => l.maps va asid

/-- What a translation comes to. -/
inductive Tr
  | at_ (p : Loc) (l : Leaf)
  | miss
  | fault (code : Nat) (detail : Word)
  deriving DecidableEq, Repr

/-- A translation fault of a code at an address (R52, R53): absent below 0x40, permission from there. -/
def trFault (code va : Nat) : Nat × Word := (if code < 0x40 then 8 else 9, codeWord code (va % 2 ^ 56))

/-- The end of a translation, from its leaf (R53). -/
def State.trLeaf (s : State) (l : Leaf) (va : Nat) (kind : AccKind) (sup : Bool) : Tr :=
  let p := s.leafLoc l va
  match s.checkLeaf l p kind sup with
  | some c => .fault (trFault c va).1 (trFault c va).2
  | none => .at_ p l

/-- A strand's translation through the buffers (R54, R56): a miss holds the strand until a walk. -/
def State.translate (s : State) (t : Nat) (ptroot : Word) (sup : Bool) (ea : Word) (kind : AccKind) : Tr :=
  let va := ea.toNat
  if 2 ^ 56 ≤ va then .fault 8 (codeWord 0x33 (va % 2 ^ 56))
  else match s.tlbFind t va (asidOf ptroot) with
    | some l => s.trLeaf l va kind sup
    | none => .miss

/-- The walk that a strand's miss, or an engine's access, makes (R52, R55). -/
def State.walkFrom (s : State) (ptroot : Word) (va : Nat) : Except Nat Leaf :=
  s.walk va (asidOf ptroot) 3 (ptroot.toNat / 2 ^ 20 % 2 ^ 24 * 2 ^ 20)

/-- An entry added to a buffer of a capacity, which drops its oldest when full (R56, log 9). -/
def tlbAdd (cap : Nat) (b : List Leaf) (l : Leaf) : List Leaf :=
  let b := b.filter fun k => k != l
  (if b.length < cap then b else b.drop 1) ++ [l]

/-- A completed walk fills the row's buffer and the tile's (R56). -/
def State.fillTlb (s : State) (t : Nat) (l : Leaf) : State :=
  let s := s.modTile t fun x => { x with tlb := tlbAdd 64 x.tlb l }
  s.modRow (s.tileRow t) fun r => { r with tlb := tlbAdd 4096 r.tlb l }

/-- An engine's translation (R55): through the same buffers and tables. Where it has to walk, its walk is part of the step in which it gets its
walker (log 48). -/
def State.engineTr (s : State) (t : Nat) (ptroot : Word) (sup : Bool) (ea : Word) (kind : AccKind) : Tr × State :=
  match s.translate t ptroot sup ea kind with
  | .miss =>
    match s.walkFrom ptroot ea.toNat with
    | .error c => (.fault (trFault c ea.toNat).1 (trFault c ea.toNat).2, s)
    | .ok l => (s.trLeaf l ea.toNat kind sup, s.fillTlb t l)
  | r => (r, s)

/-- The place of an engine's address, or the code of its failure (R55). -/
def State.engineLoc (s : State) (tile : Nat) (ptroot : Word) (sup : Bool) (va : Nat) (kind : AccKind) : Except Nat Loc × State :=
  if 2 ^ 56 ≤ va then (.error 0x33, s)
  else match s.engineTr tile ptroot sup (BitVec.ofNat 64 va) kind with
    | (.at_ p _, s) => (.ok p, s)
    | (.fault _ d, s) => (.error (d.toNat / 2 ^ 56), s)
    | (.miss, s) => (.error 0x10, s)

/-- Whether an engine that misses its buffers must wait (R57): no walker of the tile's die is free, or one walks for the same block already. -/
def State.walkersTaken (s : State) (tile : Nat) (asid : BitVec 16) (va : Nat) : Bool :=
  let ws := walksOf s.walks
  let die := s.tileDie tile
  ws.any (fun m => m.die = die && m.asid = asid && m.va / 2 ^ 16 = va / 2 ^ 16) || decide (64 ≤ (ws.filter fun m => m.die = die).length)

/-- How an engine translates (R55): through the buffers of a tile, in an address space and mode. An engine of a tile has the tile and the mode of
the strand that started it; the engines of the port dies and of the sluices have the tile that State.engineTile names (log 48). -/
structure Via where
  tile : Nat
  ptroot : Word
  sup : Bool
  deriving DecidableEq, Repr

/-- The pages of n bytes from an address up: in each, the first byte and the byte after the last. -/
def pagesOf (va n : Nat) : List (Nat × Nat) :=
  (List.range (if n = 0 then 0 else (va + n + 0xFFFF) / 0x10000 - va / 0x10000)).map fun i =>
    (Nat.max va ((va / 0x10000 + i) * 0x10000), Nat.min (va + n) ((va / 0x10000 + i + 1) * 0x10000))

/-- Whether an engine's access to n bytes has to wait for a walker (R57). -/
def State.viaWaits (s : State) (v : Via) (va n : Nat) : Bool :=
  (pagesOf va n).any fun p =>
    decide (p.1 < 2 ^ 56) && (s.tlbFind v.tile p.1 (asidOf v.ptroot)).isNone && s.walkersTaken v.tile (asidOf v.ptroot) p.1

/-- The place of a virtual address, or the code of its failure. -/
def State.viaLoc (s : State) (v : Via) (va : Nat) (kind : AccKind) : Except Nat Loc := (s.engineLoc v.tile v.ptroot v.sup va kind).1

/-- What the walks of an engine's access to n bytes leave in the translation buffers (R56). -/
def State.vaFill (s : State) (v : Via) (va n : Nat) (kind : AccKind) : State :=
  (pagesOf va n).foldl (fun (s : State) p => (s.engineLoc v.tile v.ptroot v.sup p.1 kind).2) s

/-! ## The buffers of cells (R55, R205) -/

/-- The page-table root of an address space (log 15). -/
def State.rootOf (s : State) (asid : BitVec 16) : Word := (assocGet s.roots asid.toNat).getD (asid.setWidth 64)

/-- How the engines of the port dies and of the sluices reach memory (R55): in an address space, in user mode (log 15). -/
def State.spaceVia (s : State) (asid : BitVec 16) : Via := ⟨s.engineTile, s.rootOf asid, false⟩

/-- The addresses of a cell's buffer on this device, page by page: where each piece begins and ends. -/
def State.bufPieces (s : State) (c : Cell) (b : Bool) : List (Nat × Nat) :=
  (pagesOf (c.buf b).toNat c.bytes).filterMap fun p =>
    match s.viaLoc (s.spaceVia c.asid) p.1 .read with
    | .ok l => if l.dev = thisDev then some (l.addr, l.addr + (p.2 - p.1)) else none
    | .error _ => none

/-- The addresses of every cell's shadow. -/
def State.shadows (s : State) : List (Nat × Nat) := s.cells.flatMap fun c => s.bufPieces c (!c.cur)

end Sys2Proof.Machine
end

