-- ==== Sys2Proof/Machine/Port.lean ====
section
/-!
DEFINITION. The port window (spec/14 R281 to R284, R290, R295 to R297): command rings, turnout records, launch status words;
and reduction words at their homes (spec/11 R211). With them, reading and writing any local address.
-/

namespace Sys2Proof.Machine

/-! ## Command rings -/

def State.ring (s : State) (n : Nat) : CmdRing := (s.cmdRings.find? fun r => r.num = n).getD (CmdRing.initial n)

def State.putCmdRing (s : State) (r : CmdRing) : State :=
  { s with cmdRings := r :: s.cmdRings.filter fun q => q.num != r.num }

def CmdRing.lsize (r : CmdRing) : Nat := r.rcfg.toNat / 2 ^ 56 % 16
def CmdRing.size (r : CmdRing) : Nat := 2 ^ r.lsize
def CmdRing.base (r : CmdRing) : Nat := r.rcfg.toNat / 64 % 2 ^ 38 * 64
def CmdRing.priv (r : CmdRing) : Bool := r.rcfg.getLsbD 62

/-- EN, with a slot count that the ring can have (Table 14.2). -/
def CmdRing.on (r : CmdRing) : Bool := r.rcfg.getLsbD 63 && decide (3 ≤ r.lsize) && decide (r.lsize ≤ 12)

/-- The refusal word of RESV (R283). -/
def resvFull : Word := 0xFFFFFFFFFFFFFFFF

/-- Reserving a ticket (R283). -/
def CmdRing.reserve (r : CmdRing) : Word × CmdRing :=
  if !r.on || decide (r.size ≤ (r.tail - r.head).toNat) then (resvFull, r)
  else (r.tail.setWidth 64, { r with tail := r.tail + 1 })

/-- Whether a ticket's slot is committed and not dispatched (BITMAP, Table 14.2). -/
def CmdRing.bit (r : CmdRing) (i : Nat) : Bool := r.slots.any fun p => p.1.toNat % r.size = i

/-- Whether a ticket lies in HEAD to TAIL - 1 (R284). -/
def CmdRing.holds (r : CmdRing) (t : BitVec 32) : Bool := decide ((t - r.head).toNat < (r.tail - r.head).toNat)

/-- A refused commit changes RERR alone (R284); so does a command refused for its COMPL (R286). -/
def CmdRing.refuse (r : CmdRing) (t : BitVec 32) : CmdRing := { r with errCount := r.errCount + 1, errLast := t }

/-- Committing a ticket (R284): the slot's 64 bytes are read into the port die's queue in the same step. -/
def State.commitTicket (s : State) (n : Nat) (t : BitVec 32) : State :=
  let r := s.ring n
  if !r.holds t || r.bit (t.toNat % r.size) then s.putCmdRing (r.refuse t)
  else
    let a := r.base + 64 * (t.toNat % r.size)
    s.putCmdRing { r with slots := r.slots ++ [(t, (List.range 8).map fun i => s.readWord (a + 8 * i))] }

/-- A supervisor's write of RCFG (R282). -/
def CmdRing.writeCfg (r : CmdRing) (v : Word) : CmdRing :=
  let v := v &&& 0xCF000FFFFFFFFFC0
  if r.rcfg.getLsbD 63 then
    if v.getLsbD 63 then r else { r with rcfg := v, head := r.tail, slots := [] }
  else { r with rcfg := v }

/-! ## Turnouts -/

def State.turnout (s : State) (k : Nat) : Turnout := (assocGet s.turnouts k).getD Turnout.initial
def Turnout.v (t : Turnout) : Bool := t.w0.getLsbD 63
def Turnout.armed (t : Turnout) : Bool := t.w0.getLsbD 62
def Turnout.rearm (t : Turnout) : Bool := t.w0.getLsbD 61
def Turnout.ringNo (t : Turnout) : Nat := t.w0.toNat / 2 ^ 54 % 64
def Turnout.tag (t : Turnout) : BitVec 32 := t.w0.setWidth 32
def Turnout.thresh (t : Turnout) : Nat := t.w1.toNat / 2 ^ 32
def Turnout.count (t : Turnout) : Nat := t.w1.toNat % 2 ^ 32
def Turnout.withCount (t : Turnout) (n : Nat) : Turnout :=
  { t with w1 := BitVec.ofNat 64 (t.thresh * 2 ^ 32 + Nat.min n (2 ^ 32 - 1)) }

/-- A firing's ticket and commit (R297): none while the ring is full. -/
def State.insertFiring (s : State) (n : Nat) (cmd : List Word) : Option State :=
  let r := s.ring n
  let (t, r') := r.reserve
  if t = resvFull then none
  else some (s.putCmdRing { r' with slots := r'.slots ++ [(t.setWidth 32, cmd)] })

/-- Firing while the record is valid, armed and its COUNT reaches THRESH (R297); the fuel bounds the firings of one count. -/
def State.fireTurnout (s : State) (k : Nat) : Nat → State
  | 0 => s
  | f + 1 =>
    let t := s.turnout k
    if t.v && t.armed && decide (0 < t.thresh) && decide (t.thresh ≤ t.count) then
      let t' := { t with w0 := t.w0 ||| 0x1000000000000000 }
      let t' := if t.rearm then t'.withCount (t.count - t.thresh) else { t' with w0 := t'.w0 &&& 0xBFFFFFFFFFFFFFFF }
      let s : State := { s with turnouts := assocSet s.turnouts k t' }
      let cmd := t.cmd.toList
      let s := match s.insertFiring t.ringNo cmd with
        | some s => s
        | none =>
          let r := s.ring t.ringNo
          s.putCmdRing { r with firings := r.firings ++ [(k, cmd)] }
      s.fireTurnout k f
    else s

/-- A count that arrives at one record: only a valid record counts, and COUNT saturates (R296). -/
def State.countAt (s : State) (k n : Nat) : State :=
  let t := s.turnout k
  if !t.v then s
  else
    let t := t.withCount (t.count + n)
    { s with turnouts := assocSet s.turnouts k t }.fireTurnout k (if t.thresh = 0 then 0 else t.count / t.thresh + 1)

/-- A tag that arrives, counted by every valid record with it (R296): a message's by the records of its port die, a remote copy's by those
of both dies. -/
def State.countTag (s : State) (die : Option Nat) (tag : BitVec 32) : State :=
  s.turnouts.foldl (fun s p =>
    if (die.map fun d => decide (p.1 / 1024 = d)).getD true && tag != 0 && p.2.tag = tag then s.countAt p.1 1 else s) s

/-- A supervisor's store to a word of a turnout record (R295, Table 14.7). -/
def Turnout.write (t : Turnout) (i : Nat) (v : Word) : Turnout :=
  if i = 0 then
    if t.armed && !v.getLsbD 62 then { t with w0 := t.w0 &&& 0xBFFFFFFFFFFFFFFF }
    else { t with w0 := (v &&& 0xEFC00000FFFFFFFF) ||| (t.w0 &&& 0x1000000000000000) }
  else if i = 1 then { t with w1 := BitVec.ofNat 64 (v.toNat / 2 ^ 32 * 2 ^ 32 + t.count) }
  else if t.armed then t
  else if 8 ≤ i then { t with cmd := t.cmd.setIfInBounds (i - 8) v }
  else t

/-! ## The port window (Table 14.1) -/

/-- The status word of a launch (Table 14.8). -/
def Launch.word (l : Launch) : Word :=
  BitVec.ofNat 64 ((if l.ending then 2 else 1) * 2 ^ 62 + l.cls.toNat * 2 ^ 60 + l.prio.toNat * 2 ^ 58
    + (if l.det then 2 ^ 57 else 0) + l.asid.toNat * 2 ^ 32 + l.waves % 2 ^ 32)

/-- The aligned word at an offset of the port window. -/
def State.portWord (s : State) (off : Nat) : Word :=
  if off < 0x400000 then
    let r := s.ring (off / 0x10000)
    let o := off % 0x10000
    if o = 0 then r.rcfg
    else if o = 8 then resvFull
    else if o = 0x18 then r.head.setWidth 64
    else if o = 0x20 then r.tail.setWidth 64
    else if o = 0x28 then r.errCount ++ r.errLast
    else if o = 0x30 then r.rasid.setWidth 64
    else if 0x100 ≤ o && o < 0x300 then
      let i := (o - 0x100) * 8
      BitVec.ofNat 64 ((List.range 64).foldl (fun v b => if i + b < r.size && r.bit (i + b) then v + 2 ^ b else v) 0)
    else 0
  else if off < 0x440000 then
    let t := s.turnout ((off - 0x400000) / 0x80)
    let i := off % 0x80 / 8
    if i = 0 then t.w0 else if i = 1 then t.w1 else if i < 8 then 0 else t.cmd.getD (i - 8) 0
  else if 0x800000 ≤ off && off < 0x840000 && off % 0x40 = 0 then
    ((s.launches.find? fun l => l.lid = (off - 0x800000) / 0x40).map Launch.word).getD 0
  else 0

/-- A word written at an offset of the port window (R281, R282, R284, R295): `sup` says whether the writer has supervisor access. -/
def State.portPut (s : State) (sup : Bool) (off : Nat) (v : Word) : State :=
  if off < 0x400000 then
    let n := off / 0x10000
    let r := s.ring n
    let o := off % 0x10000
    if o = 0x10 then s.commitTicket n (v.setWidth 32)
    else if !sup then s
    else if o = 0 then s.putCmdRing (r.writeCfg v)
    else if o = 0x28 then (if v.toNat / 2 ^ 32 = 0 then s.putCmdRing { r with errCount := 0 } else s)
    else if o = 0x30 then s.putCmdRing { r with rasid := v.setWidth 16 }
    else s
  else if off < 0x440000 then
    if sup then
      let k := (off - 0x400000) / 0x80
      { s with turnouts := assocSet s.turnouts k ((s.turnout k).write (off % 0x80 / 8) v) }
    else s
  else s

/-- A word with some of its bytes replaced, from a byte offset up. -/
def mergeBytes (w : Word) (at_ : Nat) (bs : List Byte) : Word :=
  let old := natToBytes 8 w.toNat
  BitVec.ofNat 64 (bytesToNat (old.take at_ ++ bs ++ old.drop (at_ + bs.length)))

/-! ## The tile control region (R92, Tables 5.2, 5.4, 12.4, 4.3) -/

def Ring.word (r : Ring) (i : Nat) : Word :=
  if i = 0 then BitVec.ofBool r.cfg ++ r.desc
  else if i = 1 then r.pgen ++ r.cgen
  else if i = 2 then (0#16 ++ r.cmem ++ r.pmem : BitVec 64)
  else if i = 3 then (0#16 ++ r.carr ++ r.parr : BitVec 64)
  else 0

/-- The channel status word (Table 4.3). -/
def Chan.word (c : Chan) : Word :=
  let st := if c.halted then 2 else if c.queue.isEmpty then 0 else 1
  let slot := match c.queue with | [] => 0 | t :: _ => t.who.slot
  BitVec.ofNat 64 (st * 2 ^ 62 + c.queue.length % 16 * 2 ^ 58 + (if c.halted then c.cause.toNat else 0) * 2 ^ 48
    + slot % 8 * 2 ^ 32 + c.doneId.toNat)

def State.ctrlWord (s : State) (t off : Nat) : Word :=
  let x := s.tile t
  if off < 0x100 then (x.sem.getD (off / 8) 0).setWidth 64
  else if 0x200 ≤ off && off < 0x220 then (x.tbar.getD ((off - 0x200) / 8) Barrier.initial).word
  else if 0x400 ≤ off && off < 0x600 then (x.rings.getD ((off - 0x400) / 64) Ring.initial).word (off % 64 / 8)
  else if 0x800 ≤ off && off < 0x820 then (x.chans.getD ((off - 0x800) / 8) Chan.initial).word
  else 0

/-- Supervisor strands stand in slot 0 of an M-core (R302). -/
def isSup (x : SlotId) : Bool := x.core = .m && x.slot = 0

/-- Setting a semaphore: a write to its line (R92). -/
def State.setSem (s : State) (writer : Option SlotId) (t k : Nat) (v : BitVec 32) : State :=
  (s.modTile t fun x => { x with sem := x.sem.setIfInBounds k v }).notifyLine writer (s.ctrlLoc t (8 * k)).line

/-! ## Reduction words (R211) -/

/-- ⊕ of a reduction word's type. -/
def redAdd (ty : Nat) (a b : Word) : Word :=
  if ty = 0 then BitVec.ofNat 64 (Fmt.f64.add .rne a.toNat b.toNat).1
  else if ty = 1 then BitVec.ofNat 64 (Fmt.f32.add .rne (a.toNat % 2 ^ 32) (b.toNat % 2 ^ 32)).1
  else a + b

/-- The bytes of a reduction word that its type adds in. -/
def redBytes (ty : Nat) : Nat := if ty = 1 then 4 else 8

/-- Folding a reduction word: its slots in tile-number order, then cleared. -/
def State.foldWord (s : State) (r : RedWord) : State :=
  if r.slots.isEmpty then s
  else
    let n := redBytes r.ty
    let v := r.slots.foldl (fun v p => redAdd r.ty v p.2) (BitVec.ofNat 64 (s.readNat r.addr n))
    let s := s.store none r.addr (natToBytes n v.toNat)
    { s with redWords := s.redWords.map fun q => if q.addr = r.addr then { q with slots := [] } else q }

/-- Any other access folds the reduction words it touches first (R211). -/
def State.foldFor (s : State) (l : Loc) (n : Nat) : State :=
  if l.dev != thisDev then s
  else (s.redWords.filter fun r => decide (l.addr < r.addr + 8) && decide (r.addr < l.addr + n)).foldl (fun s r => s.foldWord r) s

/-! ## Any place of this device -/

/-- The bytes that a read at a place of this device finds, without its side effects; a place on another device, or none, reads 0. -/
def State.peek (s : State) (l : Loc) (n : Nat) : List Byte :=
  if l.dev != thisDev then List.replicate n 0
  else match s.region l.addr with
    | .hbm => s.readBytes l.addr n
    | .pad _ _ => s.readBytes l.addr n
    | .ctrl t off =>
      (List.range n).map fun i => (natToBytes 8 (s.ctrlWord t ((off + i) / 8 * 8)).toNat).getD ((off + i) % 8) 0
    | .port off =>
      (List.range n).map fun i => (natToBytes 8 (s.portWord ((off + i) / 8 * 8)).toNat).getD ((off + i) % 8) 0
    | _ => List.replicate n 0

/-- The bytes that a read of a path class finds at a place of this device: in memory, those that it may still miss the writes to are as they
were (log 18). -/
def State.peekAs (s : State) (reader : Nat) (l : Loc) (n : Nat) : List Byte :=
  if l.dev = thisDev then s.viewOver reader l.addr (s.peek l n) else s.peek l n

/-- Writing up to 8 bytes inside one word of the control region or the port window. Bits [63:32] of a write to COMMIT are ignored (Table 14.2), so
a store that lies in them commits no ticket. -/
def State.pokeWord (s : State) (writer : Option SlotId) (sup : Bool) (l : Loc) (bs : List Byte) : State :=
  match s.region l.addr with
  | .ctrl t off =>
    if off < 0x100 then
      s.setSem writer t (off / 8) ((mergeBytes (s.ctrlWord t (off / 8 * 8)) (off % 8) bs).setWidth 32)
    else s
  | .port off =>
    let resv := decide (off < 0x400000) && decide (off % 0x10000 / 8 = 1)
    if off < 0x400000 && 0x14 ≤ off % 0x10000 && off % 0x10000 < 0x18 then s
    else s.portPut sup (off / 8 * 8) (mergeBytes (if resv then 0 else s.portWord (off / 8 * 8)) (off % 8) bs)
  | _ => s

/-- The pieces of a byte string that lie in one word each; the fuel is the number of bytes. -/
def wordPieces (a : Nat) : Nat → List Byte → List (Nat × List Byte)
  | 0, _ => []
  | _, [] => []
  | f + 1, bs =>
    let k := 8 - a % 8
    (a, bs.take k) :: wordPieces (a + k) f (bs.drop k)

/-- The shadows into which a path class may write what the cell class does not see without a fencex: a copy's, a router's (R205). -/
def State.hiddenFrom (s : State) (cls : Nat) : List (Nat × Nat) := if cls = pathCopy || cls = pathRouter then s.shadows else []

/-- A write performed at a place (R188): memory with its full bits, a semaphore, a register of the port window; elsewhere, and on
another device, this device changes nothing. The writer's path class and operation come with it (R200). -/
def State.poke (s : State) (writer : Option SlotId) (sup : Bool) (l : Loc) (bs : List Byte) (cls : Nat := pathStrand) (op : Nat := 0) :
    State :=
  if l.dev != thisDev then s
  else match s.region l.addr with
    | .hbm => (s.foldFor l bs.length).store writer l.addr bs cls op (s.hiddenFrom cls)
    | .pad _ _ => (s.foldFor l bs.length).store writer l.addr bs cls op (s.hiddenFrom cls)
    | .ctrl _ _ => (wordPieces l.addr bs.length bs).foldl (fun s p => s.pokeWord writer sup ⟨thisDev, p.1⟩ p.2) s
    | .port _ => (wordPieces l.addr bs.length bs).foldl (fun s p => s.pokeWord writer sup ⟨thisDev, p.1⟩ p.2) s
    | _ => s

end Sys2Proof.Machine
end

