-- ==== Sys2Proof/Machine/Access.lean ====
section
/-!
DEFINITION. Accesses: what an instruction does to memory when it issues, read sets and write sets (spec/11 R215, R217, spec/14
R299), global accesses in flight, the order in which they are performed (spec/10 R188 to R198), and their performance.
-/

namespace Sys2Proof.Machine

/-- A value with a state, or the end that the instruction comes to instead. -/
inductive Got (α : Type)
  | got (v : α) (s : State)
  | stop (a : Act)

def Got.bind {α β : Type} (g : Got α) (f : α → State → Got β) : Got β :=
  match g with
  | .got v s => f v s
  | .stop a => .stop a

/-- The end of an instruction that needs the value. -/
def Got.act {α : Type} (g : Got α) (f : α → State → Act) : Act :=
  match g with
  | .got v s => f v s
  | .stop a => a

/-! ## Read sets and write sets (R215, R217, R299) -/

/-- The tag that is current in an open transaction (R217). -/
def Tx.tag (t : Tx) : Nat := t.nextTag - 1

/-- A write set with effects on a line, in the entry made since the last checkpoint or in a new one; none past 64 entries. -/
def addEntry (w : List WEntry) (tag : Nat) (l : Loc) (ops : List WOp) : Option (List WEntry) :=
  if w.any fun e => e.line = l && e.tag = tag then
    some (w.map fun e => if e.line = l && e.tag = tag then { e with ops := e.ops ++ ops } else e)
  else if w.length < 64 then some (w ++ [⟨l, tag, ops⟩]) else none

/-- The last effect that a write set has on a byte of a line. -/
def wByte (w : List WEntry) (l : Loc) (off : Nat) : Option Byte :=
  w.foldl (fun r e =>
    if e.line = l then e.ops.foldl (fun r o => match o with
      | .store k bs _ => if k ≤ off && off < k + bs.length then bs[off - k]? else r
      | .empty _ _ => r
      | .pin _ => r) r
    else r) none

/-- The full/empty bit that a write set gives a word of a line, if it touches it. -/
def wFull (w : List WEntry) (l : Loc) (word : Nat) : Option Bool :=
  w.foldl (fun r e =>
    if e.line = l then e.ops.foldl (fun r o => match o with
      | .store k bs _ => if k < 8 * word + 8 && 8 * word < k + bs.length then some true else r
      | .empty k _ => if k = word then some false else r
      | .pin _ => r) r
    else r) none

/-- The write set that the strand's accesses go to: its transaction's, or its chunk's. -/
def Strand.wset (st : Strand) : List WEntry :=
  if st.inTx then (st.tx.map (·.wset)).getD [] else (st.chunk.map (·.wset)).getD []

/-- Whether the strand's stores are held back (R215, R299). -/
def Strand.buffered (st : Strand) : Bool := st.inTx || st.chunk.isSome

/-- The bytes that the strand's own write set gives a read of n bytes (R215). -/
def Strand.ownBytes (st : Strand) (l : Loc) (n : Nat) : List (Nat × Byte) :=
  (List.range n).filterMap fun i =>
    (wByte st.wset (Loc.line ⟨l.dev, l.addr + i⟩) ((l.addr + i) % 64)).map fun b => (i, b)

/-- Bytes with some of them replaced. -/
def overlaid (bs : List Byte) (ov : List (Nat × Byte)) : List Byte :=
  ov.foldl (fun bs p => bs.set p.1 p.2) bs

/-- The end of a deterministic lane's chunk before an access that does not fit it (R299). -/
def State.endChunk (s : State) (x : SlotId) : Act :=
  .hold (s.modStrand x Strand.closeChunk) .chunk

/-- Adding a line to the read set (R215, R224): `live` when its value is fixed now. An access that exceeds it aborts with reason
0x02. -/
def State.addRead (s : State) (x : SlotId) (sp live : Bool) (l : Loc) : Got Unit :=
  match s.strand? x with
  | none => .got () s
  | some st =>
    if st.inTx then
      let w := (s.tile x.tile).weir
      let mine := w.filter fun e => e.member = x.member
      if mine.any fun e => e.line = l && e.sp = sp then
        .got () (if live then s.modTile x.tile fun t =>
          { t with weir := t.weir.map fun e =>
              if e.member = x.member && e.line = l && e.sp = sp then { e with live := true } else e } else s)
      else if 64 ≤ mine.length then .stop (.placed (s.abortTx x 2 (BitVec.ofNat 64 (s.lineAddr sp l))))
      else .got () (s.modTile x.tile fun t => { t with weir := t.weir ++ [⟨sp, x.member, false, false, live, l⟩] })
    else match st.chunk with
      | none => .got () s
      | some c =>
        if c.reads.any fun r => r.1 = l then .got () s
        else if 64 ≤ c.reads.length then .stop (s.endChunk x)
        else .got () (s.setStrand x { st with chunk := some { c with reads := c.reads ++ [(l, false)] } })

/-- Adding lines to the read set, in order. -/
def State.addReads (s : State) (x : SlotId) (sp live : Bool) (ls : List Loc) : Got Unit :=
  ls.foldl (fun g l => g.bind fun _ s => s.addRead x sp live l) (.got () s)

/-- Adding effects on a line to the write set (R215, R217): an access that exceeds it aborts with reason 0x03. -/
def State.addWrite (s : State) (x : SlotId) (sp : Bool) (l : Loc) (ops : List WOp) : Got Unit :=
  match s.strand? x with
  | none => .got () s
  | some st =>
    match st.inTx, st.tx, st.chunk with
    | true, some t, _ =>
      match addEntry t.wset t.tag l ops with
      | some w => .got () (s.setStrand x { st with tx := some { t with wset := w } })
      | none => .stop (.placed (s.abortTx x 3 (BitVec.ofNat 64 (s.lineAddr sp l))))
    | _, _, some c =>
      match addEntry c.wset 0 l ops with
      | some w => .got () (s.setStrand x { st with chunk := some { c with wset := w } })
      | none => .stop (s.endChunk x)
    | _, _, none => .got () s

/-- The bytes of a store as effects on the lines it touches, with the leaf of its translation if it is a global one. -/
def lineOps (l : Loc) (bs : List Byte) (leaf : Option Leaf) : List (Loc × List WOp) :=
  (linesOf l bs.length).map fun k =>
    let off := l.addr - k.addr
    (k, [.store off ((bs.drop (k.addr - l.addr)).take (64 - off)) leaf])

/-- A store held back in the write set (R215). -/
def State.holdStore (s : State) (x : SlotId) (sp : Bool) (l : Loc) (bs : List Byte) (leaf : Option Leaf) : Got Unit :=
  (lineOps l bs leaf).foldl (fun g p => g.bind fun _ s => s.addWrite x sp p.1 p.2) (.got () s)

/-- Whether a write-set entry moves its line over the global path (R292). -/
def WEntry.global (e : WEntry) : Bool :=
  e.ops.any fun o => match o with
    | .store _ _ leaf => leaf.isSome
    | _ => false

/-- A write-set entry performed (R218): its stores whole and in order, the words that ldc emptied, the pins that cpin took. A line of
global stores is traffic of the launch (R292). -/
def State.applyEntry (s : State) (x : SlotId) (e : WEntry) : State :=
  let s := if e.global then s.countWork x.tile (((s.strand? x).map (·.lid)).getD 0) 0 1 else s
  e.ops.foldl (fun s o => match o with
    | .store off bs _ => s.poke (some x) (isSup x) ⟨e.line.dev, e.line.addr + off⟩ bs
    | .empty w _ => if e.line.dev = thisDev then s.emptyWord (some x) (e.line.addr / 8 + w) else s
    | .pin b => s.modCell e.line.addr fun c => c.setPins b (c.pins b + 1)) s

/-! ## Errors in scratchpad words (R91) -/

/-- The words that n bytes at an address of this device touch and that hold an uncorrectable error. -/
def State.badIn (s : State) (a n : Nat) : Option Nat := (wordsOf a n).find? fun w => s.badWords.contains w

/-- Errors that a check of n bytes corrects: fixed in place, and logged in the bank of their tile. The syndrome is free (log 8). -/
def State.fixWords (s : State) (a n : Nat) (m : BitVec 5) : State :=
  ((wordsOf a n).filter fun w => s.weakWords.contains w).foldl (fun s w =>
    let (d, s) := s.free
    { s with weakWords := s.weakWords.filter fun k => k != w }.modBank (s.bankFor ⟨thisDev, 8 * w⟩) fun b =>
      b.log 1 5 m (BitVec.ofNat 64 (s.lineAddr false ⟨thisDev, 8 * w⟩)) d) s

/-- The end of an instruction that finds an uncorrectable error in a word. -/
def State.badWord (s : State) (w : Nat) : Act := .check s 5 (BitVec.ofNat 64 (s.lineAddr false ⟨thisDev, 8 * w⟩))

/-! ## Scratchpad accesses (R90, R102) -/

/-- The place of a scratchpad byte of a strand's tile. -/
def State.padLoc (s : State) (x : SlotId) (a : Nat) : Loc := ⟨thisDev, s.padBase x.tile + a⟩

/-- A scratchpad read at issue: its address, reduction words folded, the check of its words, the read set, the bytes (R85, R90, R91, R211,
R215). -/
def State.padRead (s : State) (x : SlotId) (st : Strand) (ea : Word) (n : Nat) : Got (List Byte) :=
  match s.padAddr x st ea n with
  | .error e => .stop (.fault e.1 e.2)
  | .ok a =>
    let l := s.padLoc x a
    let s := s.fixWords l.addr n (BitVec.ofNat 5 x.member)
    match s.badIn l.addr n with
    | some w => .stop (s.badWord w)
    | none =>
      let s := (s.foldFor l n).noteSeen st.uid l.addr n
      let bs := overlaid (s.viewBytes pathStrand l.addr n) (st.ownBytes l n)
      if st.buffered then (s.addReads x true true (linesOf l n)).bind fun _ s => .got bs s
      else .got bs s

/-- A scratchpad write at issue (R85, R90, R91, R211, R215). A word that it covers in part is read for its check bits; one that it covers
whole is replaced. -/
def State.padWrite (s : State) (x : SlotId) (st : Strand) (ea : Word) (bs : List Byte) : Got Unit :=
  match s.padAddr x st ea bs.length with
  | .error e => .stop (.fault e.1 e.2)
  | .ok a =>
    let l := s.padLoc x a
    let s := if bs.length < 8 then s.fixWords l.addr bs.length (BitVec.ofNat 5 x.member) else s
    match (if bs.length < 8 then s.badIn l.addr bs.length else none) with
    | some w => .stop (s.badWord w)
    | none =>
      if st.buffered then s.holdStore x true l bs none else .got () (s.poke (some x) (isSup x) l bs)

/-! ## Global accesses at issue -/

/-- Alignment, then translation (R31, R64): the place, or the end of the attempt; a miss holds the strand for a walk. -/
def State.globalAddr (s : State) (x : SlotId) (st : Strand) (ea : Word) (n : Nat) (kind : AccKind) : Got (Loc × Leaf) :=
  if ea.toNat % n != 0 then .stop (.fault 7 ea)
  else match s.translate x.tile st.regs.ptroot st.sup ea kind with
    | .at_ p l => .got (p, l) s
    | .miss => .stop (.hold s (.walk ea.toNat kind))
    | .fault c d => .stop (.fault c d)

/-- The bytes that an access in flight touches. -/
def FlightOp.len : FlightOp → Nat
  | .load n _ => n
  | .loadV _ => 64
  | .store bs => bs.length
  | .atom .fadd32 _ _ => 4
  | .atomn .fadd32 _ => 4
  | .wrongBit => 0
  | .result => 0
  | _ => 8

/-- An access that enters flight: its number is State.nextId, and with a destination it marks a long result (R108). -/
def State.send (s : State) (x : SlotId) (st : Strand) (op : FlightOp) (l : Loc) (dest : Option Dest) (kind : Nat)
    (rel acq : Bool) (tr : Option Leaf) : State :=
  let full := wFull st.wset l.line (l.addr % 64 / 8)
  let n := match op with | .load n _ => n | .loadV _ => 64 | .ldc => 8 | _ => 0
  let a : Access := ⟨s.nextId, x, st.lid, st.sid, st.uid, op, l, dest, kind, rel, acq,
    if n = 0 then [] else st.ownBytes l n, full, st.inTx, false, 0, tr⟩
  let s := s.modStrand x fun st =>
    match dest with
    | some d => { st with longs := st.longs ++ [⟨a.id, d, acq⟩] }
    | none => st
  let s := s.countWork x.tile st.lid 0 (linesOf l op.len).length
  { s with flight := s.flight ++ [a], nextId := s.nextId + 1 }

/-- Stores, atomics and stp: what a fence with gs or at waits for from its whole core (R197). -/
def FlightOp.writes : FlightOp → Bool
  | .store _ => true
  | .atom _ _ _ => true
  | .atomn _ _ => true
  | .stp _ => true
  | .stx _ => true
  | .joinDec => true
  | .redpReg _ => true
  | .redpRel => true
  | _ => false

def FlightOp.isStore : FlightOp → Bool
  | .store _ => true
  | _ => false

/-- Whether two slots belong to one core (R189). -/
def sameCore (x y : SlotId) : Bool := x.tile = y.tile && x.core = y.core

/-- How many of the 16 store-buffer entries of a slot's core are in use (R62). -/
def State.bufferUsed (s : State) (x : SlotId) : Nat :=
  (s.flight.filter fun a => a.op.isStore && !a.done && sameCore a.who x).length

/-! ## When an access in flight may be performed (R189, R190, R198, R210) -/

/-- An ldc or stp that waits registered at its home: it holds back nothing behind it (R214). -/
def State.waitsAtHome (s : State) (a : Access) : Bool := s.watches.any fun w => w.dev = thisDev && decide (2 ≤ w.kind) && w.ctx = a.id

/-- Whether two byte ranges meet. -/
def meets (a : Loc) (n : Nat) (b : Loc) (m : Nat) : Bool :=
  a.dev = b.dev && decide (a.addr < b.addr + m) && decide (b.addr < a.addr + n)

/-- The byte of the latest earlier store of the core that covers a place (R190). -/
def forwarded (before : List Access) (who : SlotId) (l : Loc) : Option Byte :=
  before.foldl (fun r e => match e.op with
    | .store bs =>
      if !e.done && sameCore e.who who && e.loc.dev = l.dev && decide (e.loc.addr ≤ l.addr) && decide (l.addr < e.loc.addr + bs.length)
      then bs[l.addr - e.loc.addr]? else r
    | _ => r) none

/-- Whether a load can take every byte from its core's store buffer (R190) with no other operation of the core between. -/
def State.forwardable (s : State) (before : List Access) (a : Access) : Bool :=
  (match a.op with | .load _ _ => true | .loadV _ => true | _ => false)
    && ((List.range a.op.len).all fun i => (forwarded before a.who ⟨a.loc.dev, a.loc.addr + i⟩).isSome)
    && !(before.any fun e => !e.done && e.op.writes && !e.op.isStore && !s.waitsAtHome e && sameCore e.who a.who
          && meets e.loc e.op.len a.loc a.op.len)

/-- Whether an access is one of a strand's earlier ones that has still to be performed and reaches a common byte: the later one waits for it
(R191), be it registered at its home or on its way there. An earlier store of the core is no such one: the store buffer gives it (R190). -/
def behindOwn (e a : Access) : Bool :=
  !e.done && !e.op.isResult && !e.op.isStore && e.who = a.who && e.uid = a.uid && meets e.loc e.op.len a.loc a.op.len

/-- The ordered accesses of a strand: atom with a suffix, ldc, stp (R210). -/
def Access.ordered (a : Access) : Bool :=
  match a.op with
  | .atom _ _ _ => a.rel || a.acq
  | .joinDec => true
  | .ldc => true
  | .stp _ => true
  | .stpTest => true
  | _ => false

/-- Whether the error of an earlier ordered access of the strand has still to be delivered to it, resident or spilled (R210). -/
def State.errorWaits (s : State) (a : Access) : Bool :=
  let mine := fun (st : Strand) => st.uid = a.uid && st.asyncs.any fun p => p.1 = 15 + 512
  ((s.strand? a.who).map mine).getD false || s.spills.any fun p => p.at_ = a.who && mine p.strand

/-- The earlier accesses that a releasing access waits for (R198). -/
def Access.before (e a : Access) : Bool :=
  !e.done && !e.op.isResult && ((e.who = a.who && e.uid = a.uid) || (e.op.writes && sameCore e.who a.who))

/-- Whether an access in flight may be performed now: its core's earlier ones at its home have been (R189), or the store buffer gives it
(R190); it comes after what it releases (R198), after its strand's own request that waits for its bytes (R191), and not before an error of
an earlier ordered access is delivered (R210). -/
def State.readyNow (s : State) (a : Access) : Bool :=
  let before := s.flight.takeWhile fun e => e.id != a.id
  let inOrder := before.all fun e =>
    e.done || e.op.isResult || s.waitsAtHome e || !(sameCore e.who a.who && s.homeKey e.loc = s.homeKey a.loc)
  !a.done && !a.op.isResult && (inOrder || s.forwardable before a)
    && (!a.rel || before.all fun e => !e.before a)
    && !(before.any fun e => behindOwn e a)
    && !(a.ordered && s.errorWaits a)

/-! ## Ends of an access -/

/-- The strand that awaits a long result: resident, or spilled (R111). -/
def State.modOwner (s : State) (id : Nat) (who : SlotId) (f : Strand → Strand) : State :=
  let mine := fun (st : Strand) => st.longs.any fun l => l.id = id
  if ((s.strand? who).map mine) = some true then s.modStrand who f
  else s.modSpilled (fun p => p.at_ = who && mine p.strand) fun p => { p with strand := f p.strand }

/-- The access leaves flight; a mark that it held lifts. -/
def State.dropAccess (s : State) (a : Access) : State :=
  let s := s.modOwner a.id a.who fun st => { st with longs := st.longs.filter fun l => l.id != a.id }
  { s with
    flight := s.flight.filter fun e => e.id != a.id
    watches := s.watches.filter fun w => !(w.dev = thisDev && decide (2 ≤ w.kind) && w.ctx = a.id) }

def State.setAccess (s : State) (a : Access) : State :=
  { s with flight := s.flight.map fun e => if e.id = a.id then a else e }

/-- An access performed: with a destination its value waits for its return; with none, or z, it is finished (R108). -/
def State.performed (s : State) (a : Access) (v : V128) : State :=
  match a.dest with
  | none => s.dropAccess a
  | some d => if d.spec = 41 then s.dropAccess a else s.setAccess { a with done := true, value := v }

/-- Whether the strand of an access still stands in its slot. -/
def State.present (s : State) (a : Access) : Bool := ((s.strand? a.who).map (·.uid)) = some a.uid

/-- The strand of an access as the writer that watchers see (R216). -/
def State.writerOf (s : State) (a : Access) : Option SlotId := if s.present a then some a.who else none

/-- An asynchronous delivery to the strand of an access, or to its tile's supervisor when it is gone (R209, R310). -/
def State.deliverTo (s : State) (a : Access) (code : Nat) (detail : Word) : State := s.deliver a.who a.uid a.sid a.lid code detail

/-- A strand held for the answer of redp or join goes on without it (R212, R250), also when it has been pre-empted meanwhile. -/
def Strand.unhome (st : Strand) (id : Nat) : Strand :=
  if st.run = .held (.home id) then { st with run := .ready }
  else if st.run = .preempted (some (.home id)) then { st with run := .preempted none }
  else st

/-- An access that fails (R63, R209, R356): logged as contained, delivered; its destination gets no value. The syndrome and the
delivery's detail word are free (log 8). -/
def State.failAccess (s : State) (a : Access) : State :=
  let (d1, s) := s.free
  let (d2, s) := s.free
  let s := s.modBank (s.bankFor a.loc) fun b =>
    b.log 2 (s.srcFor a.loc) (BitVec.ofNat 5 a.who.member) (BitVec.ofNat 64 (s.lineAddr false a.loc)) d1
  let s := s.deliverTo a (if a.ordered then 15 + 512 else 15) d2
  let s := match a.op with
    | .loadV upper => (s.flight.filter fun (e : Access) => e.id = (if upper then a.id - 1 else a.id + 1)).foldl (fun (s : State) e => s.dropAccess e) s
    | _ => s
  (s.dropAccess a).modUid a.who a.uid fun st => st.unhome a.id

/-- A corrected error of an access (R63): logged only. -/
def State.corrected (s : State) (a : Access) : State :=
  let (d, s) := s.free
  s.modBank (s.bankFor a.loc) fun b =>
    b.log 1 (s.srcFor a.loc) (BitVec.ofNat 5 a.who.member) (BitVec.ofNat 64 (s.lineAddr false a.loc)) d

/-! ## The watch filters (R221) -/

/-- Dropping watches whose tile no longer reads the line; another device's stand until it ends them. -/
def State.pruneWatches (s : State) : State :=
  { s with watches := s.watches.filter fun w =>
      w.kind != 0 || w.dev != thisDev || (s.tile w.tile).weir.any fun e => !e.sp && e.live && e.line = w.line }

/-- An evicted watch aborts the transactions of its tile that read the line with reason 0x0A, and wakes its sleepers; an evicted
reservation just ends. What the eviction of another device's entry does happens there. Where a read line has been written as well, before the
transaction's turn, it is the eviction that is reported (DESIGN CHOICE, log 39). A deterministic lane's chunk is squashed in its place, since when
an eviction comes is timing (R300, R301; DEDUCED, log 20). -/
def State.evictWatch (s : State) (w : Watch) : State :=
  let s : State := { s with watches := s.watches.filter fun k => k != w }
  if w.kind != 0 || w.dev != thisDev then s
  else
    ((s.tile w.tile).weir.filter fun e => !e.sp && e.line = w.line).foldl (fun s e =>
      let y := slotOf w.tile e.member
      if e.sleep then s.wakeAt y 0
      else s.modStrand y fun st =>
        if st.chunk.isSome then st.hitChunk true w.line
        else if st.inTx && st.abortReq.isNone then { st with abortReq := some (10, BitVec.ofNat 64 (s.lineAddr false w.line)) } else st) s

/-- A new entry in the filter of a line's home: none when all of its 4,096 entries are pending. -/
def State.addWatch (s : State) (w : Watch) : Option State :=
  if s.watches.any fun k => k.dev = w.dev && k.kind = w.kind && k.line = w.line && k.tile = w.tile && k.member = w.member && k.ctx = w.ctx then some s
  else
    let s := s.pruneWatches
    let here := s.watches.filter fun k => s.homeKey k.line = s.homeKey w.line
    let s? := if here.length < 4096 then some s
      else (here.find? fun k => decide (k.kind < 2)).map fun k => s.evictWatch k
    s?.map fun s => { s with watches := s.watches ++ [w] }

/-- Whether an access that must register at its home finds room there: not while every entry is pending. -/
def State.hasRoom (s : State) (a : Access) : Bool :=
  let asks := a.inTx || (match a.op with | .ldc => true | .stp _ => true | .ldx => true | _ => false)
  let here := s.pruneWatches.watches.filter fun k => s.homeKey k.line = s.homeKey a.loc
  !asks || decide (here.length < 4096) || s.waitsAtHome a || here.any fun k => decide (k.kind < 2)

/-- The read-set line of an access whose value is now fixed (R215). -/
def State.armRead (s : State) (a : Access) : State :=
  if a.inTx then
    let l := a.loc.line
    let s := s.modTile a.who.tile fun t =>
      { t with weir := t.weir.map fun e =>
          if e.member = a.who.member && !e.sp && e.line = l then { e with live := true } else e }
    (s.addWatch ⟨thisDev, 0, l, a.who.tile, 0, 0, 0⟩).getD s
  else s

/-! ## Moving in a transaction (R219, R220) -/

/-- retry of R220 at the strand's standing: an alternative, an immediate wake, or sleep. A retry that finds a read line written acts as a
wake, out of the transaction at TXPC, as R220 says; Table 11.7's row for it names open(1) (DEDUCED, log 49). With its transaction a deterministic
lane's chunk ends; one that has read what a commit has written since waits to be squashed (R300). -/
def State.retryAt (s : State) (x : SlotId) : State :=
  match s.strand? x with
  | none => s
  | some st =>
    match st.tx with
    | none => s
    | some t =>
      match t.levels.dropWhile fun l => l.next.isNone with
      | l :: r =>
        s.setStrand x { st with
          run := st.goOn
          tx := some { t with levels := { l with next := none } :: r, wset := t.wset.filter fun e => decide (e.tag < l.alt) }
          regs := { st.regs with pc := l.next.getD st.regs.pc, skipn := 0 } }
      | [] =>
        let mine := (s.tile x.tile).weir.filter fun e => e.member = x.member
        let hits := mine.filter (·.hit)
        let ends := st.chunk.map fun c => c.endWith (s.readLines x)
        if (st.chunk.map fun c => c.reads.any (·.2)).getD false then s.setStrand x st.closeChunk
        else if mine.isEmpty || !hits.isEmpty then
          let addrs := hits.map fun e => s.lineAddr e.sp e.line
          let a := match addrs with | [] => 0 | k :: r => r.foldl Nat.min k
          (s.setStrand x { st with
            run := st.goOn
            tx := none
            chunk := ends
            regs := { st.regs with pc := t.txpc, skipn := 0, txReason := 8, txaddr := BitVec.ofNat 64 a } }).dropWeir x
        else
          (s.setStrand x { st with
            run := .asleep
            mark := decide (st.goOn = .parked)
            chunk := ends
            tx := some { t with levels := [], wset := [], tg := none } }).modTile x.tile fun tl =>
            { tl with weir := tl.weir.map fun e => if e.member = x.member then { e with sleep := true } else e }

/-! ## Atomic operations (Table 11.1) -/

def lesser (signed : Bool) (a b : Word) : Bool := if signed then a.slt b else a.ult b

/-- f(old, B, D) of Table 11.1. -/
def AtomOp.apply (op : AtomOp) (old b : Word) : Word :=
  match op with
  | .add => old + b
  | .and => old &&& b
  | .or => old ||| b
  | .xor => old ^^^ b
  | .min => if lesser true b old then b else old
  | .max => if lesser true old b then b else old
  | .minn => if lesser false b old then b else old
  | .maxn => if lesser false old b then b else old
  | .swap => b
  | .cas => b
  | .fadd64 => BitVec.ofNat 64 (Fmt.f64.add .rne old.toNat b.toNat).1
  | .fadd32 => BitVec.ofNat 64 (Fmt.f32.add .rne (old.toNat % 2 ^ 32) (b.toNat % 2 ^ 32)).1

/-- The access size of an atomic operation (R208). -/
def AtomOp.size : AtomOp → Nat
  | .fadd32 => 4
  | _ => 8

/-- Whether an atomn goes to a reduction word's slots (R211). -/
def RedWord.takes (r : RedWord) (l : Loc) (op : AtomOp) : Bool :=
  l.dev = thisDev && r.addr = l.addr && (match op with
    | .fadd64 => r.ty = 0
    | .fadd32 => r.ty = 1
    | .add => r.ty = 2
    | _ => false)

/-- An atomn at a reduction word: the slot of the issuing tile (R211). -/
def State.redUpdate (s : State) (addr tile : Nat) (b : Word) : State :=
  { s with redWords := s.redWords.map fun r =>
      if r.addr = addr then
        { r with slots := assocSet r.slots tile (match assocGet r.slots tile with | some v => redAdd r.ty v b | none => redAdd r.ty 0 b) }
      else r }

/-- The turnout record whose COUNT word lies at a port offset (Tables 14.1, 14.7). -/
def countWord (off : Nat) : Option Nat :=
  if 0x400000 ≤ off && off < 0x440000 && off % 0x80 = 8 then some ((off - 0x400000) / 0x80) else none

/-! ## Performing -/

/-- The bytes that a load finds: another device's answer, or memory here; then the core's forwarded stores, then the strand's own
write set (R190, R215). -/
def State.seen (s : State) (a : Access) (n : Nat) (answer : V128) : List Byte :=
  let base := if a.loc.dev != thisDev then natToBytes n answer.toNat else s.peekAs pathStrand a.loc n
  let before := s.flight.takeWhile fun e => e.id != a.id
  let fw := (List.range n).filterMap fun i => (forwarded before a.who ⟨a.loc.dev, a.loc.addr + i⟩).map fun b => (i, b)
  overlaid (overlaid base fw) a.overlay

/-- A read-modify-write performed at its home (R207, R208): the old value and the state after it. -/
def State.rmw (s : State) (a : Access) (op : AtomOp) (b : Word) (cmp : Option Word) (answer : V128) : Word × State :=
  let n := op.size
  if a.loc.dev != thisDev then (answer.setWidth 64, s)
  else
    let s := (s.foldFor a.loc n).noteSeen a.uid a.loc.addr n
    let s : State := { s with lags := lagsSeen s.lags pathStrand a.loc.addr n }
    let old := BitVec.ofNat 64 (bytesToNat (s.peek a.loc n))
    if cmp.isSome && cmp != some old then (old, s)
    else
      let v := op.apply old b
      (old, s.poke (s.writerOf a) (isSup a.who) a.loc (natToBytes n v.toNat))

/-- Whether the word at a place is full, as an ldc or stp finds it. -/
def State.fullAt (s : State) (a : Access) (answer : V128) : Bool :=
  match a.ovFull with
  | some f => f
  | none => if a.loc.dev != thisDev then answer.getLsbD 64 else s.isFull a.loc.addr

/-- Whether an earlier request of its kind waits on the word of an ldc or stp: they are served in the order of their arrival (R214). -/
def State.queuedBefore (s : State) (a : Access) (kind : Nat) : Bool :=
  (s.watches.takeWhile fun w => !(w.dev = thisDev && w.kind = kind && w.ctx = a.id)).any fun w =>
    w.kind = kind && w.line = a.loc.line && w.word = a.loc.addr % 64 / 8

/-- Whether an access belongs to a deterministic lane whose place in the round has not come: an ldc or stp of a lane that waits is a retry
(R214), which tests its word again in the lane's place (R300, log 20). -/
def State.outOfPlace (s : State) (a : Access) : Bool :=
  let out := fun (st : Strand) =>
    st.uid = a.uid && st.chunk.isSome && ((s.launch? st.lid).map fun l => decide (l.lanePos ≠ st.lane)).getD false
  ((s.strand? a.who).map out).getD false || s.spills.any fun p => out p.strand

/-- An ldc (kind 2) or stp (kind 3) waits at the home of its word (R214). -/
def State.waitAt (s : State) (a : Access) (kind : Nat) : State :=
  (s.addWatch ⟨thisDev, kind, a.loc.line, a.who.tile, a.who.member, a.loc.addr % 64 / 8, a.id⟩).getD s

/-- Registering redp's word (R212): 0, or the code of the resource fault, which another device answers for its own words. -/
def State.redRegister (s : State) (a : Access) (ty : Nat) (answer : V128) : Nat × State :=
  if a.loc.dev != thisDev then (if answer.toNat % 3 = 0 then 0 else 0x40 + answer.toNat % 3, s)
  else if s.redWords.any fun r => r.addr = a.loc.addr then (0x42, s)
  else if 64 ≤ (s.redWords.filter fun r => s.homeKey ⟨thisDev, r.addr⟩ = s.homeKey a.loc).length then (0x41, s)
  else (0, { s with redWords := s.redWords ++ [⟨a.loc.addr, ty, [], a.lid⟩] })

/-- An ldgv of zv is finished when both of its lines have been performed (R108); `lo` is the access of the lower. -/
def State.dropVoidV (s : State) (lo : Nat) : State :=
  match s.flight.find? (fun (e : Access) => e.id = lo), s.flight.find? (fun (e : Access) => e.id = lo + 1) with
  | some l, some u =>
    if l.done && u.done && (u.dest.map fun d => decide (d.spec = 41)).getD false then (s.dropAccess u).dropAccess l else s
  | _, _ => s

/-- The reduction words of a strand's read folded (R211), and what it reads noted (R201). -/
def State.readHere (s : State) (a : Access) (n : Nat) : State :=
  if a.loc.dev = thisDev then (s.foldFor a.loc n).noteSeen a.uid a.loc.addr n else s

/-- The effect of an access at the moment it is performed, once its errors are settled. -/
def State.effect (s : State) (a : Access) (answer : V128) : State :=
  match a.op with
  | .load n signed =>
    let s := s.readHere a n
    let v := bytesToNat (s.seen a n answer)
    let w : Word := if signed then (BitVec.ofNat 64 (v * 2 ^ (64 - 8 * n))).sshiftRight (64 - 8 * n) else BitVec.ofNat 64 v
    (s.armRead a).performed a (w.setWidth 1024)
  | .loadV upper =>
    let s := s.readHere a 64
    let v : V128 := BitVec.ofNat 1024 (bytesToNat (s.seen a 64 answer))
    let s := s.armRead a
    (s.setAccess { a with done := true, value := if upper then v <<< 512 else v }).dropVoidV (if upper then a.id - 1 else a.id)
  | .store bs => (s.poke (s.writerOf a) (isSup a.who) a.loc bs).performed a 0
  | .atom op b cmp =>
    let (old, s) := s.rmw a op b (if op = .cas then some cmp else none) answer
    s.performed a (old.setWidth 1024)
  | .atomn op b =>
    if s.redWords.any fun r => r.takes a.loc op then (s.redUpdate a.loc.addr a.who.tile b).performed a 0
    else match (if a.loc.dev = thisDev then s.region a.loc.addr else .hbm) with
      | .port off =>
        match countWord off, op with
        | some k, .add => (s.countAt k b.toNat).performed a 0
        | _, _ => (s.rmw a op b none answer).2.performed a 0
      | _ => (s.rmw a op b none answer).2.performed a 0
  | .ldc =>
    let s := s.readHere a 8
    if a.inTx then
      let s := s.armRead a
      if s.fullAt a answer then s.performed a (BitVec.ofNat 1024 (bytesToNat (s.seen a 8 answer)))
      else s.setAccess { a with done := true, op := .wrongBit }
    else if s.fullAt a answer && !s.queuedBefore a 2 && !s.outOfPlace a then
      let v := bytesToNat (s.seen a 8 answer)
      let s := if a.loc.dev = thisDev then s.emptyWord (s.writerOf a) (a.loc.addr / 8) else s
      s.performed a (BitVec.ofNat 1024 v)
    else s.waitAt a 2
  | .stp v =>
    let s := s.foldFor a.loc 8
    if s.fullAt a answer || s.queuedBefore a 3 || s.outOfPlace a then s.waitAt a 3
    else (s.poke (s.writerOf a) (isSup a.who) a.loc (natToBytes 8 v.toNat)).performed a 0
  | .stpTest =>
    let s := (s.foldFor a.loc 8).armRead a
    if s.fullAt a answer then s.setAccess { a with done := true, op := .wrongBit } else s.performed a 0
  | .ldx =>
    let s := s.readHere a 8
    let v := bytesToNat (s.seen a 8 answer)
    let s := s.endRsv a.who
    let s := s.modStrand a.who fun st => { st with rsv := some a.loc }
    let s := (s.addWatch ⟨thisDev, 1, a.loc.line, a.who.tile, a.who.member, a.loc.addr % 64 / 8, a.id⟩).getD s
    s.performed a (BitVec.ofNat 1024 v)
  | .stx v =>
    let mine := s.watches.find? fun w => w.dev = thisDev && w.kind = 1 && w.tile = a.who.tile && w.member = a.who.member && decide (w.ctx < a.id)
    let holds := match mine with
      | some w => w.line = a.loc.line && w.word = a.loc.addr % 64 / 8 && s.present a
      | none => false
    let s : State := { s with flight := s.flight.map fun e => e.unreserve a.who a.id }
    let s := if mine.isSome then s.endRsv a.who else s
    if a.loc.dev != thisDev then s.performed a (if holds then (answer.setWidth 1).setWidth 1024 else 1)
    else if holds then (s.poke (s.writerOf a) (isSup a.who) a.loc (natToBytes 8 v.toNat)).performed a 0
    else s.performed a 1
  | .redpReg ty =>
    let (c, s) := s.redRegister a ty answer
    s.setAccess { a with done := true, value := BitVec.ofNat 1024 c }
  | .redpRel =>
    let s := s.foldFor a.loc 8
    { s with redWords := s.redWords.filter fun r => !(a.loc.dev = thisDev && r.addr = a.loc.addr) }.setAccess { a with done := true }
  | .joinDec =>
    let (old, s) := s.rmw a .add (BitVec.ofInt 64 (-1)) none answer
    s.setAccess { a with done := true, value := old.setWidth 1024 }
  | .resv n =>
    let (w, r) := (s.ring n).reserve
    (s.putCmdRing r).performed a (w.setWidth 1024)
  | .wrongBit => s
  | .result => s

/-- Whether the unit that serves a place is taken out by a self-test, so that the access waits (R321). -/
def State.served (s : State) (l : Loc) : Bool :=
  l.dev != thisDev || (match s.region l.addr with
    | .pad t _ => !(s.tile t).testing
    | .ctrl t _ => !(s.tile t).testing
    | _ => true)

/-- The words of this device that an access reads, a store those that it covers in part (R91). -/
def Access.readWords (a : Access) : List Nat :=
  if a.loc.dev != thisDev then []
  else (wordsOf a.loc.addr a.op.len).filter fun w => match a.op with
    | .store bs => !coversWord a.loc.addr bs.length w
    | _ => true

/-- What the checks of the words that an access reads correct, each in place (R91). -/
def State.fixRead (s : State) (a : Access) : State :=
  a.readWords.foldl (fun s w => s.fixWords (8 * w) 8 (BitVec.ofNat 5 a.who.member)) s

/-- The error that an access meets: a scratchpad word with two wrong bits fails it (R91). -/
def State.padErr (s : State) (a : Access) (err : ErrKind) : ErrKind :=
  if a.readWords.any fun w => s.badWords.contains w then .uncorrectable else err

/-- Performing an access in flight, when its turn in the orders of R189 to R198 has come. -/
def State.perform (s : State) (a : Access) (err : ErrKind) (answer : V128) : State :=
  if s.readyNow a && s.served a.loc && s.hasRoom a then
    let s := s.fixRead a
    match s.padErr a err with
    | .ok => s.effect a answer
    | .corrected => (s.corrected a).effect a answer
    | .uncorrectable => s.failAccess a
  else s

/-- A long result returns (R108, R215): into its register, or as a retry. An ldgv returns when both of its lines are there. -/
def State.returnLong (s : State) (a : Access) : State :=
  if !a.done then s
  else match a.op with
    | .wrongBit =>
      let s := s.dropAccess a
      if s.present a && ((s.strand? a.who).map fun st => st.inTx && a.inTx).getD false then s.retryAt a.who else s
    | .loadV upper =>
      if !upper then s
      else match s.flight.find? fun e => e.id + 1 = a.id with
        | some e =>
          if e.done then
            match a.dest with
            | some d => ((s.modOwner a.id a.who fun st => st.putLong d (a.value ||| e.value)).dropAccess a).dropAccess e
            | none => (s.dropAccess a).dropAccess e
          else s
        | none => s
    | _ =>
      match a.dest with
      | some d => (s.modOwner a.id a.who fun st => st.putLong d a.value).dropAccess a
      | none => s

end Sys2Proof.Machine
end

