-- ==== Sys2Proof/Machine/Scalar.lean ====
section
/-!
DEFINITION. Scalar integer instructions (spec/06 R113 to R118).
-/

namespace Sys2Proof.Machine

/-! ## Operand shapes -/

/-- d, a, b: two scalar sources and a short scalar result. -/
def useAB (d a b : Spec) : Uses := { srcs := [(0, false, a), (1, false, b)], dst := some (false, d) }

/-- d, a: one scalar source and a short scalar result. -/
def useA (d a : Spec) : Uses := { srcs := [(0, false, a)], dst := some (false, d) }

/-- d alone. -/
def useD (d : Spec) : Uses := { dst := some (false, d) }

/-- d, a, b, with d read as well (role 2 of R110). -/
def useABD (d a b : Spec) : Uses := { srcs := [(0, false, a), (1, false, b), (2, false, d)], dst := some (false, d) }

/-- An instruction whose whole effect is a short scalar result (R18, R113). -/
def State.alu (s : State) (m : Bool) (u : Uses) (d : Spec) (f : Strand → Word) : Host.Outcome State Fault Refusal :=
  s.issue m u fun st => .ok (s.put (st.putS d (f st)))

/-! ## Table 6.3 -/

def shl64 (a : Word) (n : Nat) : Word := if 64 ≤ n then 0 else a <<< n
def shr64 (a : Word) (n : Nat) : Word := if 64 ≤ n then 0 else a >>> n
def sha64 (a : Word) (n : Nat) : Word := if 64 ≤ n then (if a.msb then 0xFFFFFFFFFFFFFFFF else 0) else a.sshiftRight n

/-- The number of leading zero bits, 0 to 64. -/
def clz64 (a : Word) : Word := if a = 0 then 64 else BitVec.ofNat 64 (63 - Nat.log2 a.toNat)

/-- The number of one bits, 0 to 64. -/
def popc64 (a : Word) : Word := (List.range 64).foldl (fun n i => if a.getLsbD i then n + 1 else n) 0

def execAdd (m : Bool) (d a b : Spec) (s : State) := s.alu m (useAB d a b) d fun st => st.rs a + st.rs b
def execSub (m : Bool) (d a b : Spec) (s : State) := s.alu m (useAB d a b) d fun st => st.rs a - st.rs b
def execAnd (m : Bool) (d a b : Spec) (s : State) := s.alu m (useAB d a b) d fun st => st.rs a &&& st.rs b
def execOr (m : Bool) (d a b : Spec) (s : State) := s.alu m (useAB d a b) d fun st => st.rs a ||| st.rs b
def execXor (m : Bool) (d a b : Spec) (s : State) := s.alu m (useAB d a b) d fun st => st.rs a ^^^ st.rs b
def execShl (m : Bool) (d a b : Spec) (s : State) := s.alu m (useAB d a b) d fun st => shl64 (st.rs a) (st.rs b).toNat
def execShr (m : Bool) (d a b : Spec) (s : State) := s.alu m (useAB d a b) d fun st => shr64 (st.rs a) (st.rs b).toNat
def execSha (m : Bool) (d a b : Spec) (s : State) := s.alu m (useAB d a b) d fun st => sha64 (st.rs a) (st.rs b).toNat
def execMin (m : Bool) (d a b : Spec) (s : State) :=
  s.alu m (useAB d a b) d fun st => if (st.rs b).slt (st.rs a) then st.rs b else st.rs a
def execMax (m : Bool) (d a b : Spec) (s : State) :=
  s.alu m (useAB d a b) d fun st => if (st.rs a).slt (st.rs b) then st.rs b else st.rs a
def execMinn (m : Bool) (d a b : Spec) (s : State) :=
  s.alu m (useAB d a b) d fun st => if (st.rs b).ult (st.rs a) then st.rs b else st.rs a
def execMaxn (m : Bool) (d a b : Spec) (s : State) :=
  s.alu m (useAB d a b) d fun st => if (st.rs a).ult (st.rs b) then st.rs b else st.rs a

/-- sel reads q without naming it (R114). -/
def execSel (m : Bool) (d a b : Spec) (s : State) :=
  s.alu m { useAB d a b with readsQ := true } d fun st => if st.regs.q != 0 then st.rs a else st.rs b
def execClz (m : Bool) (d a : Spec) (s : State) := s.alu m (useA d a) d fun st => clz64 (st.rs a)
def execPopc (m : Bool) (d a : Spec) (s : State) := s.alu m (useA d a) d fun st => popc64 (st.rs a)

/-! ## Table 6.4 -/

def mulHigh (a b : Word) (signed : Bool) : Word :=
  if signed then (a.signExtend 128 * b.signExtend 128).extractLsb' 64 64
  else (a.setWidth 128 * b.setWidth 128).extractLsb' 64 64

def execMul (m : Bool) (d a b : Spec) (s : State) := s.alu m (useAB d a b) d fun st => st.rs a * st.rs b
def execMulh (m : Bool) (d a b : Spec) (s : State) := s.alu m (useAB d a b) d fun st => mulHigh (st.rs a) (st.rs b) true
def execMulhn (m : Bool) (d a b : Spec) (s : State) := s.alu m (useAB d a b) d fun st => mulHigh (st.rs a) (st.rs b) false
def execDiv (m : Bool) (d a b : Spec) (s : State) :=
  s.alu m (useAB d a b) d fun st => if st.rs b = 0 then 0xFFFFFFFFFFFFFFFF else (st.rs a).sdiv (st.rs b)
def execDivn (m : Bool) (d a b : Spec) (s : State) :=
  s.alu m (useAB d a b) d fun st => if st.rs b = 0 then 0xFFFFFFFFFFFFFFFF else st.rs a / st.rs b
def execRem (m : Bool) (d a b : Spec) (s : State) :=
  s.alu m (useAB d a b) d fun st => if st.rs b = 0 then st.rs a else (st.rs a).srem (st.rs b)
def execRemn (m : Bool) (d a b : Spec) (s : State) :=
  s.alu m (useAB d a b) d fun st => if st.rs b = 0 then st.rs a else st.rs a % st.rs b

/-! ## Immediate forms (R116 to R118) -/

def execAddi (m : Bool) (d a : Spec) (imm : BitVec 12) (s : State) := s.alu m (useA d a) d fun st => st.rs a + sext64 imm
def execAndi (m : Bool) (d a : Spec) (imm : BitVec 12) (s : State) := s.alu m (useA d a) d fun st => st.rs a &&& sext64 imm
def execOri (m : Bool) (d a : Spec) (imm : BitVec 12) (s : State) := s.alu m (useA d a) d fun st => st.rs a ||| sext64 imm
def execXori (m : Bool) (d a : Spec) (imm : BitVec 12) (s : State) := s.alu m (useA d a) d fun st => st.rs a ^^^ sext64 imm
def execShli (m : Bool) (d a : Spec) (sh : BitVec 6) (s : State) := s.alu m (useA d a) d fun st => shl64 (st.rs a) sh.toNat
def execShri (m : Bool) (d a : Spec) (sh : BitVec 6) (s : State) := s.alu m (useA d a) d fun st => shr64 (st.rs a) sh.toNat
def execShai (m : Bool) (d a : Spec) (sh : BitVec 6) (s : State) := s.alu m (useA d a) d fun st => sha64 (st.rs a) sh.toNat
def execLih (m : Bool) (d : Spec) (imm : BitVec 18) (s : State) := s.alu m (useD d) d fun _ => sext64 imm * 4096
def execAddpc (m : Bool) (d : Spec) (imm : BitVec 18) (s : State) := s.alu m (useD d) d fun st => dispTarget st.regs.pc imm

/-- bits(a, pos + len - 1, pos), with len one more than its field (R118). -/
def bitField (a : Word) (pos len : BitVec 6) : Word :=
  BitVec.ofNat 64 (a.toNat / 2 ^ pos.toNat % 2 ^ (len.toNat + 1))

/-- The insertion of R118. -/
def insertField (old a : Word) (pos len : BitVec 6) : Word :=
  let mask : Word := BitVec.ofNat 64 ((2 ^ (len.toNat + 1) - 1) * 2 ^ pos.toNat)
  (old &&& ~~~mask) ||| BitVec.ofNat 64 (a.toNat % 2 ^ (len.toNat + 1) * 2 ^ pos.toNat)

def execBext (m : Bool) (d a : Spec) (pos len : BitVec 6) (s : State) := s.alu m (useA d a) d fun st => bitField (st.rs a) pos len
def execBins (m : Bool) (d a : Spec) (pos len : BitVec 6) (s : State) :=
  s.alu m { srcs := [(0, false, a), (2, false, d)], dst := some (false, d) } d fun st => insertField (st.rs d) (st.rs a) pos len

end Sys2Proof.Machine
end

