-- ==== Sys2Proof/Machine/Control.lean ====
section
/-!
DEFINITION. Comparison and control flow (spec/06 R126 to R130, spec/01 R21).
-/

namespace Sys2Proof.Machine

/-- The end of a compare (R21, R126): with SK = 0 its truth goes to q alone; otherwise a false condition annuls the next SK
words. -/
def State.compared (s : State) (st : Strand) (sk : BitVec 2) (holds : Bool) : Act :=
  if sk = 0 then .ok (s.put (st.modRegs fun r => { r with q := if holds then 1 else 0 }))
  else .ok (s.put (if holds then st else st.modRegs fun r => { r with skipn := sk }))

def execCmp (m : Bool) (cond : BitVec 3) (sk : BitVec 2) (a b : Spec) (s : State) :=
  s.issue m { srcs := [(0, false, a), (1, false, b)], writesQ := sk = 0 } fun st =>
    s.compared st sk (intCond cond (st.rs a) (st.rs b))

def execCmpi (m : Bool) (cond : BitVec 3) (sk : BitVec 2) (a : Spec) (imm : BitVec 6) (s : State) :=
  s.issue m { srcs := [(0, false, a)], writesQ := sk = 0 } fun st =>
    s.compared st sk (intCond cond (st.rs a) (sext64 imm))

def execSet (m : Bool) (cond : BitVec 3) (d a b : Spec) (s : State) :=
  s.alu m (useAB d a b) d fun st => if intCond cond (st.rs a) (st.rs b) then 1 else 0

def execSeti (m : Bool) (cond : BitVec 3) (d a : Spec) (imm : BitVec 6) (s : State) :=
  s.alu m (useA d a) d fun st => if intCond cond (st.rs a) (sext64 imm) then 1 else 0

def execBr (m : Bool) (cond : BitVec 3) (a : Spec) (disp : BitVec 15) (s : State) :=
  s.issue m { srcs := [(0, false, a)] } fun st =>
    if intCond cond (st.rs a) 0 then .jump s (dispTarget st.regs.pc disp) else .ok s

def execJ (m : Bool) (disp : BitVec 18) (s : State) :=
  s.issue m {} fun st => .jump s (dispTarget st.regs.pc disp)

def execCall (m : Bool) (d : Spec) (disp : BitVec 18) (s : State) :=
  s.issue m (useD d) fun st => .jump (s.put (st.putS d (st.regs.pc + 4))) (dispTarget st.regs.pc disp)

/-- The target is formed before the link is written (R129). -/
def execCalli (m : Bool) (d a : Spec) (imm : BitVec 12) (s : State) :=
  s.issue m (useA d a) fun st =>
    let t := st.rs a + sext64 imm
    if t.toNat % 4 != 0 then .fault 7 t else .jump (s.put (st.putS d (st.regs.pc + 4))) t

/-- sp, s31 (R130). -/
def spReg : Spec := 31

def execEnter (m : Bool) (imm : BitVec 18) (s : State) :=
  s.issue m { sp := true } fun st =>
    let sp := st.rs spReg
    let n := sp - zext64 imm
    if sp.toNat < imm.toNat || (sp.toNat - imm.toNat < st.regs.slim.toNat) then .fault 5 n
    else .ok (s.put (st.modRegs fun r => r.setS spReg n))

def execLeave (m : Bool) (imm : BitVec 18) (s : State) :=
  s.issue m { sp := true } fun st =>
    .ok (s.put (st.modRegs fun r => r.setS spReg (st.rs spReg + zext64 imm)))

end Sys2Proof.Machine
end

