-- ==== Sys2Proof/Machine/ScalarFp.lean ====
section
/-!
DEFINITION. Scalar floating point (spec/06 R119 to R125), in the mode and with the flags of FCTL.
-/

namespace Sys2Proof.Machine

/-- The format of a one-bit type field: 0 f64, 1 f32. -/
def fpTy (ty : BitVec 1) : Fmt := if ty = 0 then .f64 else .f32

/-- The low bits of a register that a format reads (R106). -/
def Fmt.bitsOf (f : Fmt) (w : Word) : Nat := w.toNat % 2 ^ (8 * f.bytes)
def Fmt.val (f : Fmt) (w : Word) : FVal := f.read (f.bitsOf w)

/-- The mode that FCTL.RM gives scalar results (Table 6.5, R120). -/
def Strand.rm (st : Strand) : RMode :=
  match st.regs.fctl.toNat % 8 with
  | 1 => .rz
  | 2 => .ru
  | 3 => .rd
  | _ => .rne

/-- Raising sticky flags (Table 6.5). -/
def Strand.raise (st : Strand) (f : FFlags) : Strand :=
  st.modRegs fun r => { r with fctl := r.fctl ||| (f.setWidth 64 <<< 8) }

/-- An instruction whose effect is a floating-point result and its flags. -/
def State.falu (s : State) (m : Bool) (u : Uses) (d : Spec) (f : Strand → Nat × FFlags) : Host.Outcome State Fault Refusal :=
  s.issue m u fun st =>
    let r := f st
    .ok (s.put ((st.raise r.2).putS d (BitVec.ofNat 64 r.1)))

def execFadd (m : Bool) (ty : BitVec 1) (d a b : Spec) (s : State) :=
  s.falu m (useAB d a b) d fun st => (fpTy ty).add st.rm ((fpTy ty).bitsOf (st.rs a)) ((fpTy ty).bitsOf (st.rs b))
def execFsub (m : Bool) (ty : BitVec 1) (d a b : Spec) (s : State) :=
  s.falu m (useAB d a b) d fun st => (fpTy ty).sub st.rm ((fpTy ty).bitsOf (st.rs a)) ((fpTy ty).bitsOf (st.rs b))
def execFmul (m : Bool) (ty : BitVec 1) (d a b : Spec) (s : State) :=
  s.falu m (useAB d a b) d fun st => (fpTy ty).mul st.rm ((fpTy ty).bitsOf (st.rs a)) ((fpTy ty).bitsOf (st.rs b))
def execFdiv (m : Bool) (ty : BitVec 1) (d a b : Spec) (s : State) :=
  s.falu m (useAB d a b) d fun st => (fpTy ty).div st.rm ((fpTy ty).val (st.rs a)) ((fpTy ty).val (st.rs b))
def execFmin (m : Bool) (ty : BitVec 1) (d a b : Spec) (s : State) :=
  s.falu m (useAB d a b) d fun st => (fpTy ty).minmax false ((fpTy ty).bitsOf (st.rs a)) ((fpTy ty).bitsOf (st.rs b))
def execFmax (m : Bool) (ty : BitVec 1) (d a b : Spec) (s : State) :=
  s.falu m (useAB d a b) d fun st => (fpTy ty).minmax true ((fpTy ty).bitsOf (st.rs a)) ((fpTy ty).bitsOf (st.rs b))
def execFsqrt (m : Bool) (ty : BitVec 1) (d a : Spec) (s : State) :=
  s.falu m (useA d a) d fun st => (fpTy ty).sqrt st.rm ((fpTy ty).val (st.rs a))
def execFclass (m : Bool) (ty : BitVec 1) (d a : Spec) (s : State) :=
  s.falu m (useA d a) d fun st => ((fpTy ty).classOf ((fpTy ty).bitsOf (st.rs a)), 0)
def execFmv (m : Bool) (ty : BitVec 1) (d a : Spec) (s : State) :=
  s.falu m (useA d a) d fun st => ((fpTy ty).bitsOf (st.rs a), 0)

/-- One rounding of A · B + D (R122). -/
def execFfma (m : Bool) (ty : BitVec 1) (d a b : Spec) (s : State) :=
  s.falu m (useABD d a b) d fun st =>
    (fpTy ty).fma st.rm ((fpTy ty).val (st.rs a)) ((fpTy ty).val (st.rs b)) ((fpTy ty).val (st.rs d))

/-- The format of an fcvt code, if it is a floating-point one (R123). -/
def cvtFmt (c : BitVec 3) : Option Fmt :=
  match c.toNat with
  | 0 => some .f64
  | 1 => some .f32
  | 2 => some .f16
  | 3 => some .bf16
  | _ => none

/-- The integer type of an fcvt code: 4 i64, else n64. -/
def cvtInt (c : BitVec 3) : IntTy := ⟨64, c = 4⟩

/-- The conversion of R123. -/
def fcvtBits (rm : RMode) (dt st : BitVec 3) (w : Word) : Nat × FFlags :=
  let v := match cvtFmt st with
    | some f => f.val w
    | none => valOfInt ((cvtInt st).read w.toNat)
  match cvtFmt dt with
  | some f => f.write rm v
  | none => (cvtInt dt).fromVal .rz v

def execFcvt (m : Bool) (dt st : BitVec 3) (d a : Spec) (s : State) :=
  s.falu m (useA d a) d fun x => fcvtBits x.rm dt st (x.rs a)

/-- fcmp (R124): as cmp, with the flags of the comparison. -/
def execFcmp (m : Bool) (cond : BitVec 3) (sk : BitVec 2) (ty : BitVec 1) (a b : Spec) (s : State) :=
  s.issue m { srcs := [(0, false, a), (1, false, b)], writesQ := sk = 0 } fun st =>
    let r := fpCond cond ((fpTy ty).val (st.rs a)) ((fpTy ty).val (st.rs b))
    s.compared (st.raise r.2) sk r.1

/-- The flags of tsum (R125): NV for a signalling NaN; OF and NX when s overflows from finite inputs. -/
def tsumFlags (a b sum : Nat) : FFlags :=
  let x := Fmt.f32.read a
  let y := Fmt.f32.read b
  let finite := fun (v : FVal) => match v with | .fin _ _ _ => true | _ => false
  (if x.isSig || y.isSig then fNV else 0)
    ||| (if finite x && finite y && !finite (Fmt.f32.read sum) then fOF ||| fNX else 0)

def execTsum (m : Bool) (d a b : Spec) (s : State) :=
  s.falu m (useAB d a b) d fun st =>
    let x := Fmt.f32.bitsOf (st.rs a)
    let y := Fmt.f32.bitsOf (st.rs b)
    let r := twosum x y
    (r.2 * 2 ^ 32 + r.1, tsumFlags x y r.1)

end Sys2Proof.Machine
end

