-- ==== Sys2Proof/Machine/Memory.lean ====
section
/-!
DEFINITION. Loads, stores, full/empty accesses, reserved pairs and fences (spec/03 R64, R65, spec/05 R102, spec/10 R195 to R202,
spec/11 R213 to R215, R227).
-/

namespace Sys2Proof.Machine

/-- The executing strand changed, in a state that may have changed it already. -/
def State.upd (s : State) (f : Strand → Strand) : State := s.modStrand s.cur f

/-! ## Scratchpad (R102) -/

def useLoad (vec : Bool) (d a : Spec) (long : Bool) : Uses :=
  { srcs := [(0, false, a)], dst := some (vec, d), long := long, access := true }
def useStore (vec : Bool) (b a : Spec) : Uses := { srcs := [(0, false, a), (1, vec, b)], access := true }

/-- A scratchpad read as an instruction makes it: alignment on its size, then padaddr (R85). -/
def State.loadPad (s : State) (st : Strand) (ea : Word) (n : Nat) : Got (List Byte) :=
  if ea.toNat % n != 0 then .stop (.fault 7 ea) else s.padRead s.cur st ea n

/-- A scratchpad write as an instruction makes it. -/
def State.storePad (s : State) (st : Strand) (ea : Word) (bs : List Byte) : Got Unit :=
  if ea.toNat % bs.length != 0 then .stop (.fault 7 ea) else s.padWrite s.cur st ea bs

def execLds (m : Bool) (d a : Spec) (off : BitVec 9) (z : BitVec 3) (s : State) :=
  s.issue m (useLoad false d a false) fun st =>
    (s.loadPad st (eaScalar (st.rs a) off z) (sizeOf z)).act fun bs s =>
      .ok (s.upd fun st => st.putS d (loadValue z (bytesToNat bs)))

def execSts (m : Bool) (b a : Spec) (off : BitVec 9) (z : BitVec 3) (s : State) :=
  s.issue m (useStore false b a) fun st =>
    (s.storePad st (eaScalar (st.rs a) off z) (natToBytes (sizeOf z) (st.rs b).toNat)).act fun _ s => .ok s

def execLdsv (m : Bool) (d a : Spec) (imm : BitVec 12) (s : State) :=
  s.issue m (useLoad true d a false) fun st =>
    (s.loadPad st (eaVector (st.rs a) imm) 128).act fun bs s =>
      .ok (s.upd fun st => st.putV d (BitVec.ofNat 1024 (bytesToNat bs)))

def execStsv (m : Bool) (b a : Spec) (imm : BitVec 12) (s : State) :=
  s.issue m (useStore true b a) fun st =>
    (s.storePad st (eaVector (st.rs a) imm) (natToBytes 128 (st.rv b).toNat)).act fun _ s => .ok s

/-! ## Global loads and stores (R64, R65) -/

/-- The command ring whose RESV a place holds (Table 14.2). -/
def State.resvAt (s : State) (l : Loc) : Option Nat :=
  if l.dev != thisDev then none
  else match s.region l.addr with
    | .port off => if off < 0x400000 && off % 0x10000 / 8 = 1 then some (off / 0x10000) else none
    | _ => none

/-- Whether n bytes at a place cover the RESV of a ring: a read of it aborts a transaction (R283). -/
def State.coversResv (s : State) (l : Loc) (n : Nat) : Bool :=
  (List.range ((l.addr + n + 7) / 8 - l.addr / 8)).any fun i => (s.resvAt ⟨l.dev, (l.addr / 8 + i) * 8⟩).isSome

/-- The part of a global load that adds its lines to the read set, when stores are held back (R215, R299). -/
def State.watchReads (s : State) (st : Strand) (l : Loc) (n : Nat) : Got Unit :=
  if st.buffered then s.addReads s.cur false false (linesOf l n) else .got () s

/-- Whether a deterministic lane outside a transaction must end its chunk before an ldc, a stp or a read of RESV, as before an instruction of Table
11.2 (R299, log 20). -/
def Strand.waitsSolo (st : Strand) : Bool :=
  match st.chunk with
  | some c => !st.inTx && !c.solo
  | none => false

def execLdg (m : Bool) (d a : Spec) (off : BitVec 9) (z : BitVec 3) (s : State) :=
  s.issue m (useLoad false d a true) fun st =>
    let n := sizeOf z
    (s.globalAddr s.cur st (eaScalar (st.rs a) off z) n .read).act fun p s =>
      match s.resvAt p.1, st.inTx with
      | some _, true => .placed (s.abortTx s.cur 7 st.regs.pc)
      | r, _ =>
        if r.isSome && st.waitsSolo then s.endChunk s.cur
        else (s.watchReads st p.1 n).act fun _ s =>
          let op := match r with
            | some k => if n = 8 then FlightOp.resv k else .load n (!z.getLsbD 0)
            | none => .load n (!z.getLsbD 0)
          .ok (s.send s.cur st op p.1 (some ⟨false, d⟩) 0 false false (some p.2))

def execLdgv (m : Bool) (d a : Spec) (imm : BitVec 12) (s : State) :=
  s.issue m (useLoad true d a true) fun st =>
    (s.globalAddr s.cur st (eaVector (st.rs a) imm) 128 .read).act fun p s =>
      if st.inTx && s.coversResv p.1 128 then .placed (s.abortTx s.cur 7 st.regs.pc)
      else
        (s.watchReads st p.1 128).act fun _ s =>
          let s := s.send s.cur st (.loadV false) p.1 none 0 false false (some p.2)
          .ok (s.send s.cur st (.loadV true) ⟨p.1.dev, p.1.addr + 64⟩ (some ⟨true, d⟩) 0 false false (some p.2))

/-- A store enters the store buffer, one entry for each of its lines, or its turn is forfeited (R62); held back, it enters the write
set (R215). -/
def State.storeGlobal (s : State) (st : Strand) (l : Loc) (bs : List Byte) (tr : Leaf) : Act :=
  if st.buffered then (s.holdStore s.cur false l bs (some tr)).act fun _ s => .ok s
  else
    let lines := if bs.length ≤ 64 then [(l, bs)] else [(l, bs.take 64), (⟨l.dev, l.addr + 64⟩, bs.drop 64)]
    if 16 < s.bufferUsed s.cur + lines.length then .forfeit
    else .ok (lines.foldl (fun s p => s.send s.cur st (.store p.2) p.1 none 1 false false (some tr)) s)

def execStg (m : Bool) (b a : Spec) (off : BitVec 9) (z : BitVec 3) (s : State) :=
  s.issue m (useStore false b a) fun st =>
    (s.globalAddr s.cur st (eaScalar (st.rs a) off z) (sizeOf z) .write).act fun p s =>
      s.storeGlobal st p.1 (natToBytes (sizeOf z) (st.rs b).toNat) p.2

def execStgv (m : Bool) (b a : Spec) (imm : BitVec 12) (s : State) :=
  s.issue m (useStore true b a) fun st =>
    (s.globalAddr s.cur st (eaVector (st.rs a) imm) 128 .write).act fun p s =>
      s.storeGlobal st p.1 (natToBytes 128 (st.rv b).toNat) p.2

/-! ## Full/empty accesses (R214, R215) -/

def execLdc (m : Bool) (d a : Spec) (imm : BitVec 12) (s : State) :=
  s.issue m (useLoad false d a true) fun st =>
    if st.waitsSolo then s.endChunk s.cur
    else
      (s.globalAddr s.cur st (eaWord (st.rs a) imm) 8 .rw).act fun p s =>
        if st.inTx && (s.resvAt p.1).isSome then .placed (s.abortTx s.cur 7 st.regs.pc)
        else if st.inTx then
          (s.addRead s.cur false false p.1.line).act fun _ s =>
            let s' := s.send s.cur st .ldc p.1 (some ⟨false, d⟩) 4 false true (some p.2)
            (s'.addWrite s.cur false p.1.line [.empty (p.1.addr % 64 / 8) (some p.2)]).act fun _ s => .ok s
        else .ok (s.send s.cur st .ldc p.1 (some ⟨false, d⟩) 4 false true (some p.2))

def execStp (m : Bool) (b a : Spec) (imm : BitVec 12) (s : State) :=
  s.issue m (useStore false b a) fun st =>
    if st.waitsSolo then s.endChunk s.cur
    else
      (s.globalAddr s.cur st (eaWord (st.rs a) imm) 8 .rw).act fun p s =>
        if st.inTx then
          (s.addRead s.cur false false p.1.line).act fun _ s =>
            let s' := s.send s.cur st .stpTest p.1 none 4 false false (some p.2)
            (s'.holdStore s.cur false p.1 (natToBytes 8 (st.rs b).toNat) (some p.2)).act fun _ s => .ok s
        else .ok (s.send s.cur st (.stp (st.rs b)) p.1 none 4 true false (some p.2))

/-! ## Reserved pairs (R213) -/

def execLdx (m : Bool) (d a : Spec) (s : State) :=
  s.issue m { useLoad false d a true with aborts := true } fun st =>
    (s.globalAddr s.cur st (st.rs a) 8 .rw).act fun p s =>
      .ok ((s.dropRsv s.cur).send s.cur st .ldx p.1 (some ⟨false, d⟩) 4 false false (some p.2))

def execStx (m : Bool) (d a b : Spec) (s : State) :=
  s.issue m { srcs := [(0, false, a), (1, false, b)], dst := some (false, d), long := true, access := true, aborts := true } fun st =>
    (s.globalAddr s.cur st (st.rs a) 8 .rw).act fun p s =>
      .ok (s.send s.cur st (.stx (st.rs b)) p.1 (some ⟨false, d⟩) 4 false false (some p.2))

/-! ## Fences (R195 to R197, R201) -/

/-- Whether a scope, seen from a tile, covers a place (Table 10.2). -/
def State.covers (s : State) (t scope : Nat) (l : Loc) : Bool :=
  if 4 ≤ scope then true
  else if l.dev != thisDev then false
  else if scope = 3 then true
  else match s.region l.addr with
    | .pad u _ => if scope = 0 then u = t else if scope = 1 then s.tileRow u = s.tileRow t else s.tileDie u = s.tileDie t
    | .ctrl u _ => if scope = 0 then u = t else if scope = 1 then s.tileRow u = s.tileRow t else s.tileDie u = s.tileDie t
    | .hbm => scope = 2 && homeOf l.addr / 256 = s.tileDie t
    | _ => false

/-- Whether a fence of a strand must still wait for an access in flight: one of the strand's own of a kind in P, or, when P holds gs or
at, a store, atomic or stp of its core (R196, R197). -/
def State.fenceWaits (s : State) (x : SlotId) (own : Access → Bool) (core : Bool) (scope : Nat) : Bool :=
  s.flight.any fun a =>
    !a.done && !a.op.isResult && s.covers x.tile scope a.loc
      && ((a.who = x && s.present a && own a) || (core && a.op.writes && sameCore a.who x))

/-- A fence waits until nothing that it covers is in flight: stores that siblings issue while it is held count as before it, as they do not stand
after it in any order that R197 gives (DESIGN CHOICE, log 67). -/
def execFence (m : Bool) (pred : BitVec 6) (scope : BitVec 3) (_succ : BitVec 6) (s : State) :=
  s.issue m { aborts := true } fun _ =>
    if s.fenceWaits s.cur (fun a => pred.getLsbD a.kind) (pred.getLsbD 1 || pred.getLsbD 4) scope.toNat
    then .hold s .again else .ok s

/-- Whether the operation that made a write has ended, so that its completion can have been observed (R201): a transfer that is no more in
its channel; the other engines write as they end. -/
def State.opEnded (s : State) (k : Lag) : Bool :=
  k.writer != pathCopy
    || !((s.tile (k.op / 2 ^ 34)).chans.getD (k.op / 2 ^ 32 % 4) Chan.initial).queue.any fun t => t.id.toNat = k.op % 2 ^ 32

/-- Whether a fencex hands a write on to a class: it is of a class of P, its scope reaches it, and the strand has observed that its operation has
ended, or has read what it wrote (R201). -/
def State.ordersLag (s : State) (t uid : Nat) (pred : BitVec 6) (scope : Nat) (k : Lag) : Bool :=
  let here := match k.old with | [] => true | p :: _ => s.covers t scope ⟨thisDev, p.1⟩
  pred.getLsbD k.writer && here && (s.opEnded k || k.seen.contains uid)

/-- A class that sees a write sees those before it to the same bytes no more. -/
def dropOlder (ks : List Lag) : List (Lag × Bool) → List Lag
  | [] => ks
  | (k, gone) :: r =>
    if gone then dropOlder (lagsDrop ks k.reader fun a => k.old.any fun p => p.1 = a) r else dropOlder (ks ++ [k]) r

/-- The orders between paths that a fencex of a strand makes (R201): where its scope reaches, no class of Q misses a write of a class of P any
more; a write that Q's strands see is from then on one that a fencex from strand hands on. -/
def State.orderPaths (s : State) (t uid : Nat) (pred succ : BitVec 6) (scope : Nat) : State :=
  { s with lags := dropOlder [] (s.lags.map fun k =>
      if !s.ordersLag t uid pred scope k then (k, false)
      else if succ.getLsbD k.reader then (k, true)
      else if succ.getLsbD pathStrand then ({ k with writer := pathStrand }, false)
      else (k, false)) }

/-- fencex (R201): an engine operation whose completion the strand has observed is performed already; the strand's own path is waited for.
Then the writes of P are missed by no class of Q. -/
def execFencex (m : Bool) (pred : BitVec 6) (scope : BitVec 3) (succ : BitVec 6) (s : State) :=
  s.issue m { aborts := true } fun st =>
    if pred.getLsbD 0 && s.fenceWaits s.cur (fun _ => true) true scope.toNat then .hold s .again
    else .ok (s.orderPaths s.cur.tile st.uid pred succ scope.toNat)

end Sys2Proof.Machine
end

