-- ==== Sys2Proof/Machine/Atomics.lean ====
section
/-!
DEFINITION. Atomics, reduction words, transactions and semaphores (spec/11 R207 to R228).
-/

namespace Sys2Proof.Machine

/-! ## atom and atomn (R208, R209) -/

/-- An atom of an operation: a long result; cas reads D as well (R208). -/
def State.atom (s : State) (m : Bool) (op : AtomOp) (ord : BitVec 2) (d a b : Spec) : Host.Outcome State Fault Refusal :=
  s.issue m
    { srcs := [(0, false, a), (1, false, b)] ++ (if op = .cas then [(2, false, d)] else [])
      dst := some (false, d), long := true, access := true, aborts := true } fun st =>
    (s.globalAddr s.cur st (st.rs a) op.size .rw).act fun p s =>
      .ok (s.send s.cur st (.atom op (st.rs b) (st.rs d)) p.1 (some ⟨false, d⟩) 4 (ord.getLsbD 1) (ord.getLsbD 0) (some p.2))

/-- An atomn of an operation: no result (R209). -/
def State.atomn (s : State) (m : Bool) (op : AtomOp) (rel : BitVec 1) (a b : Spec) : Host.Outcome State Fault Refusal :=
  s.issue m { srcs := [(0, false, a), (1, false, b)], access := true, aborts := true } fun st =>
    (s.globalAddr s.cur st (st.rs a) op.size .rw).act fun p s =>
      .ok (s.send s.cur st (.atomn op (st.rs b)) p.1 none 4 (rel = 1) false (some p.2))

def execAtomAdd (m : Bool) (ord : BitVec 2) (d a b : Spec) (s : State) := s.atom m .add ord d a b
def execAtomAnd (m : Bool) (ord : BitVec 2) (d a b : Spec) (s : State) := s.atom m .and ord d a b
def execAtomOr (m : Bool) (ord : BitVec 2) (d a b : Spec) (s : State) := s.atom m .or ord d a b
def execAtomXor (m : Bool) (ord : BitVec 2) (d a b : Spec) (s : State) := s.atom m .xor ord d a b
def execAtomMin (m : Bool) (ord : BitVec 2) (d a b : Spec) (s : State) := s.atom m .min ord d a b
def execAtomMax (m : Bool) (ord : BitVec 2) (d a b : Spec) (s : State) := s.atom m .max ord d a b
def execAtomMinn (m : Bool) (ord : BitVec 2) (d a b : Spec) (s : State) := s.atom m .minn ord d a b
def execAtomMaxn (m : Bool) (ord : BitVec 2) (d a b : Spec) (s : State) := s.atom m .maxn ord d a b
def execAtomSwap (m : Bool) (ord : BitVec 2) (d a b : Spec) (s : State) := s.atom m .swap ord d a b
def execAtomCas (m : Bool) (ord : BitVec 2) (d a b : Spec) (s : State) := s.atom m .cas ord d a b
def execAtomFaddF64 (m : Bool) (ord : BitVec 2) (d a b : Spec) (s : State) := s.atom m .fadd64 ord d a b
def execAtomFaddF32 (m : Bool) (ord : BitVec 2) (d a b : Spec) (s : State) := s.atom m .fadd32 ord d a b
def execAtomnAdd (m : Bool) (rel : BitVec 1) (a b : Spec) (s : State) := s.atomn m .add rel a b
def execAtomnAnd (m : Bool) (rel : BitVec 1) (a b : Spec) (s : State) := s.atomn m .and rel a b
def execAtomnOr (m : Bool) (rel : BitVec 1) (a b : Spec) (s : State) := s.atomn m .or rel a b
def execAtomnXor (m : Bool) (rel : BitVec 1) (a b : Spec) (s : State) := s.atomn m .xor rel a b
def execAtomnMin (m : Bool) (rel : BitVec 1) (a b : Spec) (s : State) := s.atomn m .min rel a b
def execAtomnMax (m : Bool) (rel : BitVec 1) (a b : Spec) (s : State) := s.atomn m .max rel a b
def execAtomnMinn (m : Bool) (rel : BitVec 1) (a b : Spec) (s : State) := s.atomn m .minn rel a b
def execAtomnMaxn (m : Bool) (rel : BitVec 1) (a b : Spec) (s : State) := s.atomn m .maxn rel a b
def execAtomnFaddF64 (m : Bool) (rel : BitVec 1) (a b : Spec) (s : State) := s.atomn m .fadd64 rel a b
def execAtomnFaddF32 (m : Bool) (rel : BitVec 1) (a b : Spec) (s : State) := s.atomn m .fadd32 rel a b

/-! ## Reduction words (R212) -/

/-- redp at a strand: it sends the request and is held; when the home has answered it goes on, or takes the resource fault. -/
def State.redp (s : State) (m : Bool) (op : FlightOp) (a : Spec) : Host.Outcome State Fault Refusal :=
  s.issue m { srcs := [(0, false, a)], access := true, aborts := true } fun st =>
    match st.run with
    | .held (.home id) =>
      match s.flight.find? fun e => e.id = id with
      | none => .ok s
      | some e =>
        if !e.done then .hold s (.home id)
        else if e.value = 0 then .ok (s.dropAccess e)
        else .placed ((s.dropAccess e).faultTurn s.cur 4 (codeWord e.value.toNat (st.rs a).toNat) st.regs.pc)
    | _ =>
      (s.globalAddr s.cur st (st.rs a) 8 .rw).act fun p s =>
        .hold (s.send s.cur st op p.1 none 4 false false (some p.2)) (.home s.nextId)

def execRedpReg (m : Bool) (ty : BitVec 2) (a : Spec) (s : State) := s.redp m (.redpReg ty.toNat) a
def execRedpRel (m : Bool) (a : Spec) (s : State) := s.redp m .redpRel a

/-! ## Transactions (R215 to R226) -/

/-- The resource fault of oth, txe, txa and retry outside a transaction (Table 11.7). -/
def noTx : Act := .fault 4 (codeWord 0x40 0)

/-- Opening a level (Table 11.7): the first takes tag 0; a fifth level aborts with reason 0x04, a 257th tag with 0x03. -/
def execTxb (m : Bool) (disp : BitVec 18) (s : State) :=
  s.issue m {} fun st =>
    let t := dispTarget st.regs.pc disp
    match st.inTx, st.tx with
    | true, some x =>
      if 4 ≤ x.levels.length then .placed (s.abortTx s.cur 4 st.regs.pc)
      else if 256 ≤ x.nextTag then .placed (s.abortTx s.cur 3 0)
      else .ok (s.put { st with tx := some { x with levels := ⟨t, none, x.nextTag, x.nextTag⟩ :: x.levels, nextTag := x.nextTag + 1 } })
    | _, _ =>
      if (st.chunk.map fun c => decide (0 < c.count)).getD false then s.endChunk s.cur
      else
        let s := s.dropRsv s.cur
        .ok (s.upd fun st => { st with tx := some ⟨st.regs.pc, [⟨t, none, 0, 0⟩], 1, [], none⟩ })

def execOth (m : Bool) (disp : BitVec 18) (s : State) :=
  s.issue m {} fun st =>
    match st.inTx, st.tx with
    | true, some x =>
      if 256 ≤ x.nextTag then .placed (s.abortTx s.cur 3 0)
      else
        match x.levels with
        | [] => noTx
        | l :: r =>
          .ok (s.put { st with tx := some { x with
            levels := { l with next := some (dispTarget st.regs.pc disp), alt := x.nextTag } :: r
            nextTag := x.nextTag + 1 } })
    | _, _ => noTx

/-- Whether a strand's accesses before its commit are still to be performed, or an answer of its ldc and stp is still to return: the
commit orders as an atom.ar (R218). -/
def State.commitWaits (s : State) (x : SlotId) : Bool :=
  s.flight.any fun a =>
    (a.who = x && s.present a && ((!a.done && !a.op.isResult) || a.op = .wrongBit)) || (!a.done && a.op.writes && sameCore a.who x)

/-- Every write-set entry performed at one moment (R218), and the transaction closed. -/
def State.commitTx (s : State) (x : SlotId) (t : Tx) : State :=
  let s := t.wset.foldl (fun s e => s.applyEntry x e) s
  (s.modStrand x fun st => { st with tx := none, abortReq := none }).dropWeir x

/-- A deterministic lane's transaction reaches its end: its read set and its write set are those of the lane's chunk, which ends here and
performs them when it commits (R299). -/
def State.joinChunk (s : State) (x : SlotId) (t : Tx) : State :=
  let lines := ((s.tile x.tile).weir.filter fun e => e.member = x.member).map fun e => (e.line, e.hit)
  (s.modStrand x fun st =>
    { st with
      tx := none
      abortReq := none
      chunk := st.chunk.map fun c => { c with ended := true, reads := c.reads ++ lines, wset := c.wset ++ t.wset } }).dropWeir x

def execTxe (m : Bool) (s : State) :=
  s.issue m {} fun st =>
    match st.tx with
    | none => noTx
    | some t =>
      match t.levels with
      | [] => noTx
      | [_] =>
        match st.abortReq, (s.tile s.cur.tile).weir.find? (fun e => e.member = s.cur.member && e.hit && !e.sleep) with
        | some r, _ => .placed (s.abortTx s.cur r.1 r.2)
        | none, some e => .placed (s.abortTx s.cur 1 (BitVec.ofNat 64 (s.lineAddr e.sp e.line)))
        | none, none =>
          if s.commitWaits s.cur then .hold s .again
          else if st.chunk.isSome then .ok (s.joinChunk s.cur t)
          else .ok (s.commitTx s.cur t)
      | _ :: r => .ok (s.put { st with tx := some { t with levels := r } })

/-- txa (R219): at depth 1 a whole abort; deeper, its level alone. -/
def execTxa (m : Bool) (a : Spec) (s : State) :=
  s.issue m { srcs := [(0, false, a)] } fun st =>
    let reason : BitVec 8 := 0x80 ||| ((st.rs a).setWidth 7).setWidth 8
    match st.tx with
    | none => noTx
    | some t =>
      match t.levels with
      | [] => noTx
      | [_] => .placed (s.abortTx s.cur reason st.regs.pc)
      | l :: r =>
        .placed (s.put { st with
          run := .ready
          tx := some { t with levels := r, wset := t.wset.filter fun e => decide (e.tag < l.chk) }
          regs := { st.regs with pc := l.tgt, skipn := 0, txReason := reason, txaddr := st.regs.pc } })

def execRetry (m : Bool) (s : State) :=
  s.issue m {} fun st => if st.inTx then .placed (s.retryAt s.cur) else noTx

def execTxst (m : Bool) (d : Spec) (s : State) := s.alu m (useD d) d fun st => st.txstat

/-! ## Semaphores (R228) -/

/-- Whether earlier accesses of the strand to places that its tile covers are still to be performed (R228). -/
def State.tileWaits (s : State) (x : SlotId) : Bool := s.fenceWaits x (fun _ => true) false 0

/-- The count of a semaphore as the strand sees it: its own write set's first (R228). -/
def State.semCount (s : State) (x : SlotId) (st : Strand) (k : Nat) : BitVec 32 :=
  let l := s.ctrlLoc x.tile (8 * k)
  BitVec.ofNat 32 (bytesToNat (overlaid (s.peek l 4) (st.ownBytes l 4)))

/-- A change of a semaphore's count: performed, or held back in the write set (R215). -/
def State.semWrite (s : State) (x : SlotId) (st : Strand) (k : Nat) (v : BitVec 32) : Got Unit :=
  if st.buffered then s.holdStore x false (s.ctrlLoc x.tile (8 * k)) (natToBytes 4 v.toNat) none
  else .got () (s.setSem (some x) x.tile k v)

/-- A semaphore's line in the read set (R215). -/
def State.semRead (s : State) (x : SlotId) (st : Strand) (k : Nat) : Got Unit :=
  if st.buffered then s.addRead x false true (s.ctrlLoc x.tile (8 * k)).line else .got () s

def execSempost (m : Bool) (k : BitVec 5) (a : Spec) (s : State) :=
  s.issue m { srcs := [(0, false, a)] } fun st =>
    if s.tileWaits s.cur then .hold s .again
    else
      (s.semRead s.cur st k.toNat).act fun _ s =>
        let c := (s.semCount s.cur st k.toNat).toNat + (st.rs a).toNat % 2 ^ 32
        (s.semWrite s.cur st k.toNat (BitVec.ofNat 32 (Nat.min c (2 ^ 32 - 1)))).act fun _ s => .ok s

def execSemtry (m : Bool) (d : Spec) (k : BitVec 5) (s : State) :=
  s.issue m (useD d) fun st =>
    (s.semRead s.cur st k.toNat).act fun _ s =>
      let c := s.semCount s.cur st k.toNat
      if c = 0 then .ok (s.upd fun st => st.putS d 0)
      else
        (s.semWrite s.cur st k.toNat (c - 1)).act fun _ s => .ok (s.upd fun st => st.putS d (c.setWidth 64))

end Sys2Proof.Machine
end

