-- ==== Sys2Proof/Machine/Rings.lean ====
section
/-!
DEFINITION. Lock rings (spec/05 R93 to R103).
-/

namespace Sys2Proof.Machine

/-- A resource fault of a ring instruction (R99): its code and an address. -/
def ringFault (code addr : Nat) : Act := .fault 4 (codeWord code (addr % 2 ^ 56))

/-- Whether a descriptor breaks Table 5.3: code 0x27. -/
def ringDescBad (d : Word) : Bool :=
  let r : Ring := { Ring.initial with desc := d.setWidth 63 }
  (d &&& 0xFFFFE0E0E0F00000) != 0 || decide (r.nstg < 2) || decide (16 < r.nstg) || decide (r.dist < 1) || decide (r.nstg < r.dist)
    || decide (r.slog2 < 8) || decide (18 < r.slog2) || decide (r.base % 2 ^ r.slog2 != 0)

/-- The first address of a range that lies outside the launch's region (R94, R69); none when it lies inside. -/
def Strand.outsidePad (st : Strand) (lo hi : Int) : Option Word :=
  let a : Int := st.regs.padlo.toNat
  let e : Int := a + st.padLen
  if a ≤ lo && hi < e then none
  else if lo < a || e ≤ lo then some (BitVec.ofInt 64 lo) else some (BitVec.ofInt 64 e)

def execLkcfg (m : Bool) (ring : BitVec 3) (a : Spec) (s : State) :=
  s.issue m { srcs := [(0, false, a)], access := true, aborts := true } fun st =>
    let ea := st.rs a
    if ea.toNat % 8 != 0 then .fault 7 ea
    else match s.physRing s.cur st ring.toNat with
      | none => ringFault 0x20 ea.toNat
      | some k =>
        let r := (s.tile s.cur.tile).rings.getD k Ring.initial
        if r.pmem ||| r.cmem != 0 then ringFault 0x26 ea.toNat
        else if ea.getLsbD 23 && decide (ea.toNat < 2 ^ 24) then .fault 6 ea
        else
          (s.padRead s.cur st ea 8).act fun bs s =>
            let d := BitVec.ofNat 64 (bytesToNat bs)
            let new : Ring := { Ring.initial with cfg := true, desc := d.setWidth 63 }
            if ringDescBad d then .faultIn s 4 (codeWord 0x27 (ea.toNat % 2 ^ 56))
            else match st.outsidePad new.base (new.base + new.nstg * 2 ^ new.slog2 - 1) with
              | some w => .faultIn s 6 w
              | none => .ok (s.setRing s.cur k new)

/-- A member arrives in its side's current stage (R98). -/
def Ring.arrive (r : Ring) (m u : Nat) : Ring :=
  Ring.complete (if r.isProd m u then { r with parr := r.parr ||| bitOf m } else { r with carr := r.carr ||| bitOf m })

def execLkadv (m : Bool) (ring : BitVec 3) (s : State) :=
  s.issue m { aborts := true } fun st =>
    match s.ringCheck s.cur st ring.toNat with
    | .error c => ringFault c 0
    | .ok r =>
      match s.physRing s.cur st ring.toNat with
      | some k => .ok (s.setRing s.cur k (r.arrive s.cur.member st.uid))
      | none => ringFault 0x20 0

/-- The word of Table 5.6. -/
def Ring.posWord (r : Ring) (m u phys : Nat) : Word :=
  if !r.cfg then 0
  else
    BitVec.ofNat 64 (2 ^ 63 + (if r.isMem m u then 2 ^ 62 else 0) + (if r.isCons m u then 2 ^ 61 else 0)
      + (if r.isOpen m u then 2 ^ 60 else 0) + (if r.arrived m u then 2 ^ 59 else 0) + phys % 8 * 2 ^ 56 + r.idx m u % 16 * 2 ^ 52
      + r.stage m u % 2 ^ 20 * 2 ^ 32 + (if r.isCons m u then r.cgen else r.pgen).toNat)

def execLkpos (m : Bool) (d : Spec) (ring : BitVec 3) (s : State) :=
  s.issue m (useD d) fun st =>
    match s.physRing s.cur st ring.toNat with
    | none => ringFault 0x20 0
    | some k =>
      let w := ((s.tile s.cur.tile).rings.getD k Ring.initial).posWord s.cur.member st.uid k
      (if st.buffered then s.addRead s.cur false true (s.ctrlLoc s.cur.tile (0x400 + 64 * k)) else .got () s).act fun _ s =>
        .ok (s.upd fun st => st.putS d w)

/-- Joining a side, or leaving (R97): selectors 0, 1 and 2. -/
def execLkjoin (m : Bool) (ring : BitVec 3) (a : Spec) (s : State) :=
  s.issue m { srcs := [(0, false, a)], aborts := true } fun st =>
    let sel := (st.rs a).toNat
    let x := s.cur
    match s.physRing x st ring.toNat with
    | none => ringFault 0x20 0
    | some k =>
      let r := (s.tile x.tile).rings.getD k Ring.initial
      let mem := r.isMem x.member st.uid
      if !r.cfg then ringFault 0x21 0
      else if 2 < sel then ringFault 0x28 0
      else if sel < 2 && mem then ringFault 0x25 0
      else if sel < 2 then .ok (s.setRing x k (r.join (sel = 1) x.member st.uid))
      else if mem then .ok (s.setRing x k (r.leave x.member st.uid))
      else .ok s

end Sys2Proof.Machine
end

