-- ==== Sys2Proof/Machine/Copy.lean ====
section
/-!
DEFINITION. The block-transfer engine (spec/04 R66 to R84): shadow sets, launch and its checks, and the steps of a channel.
-/

namespace Sys2Proof.Machine

/-! ## Shadow fields (Table 4.1) -/

/-- The bits of a field that are not reserved. -/
def shadowMask (i : Nat) : Word :=
  if i = 2 then 0x7F
  else if i = 3 then 0xF
  else if 4 ≤ i && i < 16 then 0xFFFFFFFF
  else if i = 40 then 0xFF03
  else if i = 41 then 0x1FFFFFFFF3FFF
  else 0xFFFFFFFFFFFFFFFF

/-- The 42 fields of a shadow set, by index. -/
abbrev Fields := Vector Word 42
def Fields.at_ (f : Fields) (i : Nat) : Nat := (f.getD i 0).toNat
def Fields.esize (f : Fields) : Nat := f.at_ 2
def Fields.ndim (f : Fields) : Nat := f.at_ 3
def Fields.count (f : Fields) (k : Nat) : Nat := f.at_ (4 + k)
def Fields.sstep (f : Fields) (k : Nat) : Int := (f.getD (16 + k) 0).toInt
def Fields.dstep (f : Fields) (k : Nat) : Int := (f.getD (28 + k) 0).toInt
def Fields.kind (f : Fields) (i : Nat) : Nat := f.at_ i / 2 ^ 60
def Fields.lineEn (f : Fields) : Bool := f.at_ 40 % 2 = 1
def Fields.lineFlush (f : Fields) : Bool := f.at_ 40 / 2 % 2 = 1
def Fields.lineRows (f : Fields) : Nat := f.at_ 40 / 2 ^ 8 % 2 ^ 8
def Fields.payload (f : Fields) : Nat := f.at_ 41 % 2 ^ 14
def Fields.tag (f : Fields) : BitVec 32 := BitVec.ofNat 32 (f.at_ 41 / 2 ^ 16)
def Fields.eom (f : Fields) : Bool := f.at_ 41 / 2 ^ 48 % 2 = 1

/-- COUNT0 · … · COUNT(n-1). -/
def Fields.product (f : Fields) : Nat → Nat
  | 0 => 1
  | n + 1 => f.product n * f.count n
def Fields.total (f : Fields) : Nat := f.product f.ndim

def Strand.shadowSet (st : Strand) (ch : BitVec 2) : Fields := st.regs.shadow.getD ch.toNat (Vector.replicate 42 0)

def Strand.setShadow (st : Strand) (ch : BitVec 2) (i : Nat) (v : Word) : Strand :=
  st.modRegs fun r => { r with shadow := vecMod r.shadow ch.toNat fun f => f.setIfInBounds i (v &&& shadowMask i) }

def execCpset (m : Bool) (ch : BitVec 2) (field : BitVec 6) (a : Spec) (s : State) :=
  s.issue m { srcs := [(0, false, a)] } fun st => .ok (s.put (st.setShadow ch field.toNat (st.rs a)))

def execCpseti (m : Bool) (ch : BitVec 2) (field : BitVec 6) (imm : BitVec 12) (s : State) :=
  s.issue m {} fun st => .ok (s.put (st.setShadow ch field.toNat (sext64 imm)))

def execCpget (m : Bool) (d : Spec) (ch : BitVec 2) (field : BitVec 6) (s : State) :=
  s.alu m (useD d) d fun st => (st.shadowSet ch).getD field.toNat 0

/-! ## The checks of a launch (R69) -/

/-- A copy fault of Table 4.2. -/
def copyFault (code field : Nat) : Nat × Word := (13, codeWord code (field * 2 ^ 50))

/-- The ring number and the offset of a ring-relative field. -/
def ringOf (f : Fields) (i : Nat) : Nat := f.at_ i / 2 ^ 20 % 8

/-- The least and the greatest byte offset of an extent, over the dimensions (R69). -/
def extent (count : Nat → Nat) (st : Nat → Int) : Nat → Int × Int
  | 0 => (0, 0)
  | n + 1 =>
    let r := extent count st n
    let w := ((count n : Int) - 1) * st n
    (r.1 + min 0 w, r.2 + max 0 w)

/-- A side's resolved kind and base: 0 virtual, 8 scratchpad, 12 send queue; a ring is a scratchpad address once resolved. The bits of a scratchpad
or ring-relative address that Table 4.1 gives no name, [59:20] or [59:23], are ignored: no check of R69 names them (DESIGN CHOICE, log 68). -/
def sideBase (f : Fields) (i : Nat) (ring : Option Ring) (m u : Nat) : Nat × Nat :=
  match f.kind i with
  | 9 => (8, match ring with | some r => r.stage m u + f.at_ i % 2 ^ 20 | none => 0)
  | 8 => (8, f.at_ i % 2 ^ 20)
  | k => (k, f.at_ i % 2 ^ 60)

/-- The first misaligned field of code 0x05. -/
def misaligned (f : Fields) : Option Nat :=
  let n := f.esize
  let addr := fun i => match f.kind i with
    | 9 => f.at_ i % 2 ^ 20 % n != 0
    | 12 => false
    | 8 => f.at_ i % 2 ^ 20 % n != 0
    | _ => f.at_ i % 2 ^ 60 % n != 0
  if addr 0 then some 0
  else if addr 1 then some 1
  else match (List.range f.ndim).find? fun k => f.at_ (16 + k) % n != 0 with
    | some k => some (16 + k)
    | none =>
      if f.kind 1 = 12 then none
      else ((List.range f.ndim).find? fun k => f.at_ (28 + k) % n != 0).map fun k => 28 + k

/-- The ring behind a ring-relative side, configured or not, as it stood at the start of the cycle (R100); none for other kinds. -/
def State.sideRing (s : State) (x : SlotId) (st : Strand) (f : Fields) (i : Nat) : Option Ring :=
  if f.kind i = 9 then (s.physRing x st (ringOf f i)).map fun k => (s.tile x.tile).ringsAt.getD k Ring.initial else none

/-- Code 0x09 for one side: the ring is not configured, its stage is not open, or the extent leaves it. -/
def ringSideBad (f : Fields) (i : Nat) (r : Option Ring) (m u : Nat) (ext : Int × Int) : Bool :=
  match r with
  | none => false
  | some r =>
    !r.cfg || !r.isOpen m u ||
      (f.total != 0 &&
        (let off : Int := (f.at_ i % 2 ^ 20 : Nat)
         decide (off + ext.1 < 0) || decide ((2 ^ r.slog2 : Nat) < off + ext.2 + f.esize)))

/-- The first address from `a` to `hi` that no range holds; the fuel is the number of ranges. -/
def firstOutside (rs : List (Nat × Nat)) (hi : Nat) : Nat → Nat → Option Nat
  | 0, a => if hi < a then none else some a
  | f + 1, a =>
    if hi < a then none
    else match rs.find? fun r => decide (r.1 ≤ a) && decide (a < r.2) with
      | none => some a
      | some r => firstOutside rs hi f r.2

/-- The first address of a range that lies outside a union of ranges (R69, R288); none when it lies inside. How the detail word writes an
address below 0 the spec does not say: it is taken modulo 2^64 (DESIGN CHOICE, log 50). -/
def outsideUnion (rs : List (Nat × Nat)) (lo hi : Int) : Option Word :=
  if lo < 0 then some (BitVec.ofInt 64 lo) else (firstOutside rs hi.toNat rs.length lo.toNat).map fun a => BitVec.ofNat 64 a

/-- The scratchpad that a strand's launch declares on its tile: its region, and the stack reservation of each of its strands (R40). -/
def State.declaredPad (s : State) (x : SlotId) (st : Strand) : List (Nat × Nat) :=
  (st.regs.padlo.toNat, st.regs.padlo.toNat + st.padLen) :: (st.stackBot, st.stackTop)
    :: ((s.residOf x.tile st.lid).map fun (r : Resident) => r.stackRes.map fun k => (k.1, k.2.1)).getD []

/-- The checks of R69 in their order: none when the launch may go on. `outside` names the first scratchpad address of a range that the
launching strand may not reach. -/
def State.launchCheck (s : State) (x : SlotId) (st : Strand) (f : Fields) (outside : Int → Int → Option Word) : Option (Nat × Word) :=
  let undeclared := fun i => f.kind i = 9 && !decide (ringOf f i < st.nlocks)
  let r0 := s.sideRing x st f 0
  let r1 := s.sideRing x st f 1
  let e0 := extent f.count f.sstep f.ndim
  let e1 := extent f.count f.dstep f.ndim
  let k0 := f.kind 0
  let k1 := f.kind 1
  let tooBig := (List.range f.ndim).find? fun k => decide (2 ^ 32 < f.product (k + 1))
  let pad := fun i r (e : Int × Int) =>
    let b := sideBase f i r x.member st.uid
    if b.1 = 8 && f.total != 0 then outside ((b.2 : Int) + e.1) ((b.2 : Int) + e.2 + f.esize - 1) else none
  if undeclared 0 then some (4, codeWord 0x20 (f.at_ 0 % 2 ^ 56))
  else if undeclared 1 then some (4, codeWord 0x20 (f.at_ 1 % 2 ^ 56))
  else if !([1, 2, 4, 8, 16, 32, 64].contains f.esize) then some (copyFault 1 2)
  else if f.ndim = 0 || 12 < f.ndim then some (copyFault 2 3)
  else if !([0, 8, 9].contains k0) then some (copyFault 3 0)
  else if !([0, 8, 9, 12].contains k1) || (k1 = 12 && f.at_ 1 / 2 ^ 16 % 2 ^ 44 != 0) then some (copyFault 4 1)
  else match misaligned f with
    | some i => some (copyFault 5 i)
    | none =>
      if 2 ^ 32 < f.total then some (copyFault 6 (4 + tooBig.getD 0))
      else if f.lineEn && f.at_ 16 != f.esize then some (copyFault 7 16)
      else if f.lineEn && 32768 < f.count 0 * f.esize then some (copyFault 7 4)
      else if f.lineEn && f.lineRows = 0 then some (copyFault 7 40)
      else if k1 = 12 && (f.payload % 64 != 0 || f.payload < 256 || 8192 < f.payload) then some (copyFault 8 41)
      else if ringSideBad f 0 r0 x.member st.uid e0 then some (copyFault 9 0)
      else if ringSideBad f 1 r1 x.member st.uid e1 then some (copyFault 9 1)
      else match pad 0 r0 e0 with
        | some w => some (6, w)
        | none => if k1 = 12 then none else (pad 1 r1 e1).map fun w => (6, w)

/-- A transfer's record at its launch (R68). -/
def State.newTransfer (s : State) (x : SlotId) (st : Strand) (f : Fields) (id : BitVec 32) : Transfer :=
  let b0 := sideBase f 0 (s.sideRing x st f 0) x.member st.uid
  let b1 := sideBase f 1 (s.sideRing x st f 1) x.member st.uid
  ⟨id, x, st.sid, st.uid, st.lid, st.regs.ptroot, st.sup, f, b0.1, b0.2, b1.1, b1.2, 0, false, false, [], [], [], false, none⟩

/-- A change of a channel: its status word is part of the tile's CHST line (R92). -/
def State.setChan (s : State) (writer : Option SlotId) (t k : Nat) (c : Chan) : State :=
  let old := ((s.tile t).chans.getD k Chan.initial).word
  let s := s.modTile t fun x => { x with chans := x.chans.setIfInBounds k c }
  if old = c.word then s else s.notifyLine writer (s.ctrlLoc t 0x800)

def State.chan (s : State) (t k : Nat) : Chan := (s.tile t).chans.getD k Chan.initial

def execCplaunch (m : Bool) (d : Spec) (ch : BitVec 2) (s : State) :=
  s.issue m { useD d with aborts := true } fun st =>
    let f := st.shadowSet ch
    match s.launchCheck s.cur st f (outsideUnion (s.declaredPad s.cur st)) with
    | some e => .fault e.1 e.2
    | none =>
      let c := s.chan s.cur.tile ch.toNat
      if 8 ≤ c.queue.length then .forfeit
      else
        let tr := s.newTransfer s.cur st f c.nextid
        let done := if c.queue.isEmpty then c.nextid else c.doneId
        let s := s.setChan (some s.cur) s.cur.tile ch.toNat { c with nextid := c.nextid + 1, doneId := done, queue := c.queue ++ [tr] }
        .ok (s.upd fun st => st.putS d (c.nextid.setWidth 64))

/-- cpstat (R73, R301): in deterministic mode it waits for the strand's own transfers on the channel. -/
def execCpstat (m : Bool) (d : Spec) (ch : BitVec 2) (s : State) :=
  s.issue m (useD d) fun st =>
    let c := s.chan s.cur.tile ch.toNat
    if st.det && c.queue.any fun t => t.who = s.cur && t.uid = st.uid then .hold s .again
    else
      (if st.buffered then s.addRead s.cur false true (s.ctrlLoc s.cur.tile 0x800) else .got () s).act fun _ s =>
        .ok (s.upd fun st => st.putS d c.word)

/-- cpstop (R80): the strand's own transfers on the channel are cancelled; a halted one lets the channel go on. -/
def execCpstop (m : Bool) (ch : BitVec 2) (s : State) :=
  s.issue m { aborts := true } fun st =>
    let c := s.chan s.cur.tile ch.toNat
    let mine := fun (t : Transfer) => t.who = s.cur && t.uid = st.uid
    let head := match c.queue with | t :: _ => mine t | [] => false
    let c := { c with queue := c.queue.map fun t => if mine t then { t with cancelled := true } else t, line := [] }
    .ok (s.setChan (some s.cur) s.cur.tile ch.toNat
      (if head && c.halted then { c with halted := false, cause := 0 } else c))

/-! ## The steps of a channel (R70 to R79) -/

/-- The head of a channel's queue when the channel can work on it. -/
def Chan.active (c : Chan) : Option Transfer :=
  match c.queue with
  | t :: _ => if c.halted || t.cancelled then none else some t
  | [] => none

def Chan.setHead (c : Chan) (t : Transfer) : Chan := { c with queue := t :: c.queue.drop 1 }

/-- The offset of element x along a side (R70). -/
def elemOffset (count : Nat → Nat) (st : Nat → Int) : Nat → Nat → Nat → Int
  | 0, _, _ => 0
  | n + 1, k, rem => ((rem % count k : Nat) : Int) * st k + elemOffset count st n (k + 1) (rem / count k)

/-- The address of element x on a side, modulo 2^64. -/
def Transfer.addr (t : Transfer) (dst : Bool) (x : Nat) : Word :=
  let f : Fields := t.fields
  BitVec.ofInt 64 (((if dst then t.dst else t.src) : Int)
    + elemOffset f.count (if dst then f.dstep else f.sstep) f.ndim 0 x)

/-- Where a side's address lies, or the code of its fault (R55). -/
def State.sideLoc (s : State) (tile : Nat) (t : Transfer) (kind : Nat) (a : Word) (acc : AccKind) : Except Nat Loc × State :=
  if kind = 8 then (.ok ⟨thisDev, s.padBase tile + a.toNat % 2 ^ 20⟩, s)
  else match s.engineTr tile t.ptroot t.sup a acc with
    | (.at_ p _, s) => (.ok p, s)
    | (.fault _ d, s) => (.error (d.toNat / 2 ^ 56), s)
    | (.miss, s) => (.error 0x10, s)

/-- A strand asleep in a retry, in the rotation or out of it. -/
def Strand.sleeps (st : Strand) : Bool :=
  match st.run with
  | .asleep => true
  | .preempted _ => (st.tx.map fun t => t.levels.isEmpty).getD false
  | _ => false

/-- A halt at the head's element (R78): recorded, delivered; an owner asleep is woken to take it. -/
def State.haltChan (s : State) (tile ch : Nat) (t : Transfer) (code : Nat) (wr : Bool) (addr : Word) : State :=
  let c := s.chan tile ch
  let s := s.setChan none tile ch
    { c with halted := true, cause := BitVec.ofNat 8 code, cpfa := addr, cpfx := BitVec.ofNat 64 (t.x % 2 ^ 32), line := [] }
  let s := if ((s.strand? t.who).map fun st => st.uid = t.uid && st.sleeps).getD false then s.wakeAt t.who 0
    else s.modSpilled (fun p => p.at_ = t.who && p.strand.uid = t.uid && p.strand.sleeps) fun p => { p with strand := p.strand.wake 0 }
  if code = 0x60 then
    let (d, s) := s.free
    s.deliver t.who t.uid t.sid t.lid 15 d
  else s.deliver t.who t.uid t.sid t.lid 13 (codeWord code ((if wr then 2 ^ 55 else 0) + ch % 4 * 2 ^ 50 + t.id.toNat))

/-- A row's bytes in the line buffer, by its key (R75). -/
def Chan.heldRow (c : Chan) (asid : BitVec 16) (kind addr len : Nat) : Option HeldRow :=
  c.line.find? fun r => r.asid = asid && r.kind = kind && r.addr = addr && r.bytes.length = len

/-- The bytes of an element as its transfer may still read them: before the transfer, for those that it has overwritten (R71). -/
def oldBytes (undo : List (Loc × Byte)) (l : Loc) (bs : List Byte) : List Byte :=
  bs.mapIdx fun i b => ((undo.find? fun u => u.1 = ⟨l.dev, l.addr + i⟩).map (·.2)).getD b

def keyAddr (l : Loc) : Nat := l.dev * 2 ^ 44 + l.addr

/-- The last rows that a line buffer keeps: ROWS of them, as many as fit in 32 KiB (R75). -/
def keptRows (f : Fields) (rows : List HeldRow) : List HeldRow :=
  let n := Nat.min f.lineRows (32768 / Nat.max 1 (f.count 0 * f.esize))
  rows.drop (rows.length - n)

/-- TRANSFER_START (R71, R75): the channel takes up the transfer at the head of its queue. -/
def execTransferStart (tile ch : Nat) (s : State) : Host.Outcome State Fault Refusal :=
  let c := s.chan tile ch
  match c.active with
  | some t =>
    if t.started then .next s
    else
      let f : Fields := t.fields
      .next (s.setChan none tile ch { c.setHead { t with started := true } with line := if f.lineEn && !f.lineFlush then c.line else [] })
  | none => .next s

/-- The source bytes of the element in hand: from the line buffer, or read at its place, which is then named (R70, R75). -/
def State.readElement (s : State) (c : Chan) (tile : Nat) (t : Transfer) (old : Bool) (answer : V128) :
    Except (Nat × Word) (List Byte × Transfer × Option Loc) × State :=
  let f : Fields := t.fields
  let n := f.esize
  let sa := t.addr false t.x
  let i0 := t.x % Nat.max 1 (f.count 0)
  let rowA := t.addr false (t.x - i0)
  let (rowLoc, s) := if f.lineEn then s.sideLoc tile t t.srcKind rowA .read else (.error 0, s)
  let key := match rowLoc with | .ok l => some (keyAddr l) | .error _ => none
  let served := key.bind fun k => c.heldRow (asidOf t.ptroot) t.srcKind k (f.count 0 * n)
  let note := fun (bs : List Byte) =>
    if !f.lineEn then t
    else if i0 = 0 then { t with rows := t.rows ++ [⟨asidOf t.ptroot, t.srcKind, key.getD 0, bs⟩] }
    else { t with rows := t.rows.dropLast ++ (t.rows.drop (t.rows.length - 1)).map fun r => { r with bytes := r.bytes ++ bs } }
  match served with
  | some r =>
    let bs := (r.bytes.drop (i0 * n)).take n
    (.ok (bs, note bs, none), s)
  | none =>
    match s.sideLoc tile t t.srcKind sa .read with
    | (.error code, s) => (.error (code, sa), s)
    | (.ok l, s) =>
      let s := s.foldFor l n
      let bs := if l.dev != thisDev then natToBytes n answer.toNat else s.peekAs pathCopy l n
      let bs := if old then oldBytes t.undo l bs else bs
      (.ok (bs, note bs, some l), s)

/-- The number of a transfer among all channels' operations. -/
def copyOp (tile ch : Nat) (t : Transfer) : Nat := tile * 2 ^ 34 + ch % 4 * 2 ^ 32 + t.id.toNat

/-- An error of a channel's access: a log in the bank of its place, with a syndrome that is free (log 8). -/
def State.logCopy (s : State) (cls : BitVec 2) (t : Transfer) (l : Loc) : State :=
  let (d, s) := s.free
  s.modBank (s.bankFor l) fun b => b.log cls (s.srcFor l) (BitVec.ofNat 5 t.who.member) (BitVec.ofNat 64 (s.lineAddr false l)) d

/-- What a check of a channel's access comes to (R91): it goes on, or it fails at a byte, told by its offset in the element. -/
inductive Checked
  | good (s : State)
  | fails (off : Nat) (s : State)

/-- The check of n bytes at a place of which an access reads some words: those that hold a wrong bit are corrected, and the first that holds two
fails it at its first byte; `err` is what another check of the access finds. -/
def State.copyCheck (s : State) (t : Transfer) (l : Loc) (n : Nat) (reads : Nat → Bool) (err : ErrKind) : Checked :=
  let ws := if l.dev = thisDev then (wordsOf l.addr n).filter reads else []
  let s := ws.foldl (fun s w => s.fixWords (8 * w) 8 (BitVec.ofNat 5 t.who.member)) s
  match ws.find? s.badWords.contains, err with
  | some w, _ => .fails (8 * w - l.addr) (s.logCopy 2 t ⟨l.dev, Nat.max l.addr (8 * w)⟩)
  | none, .uncorrectable => .fails 0 (s.logCopy 2 t l)
  | none, .corrected => .good (s.logCopy 1 t l)
  | none, .ok => .good s

/-- The element in hand written at its destination (R70, R71): `err` is an error that the write meets. A write that covers a word in part
fails where the word holds an uncorrectable error (R91). -/
def State.writeElement (s : State) (tile ch : Nat) (t : Transfer) (bs : List Byte) (err : ErrKind) : State :=
  let n := bs.length
  let da := t.addr true t.x
  match s.sideLoc tile t t.dstKind da .write with
  | (.error code, s) => s.haltChan tile ch t code true da
  | (.ok l, s) =>
    match s.copyCheck t l n (fun w => !coversWord l.addr n w) err with
    | .fails off s => s.haltChan tile ch t 0x60 true (da + BitVec.ofNat 64 off)
    | .good s =>
      let was := if l.dev = thisDev then s.peek l n else []
      let undo := t.undo ++ ((was.mapIdx fun i b => ((⟨l.dev, l.addr + i⟩ : Loc), b)).filter fun u => !(t.undo.any fun v => v.1 = u.1))
      let s := s.countWork tile t.lid 0 (if t.dstKind < 8 then (linesOf l n).length else 0)
      let s := s.poke none t.sup l bs pathCopy (copyOp tile ch t)
      s.setChan none tile ch ((s.chan tile ch).setHead { t with x := t.x + 1, undo := undo })

/-- How a transfer's virtual addresses are translated (R55, R68). -/
def Transfer.via (t : Transfer) (tile : Nat) : Via := ⟨tile, t.ptroot, t.sup⟩

/-- Whether a side's place can be reached now: a tile that a self-test has taken out makes its window accesses wait (R321), and so does a walk for
which there is no walker yet (R57). -/
def State.sideServed (s : State) (tile : Nat) (t : Transfer) (dst : Bool) : Bool :=
  let kind := if dst then t.dstKind else t.srcKind
  let f : Fields := t.fields
  let waits := fun (x : Nat) => s.viaWaits (t.via tile) (t.addr dst x).toNat 1
  8 ≤ kind || (!waits t.x && !(!dst && f.lineEn && waits (t.x - t.x % Nat.max 1 (f.count 0)))
    && (match (s.sideLoc tile t kind (t.addr dst t.x) (if dst then .write else .read)).1 with
      | .ok l => s.served l
      | .error _ => true))

/-- COPY_ELEMENT (R70, R71, R75 to R78): the channel moves its next element; `old` reads bytes that this transfer overwrote as they were
before it, `err` is what the checks of its read or of its write find (a remote write that fails among them, R356), `answer` what another device
answers. A row that the line buffer serves is neither checked nor counted: nothing is read at its place. -/
def execCopyElement (tile ch : Nat) (old : Bool) (err : CopyErr) (answer : V128) (s : State) : Host.Outcome State Fault Refusal :=
  let c := s.chan tile ch
  match c.active with
  | none => .next s
  | some t =>
    let f : Fields := t.fields
    let n := f.esize
    let sa := t.addr false t.x
    if !t.started || decide (f.total ≤ t.x) || (t.dstKind = 12 && f.payload < t.packet.length + n) || !s.sideServed tile t false
      || !s.sideServed tile t true then .next s
    else
      match s.readElement c tile t old answer with
      | (.error e, s) => .next (s.haltChan tile ch t e.1 false e.2)
      | (.ok (bs, t', place), s) =>
        match (match place with
          | some l => s.copyCheck t l n (fun _ => true) (if err.wr then .ok else err.kind)
          | none => .good s) with
        | .fails off s => .next (s.haltChan tile ch t 0x60 false (sa + BitVec.ofNat 64 off))
        | .good s =>
          let lines := match place with
            | some l => if t.srcKind < 8 then (linesOf l n).length else 0
            | none => 0
          let s := s.countWork tile t.lid 0 lines
          if t.dstKind = 12 then
            .next (s.setChan none tile ch (c.setHead { t' with x := t.x + 1, packet := t.packet ++ bs }))
          else .next (s.writeElement tile ch t' bs (if err.wr then err.kind else .ok))

/-- SEND_PACKET_ACCEPT (R77): the port die takes the packet in hand. It checks the handle as it is offered the transfer's first packet: one
that is invalid or closed halts the channel with cause 0x70 at the transfer's first element (R78). The failing address of such a halt is left
open by the spec (log 8); its detail word names a write, since it is the destination that is refused (DESIGN CHOICE, log 69). -/
def execSendPacketAccept (tile ch : Nat) (s : State) : Host.Outcome State Fault Refusal :=
  let c := s.chan tile ch
  match c.active with
  | none => .next s
  | some t =>
    let f : Fields := t.fields
    let last := decide (f.total ≤ t.x)
    let empty := f.total = 0 && f.eom && t.x = 0
    if !t.started || t.dstKind != 12 || !(t.packet.length = f.payload || (last && !t.packet.isEmpty) || empty) then .next s
    else
      let h := BitVec.ofNat 16 t.dst
      if !t.offered && !s.sendQueues.contains h then
        let (d, s) := s.free
        let t := { t with x := 0, packet := [], rows := [] }
        .next ((s.setChan none tile ch (c.setHead t)).haltChan tile ch t 0x70 true d)
      else
        let s : State := { s with netOut := s.netOut ++ [⟨h, f.tag, last && f.eom, t.packet⟩] }
        .next (s.setChan none tile ch (c.setHead { t with packet := [], offered := true, x := if empty then 1 else t.x }))

/-- The completion word of Table 14.4: status, code, kind, value. -/
def statusWord (status code kind value : Nat) : Word :=
  BitVec.ofNat 64 (status + 2 ^ 8 * code + 2 ^ 16 * kind + 2 ^ 32 * value)

/-- A command completed by a step: its status word is known (R286). -/
def State.finishCommand (s : State) (cid : Nat) (v : Word) : State :=
  { s with commands := s.commands.map fun c => if c.cid = cid && c.result.isNone then { c with result := some v } else c }

/-- TRANSFER_COMPLETE (R72, R80): DONE advances past a transfer whose writes are all performed, or that was cancelled. -/
def execTransferComplete (tile ch : Nat) (s : State) : Host.Outcome State Fault Refusal :=
  let c := s.chan tile ch
  match c.queue with
  | [] => .next s
  | t :: r =>
    let f : Fields := t.fields
    let sent := t.dstKind != 12 || (t.packet.isEmpty && (f.total != 0 || !f.eom || t.x = 1))
    if t.cancelled || (t.started && !c.halted && decide (f.total ≤ t.x) && sent) then
      let c := { c with queue := r, doneId := t.id + 1, line := if !t.cancelled && f.lineEn then keptRows f t.rows else c.line }
      let s := s.setChan none tile ch c
      .next (match t.cmd with
        | some k => s.finishCommand k (statusWord 1 0 0 t.id.toNat)
        | none => s)
    else .next s

/-- CPCTL_RESUME (R79): the halted transfer goes on at CPFX. -/
def execCpctlResume (tile ch : Nat) (s : State) : Host.Outcome State Fault Refusal :=
  let c := s.chan tile ch
  if c.halted then .next (s.setChan none tile ch { c with halted := false, cause := 0 }) else .next s

/-- CPCTL_CANCEL (R79): the halted transfer is cancelled, and the channel goes on to the next. -/
def execCpctlCancel (tile ch : Nat) (s : State) : Host.Outcome State Fault Refusal :=
  let c := s.chan tile ch
  if c.halted then
    .next (s.setChan none tile ch
      { c with halted := false, cause := 0, queue := match c.queue with | t :: r => { t with cancelled := true } :: r | [] => [] })
  else .next s

end Sys2Proof.Machine
end

