-- ==== Sys2Proof/Machine/Vector.lean ====
section
/-!
DEFINITION. Vector instructions (spec/08 R143 to R164, spec/07 R136 to R142): elements and lanes, floating point, reductions,
conversion, permutation, integer operations and the conversion unit.
-/

namespace Sys2Proof.Machine

/-! ## Elements and lanes (R143, R136) -/

/-- Element i of w bytes. -/
def V128.elem (v : V128) (w i : Nat) : Nat := v.toNat / 2 ^ (8 * w * i) % 2 ^ (8 * w)

/-- The number that w-byte elements make, element 0 lowest. -/
def packElems (w : Nat) : List Nat → Nat
  | [] => 0
  | x :: r => x % 2 ^ (8 * w) + 2 ^ (8 * w) * packElems w r

/-- The register that w-byte elements make, element 0 lowest; elements past the last read 0. -/
def ofElems (w : Nat) (xs : List Nat) : V128 := BitVec.ofNat 1024 (packElems w xs)

/-- The element-wise map of one, of two registers. -/
def mapElems (w : Nat) (f : Nat → Nat) (a : V128) : V128 := ofElems w ((List.range (128 / w)).map fun i => f (V128.elem a w i))
def zipElems (w : Nat) (f : Nat → Nat → Nat) (a b : V128) : V128 :=
  ofElems w ((List.range (128 / w)).map fun i => f (V128.elem a w i) (V128.elem b w i))

/-- The lane whose LFSR element i of w bytes draws on (R136). -/
def laneOf (w i : Nat) : Nat := if w ≤ 4 then i * w / 4 else 2 * i

/-- The mode of a rounding selector (R26), or none for the stochastic one. -/
def Strand.vmode (st : Strand) (sel : BitVec 2) : Option RMode :=
  match sel.toNat with
  | 1 => some .rne
  | 2 => some .rz
  | 3 => none
  | _ => if st.regs.fctl.toNat % 8 = 4 then none else some st.rm

/-- n elements computed in a mode; in mode RS every element, in ascending order, first advances its lane's LFSR (R136, R145). -/
def drawElems (md : Option RMode) (w n : Nat) (f : Nat → RMode → Nat) (lf : Vector (BitVec 32) 32) :
    List Nat × Vector (BitVec 32) 32 :=
  match md with
  | some r => ((List.range n).map fun i => f i r, lf)
  | none =>
    (List.range n).foldl (fun p i =>
      let k := laneOf w i
      let x := lfsrNext (p.2.getD k 0)
      (p.1 ++ [f i (.rs x)], p.2.setIfInBounds k x)) ([], lf)

def Strand.setLfsr (st : Strand) (lf : Vector (BitVec 32) 32) : Strand := st.modRegs fun r => { r with lfsr := lf }

/-! ## Shapes -/

def vuseAB (d a b : Spec) : Uses := { srcs := [(0, true, a), (1, true, b)], dst := some (true, d) }
def vuseA (d a : Spec) : Uses := { srcs := [(0, true, a)], dst := some (true, d) }
def vuseABD (d a b : Spec) : Uses := { srcs := [(0, true, a), (1, true, b), (2, true, d)], dst := some (true, d) }

/-- An instruction whose whole effect is a short vector result. -/
def State.valu (s : State) (m : Bool) (u : Uses) (d : Spec) (f : Strand → V128) : Host.Outcome State Fault Refusal :=
  s.issue m u fun st => .ok (s.put (st.putV d (f st)))

/-- The count of a vector floating-point instruction of Table 1.12 (R292). -/
def State.tally (s : State) (st : Strand) : State := s.countWork s.cur.tile st.lid 1 0

/-- An instruction of Table 1.12 whose result is a short vector result. -/
def State.vfpu (s : State) (m : Bool) (u : Uses) (d : Spec) (f : Strand → V128) : Host.Outcome State Fault Refusal :=
  s.issue m u fun st => .ok ((s.tally st).put (st.putV d (f st)))

/-- An instruction that rounds each element of a type (R145); `fp` when it stands in Table 1.12. -/
def State.vround (s : State) (fp m : Bool) (u : Uses) (rnd : BitVec 2) (w n wd : Nat) (d : Spec)
    (f : Strand → Nat → RMode → Nat) : Host.Outcome State Fault Refusal :=
  s.issue m u fun st =>
    let r := drawElems (st.vmode rnd) w n (f st) st.regs.lfsr
    .ok ((if fp then s.tally st else s).put ((st.setLfsr r.2).putV d (ofElems wd r.1)))

/-- The format of a floating-point type code 0 to 5 (Table 1.5). -/
def fmtOf (t : Nat) : Fmt :=
  match t with
  | 0 => .f64
  | 1 => .f32
  | 2 => .bf16
  | 3 => .f16
  | 4 => .e4m3
  | _ => .e5m2

/-- The integer type of a type code 8 to 15. -/
def intOf (t : Nat) : IntTy := ⟨8 * 2 ^ (t % 4), decide (t < 12)⟩

/-- An element of a register as a value of a format. -/
def Fmt.elem (f : Fmt) (v : V128) (i : Nat) : FVal := f.read (V128.elem v f.bytes i)

/-! ## Floating-point arithmetic (R147 to R149) -/

/-- A two-operand form of Table 8.2. -/
def State.vfp2 (s : State) (m : Bool) (rnd t : BitVec 2) (d a b : Spec) (f : Fmt → RMode → FVal → FVal → Nat) :=
  let k := fmtOf t.toNat
  s.vround true m (vuseAB d a b) rnd k.bytes (128 / k.bytes) k.bytes d fun st i md =>
    f k md (k.elem (st.rv a) i) (k.elem (st.rv b) i)

/-- A fused form of Table 8.2. -/
def State.vfp3 (s : State) (m : Bool) (rnd t : BitVec 2) (d a b : Spec) (f : Fmt → RMode → FVal → FVal → FVal → Nat) :=
  let k := fmtOf t.toNat
  s.vround true m (vuseABD d a b) rnd k.bytes (128 / k.bytes) k.bytes d fun st i md =>
    f k md (k.elem (st.rv a) i) (k.elem (st.rv b) i) (k.elem (st.rv d) i)

def execVadd (m : Bool) (rnd t : BitVec 2) (d a b : Spec) (s : State) :=
  s.vfp2 m rnd t d a b fun k md x y => (k.finish md (x.add md y)).1
def execVsub (m : Bool) (rnd t : BitVec 2) (d a b : Spec) (s : State) :=
  s.vfp2 m rnd t d a b fun k md x y => (k.finish md (x.add md y.neg)).1
def execVmul (m : Bool) (rnd t : BitVec 2) (d a b : Spec) (s : State) :=
  s.vfp2 m rnd t d a b fun k md x y => (k.finish md (x.mul y)).1
def execVdiv (m : Bool) (rnd t : BitVec 2) (d a b : Spec) (s : State) :=
  s.vfp2 m rnd t d a b fun k md x y => (k.div md x y).1
def execVfma (m : Bool) (rnd t : BitVec 2) (d a b : Spec) (s : State) :=
  s.vfp3 m rnd t d a b fun k md x y z => (k.fma md x y z).1
def execVfms (m : Bool) (rnd t : BitVec 2) (d a b : Spec) (s : State) :=
  s.vfp3 m rnd t d a b fun k md x y z => (k.fma md x y z.neg).1
def execVfnma (m : Bool) (rnd t : BitVec 2) (d a b : Spec) (s : State) :=
  s.vfp3 m rnd t d a b fun k md x y z => (k.fma md x.neg y z).1

/-- 1 / √x rounded once (Table 8.3). -/
def Fmt.rsqrt (f : Fmt) (md : RMode) (x : FVal) : Nat :=
  match x with
  | .nan _ => f.nan
  | .inf n => if n then f.nan else 0
  | .fin n m e =>
    if m = 0 then f.withSign n f.inf
    else if n then f.nan
    else
      let odd : Nat := if e % 2 = 0 then 0 else 1
      let m' := m * 2 ^ odd
      let k := Nat.log2 m' + 150
      let r := isqrt (2 ^ (2 * k) / m')
      (f.round md false r (-(k : Int) - (e - odd) / 2) (decide (m' * r * r ≠ 2 ^ (2 * k)))).1

/-- How many bits vexp2 carries (log 13). -/
def exp2Bits : Nat := 256

/-- Successive square roots of 2 in units of 2^-exp2Bits, from the one after r. -/
def exp2Roots : Nat → Nat → List Nat
  | 0, _ => []
  | k + 1, r => let q := isqrt (r * 2 ^ exp2Bits); q :: exp2Roots k q

/-- 2^(F / 2^p), for F below 2^p, in units of 2^-exp2Bits: the product of the roots of 2 that its bits name. -/
def exp2Frac (F p : Nat) : Nat :=
  ((exp2Roots exp2Bits (2 * 2 ^ exp2Bits)).foldl (fun (q : Nat × Nat) r =>
    (q.1 + 1, if decide (q.1 + 1 ≤ p) && F.testBit (p - (q.1 + 1)) then q.2 * r / 2 ^ exp2Bits else q.2)) (0, 2 ^ exp2Bits)).2

/-- 2^x rounded once (Table 8.3). -/
def Fmt.exp2 (f : Fmt) (md : RMode) (x : FVal) : Nat :=
  match x with
  | .nan _ => f.nan
  | .inf n => if n then 0 else f.inf
  | .fin n m e =>
    if m * 2 ^ e.toNat / 2 ^ (-e).toNat < 2 ^ 16 then
      let p : Nat := (-e).toNat
      let v : Int := if n then -((m * 2 ^ e.toNat : Nat) : Int) else ((m * 2 ^ e.toNat : Nat) : Int)
      let k := v / (2 ^ p : Nat)
      let F := (v % (2 ^ p : Nat)).toNat
      if F = 0 then (f.round md false 1 k false).1
      else (f.round md false (exp2Frac F p) (k - exp2Bits) true).1
    else if n then (f.round md false (2 ^ 200) (-100000) true).1
    else (f.round md false (2 ^ 200) 100000 true).1

/-- A rounded one-operand form of Table 8.3. -/
def State.vfp1 (s : State) (m : Bool) (rnd t : BitVec 2) (d a : Spec) (f : Fmt → RMode → FVal → Nat) :=
  let k := fmtOf t.toNat
  s.vround true m (vuseA d a) rnd k.bytes (128 / k.bytes) k.bytes d fun st i md => f k md (k.elem (st.rv a) i)

def execVsqrt (m : Bool) (rnd t : BitVec 2) (d a : Spec) (s : State) :=
  s.vfp1 m rnd t d a fun k md x => (k.sqrt md x).1
def execVrcp (m : Bool) (rnd t : BitVec 2) (d a : Spec) (s : State) :=
  s.vfp1 m rnd t d a fun k md x => (k.div md (.fin false 1 0) x).1
def execVrsq (m : Bool) (rnd t : BitVec 2) (d a : Spec) (s : State) :=
  s.vfp1 m rnd t d a fun k md x => k.rsqrt md x
def execVexp2 (m : Bool) (rnd t : BitVec 2) (d a : Spec) (s : State) :=
  s.vfp1 m rnd t d a fun k md x => k.exp2 md x

/-- An element with its sign bit cleared or inverted; a NaN canonical. -/
def Fmt.absBits (f : Fmt) (x : Nat) : Nat := if (f.read x).isNan then f.nan else x % f.signBit
def Fmt.negBits (f : Fmt) (x : Nat) : Nat :=
  if (f.read x).isNan then f.nan else if f.signBit ≤ x then x - f.signBit else x + f.signBit

def execVabs (m : Bool) (_rnd t : BitVec 2) (d a : Spec) (s : State) :=
  s.vfpu m (vuseA d a) d fun st => mapElems (fmtOf t.toNat).bytes (fmtOf t.toNat).absBits (st.rv a)
def execVneg (m : Bool) (_rnd t : BitVec 2) (d a : Spec) (s : State) :=
  s.vfpu m (vuseA d a) d fun st => mapElems (fmtOf t.toNat).bytes (fmtOf t.toNat).negBits (st.rv a)
def execVmin (m : Bool) (t : BitVec 2) (d a b : Spec) (s : State) :=
  s.vfpu m (vuseAB d a b) d fun st =>
    zipElems (fmtOf t.toNat).bytes (fun x y => ((fmtOf t.toNat).minmax false x y).1) (st.rv a) (st.rv b)
def execVmax (m : Bool) (t : BitVec 2) (d a b : Spec) (s : State) :=
  s.vfpu m (vuseAB d a b) d fun st =>
    zipElems (fmtOf t.toNat).bytes (fun x y => ((fmtOf t.toNat).minmax true x y).1) (st.rv a) (st.rv b)

/-! ## Compare and select (R150, R151) -/

/-- The width in bytes of a type code (Table 8.1). -/
def typeWidth (t : BitVec 4) : Nat :=
  match t.toNat with
  | 0 => 8 | 1 => 4 | 2 => 2 | 3 => 2 | 4 => 1 | 5 => 1 | 8 => 1 | 9 => 2 | 10 => 4 | 11 => 8 | 12 => 1 | 13 => 2 | 14 => 4 | 15 => 8
  | _ => 1

/-- The condition of vcmp on two elements. -/
def vcmpHolds (cnd : BitVec 2) (t : BitVec 4) (x y : Nat) : Bool :=
  if t.toNat < 8 then
    let a := (fmtOf t.toNat).read x
    let b := (fmtOf t.toNat).read y
    match cnd.toNat with
    | 0 => a.eqv b
    | 1 => !a.isNan && !b.isNan && a.lt b
    | 2 => !a.isNan && !b.isNan && !b.lt a
    | _ => a.isNan || b.isNan
  else
    let a := (intOf t.toNat).read x
    let b := (intOf t.toNat).read y
    match cnd.toNat with
    | 0 => a == b
    | 1 => decide (a < b)
    | 2 => decide (a ≤ b)
    | _ => false

def execVcmp (m : Bool) (cnd : BitVec 2) (t : BitVec 4) (d a b : Spec) (s : State) :=
  s.vfpu m (vuseAB d a b) d fun st =>
    zipElems (typeWidth t) (fun x y => if vcmpHolds cnd t x y then 2 ^ (8 * typeWidth t) - 1 else 0) (st.rv a) (st.rv b)

def execVsel (m : Bool) (t : BitVec 4) (d a b : Spec) (s : State) :=
  s.vfpu m { vuseAB d a b with readsQv := true } d fun st =>
    let w := typeWidth t
    ofElems w ((List.range (128 / w)).map fun i =>
      if V128.elem st.regs.qv w i ≠ 0 then V128.elem (st.rv a) w i else V128.elem (st.rv b) w i)

/-! ## Reductions (R141, R142, R152) -/

/-- One level of the tree: adjacent results paired, the lower index on the left. -/
def pairUp {α : Type} (op : α → α → α) : List α → List α
  | x :: y :: r => op x y :: pairUp op r
  | r => r

/-- The tree over 2^k leaves. -/
def treeOf {α : Type} (op : α → α → α) : Nat → List α → List α
  | 0, xs => xs
  | k + 1, xs => treeOf op k (pairUp op xs)

/-- The working format of R141. -/
def workFmt (t : BitVec 2) : Fmt := if t = 0 then .f64 else .f32

/-- The elements widened exactly to the working format. -/
def widened (t : BitVec 2) (v : V128) : List Nat :=
  let k := fmtOf t.toNat
  (List.range (128 / k.bytes)).map fun i =>
    if k = workFmt t then V128.elem v k.bytes i else ((workFmt t).write .rne (k.elem v i)).1

def useRed (d a : Spec) : Uses := { srcs := [(0, true, a)], dst := some (false, d) }

/-- A reduction to a scalar result (R152). -/
def State.redTo (s : State) (m : Bool) (d a : Spec) (f : Strand → Word) : Host.Outcome State Fault Refusal :=
  s.issue m (useRed d a) fun st => .ok ((s.tally st).put (st.putS d (f st)))

/-- vred with a node operation. -/
def State.vred (s : State) (m : Bool) (t : BitVec 2) (d a : Spec) (op : Fmt → Nat → Nat → Nat) :=
  s.redTo m d a fun st =>
    BitVec.ofNat 64 ((treeOf (op (workFmt t)) 6 (widened t (st.rv a))).headD 0)

def execVredAdd (m : Bool) (t : BitVec 2) (d a : Spec) (s : State) := s.vred m t d a fun f x y => (f.add .rne x y).1
def execVredMin (m : Bool) (t : BitVec 2) (d a : Spec) (s : State) := s.vred m t d a fun f x y => (f.minmax false x y).1
def execVredMax (m : Bool) (t : BitVec 2) (d a : Spec) (s : State) := s.vred m t d a fun f x y => (f.minmax true x y).1

def execVtsum (m : Bool) (d a : Spec) (s : State) :=
  s.redTo m d a fun st =>
    let leaves := (List.range 32).map fun i => (V128.elem (st.rv a) 4 i, 0)
    let r := (treeOf (fun (x y : Nat × Nat) => pairAdd x.1 x.2 y.1 y.2) 5 leaves).headD (0, 0)
    BitVec.ofNat 64 (r.2 * 2 ^ 32 + r.1)

/-! ## Conversion (R153) -/

/-- conv(x) of R153. -/
def convElem (dt st : BitVec 4) (md : RMode) (x : Nat) : Nat :=
  if st.toNat < 8 then
    let v := (fmtOf st.toNat).read x
    if dt.toNat < 8 then ((fmtOf dt.toNat).write md v).1 else ((intOf dt.toNat).fromVal md v).1
  else
    let v := (intOf st.toNat).read x
    if dt.toNat < 8 then ((fmtOf dt.toNat).write md (valOfInt v)).1
    else (intOf dt.toNat).wrap (max (intOf dt.toNat).low (min (intOf dt.toNat).high v))

def execVcvt (m : Bool) (dt st : BitVec 4) (rnd : BitVec 2) (d a : Spec) (s : State) :=
  s.vround false m (vuseA d a) rnd (typeWidth st) (128 / Nat.max (typeWidth st) (typeWidth dt)) (typeWidth dt) d fun x i md =>
    convElem dt st md (V128.elem (x.rv a) (typeWidth st) i)

/-! ## Permutation and moves (R154, R155) -/

def execVperm (m : Bool) (d a b : Spec) (s : State) :=
  s.valu m (vuseAB d a b) d fun st =>
    mapElems 1 (fun k => if 128 ≤ k then 0 else V128.elem (st.rv a) 1 k) (st.rv b)

/-- A register of 32-bit elements, each taken from one of two registers: true the second. -/
def shuffle (f : Nat → Bool × Nat) (a b : V128) : V128 :=
  ofElems 4 ((List.range 32).map fun i => V128.elem (if (f i).1 then b else a) 4 (f i).2)

def execVshufZlo (m : Bool) (d a b : Spec) (s : State) :=
  s.valu m (vuseAB d a b) d fun st => shuffle (fun i => (decide (i % 2 = 1), i / 2)) (st.rv a) (st.rv b)
def execVshufZhi (m : Bool) (d a b : Spec) (s : State) :=
  s.valu m (vuseAB d a b) d fun st => shuffle (fun i => (decide (i % 2 = 1), 16 + i / 2)) (st.rv a) (st.rv b)
def execVshufEven (m : Bool) (d a b : Spec) (s : State) :=
  s.valu m (vuseAB d a b) d fun st => shuffle (fun i => (decide (16 ≤ i), 2 * (i % 16))) (st.rv a) (st.rv b)
def execVshufOdd (m : Bool) (d a b : Spec) (s : State) :=
  s.valu m (vuseAB d a b) d fun st => shuffle (fun i => (decide (16 ≤ i), 2 * (i % 16) + 1)) (st.rv a) (st.rv b)

def execVbcast (m : Bool) (t : BitVec 4) (d a : Spec) (s : State) :=
  s.valu m { srcs := [(0, false, a)], dst := some (true, d) } d fun st =>
    ofElems (typeWidth t) (List.replicate (128 / typeWidth t) (st.rs a).toNat)
def execVmov (m : Bool) (_t : BitVec 4) (d a : Spec) (s : State) := s.valu m (vuseA d a) d fun st => st.rv a

/-- The element that vext writes: sign-extended for .i types, else zero-extended. -/
def extElem (t : BitVec 4) (v : V128) (i : Nat) : Word :=
  let x := V128.elem v (typeWidth t) i
  if 8 ≤ t.toNat then BitVec.ofInt 64 ((intOf t.toNat).read x) else BitVec.ofNat 64 x

def execVext (m : Bool) (t : BitVec 4) (d a : Spec) (idx : BitVec 6) (s : State) :=
  s.alu m (useRed d a) d fun st => extElem t (st.rv a) idx.toNat
def execVextHigh (m : Bool) (t : BitVec 4) (d a : Spec) (idx : BitVec 6) (s : State) :=
  s.alu m (useRed d a) d fun st => extElem t (st.rv a) (64 + idx.toNat)

/-! ## Integer and bitwise operations (R156) -/

/-- The integer type of the three-bit field T - 8. -/
def vity (t : BitVec 3) : IntTy := intOf (8 + t.toNat)

/-- An integer operation on elements read by sign, its result wrapped. -/
def State.vint (s : State) (m : Bool) (t : BitVec 3) (d a b : Spec) (f : Int → Int → Int) :=
  s.valu m (vuseAB d a b) d fun st =>
    zipElems ((vity t).bits / 8) (fun x y => (vity t).wrap (f ((vity t).read x) ((vity t).read y))) (st.rv a) (st.rv b)

def execViadd (m : Bool) (t : BitVec 3) (d a b : Spec) (s : State) := s.vint m t d a b fun x y => x + y
def execVisub (m : Bool) (t : BitVec 3) (d a b : Spec) (s : State) := s.vint m t d a b fun x y => x - y
def execVimul (m : Bool) (t : BitVec 3) (d a b : Spec) (s : State) := s.vint m t d a b fun x y => x * y
def execVand (m : Bool) (d a b : Spec) (s : State) := s.valu m (vuseAB d a b) d fun st => st.rv a &&& st.rv b
def execVor (m : Bool) (d a b : Spec) (s : State) := s.valu m (vuseAB d a b) d fun st => st.rv a ||| st.rv b
def execVxor (m : Bool) (d a b : Spec) (s : State) := s.valu m (vuseAB d a b) d fun st => st.rv a ^^^ st.rv b

/-- vshl and vshr on one element: the count is unsigned. -/
def shlElem (k : IntTy) (x c : Nat) : Nat := if k.bits ≤ c then 0 else x * 2 ^ c % 2 ^ k.bits
def shrElem (k : IntTy) (x c : Nat) : Nat :=
  if k.signed then k.wrap (k.read x / (2 ^ Nat.min c (k.bits - 1) : Nat))
  else if k.bits ≤ c then 0 else x / 2 ^ c

def execVshl (m : Bool) (t : BitVec 3) (d a b : Spec) (s : State) :=
  s.valu m (vuseAB d a b) d fun st => zipElems ((vity t).bits / 8) (shlElem (vity t)) (st.rv a) (st.rv b)
def execVshr (m : Bool) (t : BitVec 3) (d a b : Spec) (s : State) :=
  s.valu m (vuseAB d a b) d fun st => zipElems ((vity t).bits / 8) (shrElem (vity t)) (st.rv a) (st.rv b)

/-! ## The conversion unit (R157 to R164) -/

/-- The specifiers of a group of n registers. -/
def groupOf (g : Spec) (n : Nat) : List Spec := (List.range n).map fun i => BitVec.ofNat 6 (g.toNat + i)

/-- The registers of a group as one number, the first lowest. -/
def Strand.groupVal (st : Strand) (g : Spec) (n : Nat) : Nat :=
  (groupOf g n).foldr (fun r x => (st.rv r).toNat + 2 ^ 1024 * x) 0

/-- A group written, and the copy of its first register in qv (R157). -/
def Strand.putGroup (st : Strand) (g : Spec) (n : Nat) (x : Nat) : Strand :=
  st.modRegs fun r =>
    { (List.range n).foldl (fun (r : Regs) i => r.setV (BitVec.ofNat 6 (g.toNat + i)) (BitVec.ofNat 1024 (x / 2 ^ (1024 * i)))) r with
      qv := BitVec.ofNat 1024 x }

/-- The registers that a plane group of P planes takes. -/
def planeRegs (p : Nat) : Nat := (p + 7) / 8

def useGroups (d : Spec) (nd : Nat) (a : Spec) (na : Nat) (b : Spec) : Uses :=
  { srcs := ((groupOf a na).map fun r => (0, true, r)) ++ [(1, false, b)]
    dst := some (true, d)
    dsts := (groupOf d nd).map fun r => (true, r)
    access := true }

/-- floor(log2 |x|) of a finite nonzero value. -/
def FVal.lg : FVal → Option Int
  | .fin _ m e => if m = 0 then none else some (Nat.log2 m + e)
  | _ => none

/-- The scale exponent s of R159: from the largest finite magnitude. -/
def planeScale (p : Nat) (xs : List FVal) : Int :=
  match xs.filterMap FVal.lg with
  | [] => 0
  | l :: r => min (max (r.foldl max l - ((p : Int) - 2)) (-127)) 127

/-- v(j) of R159 as P bits: an infinity goes to the nearer end. -/
def planeElem (p : Nat) (sc : Int) : FVal → Nat
  | .fin n m e => ((⟨p, true⟩ : IntTy).fromVal .rne (.fin n m (e - sc))).1
  | v => ((⟨p, true⟩ : IntTy).fromVal .rne v).1

/-- Planes from elements of P bits: plane p holds bit p of element j at bit 128·p + j. -/
def planesOf (p : Nat) (vs : List Nat) : Nat :=
  (List.range p).foldr (fun k x => (vs.foldr (fun v y => (if v.testBit k then 1 else 0) + 2 * y) 0) + 2 ^ 128 * x) 0

/-- Element j of a block of P planes (R137). -/
def blockElem (p : Nat) (g : Nat) (j : Nat) : Int :=
  (⟨p, true⟩ : IntTy).read ((List.range p).foldr (fun k x => (if g.testBit (128 * k + j) then 1 else 0) + 2 * x) 0)

/-- The block and its scale byte (R159). -/
def planeBlock (p : Nat) (g : Nat) : Nat × Byte :=
  let xs := (List.range 128).map fun j => Fmt.f32.read (g / 2 ^ (32 * j) % 2 ^ 32)
  if xs.any FVal.isNan then (0, 0xFF)
  else
    let sc := planeScale p xs
    (planesOf p (xs.map (planeElem p sc)), BitVec.ofInt 8 (sc + 127))

def execPlane (m : Bool) (pm1 : BitVec 5) (d a b : Spec) (s : State) :=
  s.issue m (useGroups d (planeRegs (pm1.toNat + 1)) a 4 b) fun st =>
    let r := planeBlock (pm1.toNat + 1) (st.groupVal a 4)
    (s.padWrite s.cur st (st.rs b) [r.2]).act fun _ s =>
      .ok (s.upd fun st => st.putGroup d (planeRegs (pm1.toNat + 1)) r.1)

/-- The 128 binary32 elements of a block with its scale byte (R160). -/
def unplaneBlock (p : Nat) (g : Nat) (e : Byte) : Nat :=
  packElems 4 ((List.range 128).map fun j =>
    if e = 0xFF then Fmt.f32.nan
    else
      let v := blockElem p g j
      (Fmt.f32.round .rne (decide (v < 0)) v.natAbs ((e.toNat : Int) - 127) false).1)

def execUnplane (m : Bool) (pm1 : BitVec 5) (d a b : Spec) (s : State) :=
  s.issue m (useGroups d 4 a (planeRegs (pm1.toNat + 1)) b) fun st =>
    (s.padRead s.cur st (st.rs b) 1).act fun bs s =>
      .ok (s.upd fun x => x.putGroup d 4
        (unplaneBlock (pm1.toNat + 1) (st.groupVal a (planeRegs (pm1.toNat + 1))) (bs.headD 0)))

/-! ## P2 weights (R139, R161, R162) -/

/-- A term of four bits: 8 is the absent one. -/
def p2Term (c : Nat) : Int := if c = 8 then 0 else if 8 ≤ c then -((2 ^ (c % 8) : Nat) : Int) else ((2 ^ c : Nat) : Int)

/-- The weight of a byte. -/
def p2Weight (b : Nat) : Int := p2Term (b / 16 % 16) + p2Term (b % 16)

/-- Two-term codes in ascending order of k1, with k1 ≥ k2 and both terms present. -/
def p2Codes : List Nat :=
  (List.range 8).flatMap fun k => [k, 8 + k].flatMap fun hi =>
    (List.range 16).filterMap fun lo => if hi ≠ 8 ∧ lo ≠ 8 ∧ lo % 8 ≤ k then some (16 * hi + lo) else none

/-- The canonical code of a weight (Table 8.5); none for an integer that is no weight. -/
def p2Canonical (v : Int) : Option Nat :=
  if v = 0 then some 0x88
  else if v = -1 then some 0x90
  else match (List.range 8).find? fun k => v.natAbs = 2 ^ k with
    | some k => some (((if v < 0 then 8 else 0) + k) * 16 + 8)
    | none => p2Codes.find? fun c => p2Weight c = v

/-- The weights W with their canonical codes. -/
def p2Table : List (Int × Nat) :=
  (List.range 513).filterMap fun (i : Nat) => (p2Canonical ((i : Int) - 256)).map fun c => ((i : Int) - 256, c)

/-- The weight nearest to (-1)^n · m · 2^e, and on a tie the one of smaller magnitude, as its code. -/
def p2Nearest (n : Bool) (m : Nat) (e : Int) : Nat :=
  let base := min e 0
  let x := signedAt n m e base
  let dist := fun (v : Int) => (x - v * (2 ^ (0 - base).toNat : Nat)).natAbs
  (p2Table.foldl (fun (q : Int × Nat) p =>
    if decide (dist p.1 < dist q.1) || (dist p.1 = dist q.1 && decide (p.1.natAbs < q.1.natAbs)) then p else q) (0, 0x88)).2

/-- p2enc on one value (R161). -/
def p2Encode : FVal → Nat
  | .nan _ => 0x88
  | .inf n => if n then 0xFF else 0x77
  | .fin n m e =>
    if m = 0 then 0x88
    else if decide (8 ≤ (Nat.log2 m : Int) + e) then (if n then 0xFF else 0x77)
    else p2Nearest n m e

def execP2enc (m : Bool) (t : BitVec 2) (d a : Spec) (s : State) :=
  s.valu m (vuseA d a) d fun st =>
    let k := fmtOf t.toNat
    let n := 128 / k.bytes
    ofElems 1 (((List.range n).map fun i => p2Encode (k.elem (st.rv a) i)) ++ List.replicate (128 - n) 0x88)

def execP2dec (m : Bool) (t : BitVec 2) (d a : Spec) (s : State) :=
  s.valu m (vuseA d a) d fun st =>
    let k := fmtOf t.toNat
    ofElems k.bytes ((List.range (128 / k.bytes)).map fun i =>
      (k.write .rne (valOfInt (p2Weight (V128.elem (st.rv a) 1 i)))).1)

/-! ## bscale and srnd (R163, R164) -/

/-- A value times a power of two. -/
def FVal.scale (v : FVal) (k : Int) : FVal :=
  match v with
  | .fin n m e => .fin n m (e + k)
  | v => v

def execBscale (m : Bool) (t : BitVec 4) (d a b : Spec) (s : State) :=
  s.valu m (vuseAB d a b) d fun st =>
    let k := fmtOf t.toNat
    ofElems k.bytes ((List.range (128 / k.bytes)).map fun i =>
      let e := V128.elem (st.rv b) 1 i
      if e = 0xFF then k.nan else (k.write .rne ((k.elem (st.rv a) i).scale ((e : Int) - 127))).1)

def execSrnd (m : Bool) (t : BitVec 4) (d a : Spec) (s : State) :=
  let src : Fmt := if t = 1 then .f64 else .f32
  let k := fmtOf t.toNat
  s.vround false m (vuseA d a) 3 src.bytes (128 / src.bytes) src.bytes d fun st i md =>
    (src.write .rne (k.read (k.write md (src.elem (st.rv a) i)).1)).1

end Sys2Proof.Machine
end

