-- ==== Sys2Proof/Machine/Matrix.lean ====
section
/-!
DEFINITION. The matrix engine (spec/09 R165 to R187): the claim, the pointer records, starting an operation alone or in a gang,
what a block adds, and the instructions on the accumulator store.
-/

namespace Sys2Proof.Machine

/-! ## The accumulator store (R166) -/

def Matrix.pair (m : Matrix) (row col : Nat) : BitVec 32 × BitVec 32 := (assocGet m.acc (32 * row + col)).getD (0, 0)

/-- A pair written; a pair (+0, +0) is not listed. -/
def Matrix.setPair (m : Matrix) (row col : Nat) (p : BitVec 32 × BitVec 32) : Matrix :=
  { m with acc := if p = (0, 0) then m.acc.filter fun q => q.1 != 32 * row + col else assocSet m.acc (32 * row + col) p }

/-- One of the three reads of a row (R187): 0 H, 1 L, 2 the rounded sum. -/
def Matrix.readRow (m : Matrix) (form row : Nat) : V128 :=
  ofElems 4 ((List.range 32).map fun n =>
    let p := m.pair row n
    if form = 0 then p.1.toNat else if form = 1 then p.2.toNat else f32add p.1.toNat p.2.toNat)

/-! ## The claim (R167) -/

/-- The engine's state as a new owner finds it. -/
def Matrix.claimed (m : Matrix) (uid : Nat) : Matrix :=
  if m.owner.isSome then m else { Matrix.initial with owner := some uid }

/-- The frame of a matrix instruction: the store must not be another strand's; the effect works on the state in which the strand
owns it. -/
def State.matrix (s : State) (m : Bool) (u : Uses) (body : Strand → State → Act) : Host.Outcome State Fault Refusal :=
  s.issue m { u with aborts := true } fun st =>
    let mt := (s.tile s.cur.tile).mat
    if mt.owner.isSome && mt.owner != some st.uid then .fault 4 (codeWord 0x30 0)
    else body st (s.modTile s.cur.tile fun t => { t with mat := t.mat.claimed st.uid })

/-- The executing tile's engine. -/
def State.engine (s : State) : Matrix := (s.tile s.cur.tile).mat
def State.modEngine (s : State) (f : Matrix → Matrix) : State := s.modTile s.cur.tile fun t => { t with mat := f t.mat }

/-! ## Records (R168, R184) -/

def useAB0 (a b : Spec) : Uses := { srcs := [(0, false, a), (1, false, b)] }

def State.setRec (s : State) (m : Bool) (k : Nat) (a b : Spec) : Host.Outcome State Fault Refusal :=
  s.matrix m (useAB0 a b) fun st s =>
    .ok (s.modEngine fun e => { e with recs := e.recs.setIfInBounds k ⟨st.rs a, st.rs b⟩ })

def execMptrOpa (m : Bool) (a b : Spec) (s : State) := s.setRec m 0 a b
def execMptrOpb (m : Bool) (a b : Spec) (s : State) := s.setRec m 1 a b
def execMsclOpa (m : Bool) (a b : Spec) (s : State) := s.setRec m 2 a b
def execMsclOpb (m : Bool) (a b : Spec) (s : State) := s.setRec m 3 a b
def execMspar (m : Bool) (a b : Spec) (s : State) := s.setRec m 4 a b

/-! ## Starting an operation (R169 to R173) -/

/-- Dense K-blocks, stored blocks per row, the stride of a block (R137, R139, R169). -/
def dNb (d : Word) : Nat := (dK d + 127) / 128
def dStored (d : Word) : Nat := if dSparse d then (dK d + 255) / 256 else dNb d
def dStride (d : Word) : Nat := if dFmt d = 1 then 128 else 64 * ((dPm1 d + 4) / 4)

/-- Bytes of an operand, of a scale tile, of the metadata tile (R170). -/
def operandLen (d : Word) : Nat := dRows d * dStored d * dStride d
def scaleStride (nb : Nat) : Nat := 64 * ((nb + 63) / 64)
def scaleLen (rows nb : Nat) : Nat := if rows = 0 then 0 else (rows - 1) * scaleStride nb + nb

/-- A matrix-operand fault of Table 9.3 that names a record. -/
def matFault (code rec : Nat) : Nat × Word := (11, codeWord code (rec * 2 ^ 48))

def dReserved (d : Word) : Bool := d.toNat / 2 ^ 32 % 2 ^ 23 != 0 || d.toNat / 2 ^ 8 % 2 ^ 8 != 0

/-- The records of a snapshot that an operation uses: number, record, bytes. -/
def usedRecs (r : Vector Rec 5) : List (Nat × Rec × Nat) :=
  let g := fun k => r.getD k Rec.initial
  let a := (g 0).desc
  let b := (g 1).desc
  [(0, g 0, operandLen a), (1, g 1, operandLen b)]
    ++ (if (g 2).desc.getLsbD 0 then [(2, g 2, scaleLen (dRows a) (dNb a))] else [])
    ++ (if (g 3).desc.getLsbD 0 then [(3, g 3, scaleLen (dRows b) (dNb b))] else [])
    ++ (if dSparse b then [(4, g 4, dRows b * dNb b * 16)] else [])

/-- The first of the checks 0x01 to 0x07 that fails (R171 step 2): its code and record. -/
def matCheck (r : Vector Rec 5) (gang : Bool) : Option (Nat × Nat) :=
  let a := (r.getD 0 Rec.initial).desc
  let b := (r.getD 1 Rec.initial).desc
  let used := usedRecs r
  if 1 ≤ dFmt a then some (1, 0)
  else if 2 ≤ dFmt b then some (1, 1)
  else if 23 < dPm1 a then some (2, 0)
  else if 23 < dPm1 b || (dFmt b = 1 && dPm1 b != 0) then some (2, 1)
  else if dSparse a then some (3, 0)
  else if dK a = 0 then some (4, 0)
  else if dK b != dK a then some (4, 1)
  else if 192 < dRows a || (!gang && dRows a = 0) then some (5, 0)
  else if dRows b = 0 || 32 < dRows b then some (5, 1)
  else match used.find? fun p => p.2.1.base.toNat % 64 != 0 with
    | some p => some (6, p.1)
    | none =>
      (used.find? fun p =>
        if p.1 < 2 then dReserved p.2.1.desc else if p.1 < 4 then p.2.1.desc.toNat / 2 != 0 else p.2.1.desc != 0).map fun p => (7, p.1)

/-- The resolution of a BASE (R170, R171 step 3): the first byte in the scratchpad, or the fault. An empty extent is not checked. -/
def State.matResolve (s : State) (x : SlotId) (st : Strand) (base : Word) (len : Nat) : Except (Nat × Word) Nat :=
  if len = 0 then .ok 0
  else match s.padAddr x st base len with
    | .ok a => .ok a
    | .error (c, d) =>
      if c = 4 then .error (4, codeWord (d.toNat / 2 ^ 56) 0)
      else if 2 ^ 23 ≤ base.toNat && base.toNat < 2 ^ 24 then
        match s.ringCheckAt x st (base.toNat / 2 ^ 20 % 8) with
        | .ok r => .error (6, BitVec.ofNat 64 (r.stage x.member st.uid + Nat.max (base.toNat % 2 ^ 20) (2 ^ r.slog2)))
        | .error _ => .error (c, d)
      else .error (c, d)

/-- The snapshot of the records with resolved bases, or the fault (R170, R171). -/
def State.matSnapshot (s : State) (x : SlotId) (st : Strand) (r : Vector Rec 5) (gang : Bool) : Except (Nat × Word) MatOp :=
  match matCheck r gang with
  | some p => .error (matFault p.1 p.2)
  | none =>
    (usedRecs r).foldl (fun (o : Except (Nat × Word) MatOp) p =>
      match o with
      | .error e => .error e
      | .ok op =>
        match s.matResolve x st p.2.1.base p.2.2 with
        | .error e => .error e
        | .ok a => .ok { op with recs := op.recs.setIfInBounds p.1 ⟨BitVec.ofNat 64 a, p.2.1.desc⟩ }) (.ok ⟨r, []⟩)

/-- Whether the engine already holds a running and a pending operation (R180). -/
def Matrix.isFull (m : Matrix) : Bool := decide (2 ≤ m.opsLeft)

/-- One that would be a third operation is held (R180). The spec does not say whether its snapshot stands meanwhile: it is taken at the try
that starts it (DESIGN CHOICE, log 51). -/
def execMmul (m : Bool) (s : State) :=
  s.matrix m {} fun st s =>
    match s.matSnapshot s.cur st s.engine.recs false with
    | .error e => .fault e.1 e.2
    | .ok op => if s.engine.isFull then .hold s .again else .ok (s.modEngine fun e => e.enqueue op)

/-- The physical barrier behind a declared barrier of the strand's wave, of the kind asked for (R237, R246). -/
def State.barOf (s : State) (st : Strand) (row : Bool) (k : Nat) : Option Nat :=
  match st.wave.bind fun w => s.waves.find? fun v => v.num = w with
  | some wv => if wv.row = row && decide (k < st.nbars) then wv.bars[k]? else none
  | none => none

/-- A strand's arrival at a physical row barrier, by bar or by mgang (R240, R173). -/
def State.arriveRow (s : State) (m : Bool) (phys : Nat) (gang : Bool) : State :=
  let x := s.cur
  let bit := bitOf (s.tileCol x.tile)
  let was := s.strand? x
  let s := s.modStrand x fun st => { st with run := .held (.bar true phys gang), mark := m }
  ((s.modRow (s.tileRow x.tile) fun r =>
    { r with bars := vecMod r.bars phys fun b => { b with arr := b.arr ||| bit, gang := if gang then b.gang ||| bit else b.gang } }).completeRBar
      (s.tileRow x.tile) phys).modStrand x fun st => st.lastToArrive (was.getD st)

/-- Whether accesses that the strand made before its arrival are still to be performed within a scope (R241). A member has arrived only once they
are, so its bit of ARR is set then (DESIGN CHOICE, log 70). -/
def State.barWaits (s : State) (scope : Nat) : Bool := s.fenceWaits s.cur (fun _ => true) false scope

/-- Whether a strand is a member of a row-shaped wave of A-core strands (R171). -/
def State.gangable (s : State) (st : Strand) : Bool :=
  match st.wave.bind fun w => s.waves.find? fun v => v.num = w with
  | some wv => wv.row && wv.members.all fun y => decide (y.core = .a)
  | none => false

/-- Held for want of room, it takes its snapshot as execMmul does (log 51). -/
def execMgang (m : Bool) (k : BitVec 3) (s : State) :=
  s.matrix m {} fun st s =>
    if st.nbars ≤ k.toNat then .fault 4 (codeWord 0x31 0)
    else if !s.gangable st then .fault 4 (codeWord 0x32 0)
    else match s.barOf st true k.toNat with
      | none => .fault 4 (codeWord 0x31 0)
      | some phys =>
        match s.matSnapshot s.cur st s.engine.recs true with
        | .error e => .fault e.1 e.2
        | .ok op =>
          if s.engine.isFull || s.barWaits 1 then .hold s .again
          else .placed ((s.modEngine fun e => { e with snap := some op }).arriveRow m phys true)

/-! ## The instructions on the store (R181, R186, R187) -/

/-- matrix-operand 0x0A. -/
def rowFault (a : Word) : Act := .fault 11 (codeWord 10 (a.toNat % 2 ^ 48))

def Matrix.zeroRows (m : Matrix) (f c : Nat) : Matrix :=
  let out := fun (k : Nat) => !(decide (32 * f ≤ k) && decide (k < 32 * (f + c)))
  { m with acc := m.acc.filter fun p => out p.1, badPairs := m.badPairs.filter fun p => out p.1 }

def Matrix.writeRow (m : Matrix) (row : Nat) (low : Bool) (v : V128) : Matrix :=
  (List.range 32).foldl (fun (m : Matrix) n =>
    let p := m.pair row n
    let x := BitVec.ofNat 32 (V128.elem v 4 n)
    m.setPair row n (if low then (p.1, x) else (x, p.2)))
    { m with badPairs := m.badPairs.filter fun p => !(p.1 / 32 = row && p.2 = low) }

/-- Whether a read of a row finds a word whose parity is wrong (R166). -/
def Matrix.badRow (m : Matrix) (form row : Nat) : Bool :=
  m.badPairs.any fun p => p.1 / 32 = row && (form = 2 || p.2 = decide (form = 1))

def execMzero (m : Bool) (a : Spec) (s : State) :=
  s.matrix m { srcs := [(0, false, a)] } fun st s =>
    let v := st.rs a
    let f := v.toNat % 256
    let c := v.toNat / 256 % 256
    if s.engine.opsLeft != 0 then .hold s .again
    else if v.toNat / 2 ^ 16 != 0 || 192 < f + c then rowFault v
    else .ok (s.modEngine fun e => e.zeroRows f c)

def execMwr (m : Bool) (a b : Spec) (s : State) :=
  s.matrix m { srcs := [(0, false, a), (1, true, b)] } fun st s =>
    let v := st.rs a
    let r := v.toNat % 256
    if s.engine.opsLeft != 0 then .hold s .again
    else if v.toNat / 2 ^ 9 != 0 || 191 < r then rowFault v
    else .ok (s.modEngine fun e => e.writeRow r (v.getLsbD 8) (st.rv b))

/-- A vector result ready to return to its register (R108). -/
def State.finishVec (s : State) (id : Nat) (v : V128) : State :=
  match s.flight.find? fun (a : Access) => a.id = id with
  | some a => s.performed a v
  | none => s

/-- A long result that is ready as its instruction issues: it marks its register until it returns; z and zv take none (R18, R108). -/
def State.sendValue (s : State) (x : SlotId) (st : Strand) (d : Dest) (acq : Bool) (v : V128) : State :=
  if d.spec = 41 then s
  else
    let s := s.modStrand x fun st => { st with longs := st.longs ++ [⟨s.nextId, d, acq⟩] }
    let a : Access := ⟨s.nextId, x, st.lid, st.sid, st.uid, .result, ⟨thisDev, 0⟩, some d, 0, false, acq, [], none, st.inTx, true, v, none⟩
    { s with flight := s.flight ++ [a], nextId := s.nextId + 1 }

/-- A row read: at once when no operation stands before it, else when the last of them ends (R181). -/
def State.mrd (s : State) (m : Bool) (form : Nat) (d a : Spec) : Host.Outcome State Fault Refusal :=
  let was := s
  s.matrix m { srcs := [(0, false, a)], dst := some (true, d), long := true } fun st s =>
    let v := st.rs a
    if 191 < v.toNat then rowFault v
    else if s.engine.opsLeft = 0 && s.engine.badRow form v.toNat then .check was 4 v
    else if s.engine.opsLeft = 0 then .ok (s.sendValue s.cur st ⟨true, d⟩ false (s.engine.readRow form v.toNat))
    else
      let id := s.nextId
      let s := s.send s.cur st .result ⟨thisDev, 0⟩ (some ⟨true, d⟩) 0 false false none
      .ok (s.modEngine fun e => { e with reads := e.reads ++ [⟨id, v.toNat, form, e.opsLeft⟩] })

def execMrdhi (m : Bool) (d a : Spec) (s : State) := s.mrd m 0 d a
def execMrdlo (m : Bool) (d a : Spec) (s : State) := s.mrd m 1 d a
def execMrds (m : Bool) (d a : Spec) (s : State) := s.mrd m 2 d a

/-! ## What a block adds (R169, R175) -/

/-- The elements of a stored block of an operand in a tile's scratchpad (R137, R139). -/
def State.storedBlock (s : State) (t : Nat) (r : Rec) (row b : Nat) : List Int :=
  let d := r.desc
  let nb := dStored d
  let off := if dLayout d = 1 then b * dRows d + row else row * nb + b
  let a := s.padBase t + r.base.toNat + off * dStride d
  if dFmt d = 1 then (s.viewBytes pathMatrix a 128).map fun x => p2Weight x.toNat
  else
    let p := dPm1 d + 1
    let g := s.viewNat pathMatrix a (16 * p)
    (List.range 128).map fun j => blockElem p g j

/-- Nibble of group g of dense block b of stored row n (R169). -/
def State.nibble (s : State) (t : Nat) (op : MatOp) (n b g : Nat) : Nat :=
  let x := s.viewNat pathMatrix (s.padBase t + (op.recs.getD 4 Rec.initial).base.toNat + (n * dNb (op.recs.getD 1 Rec.initial).desc + b) * 16 + g / 2) 1
  if g % 2 = 0 then x % 16 else x / 16

/-- bval(n, k) over dense block b (R169). -/
def State.bBlock (s : State) (t : Nat) (op : MatOp) (n b : Nat) : List Int :=
  let r := op.recs.getD 1 Rec.initial
  if dSparse r.desc then
    let e := s.storedBlock t r n (b / 2)
    (List.range 128).map fun k =>
      let g := k / 4
      let x := s.nibble t op n b g
      if k % 4 = x % 4 then e.getD (64 * (b % 2) + 2 * g) 0
      else if k % 4 = x / 4 then e.getD (64 * (b % 2) + 2 * g + 1) 0
      else 0
  else s.storedBlock t r n b

/-- The scale byte of a row and a block (R138, R175): 127 when the operand has no scale tile. -/
def State.scaleByte (s : State) (t : Nat) (r : Rec) (nb row b : Nat) : Nat :=
  if r.desc.getLsbD 0 then s.viewNat pathMatrix (s.padBase t + r.base.toNat + row * scaleStride nb + b) 1 else 127

/-- The array rows of an operation for block b: each row's values and its scale byte, in ascending column order (R173). -/
def State.aRows (s : State) (ops : List (Nat × MatOp)) (b : Nat) : List (List Int × Nat) :=
  ops.flatMap fun p =>
    let r := p.2.recs.getD 0 Rec.initial
    (List.range (dRows r.desc)).map fun m =>
      (s.storedBlock p.1 r m b, s.scaleByte p.1 (p.2.recs.getD 2 Rec.initial) (dNb r.desc) m b)

def dotProduct (a b : List Int) : Int := (List.zipWith (fun x y => x * y) a b).foldl (· + ·) 0

/-- The new pair of an element (R175, R140). -/
def pairAfter (p : BitVec 32 × BitVec 32) (i : Int) (sa sb : Nat) : BitVec 32 × BitVec 32 :=
  if sa = 0xFF || sb = 0xFF then (BitVec.ofNat 32 Fmt.f32.nan, 0)
  else
    let r := accadd p.1.toNat p.2.toNat i (((sa : Int) - 127) + ((sb : Int) - 127))
    (BitVec.ofNat 32 r.1, BitVec.ofNat 32 r.2)

/-- A member's store once block b is applied. -/
def State.applyBlock (s : State) (rows : List (List Int × Nat)) (t : Nat) (op : MatOp) (b : Nat) : State :=
  let d := (op.recs.getD 1 Rec.initial).desc
  let cols := (List.range (dRows d)).map fun n =>
    (s.bBlock t op n b, s.scaleByte t (op.recs.getD 3 Rec.initial) (dNb d) n b)
  let after := fun (m : Matrix) => (rows.zipIdx).foldl (fun (m : Matrix) r =>
    (cols.zipIdx).foldl (fun (m : Matrix) c =>
      m.setPair r.2 c.2 (pairAfter (m.pair r.2 c.2) (dotProduct r.1.1 c.1.1) r.1.2 c.1.2)) m) m
  s.modTile t fun x => { x with mat := after x.mat }

/-- The illegal nibble of a block that a fault names (R177): lowest column, then row, then group. -/
def State.badNibble (s : State) (ops : List (Nat × MatOp)) (b : Nat) : Option (Nat × Nat × Nat) :=
  ops.findSome? fun p =>
    let d := (p.2.recs.getD 1 Rec.initial).desc
    if dSparse d then
      (List.range (dRows d)).findSome? fun n =>
        (List.range 32).findSome? fun g =>
          let x := s.nibble p.1 p.2 n b g
          if x % 4 < x / 4 then none else some (s.tileCol p.1, n, g)
    else none

/-- c of R179: issue cycles of a block for 16 rows. -/
def blockCycles (op : MatOp) : Nat :=
  let a := (op.recs.getD 0 Rec.initial).desc
  let b := (op.recs.getD 1 Rec.initial).desc
  let n := (dPm1 a + 1) * (if dFmt b = 1 then 2 else dPm1 b + 1)
  if dSparse b then (n + 1) / 2 else n

/-! ## The engine's steps -/

/-- The slot of a tile's matrix owner, while it is resident. -/
def State.matOwner (s : State) (t : Nat) : Option SlotId :=
  (s.tile t).mat.owner.bind fun u => ((s.tile t).strands.find? fun p => p.2.uid = u).map fun p => slotOf t p.1

/-- The machine-check log of a tile's engine: class, unit, place; the syndrome is free (log 8). -/
def State.logMatrix (s : State) (t : Nat) (cls : BitVec 2) (src : BitVec 8) (addr : Word) : State :=
  let (d, s) := s.free
  s.modBank (.tile t) fun b => b.log cls src (BitVec.ofNat 5 (((s.matOwner t).map (·.member)).getD 0)) addr d

/-- A waiting read takes its row (R181); a word of wrong parity is logged with its row, and the strand gets the error in place of the result
(R166). -/
def State.takeRow (s : State) (t : Nat) (m : Matrix) (r : MatRead) : State :=
  if m.badRow r.form r.row then
    match s.flight.find? fun (a : Access) => a.id = r.id with
    | none => s
    | some a =>
      let s := s.logMatrix t 2 4 (BitVec.ofNat 64 r.row)
      let (d, s) := s.free
      (s.dropLong r.id a.who a.uid).deliver a.who a.uid a.sid a.lid 15 d
  else s.finishVec r.id (m.readRow r.form r.row)

/-- The operation of a tile ends (R175, R181): the reads that stood behind it alone take their rows. -/
def State.endOp (s : State) (t : Nat) : State :=
  let s := s.modTile t fun x => { x with mat := { x.mat with
    running := none
    mprog := 0
    reads := x.mat.reads.map fun r => { r with after := r.after - 1 } } }
  let m := (s.tile t).mat
  let s := (m.reads.filter (·.after = 0)).foldl (fun s r => s.takeRow t m r) s
  s.modTile t fun x => { x with mat := { x.mat with reads := x.mat.reads.filter (·.after != 0) } }

/-- An asynchronous delivery to the owner of a tile's engine, which releases it if it is parked or held (R177). -/
def State.deliverOwner (s : State) (t : Nat) (code : Nat) (detail : Word) : State :=
  match s.matOwner t with
  | none => s
  | some x => s.modStrand x fun st =>
      { st with
        asyncs := st.asyncs ++ [(code, detail)]
        run := match st.run with
          | .parked => .ready
          | .held (.fault c d) => .held (.fault c d)
          | .held _ => .ready
          | r => r }

/-- The tiles on which an operation runs, in ascending column order, with each one's own snapshot. -/
def State.opMembers (s : State) (t : Nat) (op : MatOp) : List (Nat × MatOp) :=
  if op.gang.isEmpty then [(t, op)]
  else op.gang.filterMap fun u => ((s.tile u).mat.running).map fun o => (u, o)

/-- Whether an operation can apply its next block: every member runs it, and every owner is in the rotation (R173, R183). For a checkpoint,
operations go on to their end though every strand has left the rotation (R358). -/
def State.opCanRun (s : State) (t : Nat) (op : MatOp) : Bool :=
  let ts := if op.gang.isEmpty then [t] else op.gang
  ts.all fun u =>
    (match (s.tile u).mat.running with
      | some o => o.gang = op.gang && (s.tile u).mat.mprog = (s.tile t).mat.mprog
      | none => false)
    && (match (s.matOwner u).bind s.strand? with
      | some st => s.ctl.ckpt.isSome || (match st.run with | .preempted _ => false | _ => true)
      | none => false)

/-- MATRIX_OP_START: the pending operation starts when none runs (R180, R175). -/
def execMatrixOpStart (tile : Nat) (s : State) : Host.Outcome State Fault Refusal :=
  .next (s.modTile tile fun t =>
    match t.mat.running, t.mat.pending with
    | none, some op => { t with mat := { t.mat with running := some op, pending := none, mprog := 0 } }
    | _, _ => t)

/-- The bytes that a member reads for a block (R182): its rows of operand A with their scales, its columns of operand B with theirs and their
metadata. -/
def State.blockReads (s : State) (t : Nat) (op : MatOp) (b : Nat) : List (Nat × Nat) :=
  let rec_ := fun k => op.recs.getD k Rec.initial
  let at_ := fun k off => s.padBase t + (rec_ k).base.toNat + off
  let data := fun k bb =>
    let d := (rec_ k).desc
    (List.range (dRows d)).map fun row =>
      let off := if dLayout d = 1 then bb * dRows d + row else row * dStored d + bb
      (at_ k (off * dStride d), if dFmt d = 1 then 128 else 16 * (dPm1 d + 1))
  let scales := fun k of =>
    let d := (rec_ of).desc
    if (rec_ k).desc.getLsbD 0 then (List.range (dRows d)).map fun row => (at_ k (row * scaleStride (dNb d) + b), 1) else []
  let d := (rec_ 1).desc
  let sparse := dSparse d
  data 0 b ++ data 1 (if sparse then b / 2 else b) ++ scales 2 0 ++ scales 3 1
    ++ (if sparse then (List.range (dRows d)).map fun n => (at_ 4 ((n * dNb d + b) * 16), 16) else [])

/-- The word of the scratchpad with an uncorrectable error that a block's reads of a member find first (R178): its place. -/
def State.blockBad (s : State) (t : Nat) (op : MatOp) (b : Nat) : Option Word :=
  ((s.blockReads t op b).findSome? fun r => s.badIn r.1 r.2).map fun w => BitVec.ofNat 64 (s.lineAddr false ⟨thisDev, 8 * w⟩)

/-- A row of a member's store that a block adds to and that holds a word of wrong parity (R166). -/
def State.storeBad (s : State) (t : Nat) (op : MatOp) (rows : Nat) : Option Word :=
  let n := dRows (op.recs.getD 1 Rec.initial).desc
  ((s.tile t).mat.badPairs.find? fun p => p.1 / 32 < rows && p.1 % 32 < n).map fun p => BitVec.ofNat 64 (p.1 / 32)

/-- What a block's reads do to the words that they find: reduction words folded (R211), wrong bits corrected (R91). -/
def State.readBlocks (s : State) (ms : List (Nat × MatOp)) (b : Nat) : State :=
  ms.foldl (fun s p =>
    (s.blockReads p.1 p.2 b).foldl (fun s r =>
      (s.foldFor ⟨thisDev, r.1⟩ r.2).fixWords r.1 r.2 (BitVec.ofNat 5 (((s.matOwner p.1).map (·.member)).getD 0))) s) s

/-- An operation ends by an error (R178): the store holds the blocks before, and every member takes machine-check-contained. A parity error of
the store itself ends it in the same way (R166; DEDUCED, log 52). -/
def State.failOp (s : State) (ms : List (Nat × MatOp)) (t : Nat) (src : BitVec 8) (addr : Word) : State :=
  ms.foldl (fun s p =>
    let (d, s) := s.free
    (s.deliverOwner p.1 15 d).endOp p.1) (s.logMatrix t 2 src addr)

/-- MATRIX_BLOCK_APPLY: the next dense block on every member (R175, R177, R178): its reads, its validation, then its passes. `err` is a residue
mismatch of the adder trees, in a pass: corrected when the repeat matches. What the operation reads of bytes that are written without a fencex, or
while it runs, is not predictable (R182): each 16-byte unit as it is, or as a write that the matrix class may still miss left it (log 18). -/
def execMatrixBlockApply (tile : Nat) (err : ErrKind) (s : State) : Host.Outcome State Fault Refusal :=
  .next (match (s.tile tile).mat.running with
    | none => s
    | some op =>
      if s.opCanRun tile op then
        let ms := s.opMembers tile op
        let b := (s.tile tile).mat.mprog
        let height := (ms.map fun p => dRows (p.2.recs.getD 0 Rec.initial).desc).foldl (· + ·) 0
        let s := s.readBlocks ms b
        match ms.findSome? (fun p => (s.blockBad p.1 p.2 b).map fun w => (p.1, w)) with
        | some e => s.failOp ms e.1 5 e.2
        | none =>
          match s.badNibble ms b with
          | some (c, n, g) =>
            ms.foldl (fun s p =>
              (s.deliverOwner p.1 11 (codeWord 9 (n * 2 ^ 48 + b * 2 ^ 32 + c * 2 ^ 8 + g))).endOp p.1) s
          | none =>
            match ms.findSome? (fun p => (s.storeBad p.1 p.2 height).map fun w => (p.1, w)) with
            | some e => s.failOp ms e.1 4 e.2
            | none =>
              let (a, s) := if err = .ok then (0, s) else s.free
              if err = .uncorrectable then s.failOp ms tile 3 a
              else
                let s := if err = .corrected then s.logMatrix tile 1 3 a else s
                let rows := s.aRows ms b
                let c := (ms.map fun p => blockCycles p.2).foldl Nat.max 0
                ms.foldl (fun s p =>
                  let s := s.applyBlock rows p.1 p.2 b
                  let lid := (((s.matOwner p.1).bind s.strand?).map (·.lid)).getD 0
                  let s := s.countWork p.1 lid ((rows.length + 15) / 16 * c) 0
                  if b + 1 < dNb (p.2.recs.getD 0 Rec.initial).desc then
                    s.modTile p.1 fun t => { t with mat := { t.mat with mprog := b + 1 } }
                  else s.endOp p.1) s
      else s)

end Sys2Proof.Machine
end

