-- ==== Sys2Proof/Machine/Cells.lean ====
section
/-!
DEFINITION. Cell instructions and the steps of the sluices (spec/13 R255 to R280).
-/

namespace Sys2Proof.Machine

/-! ## Operands (R255) -/

def cellOperand (a : Word) : Nat := a.toNat % 2 ^ 24
def sheetOperand (a : Word) : Nat := a.toNat / 2 ^ 32 % 2 ^ 12

/-- The sheet that a strand's launch declares: number, first cell, number of cells. -/
def State.declared (s : State) (st : Strand) : Option (Nat × Nat × Nat) :=
  if st.sup then none else (s.launches.find? fun l => l.lid = st.lid).bind fun l => l.image.header.sheet

/-- A fault of Table 13.6 at a cell. -/
def cellFault (code c : Nat) : Act := .fault 12 (codeWord code c)

/-- The number of the cell that an instruction names; else resource fault 0x70 (R255, R274). -/
def State.cellNumber (s : State) (st : Strand) (a : Word) : Got Nat :=
  let c := cellOperand a
  match s.declared st with
  | none => .stop (.fault 4 (codeWord 0x70 c))
  | some (_, f, n) => if c < f || f + n ≤ c then .stop (.fault 4 (codeWord 0x70 c)) else .got c s

/-- The cell of a number; else cell-state 0x01, the first of Table 13.6. -/
def State.theCell (s : State) (c : Nat) : Got Cell :=
  match s.cell? c with
  | none => .stop (cellFault 1 c)
  | some x => .got x s

/-- The cell that an instruction without an address names. -/
def State.namedCell (s : State) (st : Strand) (a : Word) : Got Cell := (s.cellNumber st a).bind fun c s => s.theCell c

/-- The number of the sheet that an instruction names; else resource fault 0x70. -/
def State.sheetNumber (s : State) (st : Strand) (a : Word) : Got Nat :=
  let n := sheetOperand a
  match s.declared st with
  | none => .stop (.fault 4 (codeWord 0x70 (n * 2 ^ 32)))
  | some (k, _, _) => if n ≠ k then .stop (.fault 4 (codeWord 0x70 (n * 2 ^ 32))) else .got n s

/-- The sheet of a number; one that has been destroyed has no cells, so it answers cell-state 0x01. -/
def State.theSheet (s : State) (n : Nat) : Got Sheet :=
  match s.sheet? n with
  | none => .stop (cellFault 1 0)
  | some x => .got x s

def State.namedSheet (s : State) (st : Strand) (a : Word) : Got Sheet := (s.sheetNumber st a).bind fun n s => s.theSheet n

/-! ## Records named by address (R204) -/

/-- n bytes of a record, inside one aligned word, as a strand-path load of the issuing strand: the core's stores on their way are seen (R190),
and what else the strand has on its way to those bytes is waited for (R191), as are the core's atomics and stps there, which the home performs
before it (R189). Those of another device are free (log 8). -/
def State.recordPart (s : State) (x : SlotId) (st : Strand) (ea : Word) (n : Nat) : Got Nat :=
  match s.translate x.tile st.regs.ptroot st.sup ea .read with
  | .miss => .stop (.hold s (.walk ea.toNat .read))
  | .fault c d => .stop (.fault c d)
  | .at_ p _ =>
    if s.flight.any fun e =>
        !e.done && !e.op.isResult && !e.op.isStore && meets e.loc e.op.len p n
          && ((e.who = x && e.uid = st.uid) || (e.op.writes && sameCore e.who x && !s.waitsAtHome e))
    then .stop (.hold s .again)
    else
      let (base, s) : List Byte × State :=
        if p.dev != thisDev then (natToBytes n s.free.1.toNat, s.free.2)
        else
          let s := (s.foldFor p n).noteSeen st.uid p.addr n
          (s.peekAs pathStrand p n, s)
      .got (bytesToNat (base.mapIdx fun i b => (forwarded s.flight x ⟨p.dev, p.addr + i⟩).getD b)) s

/-- k parts of n bytes each, from an address up. -/
def State.recordParts (s : State) (x : SlotId) (st : Strand) (ea : Word) (n : Nat) : Nat → Got (List Nat)
  | 0 => .got [] s
  | k + 1 =>
    (s.recordParts x st ea n k).bind fun vs s =>
      (s.recordPart x st (ea + BitVec.ofNat 64 (n * k)) n).bind fun v s => .got (vs ++ [v]) s

/-- Whether accesses of the strand are still to be performed before a release of the strand class (R205, R277). -/
def State.releaseWaits (s : State) : Bool := s.fenceWaits s.cur (fun _ => true) true 4

/-- The release from the strand class to the cell class (R205): the sluice misses no store of a strand any more. -/
def State.releaseCells (s : State) (st : Strand) : State := s.orderPaths s.cur.tile st.uid 1 16 4

/-- Some classes miss no write any more to some bytes. -/
def State.dropLags (s : State) (within : Nat → Bool) (who : Nat → Bool) : State :=
  { s with lags := s.lags.filterMap fun k =>
      if who k.reader then
        let old := k.old.filter fun p => !within p.1
        if old.isEmpty then none else some { k with old := old }
      else some k }

/-- Whether the publication of a cell's shadow must wait for a walker (R57). -/
def State.shadowWaits (s : State) (n : Nat) : Bool :=
  match s.cell? n with
  | none => false
  | some c => s.viaWaits (s.spaceVia c.asid) (c.buf (!c.cur)).toNat c.bytes

/-- The bytes of a shadow as they become a version (R205): a write of another path that no fencex has handed to the cell class is left out, and
every class that is given the version, or reads it later, sees every byte of it (log 18). The sluice's walks fill the buffers that it uses (R55). -/
def State.fixVersion (s : State) (n : Nat) : State :=
  match s.cell? n with
  | none => s
  | some c =>
    let s := s.vaFill (s.spaceVia c.asid) (c.buf (!c.cur)).toNat c.bytes .read
    if s.lags.isEmpty then s
    else
      let within := inRanges (s.bufPieces c (!c.cur))
      let missed := (s.lags.filter fun k => k.reader = pathCell).flatMap fun k => k.old.filter fun p => within p.1
      let s := missed.reverse.foldl (fun (s : State) p => s.store none p.1 [p.2] pathCell) s
      s.dropLags within fun _ => true

/-- Whether an instruction at which the strand is held waits for the sluice still. -/
def Strand.atSluice (st : Strand) : Bool := match st.run with | .held (.edit _) => true | _ => false

/-! ## Edits (R266, R268, R275) -/

/-- What waits at a sheet's sluice, with one more. -/
def State.askSluice (s : State) (n : Nat) (o : SluiceOp) : State := s.modSheet n fun sh => { sh with ops := sh.ops ++ [o] }

/-- Whether a formula record breaks Table 13.4. -/
def formulaBad (w : List Nat) : Bool :=
  let w0 := w.getD 0 0
  let w1 := w.getD 1 0
  let np := w1 % 2 ^ 9
  w0 / 2 ^ 62 = 3 || w0 / 2 ^ 56 % 2 ^ 6 != 0 || w0 % 4 != 0 || w1 / 2 ^ 9 % 2 ^ 54 != 0
    || (if w1 / 2 ^ 63 = 1 then np = 0 || 256 < np || w.getD 2 0 % 4 != 0 else decide (8 < np))

/-- The precedents in words 2 to 5 of a record. -/
def inlinePrecs (w : List Nat) : List Nat :=
  (List.range (w.getD 1 0 % 2 ^ 9)).map fun i => w.getD (2 + i / 2) 0 / 2 ^ (32 * (i % 2)) % 2 ^ 32

/-- The formula of a record and its precedents, for a launch on a tile. -/
def formulaOf (w precs : List Nat) (lid tile : Nat) (addr : Word) : Formula :=
  { core := w.getD 0 0 / 2 ^ 62
    entry := BitVec.ofNat 64 (w.getD 0 0 % 2 ^ 56)
    precs := precs
    arg0 := BitVec.ofNat 64 (w.getD 6 0)
    arg1 := BitVec.ofNat 64 (w.getD 7 0)
    lid := lid
    home := 4 * tile + w.getD 0 0 / 2 ^ 62
    addr := addr }

/-- Whether an address lies in the text of a launch's image. -/
def State.inText (s : State) (lid : Nat) (a : Word) : Bool :=
  match s.launches.find? fun l => l.lid = lid with
  | some l => decide (l.image.text.toNat ≤ a.toNat) && decide (a.toNat < l.image.text.toNat + l.image.textLen)
  | none => false

/-- A launch's record on a tile, be it resident there or evicted from it: it holds its slots in both cases (R239, R314). -/
def State.holderOf (s : State) (t lid : Nat) : Option Resident :=
  match s.residOf t lid with
  | some r => some r
  | none => (s.evicted.find? fun e => e.tile = t && e.res.lid = lid).map (·.res)

/-- Whether a launch holds a slot of a core kind on a tile. -/
def State.holdsKind (s : State) (t lid core : Nat) : Bool :=
  match s.holderOf t lid with
  | some r => r.slots.any fun m => m / 8 = core
  | none => false

/-- The executing strand as it asks a sluice. -/
def State.asker (s : State) (st : Strand) : Asker := ⟨s.cur, st.uid, st.lid⟩

def execCbind (m : Bool) (a b : Spec) (s : State) :=
  s.issue m { srcs := [(0, false, a), (1, false, b)], access := true, aborts := true } fun st =>
    if st.atSluice then .hold s (.edit (cellOperand (st.rs a)))
    else
      (s.cellNumber st (st.rs a)).act fun c s =>
        let ea := st.rs b
        if ea.toNat % 64 != 0 then .fault 7 ea
        else
          (s.recordParts s.cur st ea 8 8).act fun w s =>
            let bad := formulaBad w
            let blk := !bad && w.getD 1 0 / 2 ^ 63 = 1
            (s.recordParts s.cur st (BitVec.ofNat 64 (w.getD 2 0 % 2 ^ 56)) 4 (if blk then w.getD 1 0 % 2 ^ 9 else 0)).act fun ps s =>
              (s.theCell c).act fun c s =>
                let f := formulaOf w (if blk then ps else inlinePrecs w) st.lid s.cur.tile ea
                let bad := bad || !s.inText st.lid f.entry || !s.holdsKind s.cur.tile st.lid f.core
                .hold (s.askSluice c.sheet (.edit (some f) c.num ea (some (s.asker st)) none (if bad then some 8 else none))) (.edit c.num)

def execCunbind (m : Bool) (a : Spec) (s : State) :=
  s.issue m { srcs := [(0, false, a)], aborts := true } fun st =>
    if st.atSluice then .hold s (.edit (cellOperand (st.rs a)))
    else
      (s.namedCell st (st.rs a)).act fun c s =>
        .hold (s.askSluice c.sheet (.edit none c.num 0 (some (s.asker st)) none none)) (.edit c.num)

/-! ## Shadows and commits (R276, R277) -/

/-- A long result of the sluice: its access, still without a value. -/
def State.sendResult (s : State) (st : Strand) (d : Spec) (acq : Bool) : Nat × State :=
  (s.nextId, s.send s.cur st .result ⟨thisDev, 0⟩ (some ⟨false, d⟩) 0 false acq none)

/-- A long result of the sluice whose value is known. -/
def State.sendWord (s : State) (st : Strand) (d : Spec) (acq : Bool) (v : Word) : State :=
  s.sendValue s.cur st ⟨false, d⟩ acq (v.setWidth 1024)

def useSluice (d a : Spec) : Uses := { srcs := [(0, false, a)], dst := some (false, d), long := true }

/-- The end of a cwopen or cpin from the sluice's answer: at once, or the request waits there. -/
def State.answered (s : State) (st : Strand) (d : Spec) (c : Cell) (opens : Bool) (gen : Option Nat) : Answer → Act
  | .refuse code => cellFault code c.num
  | .give c' v => .ok ((s.putCell c').sendWord st d (!opens) v)
  | .wait =>
    let (id, s) := s.sendResult st d (!opens)
    .ok { s with cellWaits := s.cellWaits ++ [⟨id, c.num, opens, s.cur, st.uid, st.sid, st.lid, gen⟩] }

def execCwopen (m : Bool) (d a : Spec) (s : State) :=
  s.issue m { useSluice d a with aborts := true } fun st =>
    (s.namedCell st (st.rs a)).act fun c s => s.answered st d c true none (s.openAnswer c)

/-- ccommit holds its strand until the sluice has judged the batch, so that its faults are precise. -/
def execCcommit (m : Bool) (d a b : Spec) (s : State) :=
  s.issue m { srcs := [(0, false, a), (1, false, b)], dst := some (false, d), long := true, access := true, aborts := true } fun st =>
    if st.atSluice then .hold s (.edit 0)
    else
      (s.sheetNumber st (st.rs a)).act fun n s =>
        let ea := st.rs b
        if ea.toNat % 8 != 0 then .fault 7 ea
        else if s.releaseWaits then .hold s .again
        else
          (s.recordPart s.cur st ea 8).act fun w s =>
            (s.recordParts s.cur st (ea + 8) 4 (if w ≤ 64 then w else 0)).act fun cs s =>
              (s.theSheet n).act fun sh s =>
                if 64 < w then cellFault 0xB 0
                else
                  let (id, s) := s.sendResult st d false
                  .hold ((s.releaseCells st).askSluice sh.num (.commit cs (some (s.asker st)) (some id) none)) (.edit 0)

/-- The first condition that refuses a batch (R274, R277): its code and cell. -/
def State.batchBad (s : State) (sh : Sheet) (cs : List Nat) : Option (Nat × Nat) :=
  match cs.find? fun c => (s.cell? c).isNone with
  | some c => some (1, c % 2 ^ 24)
  | none =>
  let twice := (cs.zipIdx).find? fun p => (cs.take p.2).contains p.1 || ((s.cell? p.1).map (·.sheet)) != some sh.num
  match twice with
  | some p => some (0xB, p.1)
  | none =>
    match cs.find? fun c => !(((s.cell? c).map (·.input)).getD false) with
    | some c => some (2, c)
    | none =>
      match cs.find? fun c => !(((s.cell? c).map (·.opened)).getD false) with
      | some c => some (3, c)
      | none => if 2 ^ 32 - 1 ≤ sh.gen then some (0xD, 0) else none

/-! ## Tasks, pins and status (R263, R272, R278 to R280) -/

def execCdone (m : Bool) (a : Spec) (s : State) :=
  s.issue m { srcs := [(0, false, a)], aborts := true } fun st =>
    (s.namedCell st (st.rs a)).act fun c s =>
      let g := st.regs.cellgen
      if g.toNat / 2 ^ 63 = 0 || g.toNat / 2 ^ 32 % 2 ^ 24 != c.num then cellFault 5 c.num
      else if s.releaseWaits then .hold s .again
      else
        let s := (s.releaseCells st).upd fun st => st.modRegs fun r => { r with cellgen := r.cellgen &&& 0x7FFFFFFFFFFFFFFF }
        .ok (s.modSheet c.sheet fun sh => { sh with seeds := sh.seeds.map fun q =>
          if q.cell = c.num && q.gen = g.toNat % 2 ^ 32 then { q with finished := true } else q })

/-- The generation at which a formula task reads a precedent (R263). -/
def State.taskGen (s : State) (st : Strand) (c : Cell) : Option Nat :=
  let g := st.regs.cellgen
  if g.toNat / 2 ^ 63 = 0 then none
  else
    let task := ((s.sheet? c.sheet).map (·.seeds)).getD [] |>.find? fun q =>
      q.cell = g.toNat / 2 ^ 32 % 2 ^ 24 && q.gen = g.toNat % 2 ^ 32
    if (task.map fun q => q.form.precs.contains c.num).getD false then some (g.toNat % 2 ^ 32) else none

/-- The transaction's generation: set by its first cell instruction, which adds the sheet's line to the read set (R272). -/
def State.txGen (s : State) (st : Strand) (n : Nat) : Got Nat :=
  match st.tx.bind (·.tg) with
  | some g => .got g s
  | none =>
    let g := ((s.sheet? n).map (·.gen)).getD 0
    (s.addRead s.cur false true ⟨sheetDev, n⟩).bind fun _ s =>
      .got g (s.upd fun st => { st with tx := st.tx.map fun t => { t with tg := some g } })

/-- The pins that a write set adds to a buffer of a cell. -/
def pinsHeld (w : List WEntry) (c : Nat) (b : Bool) : Nat :=
  w.foldl (fun n e => if e.line = ⟨cellDev, c⟩ then n + (e.ops.filter fun o => o = .pin b).length else n) 0

/-- cpin in a transaction (R272). -/
def State.cpinTx (s : State) (st : Strand) (d : Spec) (c : Cell) : Act :=
  (s.txGen st c.sheet).act fun g s =>
    (s.addRead s.cur false true ⟨cellDev, c.num⟩).act fun _ s =>
      match c.freshAt g with
      | some b =>
        if 65535 ≤ c.pins b + pinsHeld st.wset c.num b then cellFault 7 c.num
        else (s.addWrite s.cur false ⟨cellDev, c.num⟩ [.pin b]).act fun _ s => .ok (s.sendWord st d true (c.buf b))
      | none =>
        if c.faultedAt g then cellFault 0xA c.num
        else
          let id := s.nextId
          let s := s.send s.cur st .wrongBit ⟨thisDev, 0⟩ (some ⟨false, d⟩) 0 false true none
          .ok { s with flight := s.flight.map fun e => if e.id = id then { e with done := true } else e }

/-- cpin. Inside a transaction a formula task's precedent is read at TG, as R272 says of every cpin there, where R263 gives it CELLGEN.GEN
(DESIGN CHOICE, log 71). -/
def execCpin (m : Bool) (d a : Spec) (s : State) :=
  s.issue m (useSluice d a) fun st =>
    if st.waitsSolo then s.endChunk s.cur
    else (s.namedCell st (st.rs a)).act fun c s =>
      if st.inTx then s.cpinTx st d c
      else
        let g := s.taskGen st c
        s.answered st d c false g (c.pinAnswer g)

/-- The buffer's address is translated first, as R274 says; the permission is that of the reads that the pin was for (DEDUCED, log 53). -/
def execCunpin (m : Bool) (a b : Spec) (s : State) :=
  s.issue m { srcs := [(0, false, a), (1, false, b)], aborts := true } fun st =>
    (s.cellNumber st (st.rs a)).act fun c s =>
      match s.translate s.cur.tile st.regs.ptroot st.sup (st.rs b) .read with
      | .miss => .hold s (.walk (st.rs b).toNat .read)
      | .fault code d => .fault code d
      | .at_ _ _ =>
        (s.theCell c).act fun c s =>
          let which := if st.rs b = c.buf0 then some false else if st.rs b = c.buf1 then some true else none
          match which with
          | none => cellFault 6 c.num
          | some k =>
            if c.pins k = 0 then cellFault 6 c.num
            else .ok ((s.putCell (c.setPins k (c.pins k - 1))).settle c.sheet)

/-- Table 13.8. -/
def Sheet.genWord (sh : Sheet) : Word := BitVec.ofNat 64 (sh.settled * 2 ^ 32 + sh.gen % 2 ^ 32)
def State.statWord (s : State) (c : Cell) : Word :=
  let pend := ((s.sheet? c.sheet).map fun (sh : Sheet) => sh.edits.any fun e => e.cell = c.num).getD false
  BitVec.ofNat 64 (c.state.toNat * 2 ^ 62 + (if c.input then 2 ^ 61 else 0) + (if c.opened then 2 ^ 60 else 0)
    + (if pend then 2 ^ 59 else 0) + c.rank % 2 ^ 16 * 2 ^ 40 + c.version % 2 ^ 32)

def execCgen (m : Bool) (d a : Spec) (s : State) :=
  s.issue m (useSluice d a) fun st =>
    if st.waitsSolo then s.endChunk s.cur
    else
      (s.namedSheet st (st.rs a)).act fun sh s =>
        if st.inTx then (s.txGen st sh.num).act fun _ s => .ok (s.sendWord st d false sh.genWord)
        else .ok (s.sendWord st d false sh.genWord)

def execCstat (m : Bool) (d a : Spec) (s : State) :=
  s.issue m (useSluice d a) fun st =>
    if st.waitsSolo then s.endChunk s.cur
    else
      (s.namedCell st (st.rs a)).act fun c s =>
        if st.inTx then
          (s.txGen st c.sheet).act fun _ s =>
            (s.addRead s.cur false true ⟨cellDev, c.num⟩).act fun _ s => .ok (s.sendWord st d false (s.statWord c))
        else .ok (s.sendWord st d false (s.statWord c))

/-! ## The sluice's steps -/

/-- Whether a strand is held at its sluice, in its slot or out of the rotation. -/
def Run.atSluice : Run → Bool
  | .held (.edit _) => true
  | .preempted (some (.edit _)) => true
  | _ => false

/-- The strand that waits at the sluice, resident or spilled, goes on or takes a fault (R275). -/
def State.answerAt (s : State) (a : Asker) (f : Strand → Strand) : State :=
  s.modUid a.at_ a.uid fun st => if st.run.atSluice then f st else st

/-- CYCW0 to CYCW7 from a cycle set in ascending order (R269). -/
def cycWords (cs : List Nat) : Vector Word 8 :=
  Vector.ofFn fun k =>
    BitVec.ofNat 64 (if 2 * k.val < cs.length then cs.getD (2 * k.val) 0 + (if 2 * k.val + 1 < cs.length then cs.getD (2 * k.val + 1) 0 * 2 ^ 32 else 0) else 0)

/-- The judgement of an edit (R268 to R270, R274): the fault's code, its detail, the cycle set; or none. -/
def State.judgeEdit (s : State) (sh : Sheet) (form : Option Formula) (c : Nat) (bad : Option Nat) : Option (Nat × Word × List Nat) :=
  let replaces := sh.edits.any fun e => e.cell = c
  match s.cell? c with
  | none => some (12, codeWord 1 c, [])
  | some x =>
    match form with
    | none => if !replaces && !x.input && 64 ≤ sh.edits.length then some (12, codeWord 0xC c, []) else none
    | some f =>
      if bad.isSome || f.precs.any fun p => ((s.cell? p).map (·.sheet)) != some sh.num then some (12, codeWord 8 c, [])
      else
        let cyc := s.cycleSet sh c f.precs
        if !cyc.isEmpty then some (10, BitVec.ofNat 64 (cyc.length % 2 ^ 24 * 2 ^ 32 + c), cyc)
        else if s.rankTooHigh sh c f.precs then some (12, codeWord 9 c, [])
        else if !replaces && 64 ≤ sh.edits.length then some (12, codeWord 0xC c, [])
        else none

/-- EDIT_ACCEPT: the next operation at a sheet's sluice, when it is an edit (R259, R268). One whose launch has ended before its judgement is
answered as accepted and leaves nothing pending, as the launch's end unbinds what it had bound (DESIGN CHOICE, log 72). -/
def execEditAccept (sheet : Nat) (s : State) : Host.Outcome State Fault Refusal :=
  .next (match s.sheet? sheet with
    | none => s
    | some sh =>
      match sh.ops with
      | .edit form c nform who cmd bad :: r =>
        let s := s.modSheet sheet fun sh => { sh with ops := r }
        match s.judgeEdit sh form c bad with
        | some (code, d, cyc) =>
          let s := match who with
            | some x => s.answerAt x fun st =>
                (if code = 10 then st.modRegs fun r => { r with cycw := cycWords cyc } else st).faultAt code d
            | none => s
          (match cmd with
            | some k => s.finishCommand k (statusWord 0x84 (if code = 10 then 0 else d.toNat / 2 ^ 56) code 0)
            | none => s)
        | none =>
          let input := ((s.cell? c).map (·.input)).getD true
          let gone := match form with | some f => !(s.launches.any fun l => l.lid = f.lid && !l.ending) | none => false
          let idle := gone || (form.isNone && input && !(sh.edits.any fun e => e.cell = c))
          let s := if idle then s
            else s.modEdits sheet fun es => (es.filter fun e => e.cell != c) ++ [⟨c, form, nform⟩]
          let s := match who with
            | some x => s.answerAt x Strand.completeHeld
            | none => s
          (match cmd with
            | some k => s.finishCommand k (statusWord 1 0 0 0)
            | none => s)
      | _ => s)

/-- PUBLICATION_STEP: the next operation at a sheet's sluice, when it is a commit (R260, R277). -/
def execPublicationStep (sheet : Nat) (s : State) : Host.Outcome State Fault Refusal :=
  .next (match s.sheet? sheet with
    | none => s
    | some sh =>
      match sh.ops with
      | .commit cs who acc cmd :: r =>
        if (s.batchBad sh cs).isNone && cs.any s.shadowWaits then s
        else
        let s := s.modSheet sheet fun sh => { sh with ops := r }
        let asks := acc.bind fun id => s.flight.find? fun (a : Access) => a.id = id
        let answer := fun (s : State) (f : Strand → Strand) => match who with
          | some x => s.answerAt x f
          | none => s
        match s.batchBad sh cs with
        | some (code, c) =>
          let s := match asks with
            | some a => s.dropAccess a
            | none => s
          let s := answer s fun st => st.faultAt 12 (codeWord code c)
          (match cmd with
            | some k => s.finishCommand k (statusWord 0x84 code 12 0)
            | none => s)
        | none =>
          let (s, h) := (cs.foldl (fun (s : State) c => s.fixVersion c) s).publishBatch sheet cs
          let s := match asks with
            | some a => s.performed a (BitVec.ofNat 1024 h)
            | none => s
          let s := answer s Strand.completeHeld
          (match cmd with
            | some k => s.finishCommand k (statusWord 1 0 0 h)
            | none => s)
      | _ => s)

/-- Whether a task record can be released (R261). -/
def State.releasable (s : State) (sh : Sheet) (q : Seed) : Bool :=
  !q.released && !q.finished
    && (q.form.precs.all fun p => ((s.cell? p).map fun (c : Cell) => (c.freshAt q.gen).isSome).getD false)
    && !(sh.seeds.any fun p => p.cell = q.cell && p.released)
    && !(((s.cell? q.cell).map fun (c : Cell) => s.shadowHeld c).getD true)

/-- The lane of a launch's next task: after those of its waves' members (R298). -/
def State.taskLane (s : State) (lid : Nat) : Nat × State :=
  let n := ((s.launches.find? fun l => l.lid = lid).map (·.taskLanes)).getD 0
  (2 ^ 40 + n, { s with launches := s.launches.map fun l => if l.lid = lid then { l with taskLanes := n + 1 } else l })

/-- TASK_RELEASE: the task of lowest timestamp that can be released goes to the deque of its HOME tile, while that has room. On a fenced tile no
task is placed: its cell becomes faulted (R320). -/
def execTaskRelease (sheet cell : Nat) (s : State) : Host.Outcome State Fault Refusal :=
  .next (match s.sheet? sheet with
    | none => s
    | some sh =>
      match sh.seeds.find? fun q => s.releasable sh q with
      | none => s
      | some q =>
        let t := q.form.home / 4
        if q.cell ≠ cell then s
        else if (s.tile t).fenced then s.taskFailed q.cell q.gen
        else if 64 ≤ (s.tile t).deque.length then s
        else
          let s := s.modSheet sheet fun sh => { sh with seeds := sh.seeds.map fun p =>
            if p.cell = q.cell && p.gen = q.gen then { p with released := true } else p }
          let (lane, s) := s.taskLane q.form.lid
          s.modTile t fun x => { x with deque := ⟨q.form.lid, coreOf q.form.core, q.form.entry, .formula q.cell q.gen, lane⟩ :: x.deque })

/-- FORMULA_PUBLISH: the version of lowest timestamp, once its task has finished (R264). -/
def execFormulaPublish (sheet : Nat) (s : State) : Host.Outcome State Fault Refusal :=
  .next (match (s.sheet? sheet).bind fun sh => sh.seeds.head? with
    | some q => if q.finished && !s.shadowWaits q.cell then (s.fixVersion q.cell).publishTask sheet q else s
    | none => s)

end Sys2Proof.Machine
end

