-- ==== Sys2Proof/Machine/Execution.lean ====
section
/-!
DEFINITION. Strands, tasks and waves (spec/12 R236 to R254): the start of a strand, placement, the instructions fork, join, mig,
gang, bar, exit and yield, and the steps that place waves and take tasks.
-/

namespace Sys2Proof.Machine

/-! ## The start of a strand (R41, R236, R244) -/

/-- sid (Table 12.3). -/
def sidOf (x : SlotId) (task : Bool) (rank : Nat) : Word :=
  BitVec.ofNat 64 ((if task then 2 ^ 37 else 0) + rank % 32 * 2 ^ 32 + x.tile % 2 ^ 11 * 2 ^ 16 + x.core.num * 8 + x.slot % 8)

/-- A strand of a launch as it starts, with what its start gives it beyond R41. -/
def Launch.strand (l : Launch) (x : SlotId) (task : Bool) (rank uid stackBot padLo lane : Nat) (wave : Option Nat)
    (f : Regs → Regs) : Strand :=
  let h := l.image.header
  let top := stackBot + h.stackReserve
  let base : Regs := { Regs.initial with
    ptroot := l.image.ptroot
    slim := BitVec.ofNat 64 (top - h.stackInit)
    padlo := BitVec.ofNat 64 padLo
    padhi := BitVec.ofNat 64 (padLo + h.pad) - 1
    cellbase := l.cellbase }
  let r := f (base.setS 31 (BitVec.ofNat 64 top))
  { Strand.initial with
    regs := r
    det := l.det
    sid := sidOf x task rank
    uid := uid
    nregs := h.regs
    nvregs := h.vregs
    nbars := h.bars
    nlocks := h.locks
    stackBot := stackBot
    stackTop := top
    lid := l.lid
    wave := wave
    lane := lane
    chunk := if l.det then some ⟨r, none, 0, [], [], false, false⟩ else none }

/-- The lanes of a wave's members, numbered as the wave is requested (R298): the first of them. -/
def State.waveLanes (s : State) (lid n : Nat) : Nat × State :=
  (((s.launch? lid).map (·.lanes)).getD 0,
    { s with launches := s.launches.map fun k => if k.lid = lid then { k with lanes := k.lanes + n } else k })

/-- A strand put into a slot of a launch that is resident on the tile. -/
def State.seat (s : State) (lid : Nat) (x : SlotId) (task : Bool) (rank stackBot lane : Nat) (wave : Option Nat) (f : Regs → Regs) :
    State :=
  match s.launch? lid, s.residOf x.tile lid with
  | some l, some r =>
    let st := l.strand x task rank s.nextId stackBot r.padLo lane wave f
    let s := s.setStrand x st
    let s := s.modTile x.tile fun t => { t with resid := t.resid.map fun q =>
      if q.lid = lid then { q with
        slots := natInsert q.slots x.member
        stackRes := q.stackRes ++ [(st.stackBot, st.stackTop, st.uid)] } else q }
    { s with nextId := s.nextId + 1 }
  | _, _ => s

/-- Eight words into s0 to s7. -/
def Regs.args (r : Regs) (a : Nat → Word) : Regs :=
  (List.range 8).foldl (fun (r : Regs) i => r.setS (BitVec.ofNat 6 i) (a i)) r

/-! ## Places (R237, R239, R314) -/

/-- Whether two ranges of bytes do not overlap; an empty one never does. -/
def apart (a b : Nat × Nat) : Bool := decide (a.2 ≤ a.1) || decide (b.2 ≤ b.1) || decide (a.2 ≤ b.1) || decide (b.2 ≤ a.1)

/-- Whether no two ranges of a list overlap. -/
def disjointRanges : List (Nat × Nat) → Bool
  | [] => true
  | a :: r => r.all (apart a) && disjointRanges r

/-- The scratchpad ranges that a launch has on a tile: its region and its stack reservations. -/
def Resident.ranges (r : Resident) : List (Nat × Nat) := (r.padLo, r.padLo + r.padLen) :: r.stackRes.map fun k => (k.1, k.2.1)

/-- The scratchpad ranges that launches have on a tile. -/
def Tile.heldRanges (t : Tile) : List (Nat × Nat) := t.resid.flatMap Resident.ranges

/-- Whether a range of bytes is a 64-aligned range of the scratchpad. -/
def padRange (p : Nat × Nat) : Bool := p.1 % 64 = 0 && decide (p.2 ≤ 2 ^ 20)

def State.prioOf (s : State) (lid : Nat) : Nat := ((s.launch? lid).map fun (l : Launch) => l.prio.toNat).getD 0

/-- The evictions from a tile whose launches a launch of lower or equal priority must leave their places to (R293, R314). -/
def State.reserved (s : State) (t lid : Nat) : List Evicted :=
  s.evicted.filter fun e => e.tile = t && e.res.lid != lid && decide (s.prioOf lid ≤ s.prioOf e.res.lid)

/-- The scratchpad ranges of a tile that a launch may not be given: those that launches have, and those that wait for an evicted one. -/
def State.takenRanges (s : State) (t lid : Nat) : List (Nat × Nat) :=
  (s.tile t).heldRanges ++ (s.reserved t lid).flatMap fun e => e.res.ranges

/-- The launches that hold slots of a tile: those resident there, and those evicted from it (R239, R314). -/
def State.holders (s : State) (t : Nat) : List Resident :=
  (s.tile t).resid ++ (s.evicted.filter fun e => e.tile = t).map (·.res)

/-- Whether the strands spilled from a slot let a launch take it: each is of lower priority, or of no higher one and has yielded (R254,
R293). -/
def State.spillsAllow (s : State) (lid : Nat) (x : SlotId) : Bool :=
  s.spills.all fun p =>
    p.at_ != x || decide (s.prioOf p.strand.lid < s.prioOf lid)
      || (p.strand.yielded && decide (s.prioOf p.strand.lid ≤ s.prioOf lid))

/-- Whether a slot can be given to a launch: it is empty, it is not the supervisor's, its tile serves, what was spilled from it lets it, and
the launch holds it already, or every launch that holds it has been displaced from it (R239, R254, R293). -/
def State.slotFree (s : State) (lid : Nat) (x : SlotId) : Bool :=
  let here := (s.holders x.tile).filter fun r => r.slots.contains x.member
  decide (x.slot < 8) && !isSup x && decide (x.tile < 1536) && (s.strand? x).isNone && !(s.tile x.tile).fenced && !(s.tile x.tile).testing
    && s.spillsAllow lid x
    && (here.any (fun r => r.lid = lid) || here.all fun r => s.spills.any fun p => p.at_ = x && p.strand.lid = r.lid)

/-- The tiles of a list without repeats. -/
def tilesOf (ms : List SlotId) : List Nat := (ms.map (·.tile)).foldl natInsert []

/-- Whether numbers rise strictly. -/
def rising : List Nat → Bool := natSorted

/-- Whether the members of a placement have the shape that a request asks for (R237, R252). -/
def State.shapeOk (s : State) (q : WaveReq) (ms : List SlotId) : Bool :=
  if q.row then
    let cols := ms.map fun x => s.tileCol x.tile
    (ms.all fun x => x.core = coreOf q.kind && s.tileRow x.tile = s.tileRow (ms.headD ⟨0, .m, 0⟩).tile && x.slot = (ms.headD ⟨0, .m, 0⟩).slot)
      && rising cols
      && (match q.cols with
        | some c => cols = (List.range 13).filter fun i => c.getLsbD i
        | none => ms.length = q.nm)
      && (match q.origin with | some t => s.tileRow t = s.tileRow (ms.headD ⟨0, .m, 0⟩).tile | none => true)
  else
    (ms.all fun x => x.tile = (ms.headD ⟨0, .m, 0⟩).tile) && rising (ms.map (·.member))
      && (ms.filter (·.core = .m)).length = q.nm && (ms.filter (·.core = .c)).length = q.nc && (ms.filter (·.core = .a)).length = q.na
      && (match q.origin with | some t => t = (ms.headD ⟨0, .m, 0⟩).tile | none => true)

/-- How the supervisors prefer a tile for work of a class (R292): 0 where its launches are of the other bound class, 1 where they are balanced,
2 elsewhere. -/
def Tile.preference (t : Tile) (cls : BitVec 2) : Nat :=
  if t.resid.isEmpty then 2
  else if (cls = 1 && t.resid.all fun r => r.cls = 2) || (cls = 2 && t.resid.all fun r => r.cls = 1) then 0
  else if t.resid.all fun r => r.cls = 3 then 1
  else 2

/-- The first of the gaps between ranges that holds one of n bytes. -/
def firstFit (held : List (Nat × Nat)) (n : Nat) : Option Nat :=
  (0 :: held.map fun r => (r.2 + 63) / 64 * 64).find? fun a => padRange (a, a + n) && held.all (apart (a, a + n))

/-- Ranges found one after another in the gaps that are left. -/
def fitAll : List Nat → List (Nat × Nat) → Bool
  | [], _ => true
  | n :: r, held => match firstFit held n with
    | some a => fitAll r ((a, a + n) :: held)
    | none => false

/-- Whether a tile has scratchpad and descriptors for a launch that wants n more strands there, beside what certain ranges and rings take
(R237, R314). -/
def State.roomBeside (s : State) (l : Launch) (t n : Nat) (held : List (Nat × Nat)) (rings : List Nat) : Bool :=
  let h := l.image.header
  let new := (s.residOf t l.lid).isNone
  fitAll ((if new then [h.pad] else []) ++ List.replicate n h.stackReserve) held
    && (!new || decide (h.locks ≤ ((List.range 8).filter fun i => !rings.contains i).length))

/-- The physical rings of a tile that a launch may not be given. -/
def State.takenRings (s : State) (t lid : Nat) : List Nat :=
  ((s.tile t).resid ++ (s.reserved t lid).map (·.res)).flatMap (·.rings)

/-- How many strands of a wave come to each of its tiles, or to one of them for a row wave. -/
def WaveReq.perTile (q : WaveReq) : Nat := if q.row then 1 else q.nm + q.nc + q.na

/-- Whether a waiting wave lacks scratchpad bytes or descriptors on a tile for its launch (R314). -/
def State.padShort (s : State) (q : WaveReq) (t : Nat) : Bool :=
  match s.launch? q.lid with
  | none => false
  | some l => !s.roomBeside l t q.perTile (s.takenRanges t q.lid) (s.takenRings t q.lid)

/-- Whether a wave that waits may be placed on a tile. -/
def State.mayGo (s : State) (q : WaveReq) (t : Nat) : Bool :=
  decide (q.rows.1 ≤ s.tileRow t) && decide (s.tileRow t ≤ q.rows.2)
    && (match q.origin with | some u => q.row || u = t | none => true)
    && (match q.cols with | some m => m.getLsbD (s.tileCol t) | none => true)

/-- A place that a wave may go to: its tile, or the tiles of a row with one slot index (R237). -/
structure Spot where
  tiles : List Nat
  slot : Option Nat
  deriving DecidableEq, Repr

/-- The places of a waiting wave. -/
def State.spotsOf (s : State) (q : WaveReq) : List Spot :=
  ((List.range (Nat.min q.rows.2 131 + 1 - q.rows.1)).map fun i => q.rows.1 + i).flatMap fun r =>
    let ts := ((List.range 13).filterMap fun c => s.tileAt r c).filter fun t => s.mayGo q t && !(s.tile t).fenced && !(s.tile t).testing
    if q.row then (List.range 8).map fun i => ⟨ts, some i⟩ else ts.map fun t => ⟨[t], none⟩

/-- How many strands of a core kind a wave puts on a place. -/
def WaveReq.needs (q : WaveReq) (k : Core) : Nat :=
  if q.row then
    (if coreOf q.kind = k then (match q.cols with
      | some c => ((List.range 13).filter fun i => c.getLsbD i).length
      | none => q.nm) else 0)
  else match k with
    | .m => q.nm
    | .c => q.nc
    | .a => q.na

/-- The slots of a core kind on a place. -/
def Spot.slots (p : Spot) (k : Core) : List SlotId :=
  p.tiles.flatMap fun t => match p.slot with
    | some i => [⟨t, k, i⟩]
    | none => (List.range 8).map fun i => ⟨t, k, i⟩

/-- Whether a place has the slots that a wave needs, as far as a test allows. -/
def Spot.enough (p : Spot) (q : WaveReq) (free : SlotId → Bool) : Bool :=
  [Core.m, .c, .a].all fun k => decide (q.needs k ≤ ((p.slots k).filter free).length)

/-- Whether a place has the barriers that a wave needs (R237). -/
def State.barsFree (s : State) (q : WaveReq) (l : Launch) (p : Spot) : Bool :=
  let t := p.tiles.headD 0
  let bars := if q.row then (s.rowAt (s.tileRow t)).bars.toList else (s.tile t).tbar.toList
  decide (l.image.header.bars ≤ (bars.filter fun b => b.wave.isNone).length)

/-- Whether a wave could be placed on a place now: slots, barriers, and scratchpad and descriptors for a launch that is new there (R237). -/
def State.spotCan (s : State) (q : WaveReq) (l : Launch) (p : Spot) : Bool :=
  p.enough q (fun x => s.slotFree q.lid x && !s.padShort q x.tile && !(s.evicted.any fun e => e.tile = x.tile && e.res.lid = q.lid))
    && s.barsFree q l p

/-- Whether a tile has what a tile-shaped wave needs (R237). -/
def State.tileCan (s : State) (q : WaveReq) (l : Launch) (t : Nat) : Bool := s.spotCan q l ⟨[t], none⟩

/-- Whether an earlier wave that waits for a place goes before another (R237, R248): one of the same launch, or one of no lower priority that
waits for the same tile or the same row. It waits for that tile or row when gang bound it there, or its launch's range is that row; and when it
could be placed there now, on a place that the other one's members would share (DEDUCED, log 54). -/
def State.waitsBefore (s : State) (w q : WaveReq) (ms : List SlotId) : Bool :=
  let here := (ms.headD ⟨0, .m, 0⟩).tile
  w.lid = q.lid || (decide (s.prioOf q.lid ≤ s.prioOf w.lid)
    && ((if w.row then q.row && w.rows.1 = w.rows.2 && w.rows.1 = s.tileRow here
        else (match w.origin with | some t => ms.any fun x => x.tile = t | none => false))
      || (match s.launch? w.lid with
        | none => false
        | some l => (s.spotsOf w).any fun p =>
          (ms.any fun x => p.tiles.contains x.tile && (p.slot.map fun i => decide (i = x.slot)).getD true) && s.spotCan w l p)))

/-- Whether no tile that could hold a wave is preferred to the one chosen (R292); for a wave that may go to several. -/
def State.bestTile (s : State) (q : WaveReq) (l : Launch) (t : Nat) : Bool :=
  let mine := (s.tile t).preference l.cls
  q.row || q.origin.isSome || mine = 0 || s.tiles.all fun p =>
    decide (mine ≤ p.2.preference l.cls) || !(decide (q.rows.1 ≤ s.tileRow p.1) && decide (s.tileRow p.1 ≤ q.rows.2)) || !s.tileCan q l p.1

/-- Whether the supervisors may place a wave so (R237): slots, scratchpad, descriptors, barriers, the order of the waves that wait (R248), and
the tiles that they prefer (R292). -/
def State.placeOk (s : State) (q : WaveReq) (l : Launch) (p : Placement) : Bool :=
  let h := l.image.header
  let ms := p.members.map (·.at_)
  let given := fun t => p.tiles.find? fun k => k.tile = t
  !ms.isEmpty && !l.ending && s.shapeOk q ms
    && (s.waveReqs.takeWhile fun w => w.num != q.num).all (fun w => !s.waitsBefore w q ms)
    && ms.all (fun x => s.slotFree q.lid x && decide (q.rows.1 ≤ s.tileRow x.tile) && decide (s.tileRow x.tile ≤ q.rows.2))
    && s.bestTile q l (ms.headD ⟨0, .m, 0⟩).tile
    && (tilesOf ms).all (fun t =>
      let new := (p.members.filter fun k => k.at_.tile = t).map fun k => (k.stackBot, k.stackBot + h.stackReserve)
      let taken := s.takenRanges t q.lid
      match s.residOf t q.lid with
      | some _ => new.all padRange && disjointRanges new && new.all fun a => taken.all (apart a)
      | none =>
        match given t with
        | none => false
        | some k =>
          let mine := (k.padLo, k.padLo + h.pad) :: new
          !(s.evicted.any fun e => e.tile = t && e.res.lid = q.lid)
            && mine.all padRange && disjointRanges mine && mine.all (fun a => taken.all (apart a))
            && k.rings.length = h.locks && (k.rings.foldl natInsert []).length = h.locks
            && k.rings.all fun i => decide (i < 8)
              && !(s.takenRings t q.lid).contains i)
    && (if q.row then
        p.rowBars.length = h.bars && (p.rowBars.foldl natInsert []).length = h.bars
          && p.rowBars.all fun i => ((s.rowAt (s.tileRow (ms.headD ⟨0, .m, 0⟩).tile)).bars[i]?.map fun (b : Barrier) => b.wave.isNone).getD false
      else
        let bs := ((given (ms.headD ⟨0, .m, 0⟩).tile).map (·.bars)).getD []
        bs.length = h.bars && (bs.foldl natInsert []).length = h.bars
          && bs.all fun i => ((s.tile (ms.headD ⟨0, .m, 0⟩).tile).tbar[i]?.map fun (b : Barrier) => b.wave.isNone).getD false)

/-- Rings given to a launch on a tile, in a state; the whole cycle sees them so (R92, R100). -/
def State.giveRings (s : State) (t : Nat) (rs : List (Nat × Ring)) : State :=
  rs.foldl (fun (s : State) k =>
    (s.putRing none t k.1 k.2).modTile t fun x => { x with ringsAt := x.ringsAt.setIfInBounds k.1 k.2 }) s

/-- The launch made resident on a tile, with its region and its descriptors (R86, R93). -/
def State.settleOn (s : State) (l : Launch) (k : TilePlace) : State :=
  if (s.residOf k.tile l.lid).isSome then s
  else
    (s.modTile k.tile fun t =>
      { t with resid := t.resid ++ [⟨l.lid, k.padLo, l.image.header.pad, k.rings, [], [], 0, 0, l.cls⟩] }).giveRings
        k.tile (k.rings.map fun i => (i, Ring.initial))

/-- What argument j becomes on a tile (R287). -/
def State.argOf (s : State) (q : WaveReq) (l : Launch) (t j : Nat) : Word :=
  match q.argkind.toNat / 2 ^ (2 * j) % 4 with
  | 1 => BitVec.ofNat 64 (((s.residOf t q.lid).map (·.padLo)).getD 0)
  | 2 => l.cellbase
  | _ => q.args.getD j 0

/-- Giving a wave its physical barriers (R237, R240). -/
def State.giveBars (s : State) (q : WaveReq) (ms : List SlotId) (bars : List Nat) : State :=
  let t := (ms.headD ⟨0, .m, 0⟩).tile
  if q.row then
    let mem := ms.foldl (fun v x => v ||| bitOf (s.tileCol x.tile)) 0
    s.modRow (s.tileRow t) fun r => { r with bars := bars.foldl (fun (v : Vector Barrier 8) i =>
      vecMod v i fun b => { b with mem := mem, arr := 0, wave := some q.num, gang := 0 }) r.bars }
  else
    let mem := ms.foldl (fun v x => v ||| bitOf x.member) 0
    bars.foldl (fun s i =>
      s.setTBar none t i { (s.tile t).tbar.getD i Barrier.initial with mem := mem, arr := 0, wave := some q.num }) s

/-- WAVE_PLACE: a waiting wave is placed whole, where the supervisors chose (R237). -/
def execWavePlace (req : Nat) (place : Placement) (s : State) : Host.Outcome State Fault Refusal :=
  .next (match s.waveReqs.find? fun q => q.num = req with
    | none => s
    | some q =>
      match s.launch? q.lid with
      | none => s
      | some l =>
        if s.placeOk q l place then
          let ms := place.members.map (·.at_)
          let s := place.tiles.foldl (fun s k => if (tilesOf ms).contains k.tile then s.settleOn l k else s) s
          let s := (place.members.zipIdx).foldl (fun s p =>
            s.seat q.lid p.1.at_ false p.2 p.1.stackBot (q.lane + p.2) (some q.num)
              fun r => { r.args (s.argOf q l p.1.at_.tile) with pc := q.entry }) s
          let bars := if q.row then place.rowBars
            else ((place.tiles.find? fun k => k.tile = (ms.headD ⟨0, .m, 0⟩).tile).map (·.bars)).getD []
          let s := s.giveBars q ms bars
          { s with
            waveReqs := s.waveReqs.filter fun w => w.num != q.num
            waves := s.waves ++ [⟨q.num, q.lid, q.row, ms, bars, false⟩]
            launches := s.launches.map fun k => if k.lid = q.lid then { k with waves := k.waves + 1 } else k }
        else s)

/-! ## Tasks and continuations (R243, R244, R262) -/

/-- A task pushed at the top of a tile's deque. -/
def State.pushTask (s : State) (t : Nat) (k : Task) : State := s.modTile t fun x => { x with deque := k :: x.deque }

/-- The registers with which a task starts. -/
def State.taskRegs (s : State) (k : Task) (r : Regs) : Regs :=
  match k.kind with
  | .forked a _ => { r.args (fun i => a.getD i 0) with pc := k.entry }
  | .cont a o sk g =>
    { r with
      s := Vector.ofFn fun i => if i.val < 16 then a.getD i.val 0 else r.s.getD i.val 0
      o := o
      skipn := sk
      cellgen := g
      pc := k.entry }
  | .formula c h =>
    let cell := s.cell? c
    let f := cell.bind fun x => ((s.sheet? x.sheet).bind fun sh => sh.seeds.find? fun q => q.cell = c && q.gen = h).map (·.form)
    let arg := fun i => match i with
      | 0 => BitVec.ofNat 64 c
      | 1 => BitVec.ofNat 64 h
      | 2 => (cell.map fun (x : Cell) => x.buf (!x.cur)).getD 0
      | 3 => (f.map fun (x : Formula) => x.addr).getD 0
      | 4 => (f.map fun (x : Formula) => x.arg0).getD 0
      | 5 => (f.map fun (x : Formula) => x.arg1).getD 0
      | _ => 0
    { r.args arg with pc := k.entry, cellgen := BitVec.ofNat 64 (2 ^ 63 + c * 2 ^ 32 + h) }

/-- A formula task that a slot takes: its cell is computing (R261, R262). -/
def State.takeCell (s : State) (k : Task) : State :=
  match k.kind with
  | .formula c h =>
    match s.cell? c with
    | none => s
    | some x =>
      (s.modSheet x.sheet fun sh => { sh with seeds := sh.seeds.map fun q =>
        if q.cell = c && q.gen = h then { q with taken := true } else q }).putCell { x with state := 2 }
  | _ => s

/-- The task that a free held slot takes next (R243): from the deque's top, else the oldest of the overflow list. -/
def Tile.nextTask (t : Tile) (lid : Nat) (kind : Core) : Option Task :=
  match t.deque.find? fun k => k.lid = lid && k.core = kind with
  | some k => some k
  | none => t.overflow.find? fun k => k.lid = lid && k.core = kind

/-- The tile without one task, taken from the deque when it lies there. -/
def Tile.removeTask (t : Tile) (k : Task) : Tile :=
  if t.deque.contains k then { t with deque := t.deque.erase k } else { t with overflow := t.overflow.erase k }

/-! ### The return of an evicted launch (R314) -/

/-- Whether an evicted launch can have its bytes and descriptors back. -/
def State.canReturn (s : State) (e : Evicted) : Bool :=
  disjointRanges (e.res.ranges ++ (s.tile e.tile).heldRanges)
    && e.rings.all fun k => (s.tile e.tile).resid.all fun r => !r.rings.contains k.1

/-- The scratchpad addresses of a launch's ranges on a tile, in order. -/
def Resident.addrs (r : Resident) : List Nat := r.ranges.flatMap fun k => (List.range (k.2 - k.1)).map fun i => k.1 + i

/-- The scratchpad words of those ranges. -/
def Resident.words (r : Resident) : List Nat :=
  r.ranges.flatMap fun k => (List.range ((k.2 + 7) / 8 - k.1 / 8)).map fun i => k.1 / 8 + i

/-- A ring with what a status line says of it; the strands behind its bits stay. -/
def Ring.fromLine (r : Ring) (bs : List Byte) : Ring :=
  let w := fun i => wordAt bs (8 * i)
  { r with
    cfg := (w 0).getLsbD 63
    desc := (w 0).setWidth 63
    pgen := BitVec.ofNat 32 ((w 1).toNat / 2 ^ 32)
    cgen := (w 1).setWidth 32
    cmem := BitVec.ofNat 24 ((w 2).toNat / 2 ^ 24)
    pmem := (w 2).setWidth 24
    carr := BitVec.ofNat 24 ((w 3).toNat / 2 ^ 24)
    parr := (w 3).setWidth 24 }

/-- An evicted launch gets back the same addresses and descriptors with what was saved of them (R314). -/
def State.giveBack (s : State) (e : Evicted) : State :=
  let b := s.padBase e.tile
  let as := e.res.addrs
  let ws := e.res.words
  let bs := s.readBytes e.base as.length
  let bits := s.readBytes (e.base + as.length) ((ws.length + 7) / 8)
  let lines := e.base + as.length + (ws.length + 7) / 8
  let s : State := { s with
    mem := (as.zip bs).foldl (fun m p => memSet m (b + p.1) p.2) s.mem
    full := (ws.zipIdx).foldl (fun f p =>
      if (bits.getD (p.2 / 8) 0).getLsbD (p.2 % 8) then natInsert f (b / 8 + p.1) else f.filter (· != b / 8 + p.1)) s.full
    badWords := s.badWords.filter fun w => !ws.any fun k => b / 8 + k = w
    weakWords := s.weakWords.filter fun w => !ws.any fun k => b / 8 + k = w }
  let s := (s.modTile e.tile fun t => { t with resid := t.resid ++ [e.res] }).giveRings e.tile
    ((e.rings.zipIdx).map fun k => (k.1.1, k.1.2.fromLine (s.readBytes (lines + 64 * k.2) 64)))
  { s with evicted := s.evicted.filter fun k => k != e }

/-- A launch that was evicted from a tile given back its place there, where it can be. -/
def State.backFor (s : State) (t lid : Nat) : State :=
  match s.evicted.find? fun e => e.tile = t && e.res.lid = lid with
  | some e => if s.canReturn e then s.giveBack e else s
  | none => s

/-! ### The take (R243, R244, R262) -/

/-- The task that a free slot takes, with the launch that holds the slot, be it resident or evicted with its place free again (R243, R314). -/
def State.taskFor (s : State) (x : SlotId) : Option (Launch × Task) :=
  ((s.tile x.tile).resid ++ (s.evicted.filter fun e => e.tile = x.tile && s.canReturn e).map (·.res)).findSome? fun r =>
    if r.slots.contains x.member && s.slotFree r.lid x then
      (s.launch? r.lid).bind fun l => if l.ending then none else ((s.tile x.tile).nextTask r.lid x.core).map fun k => (l, k)
    else none

/-- A slot takes a task, with a stack reservation that the supervisor chose (R243, R244); none when it does not fit. -/
def State.takeTask (s : State) (x : SlotId) (l : Launch) (k : Task) (stackBot : Nat) : Option State :=
  let res := (stackBot, stackBot + l.image.header.stackReserve)
  let s := s.backFor x.tile l.lid
  if padRange res && (s.takenRanges x.tile l.lid).all (apart res) then
    let s := s.modTile x.tile fun t => t.removeTask k
    some ((s.seat l.lid x true 0 stackBot k.lane none (s.taskRegs k)).takeCell k)
  else none

/-- The take at a free held slot's next turn (R243, R248): the supervisor's choice among the gaps that hold the stack reservation is free
(log 8). None when the slot takes nothing. -/
def State.takeAtTurn (s : State) (x : SlotId) : Option State :=
  (s.taskFor x).bind fun p =>
    let n := p.1.image.header.stackReserve
    let s := s.backFor x.tile p.1.lid
    let held := s.takenRanges x.tile p.1.lid
    let gaps := (0 :: held.map fun r => (r.2 + 63) / 64 * 64).filter fun a => padRange (a, a + n) && held.all (apart (a, a + n))
    let (w, s) := s.free
    (gaps[w.toNat % Nat.max 1 gaps.length]?).bind fun a => s.takeTask x p.1 p.2 a

/-- DEQUE_TAKE: a free slot that a launch holds takes its next task (R243, R244), with the stack reservation that the supervisor chose. -/
def execDequeTake (who : SlotId) (stackBot : Nat) (s : State) : Host.Outcome State Fault Refusal :=
  .next (((s.taskFor who).bind fun p => s.takeTask who p.1 p.2 stackBot).getD s)

/-- DEQUE_OVERFLOW_MOVE: a full deque's bottom 16 entries go to the overflow lists (R243). -/
def execDequeOverflowMove (tile : Nat) (s : State) : Host.Outcome State Fault Refusal :=
  .next (if 64 ≤ (s.tile tile).deque.length then
      s.modTile tile fun t => { t with deque := t.deque.take 48, overflow := t.overflow ++ (t.deque.drop 48).reverse }
    else s)

/-- CONTINUATION_ARRIVE: a continuation on its way is pushed, or joins the overflow list of a full deque (R243). One that finds the tile fenced
ends as the fenced tile's strands do (R320; DESIGN CHOICE, log 55). -/
def execContinuationArrive (idx : Nat) (s : State) : Host.Outcome State Fault Refusal :=
  .next (match s.transit[idx]? with
    | none => s
    | some (t, k) =>
      let s : State := { s with transit := s.transit.eraseIdx idx }
      if (s.tile t).fenced then
        (match k.kind with
          | .cont _ _ _ g => s.endTask g
          | _ => s).endLaunch k.lid (codeWord 0 0x1002)
      else if 64 ≤ (s.tile t).deque.length then s.modTile t fun x => { x with overflow := x.overflow ++ [k] } else s.pushTask t k)

/-! ## The instructions (R249 to R254) -/

/-- Whether exit and mig must still wait (R111, R181, R214): long results, stp in flight, matrix operations. -/
def State.drains (s : State) (st : Strand) : Bool :=
  let m := (s.tile s.cur.tile).mat
  !st.longs.isEmpty || s.stpPending s.cur || (m.owner = some st.uid && m.opsLeft != 0)

/-- The effect of exit once nothing holds it (R253). -/
def State.exitNow (s : State) (st : Strand) (h : Hold) : Act :=
  if s.drains st then .hold s h else .placed (s.leave s.cur false)

def execExit (m : Bool) (s : State) := s.issue m { aborts := true } fun st => s.exitNow st .again

def sRegs (n : Nat) : List Spec := (List.range n).map fun i => BitVec.ofNat 6 i

def execFork (m : Bool) (disp : BitVec 18) (s : State) :=
  s.issue m { reads := (sRegs 8).map fun r => (0, r), aborts := true } fun st =>
    if 64 ≤ (s.tile s.cur.tile).deque.length || s.fenceWaits s.cur (fun _ => true) true 3 then .hold s .again
    else
      let (ln, s) := s.taskLane st.lid
      .ok (s.pushTask s.cur.tile
        ⟨st.lid, s.cur.core, dispTarget st.regs.pc disp, .forked (Vector.ofFn fun i => st.regs.s.getD i.val 0) 0, ln⟩)

/-- join (R250): its atomic operation is sent, the old value awaited, and all but the last arrival exit. -/
def execJoin (m : Bool) (a : Spec) (s : State) :=
  s.issue m { srcs := [(0, false, a)], access := true, aborts := true } fun st =>
    match st.run with
    | .held (.joined left) => s.exitNow st (.joined left)
    | .held (.home id) =>
      match s.flight.find? fun e => e.id = id with
      | none => .hold s (.home id)
      | some e =>
        if !e.done then .hold s (.home id)
        else
          let left : Word := e.value.setWidth 64 - 1
          let s := s.dropAccess e
          if left = 0 then .ok s else s.exitNow st (.joined left)
    | _ =>
      (s.globalAddr s.cur st (st.rs a) 8 .rw).act fun p s =>
        .hold (s.send s.cur st .joinDec p.1 none 4 true true (some p.2)) (.home s.nextId)

/-- mig (R251). -/
def execMig (m : Bool) (row : BitVec 8) (col : BitVec 4) (a : Spec) (s : State) :=
  s.issue m
    { srcs := [(0, false, a)]
      reads := (sRegs 16 ++ (List.range 8).map fun i => BitVec.ofNat 6 (32 + i)).map fun r => (2, r), aborts := true } fun st =>
    let va := st.rs a
    if va.toNat % 4 != 0 then .fault 7 va
    else match s.tileAt row.toNat col.toNat with
      | none => .fault 8 (codeWord 0x35 (row.toNat * 16 + col.toNat))
      | some t =>
        if !s.holdsKind t st.lid s.cur.core.num then .fault 4 (codeWord 0x62 0)
        else if s.drains st || s.fenceWaits s.cur (fun _ => true) true 3 then .hold s .again
        else
          let (ln, s) := s.taskLane st.lid
          let k : Task := ⟨st.lid, s.cur.core, va,
            .cont (Vector.ofFn fun i => st.regs.s.getD i.val 0) st.regs.o st.regs.skipn st.regs.cellgen, ln⟩
          let s := s.leave s.cur true
          .placed { s with transit := s.transit ++ [(t, k)] }

/-- Whether a wave record breaks Table 12.7. -/
def State.waveBad (s : State) (st : Strand) (w : List Nat) : Bool :=
  let w0 := w.getD 0 0
  let w1 := w.getD 1 0
  let row := decide (w1 / 2 ^ 63 = 1)
  let mask := w1 / 2 ^ 48 % 2 ^ 13
  let nm := w1 / 2 ^ 8 % 8
  let nc := w1 / 2 ^ 4 % 16
  let na := w1 % 16
  w0 / 2 ^ 56 != 0 || w0 % 4 != 0 || !s.inText st.lid (BitVec.ofNat 64 w0) || w1 / 2 ^ 11 % 2 ^ 37 != 0
    || (if row then
        w1 / 2 ^ 61 % 4 = 3 || mask = 0 || nm != 0 || nc != 0 || na != 0
          || !((List.range 13).all fun c => !mask.testBit c || (s.tileAt (s.tileRow s.cur.tile) c).isSome)
      else decide (8 < nc) || decide (8 < na) || nm + nc + na = 0 || decide (23 < nm + nc + na))

/-- gang (R252). -/
def execGang (m : Bool) (a : Spec) (s : State) :=
  s.issue m { srcs := [(0, false, a)], access := true, aborts := true } fun st =>
    let ea := st.rs a
    if ea.toNat % 8 != 0 then .fault 7 ea
    else
      (s.recordParts s.cur st ea 8 10).act fun w s =>
        if s.waveBad st w then .fault 4 (codeWord 0x63 (ea.toNat % 2 ^ 56))
        else
          let w1 := w.getD 1 0
          let row := decide (w1 / 2 ^ 63 = 1)
          let r := s.tileRow s.cur.tile
          let cols := BitVec.ofNat 13 (w1 / 2 ^ 48)
          let size := if row then ((List.range 13).filter fun i => cols.getLsbD i).length
            else w1 / 2 ^ 8 % 8 + w1 / 2 ^ 4 % 16 + w1 % 16
          let (ln, s) := s.waveLanes st.lid size
          let q : WaveReq :=
            { num := s.nextId
              lid := st.lid
              entry := BitVec.ofNat 64 (w.getD 0 0 % 2 ^ 56)
              args := Vector.ofFn fun i => BitVec.ofNat 64 (w.getD (2 + i.val) 0)
              argkind := 0
              row := row
              kind := w1 / 2 ^ 61 % 4
              nm := w1 / 2 ^ 8 % 8
              nc := w1 / 2 ^ 4 % 16
              na := w1 % 16
              cols := if row then some cols else none
              rows := (r, r)
              origin := some s.cur.tile
              lane := ln }
          .ok { s with waveReqs := s.waveReqs ++ [q], nextId := s.nextId + 1 }

/-- A fault of Table 12.5 at a barrier: 0x61 without a wave of the kind, else 0x60. -/
def State.barFault (s : State) (st : Strand) (row : Bool) : Act :=
  let kind := (st.wave.bind fun w => s.waves.find? fun v => v.num = w).map (·.row)
  .fault 4 (codeWord (if kind = some row then 0x60 else 0x61) 0)

def execBarTile (m : Bool) (k : BitVec 2) (s : State) :=
  s.issue m { aborts := true } fun st =>
    match s.barOf st false k.toNat with
    | none => s.barFault st false
    | some p =>
      if s.barWaits 0 then .hold s .again
      else
        let x := s.cur
        let s := s.modStrand x fun st => { st with run := .held (.bar false p false), mark := m }
        let b := (s.tile x.tile).tbar.getD p Barrier.initial
        .placed (((s.setTBar (some x) x.tile p { b with arr := b.arr ||| bitOf x.member }).completeTBar (some x) x.tile p).modStrand x fun k => k.lastToArrive st)

def execBarRow (m : Bool) (k : BitVec 3) (s : State) :=
  s.issue m { aborts := true } fun st =>
    match s.barOf st true k.toNat with
    | none => s.barFault st true
    | some p => if s.barWaits 1 then .hold s .again else .placed (s.arriveRow m p false)

/-- Whether work of equal or higher priority waits on a tile for a slot of a core kind while no slot of the kind is free (R254). -/
def State.slotWanted (s : State) (t lid : Nat) (kind : Core) : Bool :=
  let p := s.prioOf lid
  let waits :=
    ((s.tile t).deque ++ (s.tile t).overflow).any (fun k => k.core = kind && decide (p ≤ s.prioOf k.lid))
      || s.waveReqs.any fun q =>
        decide (p ≤ s.prioOf q.lid) && decide (q.rows.1 ≤ s.tileRow t) && decide (s.tileRow t ≤ q.rows.2)
          && (match q.origin with | some u => q.row || u = t | none => true)
          && (match q.cols with | some m => m.getLsbD (s.tileCol t) | none => true)
          && (if q.row then coreOf q.kind = kind else
              decide (0 < (match kind with | .m => q.nm | .c => q.nc | .a => q.na)))
  waits && (List.range 8).all fun k => isSup ⟨t, kind, k⟩ || (s.strand? ⟨t, kind, k⟩).isSome

def execYield (m : Bool) (s : State) :=
  s.issue m { aborts := true } fun st =>
    if s.slotWanted s.cur.tile st.lid s.cur.core then
      let s := s.upd fun st => { st with regs := { st.regs with pc := st.regs.pc + 4 }, chunk := st.chunk.map fun c => { c with count := c.count + 1 } }
      .placed ((s.preempt s.cur).upd fun st => { st with mark := m, yielded := true })
    else .ok s

end Sys2Proof.Machine
end

