-- ==== Sys2Proof/Machine/Sched.lean ====
section
/-!
DEFINITION. What supervisors do with strands and waves that are placed: pre-emption, spilling, restoring, eviction (spec/15 R311 to
R314, spec/14 R293), and the periodic steps of R291 and R292. What they choose rides on the step.
-/

namespace Sys2Proof.Machine

/-! ## Pre-emption (R311) -/

/-- A request to pre-empt a strand: a parked, held or sleeping one leaves the rotation at once, another at its next turn; one that is
out of the rotation after an event, after its return (R308). -/
def State.requestPreempt (s : State) (x : SlotId) : State :=
  match s.strand? x with
  | none => s
  | some st =>
    if st.sup then s
    else match st.run with
      | .ready => s.modStrand x fun st => { st with preReq := true }
      | .out => s.modStrand x fun st => { st with preReq := true }
      | .preempted _ => s
      | _ => s.preempt x

def Run.isPreempted : Run → Bool
  | .preempted _ => true
  | _ => false

/-- Whether a strand's slot can be had for a wave of higher priority. -/
def State.mayYieldTo (s : State) (q : WaveReq) (st : Strand) : Bool := !st.sup && decide (s.prioOf st.lid < s.prioOf q.lid)

/-- Whether a strand is leaving its slot already. -/
def Strand.leaving (st : Strand) : Bool := st.preReq || st.run.isPreempted

/-- Whether a slot is free for a wave, or its strand is leaving it already. -/
def State.comingFree (s : State) (q : WaveReq) (x : SlotId) : Bool :=
  s.slotFree q.lid x || (!isSup x && ((s.strand? x).map fun st => s.mayYieldTo q st && st.leaving).getD false)

/-- Whether a slot is free for a wave, or could be made free by displacing. -/
def State.couldFree (s : State) (q : WaveReq) (x : SlotId) : Bool :=
  s.slotFree q.lid x || (!isSup x && ((s.strand? x).map fun st => s.mayYieldTo q st).getD false)

/-- Whether a tile would have scratchpad and descriptors for a wave once every launch of lower priority had left it (R314). -/
def State.padCould (s : State) (q : WaveReq) (t : Nat) : Bool :=
  match s.launch? q.lid with
  | none => false
  | some l =>
    let stay := ((s.tile t).resid.filter fun r => decide (s.prioOf q.lid ≤ s.prioOf r.lid)) ++ (s.reserved t q.lid).map (·.res)
    s.roomBeside l t q.perTile (stay.flatMap Resident.ranges) (stay.flatMap (·.rings))

/-- Whether a wave can have a place with what is free there or comes free already. -/
def State.spotOpen (s : State) (q : WaveReq) (p : Spot) : Bool := p.enough q fun x => s.comingFree q x && !s.padShort q x.tile

/-- Whether a wave could have a place by displacing waves of lower priority. -/
def State.spotCould (s : State) (q : WaveReq) (p : Spot) : Bool := p.enough q fun x => s.couldFree q x && s.padCould q x.tile

/-- Whether the supervisors have begun to make a place free for a wave. -/
def State.spotBegun (s : State) (q : WaveReq) (p : Spot) : Bool :=
  [Core.m, .c, .a].any fun k => decide (0 < q.needs k) && (p.slots k).any fun x =>
    ((s.strand? x).map fun st => s.mayYieldTo q st && st.leaving).getD false

/-- The places at which waves are displaced for one that waits (R293): none while some place can be had without; the one at which it has begun;
else those that could be made free. -/
def State.spotsFor (s : State) (q : WaveReq) : List Spot :=
  let ps := s.spotsOf q
  if ps.any (s.spotOpen q) then []
  else
    let could := ps.filter (s.spotCould q)
    let begun := could.filter (s.spotBegun q)
    if begun.isEmpty then could else begun.take 1

/-- Whether a strand in a slot stands in the way of a wave on a place: its slot is lacking there, or bytes or descriptors of its tile are. -/
def State.inWay (s : State) (q : WaveReq) (p : Spot) (x : SlotId) (st : Strand) : Bool :=
  s.mayYieldTo q st && !st.leaving && p.tiles.contains x.tile
    && (s.padShort q x.tile || ((p.slots x.core).contains x
      && decide (((p.slots x.core).filter fun y => s.comingFree q y && !s.padShort q y.tile).length < q.needs x.core)))

/-- Whether a strand is of the lowest priority among those in the way of a waiting wave on the places where waves are displaced for it (R293). -/
def State.givesWay (s : State) (q : WaveReq) (x : SlotId) (st : Strand) : Bool :=
  let ps := s.spotsFor q
  ps.any (fun p => s.inWay q p x st)
    && ps.all fun p => p.tiles.all fun t => (s.tile t).strands.all fun k =>
      !s.inWay q p (slotOf t k.1) k.2 || decide (s.prioOf st.lid ≤ s.prioOf k.2.lid)

/-- Whether a launch on a tile stands in the way of one of higher priority that was evicted from it (R314). -/
def State.evictedWants (s : State) (t lid : Nat) : Bool :=
  s.evicted.any fun e => e.tile = t && decide (s.prioOf lid < s.prioOf e.res.lid)
    && ((s.launch? e.res.lid).map fun l => !l.ending).getD false && !s.canReturn e

/-- Whether a launch resident on a tile stands in the way of a waiting wave of higher priority there, for bytes or descriptors, while that wave
has no other place; or of a launch of higher priority that was itself evicted (R314). -/
def State.padWanted (s : State) (t lid : Nat) : Bool :=
  (s.waveReqs.any fun q => decide (s.prioOf lid < s.prioOf q.lid) && s.mayGo q t && s.padShort q t
    && (s.spotsFor q).any fun p => p.tiles.contains t) || s.evictedWants t lid

/-- Whether no other strand of a tile that could be asked to leave it is of lower priority. -/
def State.lowestOf (s : State) (t p : Nat) : Bool :=
  (s.tile t).strands.all fun k => k.2.sup || k.2.leaving || decide (p ≤ s.prioOf k.2.lid)

/-- Whether a strand's wave is displaced for a wave of higher priority that waits, or for a launch of higher priority that was evicted (R293,
R314): it has the lowest priority of those that could give what is still lacking. -/
def State.displaced (s : State) (x : SlotId) (st : Strand) : Bool :=
  s.waveReqs.any (fun q => s.givesWay q x st) || (s.evictedWants x.tile st.lid && s.lowestOf x.tile (s.prioOf st.lid))

/-- The members of a strand's wave; the strand alone when it has none. -/
def State.waveOf (s : State) (x : SlotId) (st : Strand) : List SlotId :=
  match st.wave.bind fun w => s.waves.find? fun v => v.num = w with
  | some v => v.members
  | none => [x]

/-- Whether other work needs the slot of a strand that has left the rotation (R312): a wave or task of higher priority, or of equal priority
once it has yielded (R254); a strand that was spilled from the slot (R293); or its launch's place on the tile is wanted (R314). -/
def State.slotNeeded (s : State) (x : SlotId) (st : Strand) : Bool :=
  let above := fun (lid : Nat) =>
    decide (s.prioOf st.lid < s.prioOf lid) || (st.yielded && decide (s.prioOf st.lid ≤ s.prioOf lid))
  (s.waveReqs.any fun q => above q.lid && s.mayGo q x.tile)
    || ((s.tile x.tile).deque ++ (s.tile x.tile).overflow).any (fun k => k.core = x.core && above k.lid)
    || s.spills.any (fun p => p.at_ = x)
    || s.padWanted x.tile st.lid

/-- Whether a member of a strand's wave has yielded its slot to work that needs it: the slot can be given only when the whole wave has left
(R238, R254). -/
def State.yieldedWave (s : State) (x : SlotId) (st : Strand) : Bool :=
  (s.waveOf x st).any fun y => ((s.strand? y).map fun k => k.yielded && k.run.isPreempted && s.slotNeeded y k).getD false

/-- PREEMPTION: a request that the supervisors make of a whole wave for one of higher priority (R293) or because a member has yielded (R254), or its
effect once a turn has recognised it, whatever the strand has come to since it was asked (R310, R311). While a checkpoint or a restore runs, a
strand that has come back to the rotation leaves it at once (R358). -/
def execPreemption (who : SlotId) (s : State) : Host.Outcome State Fault Refusal :=
  .next (match s.strand? who with
    | none => s
    | some st =>
      let rotates := !st.sup && decide (st.run ≠ .out) && !st.run.isPreempted
      if rotates && (st.preReq || s.ctl.ckpt.isSome) then s.preempt who
      else if s.displaced who st || s.yieldedWave who st then (s.waveOf who st).foldl (fun s y => s.requestPreempt y) s
      else s)

/-! ## Spilling and restoring (R312, R313) -/

/-- The long results that a spill may leave pending (R111): an ldc registered at its home, a cpin or a cwopen at the sluice. -/
def State.mayPend (s : State) (l : Long) : Bool :=
  (s.flight.any fun a => a.id = l.id && !a.done && (match a.op with | .ldc => s.waitsAtHome a | _ => false))
    || s.cellWaits.any fun w => w.id = l.id

/-- Whether every member of a strand's wave has left the rotation (R238). -/
def State.waveOut (s : State) (st : Strand) : Bool :=
  match st.wave.bind fun w => s.waves.find? fun v => v.num = w with
  | none => true
  | some v => v.members.all fun y =>
    (match s.strand? y with
      | some k => k.wave = some v.num && k.run.isPreempted
      | none => false)
    || s.spills.any fun p => p.at_ = y && p.strand.wave = some v.num

/-- The bytes of a strand's context block (R312). -/
def blockSize (x : SlotId) (owner : Bool) : Nat := if owner then 0xDC00 else if x.core = .m then 0x800 else 0x1B00

/-- The strand as a spill saves it: a sleeping one has lost its wake set, and wakes when it returns (R223). -/
def Strand.asSpilled (st : Strand) : Strand := if st.tx.isSome then { st with wakeReq := some 0 } else st

/-- The bytes that an eviction saves: the launch's ranges, a bit for each of their words, a line for each of its rings. -/
def Resident.savedSize (r : Resident) : Nat :=
  (r.ranges.map fun k => k.2 - k.1).foldl (· + ·) 0
    + (((r.ranges.map fun k => (k.2 + 7) / 8 - k.1 / 8).foldl (· + ·) 0) + 7) / 8 + 64 * r.rings.length

/-- Whether a strand may be spilled: for its slot, or for that of another member of its wave, which is spilled whole (R238); for a checkpoint,
once the matrix operations of its tile have ended (R358). -/
def State.spillDue (s : State) (x : SlotId) (st : Strand) : Bool :=
  if s.ctl.ckpt.isSome then decide ((s.tile x.tile).mat.opsLeft = 0)
  else (s.waveOf x st).any fun y =>
    ((s.strand? y).map fun k => s.slotNeeded y k).getD false || s.spills.any fun p => p.at_ = y && p.strand.wave = st.wave && st.wave.isSome

/-- The areas of protected HBM that hold context blocks and evicted launches: first address, the one after the last. -/
def State.spillAreas (s : State) : List (Nat × Nat) :=
  (s.spills.map fun p => (p.base, p.base + blockSize p.at_ p.mat.isSome)) ++ s.evicted.map fun e => (e.base, e.base + e.res.savedSize)

/-- Whether an area of protected HBM is free for the spill engine. -/
def State.areaFree (s : State) (base n : Nat) : Bool :=
  base % 64 = 0 && s.protectedAt base && s.protectedAt (base + n - 1) && s.spillAreas.all (apart (base, base + n))

/-- SPILL: the engine moves a pre-empted strand into its context block and frees the slot; the firmware chose where the block lies. The tile's
accumulator store stays claimed by a matrix owner that is spilled (R167). -/
def execSpill (who : SlotId) (base : Nat) (s : State) : Host.Outcome State Fault Refusal :=
  .next (match s.strand? who with
    | none => s
    | some st =>
      let t := s.tile who.tile
      let owner := decide (t.mat.owner = some st.uid)
      let n := blockSize who owner
      if st.sup || !st.run.isPreempted || !s.waveOut st || !st.longs.all s.mayPend || !s.areaFree base n || !s.spillDue who st then s
      else
        let p : Spilled := ⟨who, base, st.asSpilled, if owner then some t.mat else none⟩
        let s := (s.dropWeir who).dropStrand who
        let s := s.modTile who.tile fun t =>
          { t with
            lastSpilled := assocSet t.lastSpilled who.member st.sid
            mat := if owner then { Matrix.initial with owner := t.mat.owner } else t.mat }
        let s := s.putBytes base p.block
        { s with
          spills := s.spills ++ [p]
          waves := s.waves.map fun v => if some v.num = st.wave then { v with spilled := true } else v })

/-! ## Eviction (R314): the saved area holds the bytes of the launch's ranges one after another, then a bit for each of their words, then the
status line of each ring (DESIGN CHOICE, log 57) -/

/-- Bits as bytes, the first bit lowest. -/
def bitBytes : List Bool → List Byte
  | b0 :: b1 :: b2 :: b3 :: b4 :: b5 :: b6 :: b7 :: r =>
    BitVec.ofNat 8 ((if b0 then 1 else 0) + (if b1 then 2 else 0) + (if b2 then 4 else 0) + (if b3 then 8 else 0) + (if b4 then 16 else 0)
      + (if b5 then 32 else 0) + (if b6 then 64 else 0) + (if b7 then 128 else 0)) :: bitBytes r
  | [] => []
  | r => [BitVec.ofNat 8 (r.zipIdx.foldl (fun n p => if p.1 then n + 2 ^ p.2 else n) 0)]

/-- The status line of a ring (Table 5.4). -/
def Ring.line (r : Ring) : List Byte := wordBytes ((List.range 8).map r.word)

/-- What an eviction saves of a launch's place on a tile. -/
def State.savedArea (s : State) (t : Nat) (r : Resident) : List Byte :=
  let b := s.padBase t
  r.addrs.map (fun a => memGet s.mem (b + a)) ++ bitBytes (r.words.map fun w => s.full.contains (b / 8 + w))
    ++ r.rings.flatMap fun k => ((s.tile t).rings.getD k Ring.initial).line

/-- A wave that is whole again counts as placed last (R293). -/
def State.waveBack (s : State) (w : Option Nat) : State :=
  if s.spills.any fun p => p.strand.wave = w && w.isSome then s
  else
    match s.waves.find? fun v => some v.num = w with
    | some v => if v.spilled then { s with waves := (s.waves.filter fun u => u.num != v.num) ++ [{ v with spilled := false }] } else s
    | none => s

/-- RESTORE: a spilled strand, which the supervisors chose among those of its slot (R293), returns to it with what its block holds, still out
of the rotation; a resident one returns to the rotation once its whole wave is resident (R238, R312 to R314). -/
def execRestore (who : SlotId) (uid : Nat) (s : State) : Host.Outcome State Fault Refusal :=
  .next (match s.strand? who with
    | some st =>
      if st.uid = uid && st.run.isPreempted && !(s.spills.any fun p => p.strand.wave = st.wave && st.wave.isSome)
      then s.modStrand who Strand.unpreempt
      else s
    | none =>
      match s.spills.find? fun p => p.at_ = who && p.strand.uid = uid with
      | none => s
      | some p =>
        let t := s.tile who.tile
        let ev := s.evicted.find? fun e => e.tile = who.tile && e.res.lid = p.strand.lid
        if t.fenced || t.testing
            || !((ev.map fun e => s.canReturn e).getD true)
        then s
        else
          let s := s.backFor who.tile p.strand.lid
          let k := s.blockNow p
          let s := s.setStrand who k.strand
          let s := match k.mat with
            | some m => s.modTile who.tile fun t => { t with mat := m }
            | none => s
          let s : State := { s with spills := s.spills.filter fun q => q != p }
          s.waveBack p.strand.wave)

/-- Whether a spilled strand belongs to a wave, or is the task of that uid. -/
def Spilled.isOf (p : Spilled) (wave : Nat) : Bool :=
  match p.strand.wave with
  | some v => v = wave
  | none => p.strand.uid = wave

/-- RESTORE_DEADLINE: for a spilled wave or task whose slot on the tile is taken, the supervisors pre-empt a wave that occupies one of its
slots: the lowest priority first, and of those the one placed earliest (R293); with no wave left there, the tasks that do (R248). Time itself
is not modelled (log 14). -/
def execRestoreDeadline (tile : Nat) (waveId : Nat) (s : State) : Host.Outcome State Fault Refusal :=
  let wanted := (s.spills.filter fun p => p.isOf waveId && p.at_.tile = tile).map (·.at_)
  let holders := s.waves.filter fun v => !v.spilled && v.num != waveId && v.members.any fun y =>
    wanted.contains y && ((s.strand? y).bind (·.wave)) = some v.num
  let best := holders.foldl (fun (r : Option Wave) v =>
    match r with
    | none => some v
    | some u => if s.prioOf v.lid < s.prioOf u.lid then some v else some u) none
  .next (match best with
    | none => (wanted.filter fun y => ((s.strand? y).map fun st => decide (st.wave = none)).getD false).foldl (fun s y => s.requestPreempt y) s
    | some v => v.members.foldl (fun s y => s.requestPreempt y) s)

/-- Whether a transfer of a channel writes into a launch's ranges on a tile (R314). -/
def State.writesInto (s : State) (from_ tile : Nat) (r : Resident) (t : Transfer) : Bool :=
  let f : Fields := t.fields
  let e := extent f.count f.dstep f.ndim
  let lo : Nat := ((t.dst : Int) + e.1).toNat
  let hi : Nat := ((t.dst : Int) + e.2).toNat + f.esize
  let b := s.padBase tile
  f.total != 0
    && (if t.dstKind = 8 then from_ = tile && r.ranges.any fun k => !apart k (lo, hi)
      else t.dstKind = 0 && (pagesOf lo (hi - lo)).any fun p =>
        match s.viaLoc (t.via from_) p.1 .write with
        | .ok l => l.dev = thisDev && r.ranges.any fun k => !apart (b + k.1, b + k.2) (l.addr, l.addr + (p.2 - p.1))
        | .error _ => false)

/-- LAUNCH_EVICT: with every wave of a launch on the tile spilled and nothing writing into its region, its bytes and descriptors are
saved in protected HBM, where the firmware chose, and freed, for a wave of higher priority that waits or was evicted itself (R314). -/
def execLaunchEvict (tile : Nat) (ev : Eviction) (s : State) : Host.Outcome State Fault Refusal :=
  let lid := ev.lid
  let base := ev.base
  .next (match s.residOf tile lid with
    | none => s
    | some r =>
      let busy := (s.tile tile).strands.any (fun p => p.2.lid = lid && !p.2.sup)
        || s.tiles.any fun q => q.2.chans.any fun c => c.queue.any fun t => t.lid = lid || s.writesInto q.1 tile r t
      if busy || !s.padWanted tile lid || !s.areaFree base r.savedSize then s
      else
        let e : Evicted := ⟨tile, r, base, r.rings.map fun k => (k, (s.tile tile).rings.getD k Ring.initial)⟩
        let s := s.putBytes base (s.savedArea tile r)
        let s := s.modTile tile fun t => { t with resid := t.resid.filter fun q => q.lid != lid }
        { s with evicted := s.evicted ++ [e] })

/-! ## Load exchange and classes (R291, R292) -/

def Task.forked : Task → Bool
  | ⟨_, _, _, .forked _ _, _⟩ => true
  | _ => false

/-- The movable entries of a kind on a tile. -/
def Tile.load (t : Tile) (k : Core) : Nat := ((t.deque ++ t.overflow).filter fun q => q.forked && q.core = k).length

/-- The nearest enabled tile in each of the four directions on the same field die. -/
def State.neighbours (s : State) (t : Nat) : List Nat :=
  let r := s.tileRow t
  let c := s.tileCol t
  let up := (List.range (r % 33)).map fun i => (r - 1 - i, c)
  let down := (List.range (32 - r % 33)).map fun i => (r + 1 + i, c)
  let left := (List.range c).map fun i => (r, c - 1 - i)
  let right := (List.range (12 - c)).map fun i => (r, c + 1 + i)
  [up, down, left, right].filterMap fun ps => ps.findSome? fun p => s.tileAt p.1 p.2

/-- A moved task: one more hop. -/
def Task.moved (k : Task) : Task :=
  match k.kind with
  | .forked a h => { k with kind := .forked a (h + 1) }
  | _ => k

def Task.hops (k : Task) : Nat := match k.kind with | .forked _ h => h | _ => 4

/-- Whether a neighbour to which a task could move is none that its launch's class prefers less than another (R292). -/
def State.bestNeighbour (s : State) (src dst : Nat) (kind : Core) (k : Task) : Bool :=
  let cls := ((s.launch? k.lid).map (·.cls)).getD 0
  (s.neighbours src).all fun u =>
    decide ((s.tile dst).preference cls ≤ (s.tile u).preference cls) || (s.tile u).fenced || !s.holdsKind u k.lid kind.num
      || decide ((s.tile src).load kind < (s.tile u).load kind + 2)

/-- LOAD_EXCHANGE: a supervisor moves forked tasks of a kind to a neighbour with fewer, from the bottom of its deque to the top of the
neighbour's (R291); a full deque's overflow list takes them as it takes a continuation. -/
def execLoadExchange (src dst : Nat) (kind : Core) (s : State) : Host.Outcome State Fault Refusal :=
  let a := (s.tile src).load kind
  let b := (s.tile dst).load kind
  .next (if (s.neighbours src).contains dst && decide (b + 2 ≤ a) && !(s.tile dst).fenced then
      let able := fun (k : Task) => k.forked && k.core = kind && decide (k.hops < 4) && s.holdsKind dst k.lid kind.num
        && s.bestNeighbour src dst kind k
      let go := ((s.tile src).deque.reverse.filter able).take (Nat.min 8 ((a - b) / 2))
      go.foldl (fun s k =>
        let s := s.modTile src fun t => { t with deque := (t.deque.reverse.erase k).reverse }
        if 64 ≤ (s.tile dst).deque.length then s.modTile dst fun t => { t with overflow := t.overflow ++ [k.moved] }
        else s.pushTask dst k.moved) s
    else s)

/-- The class that a window's counts give (R292). -/
def classOf (ops lines : Nat) : BitVec 2 := if 4 * lines ≤ ops then 1 else if 4 * ops ≤ lines then 2 else 3

/-- CLASS_WINDOW: at the end of a window the tile sets the class of each launch that is resident there, and counts anew (R292). -/
def execClassWindow (tile : Nat) (s : State) : Host.Outcome State Fault Refusal :=
  let rs := (s.tile tile).resid
  let s := rs.foldl (fun (s : State) r =>
    let c := classOf r.ops r.lines
    { s with launches := s.launches.map fun l => if l.lid = r.lid && l.cls != c then { l with cls := c } else l }) s
  .next (s.modTile tile fun t => { t with resid := t.resid.map fun r => { r with cls := classOf r.ops r.lines, ops := 0, lines := 0 } })

end Sys2Proof.Machine
end

