-- ==== Sys2Proof/Machine/Network.lean ====
section
/-!
DEFINITION. Router reductions and sends (spec/11 R229 to R233, spec/20 R368, R369) and the counter-based random words (spec/16 R338).
-/

namespace Sys2Proof.Machine

/-! ## Packet records (Table 11.10) -/

def recOrder (w0 : Word) : Bool := w0.getLsbD 63
def recRow (w0 : Word) : Nat := w0.toNat / 2 ^ 48 % 2 ^ 8
def recCol (w0 : Word) : Nat := w0.toNat / 2 ^ 44 % 2 ^ 4
def recTimeout (w0 : Word) : Nat := w0.toNat / 2 ^ 32 % 2 ^ 8
def recGroup (w0 : Word) : Nat := w0.toNat / 2 ^ 16 % 2 ^ 16
def recRowLo (w1 : Word) : Nat := w1.toNat / 2 ^ 56
def recRowHi (w1 : Word) : Nat := w1.toNat / 2 ^ 48 % 2 ^ 8
def recColLo (w1 : Word) : Nat := w1.toNat / 2 ^ 44 % 2 ^ 4
def recColHi (w1 : Word) : Nat := w1.toNat / 2 ^ 40 % 2 ^ 4
def recData (w1 : Word) : Nat := w1.toNat / 2 ^ 20 % 2 ^ 20
def recStatus (w1 : Word) : Nat := w1.toNat % 2 ^ 20

/-- The first code of R233 that a record breaks, for a tile that would send by it. -/
def State.recordBad (s : State) (tile : Nat) (send : Bool) (w0 w1 : Word) : Option Nat :=
  let r := s.tileRow tile
  let c := s.tileCol tile
  let inside := fun (r c : Nat) =>
    decide (recRowLo w1 ≤ r) && decide (r ≤ recRowHi w1) && decide (recColLo w1 ≤ c) && decide (c ≤ recColHi w1)
  if w0 &&& 0x7F000F000000FFFF != 0 || (send && (w0 &&& 0x800000FFFFFF0000 != 0 || w1 &&& 0xFFFFFF0000000000 != 0)) then some 0x50
  else if !send && recTimeout w0 = 0 then some 0x51
  else if !send && (recRowLo w1 / 33 != recRowHi w1 / 33 || !inside r c || !inside (recRow w0) (recCol w0)) then some 0x52
  else if recData w1 % 128 != 0 || recStatus w1 % 8 != 0 then some 0x53
  else none

/-- A destination that is fused off or outside the grid is translation-absent (R4); the detail word is R23's for a tile that a word names,
and the check follows those of R233 (DEDUCED, log 28). -/
def State.destAbsent (s : State) (w0 : Word) : Option Word :=
  match s.tileAt (recRow w0) (recCol w0) with
  | some _ => none
  | none => some (codeWord 0x35 (recRow w0 * 16 + recCol w0))

/-! ## The combining tree (R230) -/

/-- Element-wise addition. -/
def addElems (ty : Nat) (a b : V128) : V128 :=
  if ty = 0 then zipElems 8 (fun x y => (Fmt.f64.add .rne x y).1) a b
  else if ty = 1 then zipElems 4 (fun x y => (Fmt.f32.add .rne x y).1) a b
  else zipElems 8 (fun x y => (x + y) % 2 ^ 64) a b

/-- The sum of two sides, of which either may be missing. -/
def joinSides (ty : Nat) : Option V128 → Option V128 → Option V128
  | some a, some b => some (addElems ty a b)
  | some a, none => some a
  | none, b => b

/-- A router's place seen along the first pass: the coordinate along the chain, and the other. -/
def along (w0 : Word) (p : Nat × Nat) : Nat × Nat := if recOrder w0 then p else (p.2, p.1)
def placeOf (w0 : Word) (u v : Nat) : Nat × Nat := if recOrder w0 then (u, v) else (v, u)
def destAlong (w0 : Word) : Nat × Nat := along w0 (recRow w0, recCol w0)
def rangeAlong (w0 w1 : Word) : (Nat × Nat) × (Nat × Nat) :=
  if recOrder w0 then ((recRowLo w1, recRowHi w1), (recColLo w1, recColHi w1))
  else ((recColLo w1, recColHi w1), (recRowLo w1, recRowHi w1))

/-- The numbers lo to hi. -/
def numbers (lo hi : Nat) : List Nat := (List.range (hi + 1 - lo)).map fun i => lo + i

/-- The chain coordinates at which a chain of the first pass has a tile. -/
def State.chainTiles (s : State) (w0 w1 : Word) (v : Nat) : List Nat :=
  (numbers (rangeAlong w0 w1).1.1 (rangeAlong w0 w1).1.2).filter fun u =>
    (s.tileAt (placeOf w0 u v).1 (placeOf w0 u v).2).isSome

/-- The chains that have a tile at all. -/
def State.chains (s : State) (w0 w1 : Word) : List Nat :=
  (numbers (rangeAlong w0 w1).2.1 (rangeAlong w0 w1).2.2).filter fun v => !(s.chainTiles w0 w1 v).isEmpty

def listMax (xs : List Nat) : Option Nat := xs.foldl (fun r x => match r with | none => some x | some y => some (Nat.max x y)) none
def listMin (xs : List Nat) : Option Nat := xs.foldl (fun r x => match r with | none => some x | some y => some (Nat.min x y)) none

/-- The inputs that a router combines: 0 its own tile's, 1 and 2 the low and the high side of the first pass, 3 and 4 those of the
second. -/
def State.inputsOf (s : State) (w0 w1 : Word) (p : Nat × Nat) : List Nat :=
  let q := along w0 p
  let d := destAlong w0
  let tiles := s.chainTiles w0 w1 q.2
  let chains := s.chains w0 w1
  let low := tiles.any fun u => decide (u < q.1)
  let high := tiles.any fun u => decide (q.1 < u)
  (if tiles.contains q.1 then [0] else [])
    ++ (if low && decide (q.1 ≤ d.1) then [1] else []) ++ (if high && decide (d.1 ≤ q.1) then [2] else [])
    ++ (if q.1 = d.1 && decide (q.2 ≤ d.2) && chains.any (fun v => decide (v < q.2)) then [3] else [])
    ++ (if q.1 = d.1 && decide (d.2 ≤ q.2) && chains.any (fun v => decide (q.2 < v)) then [4] else [])

/-- What a router makes of its inputs. -/
def combine (ty : Nat) (ins : List (Nat × V128)) : Option V128 :=
  let i := fun k => assocGet ins k
  joinSides ty (joinSides ty (i 3) (i 4)) (joinSides ty (joinSides ty (i 1) (i 2)) (i 0))

/-- Where a router's sum goes next, and as which input; none at the destination. -/
def State.nextRouter (s : State) (w0 w1 : Word) (p : Nat × Nat) : Option ((Nat × Nat) × Nat) :=
  let q := along w0 p
  let d := destAlong w0
  let tiles := s.chainTiles w0 w1 q.2
  let chains := s.chains w0 w1
  if q.1 < d.1 then
    let u := (listMin (tiles.filter fun u => decide (q.1 < u) && decide (u < d.1))).getD d.1
    some (placeOf w0 u q.2, 1)
  else if d.1 < q.1 then
    let u := (listMax (tiles.filter fun u => decide (d.1 < u) && decide (u < q.1))).getD d.1
    some (placeOf w0 u q.2, 2)
  else if q.2 < d.2 then
    let v := (listMin (chains.filter fun v => decide (q.2 < v) && decide (v < d.2))).getD d.2
    some (placeOf w0 d.1 v, 3)
  else if d.2 < q.2 then
    let v := (listMax (chains.filter fun v => decide (d.2 < v) && decide (v < q.2))).getD d.2
    some (placeOf w0 d.1 v, 4)
  else none

/-! ## Groups -/

/-- The group that is open on a die under a GROUP value (R369). -/
def State.group? (s : State) (die group : Nat) : Option RGroup := s.rgroups.find? fun g => g.die = die && g.group = group && g.failed.isNone

/-- A failed group of which a tile's packet is still to come (R231). -/
def State.failedGroup? (s : State) (die group src : Nat) : Option RGroup :=
  s.rgroups.find? fun g => g.die = die && g.group = group && g.failed.isSome && g.due.contains src && !g.sent.contains src

def State.dropGroup (s : State) (die group : Nat) : State :=
  { s with rgroups := s.rgroups.filter fun k => !(k.die = die && k.group = group && k.failed.isNone) }

/-- The open group of a GROUP value, changed. -/
def State.setGroup (s : State) (g : RGroup) : State :=
  let s := s.dropGroup g.die g.group
  { s with rgroups := s.rgroups ++ [g] }

/-- A failed group is forgotten once every tile that it waited for has sent its packet. -/
def RGroup.settled (g : RGroup) : Bool := g.due.all fun t => g.sent.contains t

/-- The value of a REDUCE command's completion word (Table 14.5). -/
def reduceValue (st : Word) : Nat := st.toNat % 2 ^ 8 + 2 ^ 8 * Nat.min (st.toNat / 2 ^ 32) (2 ^ 24 - 1)

/-- The commands of a group complete with its status word. -/
def State.finishGroup (s : State) (cmds : List Nat) (st : Word) : State :=
  cmds.foldl (fun s k => s.finishCommand k (statusWord 1 0 0 (reduceValue st))) s

/-- A write of the router path into a tile's scratchpad (R200), which folds the reduction words it meets (R211) and which the cell class sees
only after a fencex where it lies in a shadow (R205). -/
def State.routerWrite (s : State) (t off : Nat) (bs : List Byte) : State := s.poke none false ⟨thisDev, s.padBase t + off⟩ bs pathRouter

/-- The status word of a group written at its destination (R231). -/
def State.groupStatus (s : State) (w0 w1 st : Word) : State :=
  match s.tileAt (recRow w0) (recCol w0) with
  | some t => s.routerWrite t (recStatus w1) (natToBytes 8 st.toNat)
  | none => s

/-- The tiles of a record's rectangle. -/
def State.contributors (s : State) (w0 w1 : Word) : List Nat :=
  (s.chains w0 w1).flatMap fun v => (s.chainTiles w0 w1 v).filterMap fun u => s.tileAt (placeOf w0 u v).1 (placeOf w0 u v).2

/-- The group completes: the result, then the status word (R231). -/
def State.completeGroup (s : State) (die group : Nat) (w0 w1 : Word) (v : V128) : State :=
  let s := match s.tileAt (recRow w0) (recCol w0) with
    | some t => s.routerWrite t (recData w1) (natToBytes 128 v.toNat)
    | none => s
  let cmds := ((s.group? die group).map (·.cmds)).getD []
  ((s.groupStatus w0 w1 1).finishGroup cmds 1).dropGroup die group

/-- The reduction-timeout fault of R231: to the contributor on the destination tile, or to its supervisor when that strand has exited. The
supervisor takes it too when no strand of the tile has contributed, or a REDUCE command has in its place (R368; DEDUCED, log 28). -/
def State.timeoutFault (s : State) (dest : Nat) (o : Option Sender) (group : Nat) : State :=
  match o with
  | some o => s.deliver o.who o.uid o.sid o.lid 14 (BitVec.ofNat 64 group)
  | none => s.modTile dest fun t =>
      t.queueEvent ⟨eventEntry true 14 (sidOf ⟨dest, .m, 0⟩ false 0), BitVec.ofNat 64 group, none⟩

/-- The sender of a packet, where a strand is. -/
def Packet.sender (p : Packet) : Option Sender := if p.cmd.isSome then none else some ⟨p.who, p.uid, p.sid, p.lid⟩

/-- What a packet of its contributor is to the groups that its die has (R231, R369). -/
inductive Standing
  | fresh
  | late (g : RGroup)
  | twice
  deriving DecidableEq, Repr

/-- A tile's packet that a failed group still waits for is late, whatever its record; a second one of the open group is discarded. -/
def State.standing (s : State) (die : Nat) (p : Packet) : Standing :=
  if p.input != 0 then .fresh
  else match s.failedGroup? die (recGroup p.rec0) p.src with
    | some g => .late g
    | none =>
      if ((s.group? die (recGroup p.rec0)).map fun g => g.came.contains p.src).getD false then .twice else .fresh

/-- A packet noted in its group: what a router keeps counts for its contributor, what one discards as missing (R369). -/
def State.noteCame (s : State) (die : Nat) (p : Packet) (kept : Bool) : State :=
  let g := (s.group? die (recGroup p.rec0)).getD ⟨die, recGroup p.rec0, p.lid, [], [], [], [], [], none, false⟩
  let own := p.input = 0
  s.setGroup { g with
    due := if own then (s.contributors p.rec0 p.rec1).foldl (fun d t => natInsert d t) g.due else g.due
    sent := if own then natInsert g.sent p.src else g.sent
    came := if own && kept then natInsert g.came p.src else g.came
    senders := match p.sender with
      | some x => if own && (kept || (assocGet g.senders p.src).isNone) then assocSet g.senders p.src x else g.senders
      | none => g.senders
    cmds := match p.cmd with | some k => g.cmds ++ [k] | none => g.cmds
    broken := g.broken || !kept }

/-- A late packet of a failed group, discarded (R231). -/
def State.lateCame (s : State) (p : Packet) (g : RGroup) : State :=
  let g' := { g with sent := natInsert g.sent p.src }
  let s : State := { s with rgroups := (s.rgroups.map fun k => if k = g then g' else k).filter fun k => !(k.failed.isSome && k.settled) }
  match p.cmd, g.failed with
    | some k, some st => s.finishGroup [k] st
    | _, _ => s

/-- The payload of a contributor, read on the router path when its own router takes the packet (R202, R233): reduction words are folded (R211)
and wrong bits corrected (R91) as by any read. -/
def State.payload (s : State) (p : Packet) : V128 × State :=
  match p.data with
  | some v => (v, s)
  | none =>
    let a := s.padBase p.src + p.pay
    let s := (s.foldFor ⟨thisDev, a⟩ 128).fixWords a 128 (BitVec.ofNat 5 p.who.member)
    (BitVec.ofNat 1024 (s.viewNat pathRouter a 128), s)

/-- A packet joins a router, which sends its sum on once it lacks nothing (R230, R369). At the destination the group is complete then; one of
which a packet was discarded waits there for its timeout (DEDUCED, log 28). -/
def State.joinRouter (s : State) (die : Nat) (p : Packet) : State :=
  let grp := recGroup p.rec0
  let here := fun (n : RNode) => n.die = die && n.group = grp && n.place = p.place
  let open_ := s.rnodes.find? here
  let node := open_.getD ⟨die, grp, p.place, p.rec0, p.rec1, p.ty, []⟩
  if node.rec0 != p.rec0 || node.rec1 != p.rec1 || node.ty != p.ty || (assocGet node.inputs p.input).isSome then s.noteCame die p false
  else
    let (x, s) := (s.noteCame die p true).payload p
    let node := { node with inputs := assocSet node.inputs p.input x }
    let kept : State := { s with rnodes := node :: s.rnodes.filter fun n => !here n }
    if (s.inputsOf p.rec0 p.rec1 p.place).all fun k => (assocGet node.inputs k).isSome then
      let s : State := { s with rnodes := s.rnodes.filter fun n => !here n }
      let v := (combine p.ty node.inputs).getD 0
      match s.nextRouter p.rec0 p.rec1 p.place with
      | some n => { s with
          nextId := s.nextId + 1
          packets := s.packets ++ [{ p with idx := s.nextId, place := n.1, input := n.2, cmd := none, data := some v }] }
      | none =>
        if ((s.group? die grp).map (·.broken)).getD false then kept
        else s.completeGroup die grp p.rec0 p.rec1 v
    else kept

/-- ROUTER_PACKET_ARRIVE: a packet of a group reaches its router; where 16 groups are open it waits (R230, R231). -/
def execRouterPacketArrive (idx : Nat) (s : State) : Host.Outcome State Fault Refusal :=
  .next (match s.packets.find? fun p => p.idx = idx && !p.send with
    | none => s
    | some p =>
      let die := s.tileDie p.src
      let grp := recGroup p.rec0
      let has := s.rnodes.any fun n => n.die = die && n.group = grp && n.place = p.place
      let full := decide (16 ≤ (s.rnodes.filter fun n => n.die = die && n.place = p.place).length)
      let ends := (s.tileAt p.place.1 p.place.2).map fun t => (s.tile t).testing
      if (!has && full) || ends = some true then s
      else
        let s : State := { s with packets := s.packets.filter fun q => q.idx != idx }
        match s.standing die p with
        | .late g => s.lateCame p g
        | .twice => s.noteCame die p false
        | _ => s.joinRouter die p)

/-- ROUTER_TIMEOUT: the timer of a router that lacks an input expires, and the group fails, once (R231, R368); the router is named as
16·row + column. A destination that lacks nothing but has a discarded packet to its group counts that one (R369; DEDUCED, log 28). The fault goes
to the contributor on the tile that the failing router's record has as the destination; its packet may still be on its way. -/
def execRouterTimeout (die group router : Nat) (s : State) : Host.Outcome State Fault Refusal :=
  .next (match s.rnodes.find? fun n => n.die = die && n.group = group && n.place = (router / 16, router % 16) with
    | none => s
    | some n =>
      let missing := ((s.inputsOf n.rec0 n.rec1 n.place).filter fun k => (assocGet n.inputs k).isNone).length
      let st := BitVec.ofNat 64 (2 + 2 ^ 32 * Nat.max 1 missing)
      let g := (s.group? die group).getD ⟨die, group, noLaunch, [], [], [], [], [], none, false⟩
      let mine := fun (p : Packet) => !p.send && s.tileDie p.src = die && recGroup p.rec0 = group
      let dest := s.tileAt (recRow n.rec0) (recCol n.rec0)
      let owner := dest.bind fun t => match assocGet g.senders t with
        | some o => some o
        | none => (s.packets.find? fun p => mine p && p.input = 0 && p.src = t && p.cmd.isNone).bind Packet.sender
      let s : State := (s.dropGroup die group)
      let s : State := { s with
        rnodes := s.rnodes.filter fun k => !(k.die = die && k.group = group)
        packets := s.packets.filter fun p => !(mine p && p.input != 0)
        rgroups := s.rgroups ++ (if g.settled then [] else [{ g with cmds := [], failed := some st }]) }
      let s := (s.groupStatus n.rec0 n.rec1 st).finishGroup g.cmds st
      match dest with
      | some t => s.timeoutFault t owner group
      | none => s)

/-- A launch that has completed has no packet to come: its failed groups are forgotten, with the packets that they would discard (R231, R371). -/
def State.forgetGroups (s : State) (lid : Nat) : State :=
  let ended := s.rgroups.filter fun g => g.failed.isSome && g.lid = lid
  let late := fun (p : Packet) => !p.send && p.input = 0 && p.cmd.isNone && p.lid = lid && ended.any fun g =>
    g.die = s.tileDie p.src && g.group = recGroup p.rec0 && g.due.contains p.src && !g.sent.contains p.src
  { s with
    rgroups := s.rgroups.filter fun g => !(g.failed.isSome && g.lid = lid)
    packets := s.packets.filter fun p => !late p }

/-- NSEND_DELIVER: the payload, read on the router path, and then the status word are written at the destination; packets of one strand to one destination
arrive in issue order (R232). -/
def execNsendDeliver (idx : Nat) (s : State) : Host.Outcome State Fault Refusal :=
  .next (match s.packets.find? fun p => p.idx = idx && p.send with
    | none => s
    | some p =>
      let before := s.packets.any fun q => q.send && decide (q.idx < p.idx) && q.uid = p.uid && q.place = p.place
      match s.tileAt p.place.1 p.place.2 with
      | none => { s with packets := s.packets.filter fun q => q.idx != idx }
      | some t =>
        if before || (s.tile t).testing then s
        else
          let s : State := { s with packets := s.packets.filter fun q => q.idx != idx }
          let (v, s) := s.payload p
          (s.routerWrite t (recData p.rec1) (natToBytes 128 v.toNat)).routerWrite t (recStatus p.rec1) (natToBytes 8 1))

/-! ## nred and nsend (R229, R233) -/

/-- A packet sent from a tile's scratchpad; its payload is read later, on the router path (R202). -/
def State.launchPacket (s : State) (tile : Nat) (send : Bool) (w0 w1 : Word) (ty pay : Nat) (who : SlotId) (sid : Word) (uid lid : Nat)
    (cmd : Option Nat) : State :=
  let place := if send then (recRow w0, recCol w0) else (s.tileRow tile, s.tileCol tile)
  { s with
    nextId := s.nextId + 1
    packets := s.packets ++ [⟨s.nextId, send, w0, w1, ty, tile, place, 0, who, sid, uid, lid, cmd, pay, none⟩] }

/-- nred and nsend: alignment, pad-bounds, the record, read as a load of the strand (R204), its destination, then the packet. -/
def State.router (s : State) (m send : Bool) (ty : Nat) (a b : Spec) : Host.Outcome State Fault Refusal :=
  s.issue m { srcs := [(0, false, a), (1, false, b)], access := true, aborts := true } fun st =>
    let ea := st.rs a
    let eb := st.rs b
    if ea.toNat % 128 != 0 then .fault 7 ea
    else if eb.toNat % 8 != 0 then .fault 7 eb
    else match s.padAddr s.cur st ea 128 with
      | .error e => .fault e.1 e.2
      | .ok pay =>
        (s.padRead s.cur st eb 16).act fun bs s =>
          let w0 := wordAt bs 0
          let w1 := wordAt bs 8
          match s.recordBad s.cur.tile send w0 w1, s.destAbsent w0 with
          | some c, _ => .faultIn s 4 (codeWord c (eb.toNat % 2 ^ 56))
          | none, some d => .faultIn s 8 d
          | none, none => .ok (s.launchPacket s.cur.tile send w0 w1 ty pay s.cur st.sid st.uid st.lid none)

def execNred (m : Bool) (t : BitVec 4) (a b : Spec) (s : State) := s.router m false t.toNat a b
def execNsend (m : Bool) (a b : Spec) (s : State) := s.router m true 0 a b

/-! ## rndc (R338) -/

/-- One round of Philox-4x32: counter words c0 to c3 under key words k0, k1. -/
def philoxRound (c : Nat × Nat × Nat × Nat) (k0 k1 : Nat) : Nat × Nat × Nat × Nat :=
  let p0 := 0xD2511F53 * c.1
  let p1 := 0xCD9E8D57 * c.2.2.1
  (Nat.xor (Nat.xor (p1 / 2 ^ 32) c.2.1) k0, p1 % 2 ^ 32, Nat.xor (Nat.xor (p0 / 2 ^ 32) c.2.2.2) k1, p0 % 2 ^ 32)

/-- n rounds from a key on, the key raised after each. -/
def philox : Nat → Nat × Nat × Nat × Nat → Nat → Nat → Nat × Nat × Nat × Nat
  | 0, c, _, _ => c
  | n + 1, c, k0, k1 => philox n (philoxRound c k0 k1) ((k0 + 0x9E3779B9) % 2 ^ 32) ((k1 + 0xBB67AE85) % 2 ^ 32)

/-- Philox-4x32-10 of a counter and a key: words 1:0 or words 3:2. -/
def rndcWord (hi : Bool) (a b : Word) : Word :=
  let c := philox 10 (a.toNat % 2 ^ 32, a.toNat / 2 ^ 32, 0, 0) (b.toNat % 2 ^ 32) (b.toNat / 2 ^ 32)
  BitVec.ofNat 64 (if hi then c.2.2.2 * 2 ^ 32 + c.2.2.1 else c.2.1 * 2 ^ 32 + c.1)

def execRndcLo (m : Bool) (d a b : Spec) (s : State) := s.alu m { useAB d a b with aborts := true } d fun st => rndcWord false (st.rs a) (st.rs b)
def execRndcHi (m : Bool) (d a b : Spec) (s : State) := s.alu m { useAB d a b with aborts := true } d fun st => rndcWord true (st.rs a) (st.rs b)

end Sys2Proof.Machine
end

