-- ==== Sys2Proof/Machine/Serving.lean ====
section
/-!
DEFINITION. The serving engines (spec/16 R327 to R346): service queues, vocabulary images, text to ids, intake and outfall.
-/

namespace Sys2Proof.Machine

/-! ## Memory as an engine reaches it -/

/-- The place of a virtual address; none where its translation fails. -/
def State.vaLoc (s : State) (v : Via) (va : Nat) (kind : AccKind) : Option Loc :=
  match s.viaLoc v va kind with
  | .ok p => some p
  | .error _ => none

/-- What an engine's access to n bytes leaves behind of itself: its pages in the translation buffers (R56), the reduction words there folded
(R211). -/
def State.vaTouch (s : State) (v : Via) (va n : Nat) (kind : AccKind) : State :=
  (pagesOf va n).foldl (fun (s : State) q =>
    match s.engineLoc v.tile v.ptroot v.sup q.1 kind with
    | (.ok p, s) => s.foldFor p (q.2 - q.1)
    | (.error _, s) => s) s

/-- Whether an engine's access to n bytes can be made now: it waits for no walker (R57), and none of its places is in the window of a tile that
is being tested (R321). -/
def State.reaches (s : State) (v : Via) (va n : Nat) (kind : AccKind) : Bool :=
  !s.viaWaits v va n && (pagesOf va n).all fun q => ((s.vaLoc v q.1 kind).map s.served).getD true

/-- n bytes from a virtual address up, as the io path finds them; none where some byte cannot be read here. -/
def State.vaRead (s : State) (v : Via) (va : Nat) : Nat → Option (List Byte)
  | 0 => some []
  | n + 1 =>
    match s.vaLoc v va .read, s.vaRead v (va + 1) n with
    | some p, some r => if p.dev = thisDev then some (s.peekAs pathIo p 1 ++ r) else none
    | _, _ => none

/-- A little-endian number read so; 0 where it cannot be read. -/
def State.vaNat (s : State) (v : Via) (va n : Nat) : Nat := ((s.vaRead v va n).map bytesToNat).getD 0

/-- Bytes written from a virtual address up, each where its translation allows. -/
def State.vaWrite (s : State) (v : Via) (va : Nat) (cls : Nat) : List Byte → State
  | [] => s
  | b :: r =>
    let s := match s.vaLoc v va .write with
      | some p => s.poke none v.sup p [b] cls
      | none => s
    s.vaWrite v (va + 1) cls r

/-- A word written so in one access. -/
def State.vaWord (s : State) (v : Via) (va : Nat) (w : Word) (cls : Nat := pathIo) : State :=
  match s.engineLoc v.tile v.ptroot v.sup va .write with
  | (.ok p, s) => s.poke none v.sup p (natToBytes 8 w.toNat) cls
  | (.error _, s) => s

/-! ## Vocabulary images (R329) -/

/-- An image as an engine reads it: a number of n bytes at an offset. -/
abbrev Image.Read := Nat → Nat → Nat

def vocabHbits (rd : Image.Read) : Nat := rd 6 1 % 32
def vocabTokens (rd : Image.Read) : Nat := rd 0 4 % 2 ^ 21

/-- Whether a header breaks Table 16.4. -/
def vocabBad (rd : Image.Read) : Bool :=
  let w0 := rd 0 8
  let w1 := rd 8 8
  let h := vocabHbits rd
  let n := vocabTokens rd
  let off := fun k => rd (8 * k) 8
  w0 / 2 ^ 53 != 0 || w0 / 2 ^ 21 % 2 ^ 27 != 0 || decide (h < 8) || decide (24 < h) || decide (n < 257) || decide (1048576 < n)
    || decide (n ≤ w1) || [2, 3, 4].any (fun k => decide (2 ^ 32 ≤ off k) || off k % 64 != 0) || [5, 6, 7].any fun k => off k != 0

/-- The probes of a lookup: rank and result, or none (R329). -/
def vocabProbe (rd : Image.Read) (a b h0 : Nat) : Nat → Nat → Option (Nat × Nat)
  | 0, _ => none
  | f + 1, i =>
    let at_ := rd 32 8 + 16 * ((h0 + i) % 2 ^ vocabHbits rd)
    let w0 := rd at_ 8
    let w1 := rd (at_ + 8) 8
    if w0 / 2 ^ 63 = 0 then none
    else if w0 / 2 ^ 21 % 2 ^ 21 = a && w0 % 2 ^ 21 = b then some (w1 / 2 ^ 32, w1 % 2 ^ 21)
    else vocabProbe rd a b h0 f (i + 1)

def vocabLookup (rd : Image.Read) (a b : Nat) : Option (Nat × Nat) :=
  let key := a * 2 ^ 21 + b
  let h := key * 0x9E3779B97F4A7C15 % 2 ^ 64 / 2 ^ (64 - vocabHbits rd)
  vocabProbe rd a b h (2 ^ vocabHbits rd) 0

/-- A token's bytes; none for an id that is unused or too high. -/
def vocabBytes (rd : Image.Read) (t : Nat) : Option (List Byte) :=
  if vocabTokens rd ≤ t then none
  else
    let e := rd (rd 16 8 + 8 * t) 8
    let len := e / 2 ^ 32 % 2 ^ 8
    if len = 0 then none else some ((List.range len).map fun i => BitVec.ofNat 8 (rd (rd 24 8 + e % 2 ^ 32 + i) 1))

/-! ## UTF-8 (RFC 3629) -/

/-- The ranges that the bytes after a lead byte must lie in; none for a byte that begins no sequence. -/
def utf8Tail (b : Nat) : Option (List (Nat × Nat)) :=
  let c := (0x80, 0xBF)
  if b < 0x80 then some []
  else if b < 0xC2 then none
  else if b < 0xE0 then some [c]
  else if b = 0xE0 then some [(0xA0, 0xBF), c]
  else if b = 0xED then some [(0x80, 0x9F), c]
  else if b < 0xF0 then some [c, c]
  else if b = 0xF0 then some [(0x90, 0xBF), c, c]
  else if b < 0xF4 then some [c, c, c]
  else if b = 0xF4 then some [(0x80, 0x8F), c, c]
  else none

/-- How many of the ranges the next bytes fill, in order. -/
def utf8Fill : List (Nat × Nat) → List Byte → Nat
  | r :: rs, b :: bs => if r.1 ≤ b.toNat && b.toNat ≤ r.2 then utf8Fill rs bs + 1 else 0
  | _, _ => 0

/-- What stands at the head of a byte string: a well-formed sequence of a length; a proper prefix of one that the string ends in; or the
maximal subpart of an ill-formed one. -/
inductive Utf8
  | good (n : Nat)
  | part (n : Nat)
  | bad (n : Nat)
  deriving DecidableEq, Repr

def utf8Head (b : Byte) (r : List Byte) : Utf8 :=
  match utf8Tail b.toNat with
  | none => .bad 1
  | some rs =>
    let k := utf8Fill rs r
    if k = rs.length then .good (k + 1) else if k = r.length then .part (k + 1) else .bad (k + 1)

/-! ## Text to ids (R331, R332) -/

inductive CharClass
  | letter | digit | space | other
  deriving DecidableEq, Repr

def classByte (n : Nat) : CharClass :=
  if 0x80 ≤ n then .letter
  else if (0x41 ≤ n && n ≤ 0x5A) || (0x61 ≤ n && n ≤ 0x7A) then .letter
  else if 0x30 ≤ n && n ≤ 0x39 then .digit
  else if (9 ≤ n && n ≤ 0xD) || n = 0x20 then .space
  else .other

/-- The characters of a text with their classes; the fuel is the text's length. -/
def textChars : Nat → List Byte → List (CharClass × List Byte)
  | 0, _ => []
  | _, [] => []
  | f + 1, b :: r =>
    match utf8Head b r with
    | .good n => (classByte b.toNat, (b :: r).take n) :: textChars f ((b :: r).drop n)
    | _ => (.other, [b]) :: textChars f r

abbrev Chars := List (CharClass × List Byte)
def Chars.bytes (c : Chars) : List Byte := c.flatMap (·.2)

/-- A maximal run of one class, ended at the last character boundary at or below 4,096 bytes (R331): the run and what follows. -/
def runOf (k : CharClass) : Nat → Chars → Chars × Chars
  | room, p :: r =>
    if p.1 = k && p.2.length ≤ room then
      let q := runOf k (room - p.2.length) r
      (p :: q.1, q.2)
    else ([], p :: r)
  | _, [] => ([], [])

/-- The next piece by the rule set of R331, and what follows. -/
def nextPiece (cs : Chars) : Chars × Chars :=
  let body := match cs with
    | (.space, [0x20]) :: r => r
    | _ => cs
  let lead := cs.take (cs.length - body.length)
  match cs, body with
  | (.digit, _) :: _, _ =>
    let n := ((cs.take 3).takeWhile fun p => p.1 = .digit).length
    (cs.take n, cs.drop n)
  | _, (.letter, _) :: _ => let q := runOf .letter 4096 body; (lead ++ q.1, q.2)
  | _, (.other, _) :: _ => let q := runOf .other 4096 body; (lead ++ q.1, q.2)
  | _, _ =>
    let q := runOf .space 4096 cs
    let leaves := decide (2 ≤ q.1.length) && q.1.getLast? = some (.space, [0x20])
      && (match q.2 with | (.letter, _) :: _ => true | (.other, _) :: _ => true | _ => false)
    if leaves then (q.1.dropLast, (.space, [0x20]) :: q.2) else q

/-- The pieces of a text; the fuel is the number of its characters. -/
def pieces : Nat → Chars → List (List Byte)
  | 0, _ => []
  | _, [] => []
  | f + 1, cs =>
    let q := nextPiece cs
    q.1.bytes :: pieces f q.2

/-- The leftmost pair of lowest rank: position and result (R332). -/
def bestPair (rd : Image.Read) (x : List Nat) : Option (Nat × Nat) :=
  ((List.range (x.length - 1)).foldl (fun (r : Option (Nat × Nat × Nat)) j =>
    match vocabLookup rd (x.getD j 0) (x.getD (j + 1) 0) with
    | none => r
    | some e =>
      match r with
      | none => some (j, e)
      | some b => if e.1 < b.2.1 then some (j, e) else r) none).map fun b => (b.1, b.2.2)

/-- The merging of R332; the fuel is the length. -/
def mergeIds (rd : Image.Read) : Nat → List Nat → List Nat
  | 0, x => x
  | f + 1, x =>
    match bestPair rd x with
    | none => x
    | some (j, v) => mergeIds rd f (x.take j ++ v :: x.drop (j + 2))

/-- The ids of a text. -/
def textIds (rd : Image.Read) (text : List Byte) : List Nat :=
  (pieces text.length (textChars text.length text)).flatMap fun p => mergeIds rd p.length (p.map (·.toNat))

/-! ## Service queues and slots (Tables 16.1 to 16.3) -/

def State.svcQueue (s : State) (handle asid : BitVec 16) : Option SvcQueue :=
  s.svcQueues.find? fun q => q.handle = handle && q.asid = asid

def SvcQueue.slotAt (q : SvcQueue) (n : Nat) : Nat := q.slots.toNat + 64 * n

/-- How the port die reaches a queue's doorbell (R55, R327): in the queue's address space, in user mode (log 48). -/
def SvcQueue.engineVia (q : SvcQueue) (s : State) : Via := ⟨s.engineTile, q.ptroot, false⟩

/-- The longest message: a header and 1,048,512 bytes of text (R327). -/
def maxMessage : Nat := 64 + 1048512

/-- SQ_MESSAGE_ARRIVE: a complete message enters its queue while that has room, and the doorbell counts it (R327). A longer one than R327 has
never arrives (DESIGN CHOICE, log 62). -/
def execSqMessageArrive (handle asid : BitVec 16) (msg : List Byte) (s : State) : Host.Outcome State Fault Refusal :=
  .next (match s.svcQueue handle asid with
    | none => s
    | some q =>
      let v := q.engineVia s
      if q.depth ≤ q.msgs.length || maxMessage < msg.length || !s.reaches v q.doorbell.toNat 8 .rw then s
      else
        let s : State := { s with svcQueues := s.svcQueues.map fun k =>
          if k.handle = handle && k.asid = asid then { k with msgs := k.msgs ++ [msg] } else k }
        match s.engineLoc v.tile v.ptroot v.sup q.doorbell.toNat .rw with
        | (.ok p, s) =>
          let s := s.foldFor p 8
          s.poke none false p (natToBytes 8 (bytesToNat (s.peek p 8) + 1))
        | (.error _, s) => s)

/-- Word k of a message. -/
def msgWord (msg : List Byte) (k : Nat) : Nat := bytesToNat ((msg.drop (8 * k)).take 8)

/-- Whether a request header breaks Table 16.3 or a range of Table 16.2. -/
def headerBad (msg : List Byte) : Bool :=
  let w := msgWord msg
  let temp := w 3 / 2 ^ 32
  let topp := w 3 % 2 ^ 32
  let minp := w 4 / 2 ^ 32
  decide (msg.length < 64) || w 0 / 2 ^ 48 != 0 || w 0 / 2 ^ 16 % 2 ^ 16 != 0 || w 1 != 0 || w 7 != 0
    || decide (0x7F800000 ≤ temp) || topp = 0 || decide (0x3F800000 < topp) || decide (0x3F800000 ≤ minp)
    || w 4 / 2 ^ 16 % 2 ^ 16 != 0 || decide (1024 < w 4 % 2 ^ 16) || w 5 / 2 ^ 32 = 0 || w 5 % 2 ^ 32 != 0 || w 6 % 2 ^ 32 / 2 != 0

/-! ## Intake (R333 to R335) -/

/-- The status word of R334. -/
def serveStatus (code slot n : Nat) : Word := BitVec.ofNat 64 (code * 2 ^ 56 + slot % 2 ^ 16 * 2 ^ 40 + n % 2 ^ 32)

/-- The answer of an intk. -/
def State.answerIntk (s : State) (r : IntkReq) (v : Word) : State :=
  { s with intkReqs := s.intkReqs.filter fun k => k.id != r.id }.finishLong r.id v

/-- A refused message: discarded, its status sent to REPLY when that is open. -/
def State.refuseMsg (s : State) (r : IntkReq) (reply : BitVec 16) (code slot : Nat) : State :=
  let v := serveStatus code slot 0
  let s := s.answerIntk r v
  if s.sendQueues.contains reply then { s with netOut := s.netOut ++ [⟨reply, 0, true, natToBytes 8 v.toNat⟩] } else s

/-- A pin of an engine on a buffer of a cell given back. -/
def State.unpinCell (s : State) (c : Nat) (b : Bool) : State :=
  match s.cell? c with
  | some x => (s.putCell (x.setPins b (x.pins b - 1))).settle x.sheet
  | none => s

/-- The engine's way to the memory of its request. -/
def IntkReq.via (r : IntkReq) (ptroot : Word) : Via := ⟨r.tile, ptroot, r.sup⟩

/-- A request whose prompt can no more be committed: the vocabulary pin goes back and the slot is free again (DEDUCED, log 29). -/
def State.undoIntake (s : State) (r : IntkReq) (j : IntkJob) : State :=
  let v := r.via j.ptroot
  (s.unpinCell j.vocab j.vbuf).vaWord v j.base (BitVec.ofNat 64 (s.vaNat v j.base 8 % 2 ^ 62))

/-- A request whose engine goes on with it later. -/
def State.keepJob (s : State) (r : IntkReq) (j : IntkJob) : State :=
  { s with intkReqs := s.intkReqs.map fun k => if k.id = r.id then { k with job := some j } else k }

/-- The prompt opened, written and committed (R333, R335): elements of .n32, written on the io path (R200); what the engine has written is in the
version that it commits. -/
def State.fillPrompt (s : State) (r : IntkReq) (j : IntkJob) (c : Cell) : State :=
  let elems := j.ids.length :: j.ids
  let words := elems ++ List.replicate (c.bytes / 4 - elems.length) 0
  let buf := (c.buf (!c.cur)).toNat
  let v := r.via j.ptroot
  let s := (s.vaTouch v buf c.bytes .write).vaWrite v buf pathIo (words.flatMap fun w => natToBytes 4 w)
  let s : State := { s with lags := lagsDrop s.lags pathCell (inRanges (s.bufPieces c (!c.cur))) }
  let s := ((s.fixVersion c.num).publishBatch c.sheet [c.num]).1
  s.answerIntk r (serveStatus 1 j.slot j.ids.length)

/-- The last part of an intake: it waits, as a cwopen does, while the shadow is held or open, for its place at the sluice, and until it can reach
the shadow. A prompt that is
no input any more is refused as before; the status of one whose sheet has no generation left is not stated, so it is free (log 62). -/
def State.intakeCommit (s : State) (r : IntkReq) (j : IntkJob) : State :=
  match s.cell? j.cell with
  | none => (s.undoIntake r j).refuseMsg r j.reply 0x16 j.slot
  | some c =>
    let sh := s.sheet? c.sheet
    let busy := c.opened || s.shadowHeld c || (sh.map fun sh => !sh.ops.isEmpty).getD true || s.shadowWaits j.cell
      || !s.reaches (r.via j.ptroot) (c.buf (!c.cur)).toNat c.bytes .write
    if !c.input then (s.undoIntake r j).refuseMsg r j.reply 0x16 j.slot
    else if busy then s.keepJob r j
    else if (sh.map fun sh => decide (2 ^ 32 - 1 ≤ sh.gen)).getD false then
      let (w, s) := (s.undoIntake r j).free
      s.answerIntk r w
    else s.fillPrompt r j c

/-- The second part: the vocabulary is snapshot, once it is neither stale nor computing (R330, R279), the text tokenised, the slot written. A
vocabulary that does not exist, or whose pins are full, is refused as one that failed (log 29). -/
def State.intakeIds (s : State) (r : IntkReq) (j : IntkJob) (msg : List Byte) : State :=
  let via := r.via j.ptroot
  match s.cell? j.vocab, s.cell? j.cell with
  | some v, some p =>
    let buf := (v.buf v.cur).toNat
    let rd : Image.Read := fun off n => s.vaNat via (buf + off) n
    if v.state = 1 || v.state = 2 || !s.reaches via buf v.bytes .read || !s.reaches via j.base 64 .rw then s.keepJob r j
    else if v.state = 3 || v.pins v.cur = 65535 || vocabBad rd then s.refuseMsg r j.reply 0x14 j.slot
    else
      let ids := textIds rd (msg.drop 64)
      if p.bytes / 4 < 1 + ids.length then s.refuseMsg r j.reply 0x13 j.slot
      else
        let s := s.putCell (v.setPins v.cur (v.pins v.cur + 1))
        let stream := s.vaNat via (j.base + 8) 8 % 2 ^ 24
        let w0 := s.vaNat via j.base 8
        let words : List Nat := [j.vocab * 2 ^ 32 + stream, msgWord msg 2, msgWord msg 3, msgWord msg 4, msgWord msg 5, msgWord msg 6, buf]
        let s := (words.zipIdx).foldl (fun (s : State) w => s.vaWord via (j.base + 8 * (w.2 + 1)) (BitVec.ofNat 64 w.1)) s
        let s := s.vaWord via j.base (BitVec.ofNat 64 (2 ^ 62 + j.reply.toNat * 2 ^ 32 + w0 % 2 ^ 24))
        s.intakeCommit r { j with msg := none, vbuf := v.cur, ids := ids }
  | none, _ => s.refuseMsg r j.reply 0x14 j.slot
  | _, none => s.refuseMsg r j.reply 0x16 j.slot

/-- The first part: a message taken and judged (R333), once the engine can reach its slot. A slot that cannot be reached refuses the message as a slot number out of range does
(log 29). -/
def State.intakeTake (s : State) (r : IntkReq) : State :=
  match s.svcQueue r.handle r.asid with
  | none => s.answerIntk r (serveStatus 0x15 0 0)
  | some q =>
    match q.msgs with
    | [] => s.answerIntk r (serveStatus 0x10 0 0)
    | msg :: rest =>
      if !s.reaches (r.via q.ptroot) (q.slotAt (msgWord msg 0 % 2 ^ 16)) 64 .read then s else
      let s : State := { s with svcQueues := s.svcQueues.map fun k =>
        if k.handle = q.handle && k.asid = q.asid then { k with msgs := rest } else k }
      let via := r.via q.ptroot
      let slot := msgWord msg 0 % 2 ^ 16
      let reply := BitVec.ofNat 16 (msgWord msg 0 / 2 ^ 32)
      let base := q.slotAt slot
      if headerBad msg || decide (q.nslot ≤ slot) || (s.vaRead via base 64).isNone then s.refuseMsg r reply 0x12 slot
      else
        let s := s.vaTouch via base 64 .read
        let w0 := s.vaNat via base 8
        if w0 / 2 ^ 62 != 0 then s.refuseMsg r reply 0x11 slot
        else
          let prompt := w0 % 2 ^ 24
          if ((s.cell? prompt).map fun (c : Cell) => c.input).getD false then
            s.intakeIds r ⟨q.ptroot, prompt, slot, base, reply, q.vocab, some msg, false, []⟩ msg
          else s.refuseMsg r reply 0x16 slot

/-- Whether one of the 8 intake engines is free. -/
def State.intakeFree (s : State) : Bool := decide ((s.intkReqs.filter fun k => k.job.isSome).length < 8)

/-- INTAKE: an intake engine works on an intk (R333); while every engine is busy the request waits. -/
def execIntake (idx : Nat) (s : State) : Host.Outcome State Fault Refusal :=
  .next (match s.intkReqs[idx]? with
    | none => s
    | some r =>
      match r.job with
      | some j =>
        match j.msg with
        | some msg => s.intakeIds r j msg
        | none => s.intakeCommit r j
      | none => if s.intakeFree then s.intakeTake r else s)

def execIntk (m : Bool) (d a : Spec) (s : State) :=
  s.issue m { useSluice d a with aborts := true } fun st =>
    let (id, s) := s.sendResult st d false
    .ok { s with intkReqs := s.intkReqs ++ [⟨id, (st.rs a).setWidth 16, asidOf st.regs.ptroot, s.cur.tile, st.sup, none⟩] }

/-! ## Outfall (R343 to R346) -/

/-- outf (R346): its status, and the state with the engine attached. The status of an outf that finds the version's pins full, where cpin has a
fault and outf has none, is not stated, so it is free (log 62). -/
def State.attach (s : State) (st : Strand) (n : Nat) : Word × State :=
  match s.cell? n with
  | none => (serveStatus 0x22 0 0, s)
  | some c =>
    if !c.input then (serveStatus 0x22 0 0, s)
    else if s.outfalls.any fun o => o.cell = n then (serveStatus 0x20 0 0, s)
    else if c.pins c.cur = 65535 then s.free
    else
      let v : Via := ⟨s.cur.tile, st.regs.ptroot, st.sup⟩
      let s := s.vaTouch v (c.buf c.cur).toNat 4 .read
      let e0 := s.vaNat v (c.buf c.cur).toNat 4
      let slot := e0 % 2 ^ 16
      let handle := BitVec.ofNat 16 (e0 / 2 ^ 16)
      match s.svcQueue handle (asidOf st.regs.ptroot) with
      | none => (serveStatus 0x23 slot 0, s)
      | some q =>
        let v : Via := { v with ptroot := q.ptroot }
        if q.nslot ≤ slot || s.vaNat v (q.slotAt slot + 8) 8 % 2 ^ 24 != n then (serveStatus 0x23 slot 0, s)
        else if 4096 ≤ (s.outfalls.filter fun o => o.handle.toNat % 8 = handle.toNat % 8).length then (serveStatus 0x21 slot 0, s)
        else
          let s := s.putCell (c.setPins c.cur (c.pins c.cur + 1))
          (serveStatus 1 slot 0, { s with outfalls := s.outfalls ++ [⟨n, handle, slot, q.ptroot, s.cur.tile, st.sup, [c.cur], []⟩] })

/-- Whether an outf can read what it reads now: its cell's first element, and the slot that this names (R57, R321). -/
def State.attachReaches (s : State) (st : Strand) (n : Nat) : Bool :=
  match s.cell? n with
  | none => true
  | some c =>
    let v : Via := ⟨s.cur.tile, st.regs.ptroot, st.sup⟩
    !c.input || (s.reaches v (c.buf c.cur).toNat 4 .read &&
      (let e0 := s.vaNat v (c.buf c.cur).toNat 4
       ((s.svcQueue (BitVec.ofNat 16 (e0 / 2 ^ 16)) (asidOf st.regs.ptroot)).map fun q =>
         s.reaches { v with ptroot := q.ptroot } (q.slotAt (e0 % 2 ^ 16)) 16 .read).getD true))

/-- outf waits at its turns until it can make its reads, and then answers (R346). -/
def execOutf (m : Bool) (d a : Spec) (s : State) :=
  s.issue m { useSluice d a with aborts := true } fun st =>
    let n := (st.rs a).toNat % 2 ^ 24
    if !s.attachReaches st n then .forfeit
    else
      let (v, s) := s.attach st n
      .ok (s.sendWord st d false v)

def replacement : List Byte := [0xEF, 0xBF, 0xBD]

/-- The edit of R345: what is sent, and the tail held back; the fuel is the string's length. -/
def editBytes (ends : Bool) : Nat → List Byte → List Byte × List Byte
  | 0, _ => ([], [])
  | _, [] => ([], [])
  | f + 1, b :: r =>
    match utf8Head b r with
    | .good n =>
      let q := editBytes ends f ((b :: r).drop n)
      ((b :: r).take n ++ q.1, q.2)
    | .part _ => if ends then (replacement, []) else ([], b :: r)
    | .bad n =>
      let q := editBytes ends f ((b :: r).drop n)
      (replacement ++ q.1, q.2)

/-- The engine's way to the memory of its attachment. -/
def Outfall.via (o : Outfall) : Via := ⟨o.tile, o.ptroot, o.sup⟩

/-- The end of a response: the vocabulary pin and the attachment go, and the slot is free, as a release that strands see (R345). -/
def State.endOutfall (s : State) (o : Outfall) (base : Nat) : State :=
  let vocab := s.vaNat o.via (base + 8) 8 / 2 ^ 32 % 2 ^ 24
  let vbuf := s.vaNat o.via (base + 56) 8 % 2 ^ 56
  let s := match s.cell? vocab with
    | some v => if v.buf0.toNat = vbuf then s.unpinCell vocab false else if v.buf1.toNat = vbuf then s.unpinCell vocab true else s
    | none => s
  let s : State := { s with outfalls := s.outfalls.filter fun k => k.cell != o.cell }
  let s := o.todo.foldl (fun (s : State) b => s.unpinCell o.cell b) s
  s.vaWord o.via base (BitVec.ofNat 64 (s.vaNat o.via base 8 % 2 ^ 62)) pathStrand

/-- OUTFALL_VERSION: the engine sends the oldest version that it has pinned (R344, R345), once it can reach the version and its slot. -/
def execOutfallVersion (cell : Nat) (s : State) : Host.Outcome State Fault Refusal :=
  .next (match s.outfalls.find? fun o => o.cell = cell, s.cell? cell with
    | some o, some c =>
      match o.todo with
      | [] => s
      | b :: todo =>
        let buf := (c.buf b).toNat
        let base := ((s.svcQueue o.handle (asidOf o.ptroot)).map fun q => q.slotAt o.slot).getD 0
        let vlen := ((s.cell? (s.vaNat o.via (base + 8) 8 / 2 ^ 32 % 2 ^ 24)).map (·.bytes)).getD 0
        let vword := s.vaNat o.via (base + 56) 8 % 2 ^ 56
        if !s.reaches o.via buf c.bytes .read || !s.reaches o.via base 64 .rw || !s.reaches o.via vword vlen .read then s else
        let s := s.vaTouch o.via buf c.bytes .read
        let reply := BitVec.ofNat 16 (s.vaNat o.via base 8 / 2 ^ 32)
        let vbuf := s.vaNat o.via (base + 56) 8 % 2 ^ 56
        let rd : Image.Read := fun off n => s.vaNat o.via (vbuf + off) n
        let e1 := s.vaNat o.via (buf + 4) 4
        let ends := decide (e1 / 2 ^ 8 % 2 = 1)
        let k := Nat.min (e1 % 2 ^ 8) (c.bytes / 4 - 2)
        let ids := (List.range k).map fun i => s.vaNat o.via (buf + 4 * (i + 2)) 4
        let bytes := o.held ++ ids.flatMap fun t => (vocabBytes rd t).getD replacement
        let q := editBytes ends bytes.length bytes
        let s : State := if (q.1.isEmpty && !ends) || !s.sendQueues.contains reply then s
          else { s with netOut := s.netOut ++ [⟨reply, 0, ends, q.1⟩] }
        let o := { o with todo := todo, held := q.2 }
        let s : State := { s with outfalls := s.outfalls.map fun x => if x.cell = cell then o else x }
        let s := s.unpinCell cell b
        if ends then s.endOutfall o base else s
    | _, _ => s)

end Sys2Proof.Machine
end

