-- ==== Sys2Proof/Machine/Commands.lean ====
section
/-!
DEFINITION. Command rings and commands (spec/14 R281 to R290, R375), the completion of commands and launches (spec/12 R247), turnouts
(R295 to R297) and the commits of deterministic lanes (R298 to R300).
-/

namespace Sys2Proof.Machine

/-! ## The rings (R282 to R284) -/

/-- RING_RESERVE: a read of RESV (R283). -/
def execRingReserve (n : Nat) (s : State) : Host.Outcome State Fault Refusal :=
  .next (if n < 64 then s.putCmdRing (s.ring n).reserve.2 else s)

/-- RING_COMMIT: a write to COMMIT (R284). -/
def execRingCommit (n : Nat) (t : BitVec 32) (s : State) : Host.Outcome State Fault Refusal :=
  .next (if n < 64 then s.commitTicket n t else s)

/-- RCFG_WRITE: a supervisor write to RCFG (R282). -/
def execRcfgWrite (n : Nat) (v : Word) (s : State) : Host.Outcome State Fault Refusal :=
  .next (if n < 64 then s.putCmdRing ((s.ring n).writeCfg v) else s)

/-- RERR_CLEAR: a supervisor write of 0 to RERR (R282). -/
def execRerrClear (n : Nat) (s : State) : Host.Outcome State Fault Refusal :=
  .next (if n < 64 then s.putCmdRing { s.ring n with errCount := 0 } else s)

/-! ## Addresses of a command (R286) -/

/-- How the port dies translate a command's addresses (R55, R286): in the ring's address space, in user mode (log 15). -/
def State.cmdVia (s : State) (asid : BitVec 16) : Via := s.spaceVia asid

/-- n bytes of a record, or the code of the first that fails; those of another device are free (log 8). -/
def State.cmdBytes (s : State) (v : Via) (va : Nat) : Nat → Except Nat (List Byte)
  | 0 => .ok []
  | n + 1 =>
    match s.viaLoc v va .read with
    | .error c => .error c
    | .ok p =>
      match s.cmdBytes v (va + 1) n with
      | .error c => .error c
      | .ok r => .ok ((if p.dev = thisDev then s.peek p 1 else [(Config.freeWord (s.freeCount + va)).setWidth 8]) ++ r)

/-- The parts of a byte string, each n bytes long. -/
def partsOf (n : Nat) (bs : List Byte) : Nat → List Nat
  | 0 => []
  | k + 1 => bytesToNat (bs.take n) :: partsOf n (bs.drop n) k

/-- A record's k parts of n bytes, or the code of its failure. -/
def State.cmdWords (s : State) (v : Via) (va n k : Nat) : Except Nat (List Nat) := (s.cmdBytes v va (n * k)).map fun bs => partsOf n bs k

/-- The failure code of a range of bytes, page by page. -/
def State.rangeBad (s : State) (v : Via) (va len : Nat) (kind : AccKind) : Option Nat :=
  ((List.range (len / 2 ^ 16 + 2)).map fun i => Nat.min (va + i * 2 ^ 16) (va + len - 1)).findSome? fun a =>
    match s.viaLoc v a kind with
    | .error e => some e
    | .ok _ => none

/-! ## Dispatch (R285, R286) -/

/-- A command in the frame of its dispatch: its ring's ASID, its words, the number that it gets. -/
structure Cmd where
  asid : BitVec 16
  w : List Nat
  cid : Nat
  deriving DecidableEq, Repr

def Cmd.word (c : Cmd) (i : Nat) : Nat := c.w.getD i 0

/-- What dispatch makes of a command: it waits, since a record or a buffer of it cannot be reached yet (R57, R321); it is refused with a status, a
code and a kind, and leaves no more than what its reads left in the translation buffers (R56) and folded (R211); it is done with a value; or its
action has started, for a launch id if it is a LAUNCH. -/
inductive CmdEnd
  | waits
  | refused (s : State) (status code kind : Nat)
  | done (s : State) (value : Nat)
  | started (s : State) (lid : Nat)
  deriving Repr

def opcOf (w : List Nat) : Nat := w.getD 0 0 / 2 ^ 56
def fopOf (w : List Nat) : Nat := w.getD 2 0 % 2 ^ 8

/-- Whether a reserved bit of words 0 and 1 is set (Table 14.4). -/
def cmdReserved (w : List Nat) : Bool := w.getD 0 0 % 2 ^ 50 != 0 || w.getD 1 0 / 2 ^ 56 != 0

/-- Whether an OPC, with its FOP, names an operation. -/
def cmdKnown (w : List Nat) : Bool :=
  let o := opcOf w
  decide (1 ≤ o) && decide (o ≤ 7) && (o != 4 || (decide (1 ≤ fopOf w) && decide (fopOf w ≤ 6)))

/-- Whether a ring has a command that can be dispatched: its HEAD is committed, and a FENCE finds no earlier command incomplete. -/
def State.ringReady (s : State) (n : Nat) : Bool :=
  let r := s.ring n
  r.on && ((r.slots.find? fun p => p.1 = r.head).map fun p =>
    !((p.2.getD 0 0).getLsbD 52 && s.commands.any fun c => c.ring = n)).getD false

/-- The rings of a port die that have been served in its present round (R285). -/
def State.dieRound (s : State) (die : Nat) : List Nat := s.roundRings.filter fun k => k % 2 = die

/-- Whether ring n may be served next: at most once in a round, which ends when no ring that it has left out is ready (R285). -/
def State.ringTurn (s : State) (n : Nat) : Bool :=
  !(s.roundRings.contains n)
    || (s.cmdRings.all fun r => r.num % 2 != n % 2 || r.num = n || s.roundRings.contains r.num || !s.ringReady r.num)

/-- Ring n served: in the present round, or as the first of a new one. -/
def State.serveRing (s : State) (n : Nat) : State :=
  { s with roundRings :=
      (if s.roundRings.contains n then s.roundRings.filter fun k => k % 2 != n % 2 else s.roundRings) ++ [n] }

/-- Whether a field of a command lies outside its range, where that is judged before PRIV (R286): SELFTEST's tile. -/
def fieldBad (w : List Nat) : Bool := opcOf w = 4 && fopOf w = 5 && decide (1536 ≤ w.getD 3 0)

/-- The dispatch of ring n's ticket HEAD when `sel` takes it: COMPL first, then what stands in words 0 and 1, then the operation's own
checks and action. Dispatch stops before the device runs (R349), after a fatal error (R316) and during a checkpoint (R358). -/
def State.dispatch (s : State) (n : Nat) (sel : List Nat → Bool) (act : Cmd → State → CmdEnd) : State :=
  let r := s.ring n
  match r.slots.find? fun p => p.1 = r.head with
  | none => s
  | some p =>
    let w := p.2.map fun x => x.toNat
    let waits := w.getD 0 0 / 2 ^ 52 % 2 = 1 && s.commands.any fun c => c.ring = n
    if !(decide (n < 64) && r.on && sel w) || waits || !s.ringTurn n || !s.ctl.ready || s.ctl.fatal || s.ctl.ckpt.isSome then s
    else
      let r' := { r with head := r.head + 1, slots := r.slots.filter fun q => q.1 != r.head }
      let compl := w.getD 1 0 % 2 ^ 56
      let v := s.cmdVia r.rasid
      if compl != 0 && compl % 8 = 0 && s.viaWaits v compl 8 then s else
      let s0 := s
      let place : Except Nat Loc := if compl % 8 != 0 then .error 7 else s.viaLoc v compl .write
      let s := if compl = 0 || compl % 8 != 0 then s else s.vaFill v compl 8 .write
      match (if compl = 0 then .ok none else place.map some) with
      | .error _ => (s.serveRing n).putCmdRing (r'.refuse p.1)
      | .ok where_ =>
        let cid := s.nextId
        let cmd : Cmd := ⟨r.rasid, w, cid⟩
        let s : State := { (s.serveRing n).putCmdRing r' with nextId := s.nextId + 1 }
        let note := fun (t : State) (res : Option Word) (lid : Nat) =>
          { t with commands := t.commands ++ [(⟨cid, n, p.1, opcOf w, where_, res, lid⟩ : Command)] }
        if cmdReserved w || !cmdKnown w || fieldBad w then note s (some (statusWord 0x81 0 0 0)) noLaunch
        else if opcOf w = 4 && !r.priv then note s (some (statusWord 0x82 0 0 0)) noLaunch
        else match act cmd s with
          | .waits => s0
          | .refused t st c k => note t (some (statusWord st c k 0)) noLaunch
          | .done t v => note t (some (statusWord 1 0 0 v)) noLaunch
          | .started t lid => note t none lid

/-- NOP, and every command whose OPC or FOP names no operation. -/
def execNop (n : Nat) (s : State) : Host.Outcome State Fault Refusal :=
  .next (s.dispatch n (fun w => opcOf w = 7 || !cmdKnown w) fun _ s => .done s 0)

/-! ## LAUNCH (R287) -/

/-- Whether some tile, or for a row wave some row, of a range can hold what a header declares. -/
def State.canHold (s : State) (h : Header) (lo hi : Nat) : Bool :=
  let live := fun (r c : Nat) => ((s.tileAt r c).map fun t => !(s.tile t).fenced).getD false
  let members := if h.row then 1 else h.nm + h.nc + h.na
  (numbers lo (Nat.min hi 131)).any (fun r =>
      decide ((if h.row then h.nm else 1) ≤ ((List.range 13).filter fun c => live r c).length))
    && decide (h.pad + members * h.stackReserve ≤ 2 ^ 20)

/-- Whether the cells that a header declares exist in its sheet (R255). -/
def State.cellsThere (s : State) (h : Header) : Bool :=
  match h.sheet with
  | none => true
  | some (k, f, n) => (s.sheet? k).isSome && (List.range n).all fun i => ((s.cell? (f + i)).map (·.sheet)) = some k

/-- The bytes of an image that hold its header: from IMAGE to the text; of an image that no fkld loaded, the first (R287). -/
def headLen (va : Nat) (img : Option Image) : Nat := Nat.max 1 ((img.map fun i => i.text.toNat - va).getD 1)

/-- The code with which an image's header cannot be read (R287): that of Table 3.5 or R52 for a page of it; of a header that is unreadable for
another cause the code is not stated, and free (log 8). -/
def State.headerCode (s : State) (v : Via) (va : Nat) (img : Option Image) : Option Nat :=
  match s.rangeBad v va (headLen va img) .read with
  | some e => some e
  | none => if (img.map (·.readable)).getD true then none else some ((Config.freeWord s.freeCount).toNat % 256)

/-- Declarations within the limits of Table 2.3. -/
def Header.limits (h : Header) : Bool :=
  (if h.row then decide (h.kind < 3) && decide (1 ≤ h.nm) && decide (h.nm ≤ 12)
    else decide (h.nm ≤ 7) && decide (h.nc ≤ 8) && decide (h.na ≤ 8) && decide (1 ≤ h.nm + h.nc + h.na))
    && decide (1 ≤ h.regs) && decide (h.regs ≤ 32) && decide (h.vregs ≤ 32) && h.pad % 64 = 0 && decide (h.bars ≤ if h.row then 8 else 4)
    && decide (h.locks ≤ 8) && h.stackInit % 64 = 0 && h.stackReserve % 64 = 0 && decide (h.stackInit ≤ h.stackReserve)
    && (h.vregs = 0 || (if h.row then h.kind != 0 else decide (0 < h.nc + h.na)))

/-- The declarations that a header's bytes give. The spec leaves their layout open: bytes as fkld wrote them give what fkld declared, and others
what an uninterpreted function finds in them (log 7). -/
def Image.declares (i : Image) (bytes : List Byte) : Option Header :=
  if bytes = i.head then (if i.proper then some i.header else none)
  else match Config.headerWords bytes with
    | none => none
    | some w =>
      let g := fun k => w.getD k 0
      let h : Header := ⟨g 0 = 1, g 1, g 2, g 3, g 4, g 5, g 6, g 7, g 8, g 9, g 10, g 11, if g 12 = 1 then some (g 13, g 14, g 15) else none⟩
      if h.limits then some h else none

/-- What dispatch finds in an image's header (R287): none where its identification or its declarations are none that fkld would have written. -/
def State.headerAt (s : State) (v : Via) (img : Image) : Option Header :=
  match s.cmdBytes v img.addr.toNat img.head.length with
  | .ok bs => img.declares bs
  | .error _ => none

/-- A LAUNCH command's checks and the requests for its waves. Bits that Table 14.5 gives no name are ignored (DESIGN CHOICE, log 61). -/
def State.startLaunch (c : Cmd) (s : State) : CmdEnd :=
  let v := s.cmdVia c.asid
  let w := c.word
  let lid := w 5 / 2 ^ 32 % 2 ^ 16
  let nw := w 5 % 2 ^ 32
  let kinds := w 4 % 2 ^ 16
  let image := s.images.find? fun i => i.addr.toNat = w 2 && i.asid = c.asid
  if w 3 % 8 != 0 || nw = 0 || decide (2 ^ 20 < nw) || (List.range 8).any fun j => kinds / 2 ^ (2 * j) % 4 = 3 then .refused s 0x81 0 0
  else if 4095 < lid || s.launches.any fun l => l.lid = lid then .refused s 0x85 0 0
  else if !s.reaches v (w 2) (headLen (w 2) image) .read || !s.reaches v (w 3) 64 .read then .waits
  else
    let s := (s.vaTouch v (w 2) (headLen (w 2) image) .read).vaTouch v (w 3) 64 .read
    match s.headerCode v (w 2) image, s.cmdWords v (w 3) 8 8 with
    | some e, _ => .refused s 0x83 e 0
    | none, .error e => .refused s 0x83 e 0
    | none, .ok args =>
      match image, image.bind (s.headerAt v) with
      | none, _ => .refused s 0x84 0x65 4
      | some _, none => .refused s 0x84 0x65 4
      | some img, some h =>
        let size := if h.row then h.nm else h.nm + h.nc + h.na
        if !s.canHold h (w 4 / 2 ^ 56) (w 4 / 2 ^ 48 % 2 ^ 8) then .refused s 0x84 0x64 4
        else if !s.cellsThere h then .refused s 0x84 1 12
        else
          let req := fun i : Nat =>
            ({ num := s.nextId + i
               lid := lid
               entry := img.text
               args := Vector.ofFn fun k => BitVec.ofNat 64 (args.getD k.val 0)
               argkind := BitVec.ofNat 16 kinds
               row := h.row
               kind := h.kind
               nm := h.nm
               nc := h.nc
               na := h.na
               cols := none
               rows := (w 4 / 2 ^ 56, w 4 / 2 ^ 48 % 2 ^ 8)
               origin := none
               lane := i * size } : WaveReq)
          let l : Launch :=
            { lid := lid
              cmd := c.cid
              prio := BitVec.ofNat 2 (w 0 / 2 ^ 54)
              det := decide (w 0 / 2 ^ 53 % 2 = 1)
              cls := BitVec.ofNat 2 (w 0 / 2 ^ 50)
              asid := c.asid
              ending := false
              status := 1
              image := { img with header := h }
              waves := 0
              lanes := nw * size
              taskLanes := 0
              lanePos := 0
              cellbase := match h.sheet with
                | some (k, f, _) => BitVec.ofNat 64 (k * 2 ^ 32 + f)
                | none => 0 }
          .started { s with
            nextId := s.nextId + nw
            launches := s.launches ++ [l]
            waveReqs := s.waveReqs ++ (List.range nw).map req } lid

def execLaunch (n : Nat) (s : State) : Host.Outcome State Fault Refusal :=
  .next (s.dispatch n (fun w => opcOf w = 1) fun c s => State.startLaunch c s)

/-! ## COMMIT and BIND (R285, R375) -/

/-- A COMMIT command: its batch record is read now and goes to the sluice. A sheet number out of range names no sheet (R3); the other bits of
word 2 are ignored (DESIGN CHOICE, log 61). -/
def State.startCommit (c : Cmd) (s : State) : CmdEnd :=
  let w := c.word
  let v := s.cmdVia c.asid
  if !s.reaches v (w 3) 8 .read then .waits else
  let s := s.vaTouch v (w 3) 8 .read
  match s.cmdWords v (w 3) 8 1 with
  | .error e => .refused s 0x83 e 0
  | .ok ws =>
    let n := ws.getD 0 0
    let k := if 64 < n then 0 else 4 * n
    if !s.reaches v (w 3 + 8) k .read then .waits else
    let s := s.vaTouch v (w 3 + 8) k .read
    match s.cmdWords v (w 3 + 8) 4 (k / 4) with
    | .error e => .refused s 0x83 e 0
    | .ok cs =>
      match s.sheet? (w 2 / 2 ^ 32) with
      | none => .refused s 0x84 1 12
      | some sh =>
        if w 3 % 8 != 0 then .refused s 0x84 0 7
        else if 64 < n then .refused s 0x84 0xB 12
        else .started (s.askSluice sh.num (.commit cs none none (some c.cid))) noLaunch

def execCommit (n : Nat) (s : State) : Host.Outcome State Fault Refusal :=
  .next (s.dispatch n (fun w => opcOf w = 2) fun c s => State.startCommit c s)

/-- The lowest-numbered tile on which a launch holds a slot of a kind (R375). -/
def State.homeTile (s : State) (lid kind : Nat) : Option Nat :=
  (s.tiles.map (·.1)).find? fun t => s.holdsKind t lid kind

/-- The edit of a BIND command. It is no cell instruction of a launch, so the declaration of R255 does not bound the cell that it names;
a cell number out of range names no cell, and a launch id above 4,095 no launch (R3, R375). -/
def State.startBind (c : Cmd) (s : State) : CmdEnd :=
  let w := c.word
  let v := s.cmdVia c.asid
  let lid := w 4
  let cell := w 2
  match s.launch? lid with
  | none => .refused s 0x85 0 0
  | some _ =>
    let n := if w 3 = 0 then 0 else 8
    if !s.reaches v (w 3) (8 * n) .read then .waits else
    let s := s.vaTouch v (w 3) (8 * n) .read
    match s.cmdWords v (w 3) 8 n with
    | .error e => .refused s 0x83 e 0
    | .ok ws =>
      let bad := w 3 != 0 && formulaBad ws
      let blk := w 3 != 0 && !bad && decide (ws.getD 1 0 / 2 ^ 63 = 1)
      let va := ws.getD 2 0 % 2 ^ 56
      let np := if blk then ws.getD 1 0 % 2 ^ 9 else 0
      if !s.reaches v va (4 * np) .read then .waits else
      let s := s.vaTouch v va (4 * np) .read
      match s.cmdWords v va 4 np with
      | .error e => .refused s 0x83 e 0
      | .ok ps =>
        match s.cell? cell with
          | none => .refused s 0x84 1 12
          | some x =>
            if w 3 = 0 then .started (s.askSluice x.sheet (.edit none cell 0 none (some c.cid) none)) noLaunch
            else if w 3 % 64 != 0 then .refused s 0x84 8 12
            else match s.homeTile lid (ws.getD 0 0 / 2 ^ 62) with
              | none => .refused s 0x84 8 12
              | some t =>
                let f := formulaOf ws (if blk then ps else inlinePrecs ws) lid t (BitVec.ofNat 64 (w 3))
                let bad := bad || !s.inText lid f.entry
                .started (s.askSluice x.sheet (.edit (some f) cell (BitVec.ofNat 64 (w 3)) none (some c.cid) (if bad then some 8 else none))) noLaunch

def execBind (n : Nat) (s : State) : Host.Outcome State Fault Refusal :=
  .next (s.dispatch n (fun w => opcOf w = 3) fun c s => State.startBind c s)

/-! ## Firmware operations (R289, Table 14.9) -/

def fopIs (k : Nat) (w : List Nat) : Bool := opcOf w = 4 && fopOf w = k

/-- A number of word 3 that lies above its field is out of range, and refused as such (R3, R289; DESIGN CHOICE, log 61): it is never taken modulo
the field's width. -/
def sheetField (w : Nat) : Option Nat := if w < 2 ^ 12 then some w else none
def turnoutField (w : Nat) : Option Nat := if w < 2 ^ 11 then some w else none

/-- The sheet and the cell of CELLNEW's word 3. -/
def cellField (w : Nat) : Option (Nat × Nat) :=
  if w / 2 ^ 32 < 2 ^ 12 && w % 2 ^ 32 < 2 ^ 24 then some (w / 2 ^ 32, w % 2 ^ 32) else none

def execSheetnew (n : Nat) (s : State) : Host.Outcome State Fault Refusal :=
  .next (s.dispatch n (fopIs 1) fun c s =>
    match sheetField (c.word 3) with
    | none => .refused s 0x84 1 12
    | some k =>
    if (s.sheet? k).isSome then .refused s 0x84 1 12
    else
      let s : State := { s with sheets := s.sheets ++ [⟨k, 1, 1, [], [], [], none⟩] }
      .done (s.notifyLine none ⟨sheetDev, k⟩) 0)

/-- A range of bytes zeroed. -/
def State.zeroRange (s : State) (v : Via) (va len : Nat) : State := s.vaWrite v va pathCell (List.replicate len 0)

/-- The cell of CELLNEW: an input, fresh, with no version yet. -/
def Cell.new (k sh len b0 b1 : Nat) (asid : BitVec 16) : Cell :=
  { num := k, state := 0, input := true, cur := false, opened := false, rank := 0, sheet := sh, version := 0, stalegen := 0
    sver := 0, pin0 := 0, pin1 := 0, buf0 := BitVec.ofNat 64 b0, buf1 := BitVec.ofNat 64 b1, bytes := len, asid := asid, marks := []
    faulted := [], freed := [], formula := none }

/-- CELLNEW (R257, R289): its buffers are zeroed, and every later reader of the cell finds them so. The buffers' addresses are taken whole: one
above the 56 bits of an address fails translation with 0x33 (R49). -/
def execCellnew (n : Nat) (s : State) : Host.Outcome State Fault Refusal :=
  .next (s.dispatch n (fopIs 2) fun c s =>
    let v := s.cmdVia c.asid
    let len := c.word 4 % 2 ^ 32
    let b0 := c.word 5
    let b1 := c.word 6
    if !s.reaches v b0 len .write || !s.reaches v b1 len .write then .waits else
    let s := (s.vaTouch v b0 len .write).vaTouch v b1 len .write
    match s.rangeBad v b0 len .write, s.rangeBad v b1 len .write with
    | some e, _ => .refused s 0x83 e 0
    | none, some e => .refused s 0x83 e 0
    | none, none =>
      match cellField (c.word 3) with
      | none => .refused s 0x84 1 12
      | some (sh, k) =>
        if (s.sheet? sh).isNone || (s.cell? k).isSome then .refused s 0x84 1 12
        else if b0 % 64 != 0 || b1 % 64 != 0 then .refused s 0x84 0 7
        else
          let x := Cell.new k sh len b0 b1 c.asid
          let s := (s.zeroRange v b0 len).zeroRange v b1 len
          let s := s.dropLags (inRanges (s.bufPieces x false ++ s.bufPieces x true)) fun _ => true
          let s : State := { s with cells := s.cells ++ [x] }
          .done (s.notifyLine none ⟨cellDev, k⟩) 0)

def execSheetend (n : Nat) (s : State) : Host.Outcome State Fault Refusal :=
  .next (s.dispatch n (fopIs 3) fun c s =>
    match (sheetField (c.word 3)).bind s.sheet? with
    | none => .refused s 0x84 1 12
    | some sh =>
      if sh.ending.isSome then .refused s 0x84 1 12
      else .started (s.modSheet sh.num fun x => { x with ending := some c.cid }) noLaunch)

/-- SHEET_DESTROY: no pin, no task and nothing at the sluice remains (R289). The lines of the sheet and of its cells change with it (R256). -/
def execSheetDestroy (sheet : Nat) (s : State) : Host.Outcome State Fault Refusal :=
  .next (match s.sheet? sheet with
    | none => s
    | some sh =>
      match sh.ending with
      | none => s
      | some cid =>
        let mine := s.cellsOf sheet
        let waits := s.cellWaits.any fun w => mine.any fun c => c.num = w.cell
        if !sh.seeds.isEmpty || !sh.ops.isEmpty || waits || mine.any fun c => c.pin0 != 0 || c.pin1 != 0 then s
        else
          let s : State := { s with
            sheets := s.sheets.filter fun x => x.num != sheet
            cells := s.cells.filter fun c => c.sheet != sheet }
          let s := s.notifyLine none ⟨sheetDev, sheet⟩
          let s := mine.foldl (fun (s : State) (c : Cell) => s.notifyLine none ⟨cellDev, c.num⟩) s
          s.finishCommand cid (statusWord 1 0 0 0))

def execLaunchend (n : Nat) (s : State) : Host.Outcome State Fault Refusal :=
  .next (s.dispatch n (fopIs 4) fun c s =>
    let lid := c.word 3
    if s.launches.any fun l => l.lid = lid then .done (s.endLaunch lid 2) 0 else .refused s 0x85 0 0)

/-- Whether a tile holds a launch (R239): one resident on it, spilled from it or evicted from it. -/
def State.holdsLaunch (s : State) (t : Nat) : Bool :=
  !(s.tile t).resid.isEmpty || s.evicted.any (fun e => e.tile = t) || s.spills.any fun p => p.at_.tile = t

def execFwopSelftest (n : Nat) (s : State) : Host.Outcome State Fault Refusal :=
  .next (s.dispatch n (fopIs 5) fun c s =>
    let t := c.word 3
    if s.holdsLaunch t || (s.tile t).testing || (s.tile t).fenced then .done s (2 ^ 30)
    else .started (s.modTile t fun x => { x with testing := true, testCmd := some c.cid, testMask := 0x3FF, testFail := 0 }) noLaunch)

/-- A turnout record as TURNARM makes it from its image (R295, Table 14.7). -/
def turnoutOf (w : List Nat) : Turnout :=
  { w0 := (BitVec.ofNat 64 (w.getD 0 0) &&& 0xAFC00000FFFFFFFF) ||| 0x4000000000000000
    w1 := BitVec.ofNat 64 (w.getD 1 0)
    cmd := Vector.ofFn fun i => BitVec.ofNat 64 (w.getD (8 + i.val) 0) }

def execTurnarm (n : Nat) (s : State) : Host.Outcome State Fault Refusal :=
  .next (s.dispatch n (fopIs 6) fun c s =>
    let v := s.cmdVia c.asid
    if !s.reaches v (c.word 4) 128 .read then .waits else
    let s := s.vaTouch v (c.word 4) 128 .read
    match s.cmdWords v (c.word 4) 8 16, turnoutField (c.word 3) with
    | .error e, _ => .refused s 0x83 e 0
    | .ok _, none => .refused s 0x84 1 12
    | .ok w, some k =>
      if (s.turnout k).v && (s.turnout k).armed then .refused s 0x84 1 12
      else .done { s with turnouts := assocSet s.turnouts k (turnoutOf w) } 0)

/-! ## COPY and REDUCE (R288) -/

/-- The ranges of a tile that commands of an ASID may reach. -/
def State.unionOf (s : State) (t : Nat) (asid : BitVec 16) : List (Nat × Nat) :=
  ((s.tile t).resid.filter fun r => ((s.launch? r.lid).map (·.asid)) = some asid).flatMap Resident.ranges

/-- The supervisor's slot of a tile. -/
def supSlot (t : Nat) : SlotId := ⟨t, .m, 0⟩

/-- Whether a tile has a supervisor that can execute a command. -/
def State.tileServes (s : State) (t : Nat) : Bool := decide (t < 1536) && !(s.tile t).fenced

/-- The refusal that a fault stands for (Table 14.6). -/
def refusalOf (s : State) (e : Nat × Word) : CmdEnd := .refused s 0x84 (if e.1 = 6 || e.1 = 7 || e.1 = 10 then 0 else e.2.toNat / 2 ^ 56) e.1

/-- The supervisor as it launches a command's transfer: slot 0 in the ring's address space, declaring nothing. -/
def State.copyStrand (s : State) (w : CopyWait) : Strand :=
  let st : Strand := { (s.strand? (supSlot w.tile)).getD Strand.initial with sup := true, nlocks := 0, uid := w.cid, lid := noLaunch }
  st.modRegs fun r => { r with ptroot := s.rootOf w.asid }

/-- What an attempt of a COPY command's cplaunch comes to (R68, R69): a fault, or the state with the transfer launched; it waits while the queue
is full. -/
inductive CopyTry
  | bad (e : Nat × Word)
  | full
  | launched (s : State)

def State.copyAttempt (s : State) (w : CopyWait) : CopyTry :=
  let x := supSlot w.tile
  let st := s.copyStrand w
  match s.launchCheck x st w.fields (outsideUnion (s.unionOf w.tile w.asid)) with
  | some e => .bad e
  | none =>
    let k := s.chan w.tile w.ch
    if 8 ≤ k.queue.length then .full
    else
      let tr := { s.newTransfer x st w.fields k.nextid with cmd := some w.cid }
      let done := if k.queue.isEmpty then k.nextid else k.doneId
      .launched (s.setChan none w.tile w.ch { k with nextid := k.nextid + 1, doneId := done, queue := k.queue ++ [tr] })

/-- COPY: the supervisor reads the image through its own buffers, in supervisor mode, into slot 0's shadow set of the channel, and launches the
transfer, or attempts it again later where the queue is full (R285, R288). -/
def State.startCopy (n : Nat) (c : Cmd) (s : State) : CmdEnd :=
  let t := c.word 2 % 2 ^ 11
  let ch := c.word 2 / 2 ^ 16 % 4
  let v : Via := ⟨t, s.rootOf c.asid, true⟩
  if 1536 ≤ t then .refused s 0x81 0 0
  else if !s.reaches v (c.word 3) 336 .read then .waits
  else
    let s := s.vaTouch v (c.word 3) 336 .read
    match s.cmdWords v (c.word 3) 8 42 with
    | .error e => .refused s 0x83 e 0
    | .ok ws =>
      if !s.tileServes t then .refused s 0x84 0x64 4
      else
        let f : Fields := Vector.ofFn fun i => BitVec.ofNat 64 (ws.getD i.val 0) &&& shadowMask i.val
        let w : CopyWait := ⟨c.cid, n, t, ch, c.asid, f⟩
        let s := s.modStrand (supSlot t) fun st => st.modRegs fun r => { r with shadow := r.shadow.setIfInBounds ch f }
        match s.copyAttempt w with
        | .bad e => refusalOf s e
        | .full => .started { s with copyWaits := s.copyWaits ++ [w] } noLaunch
        | .launched s => .started s noLaunch

/-- A waiting COPY command of a ring attempted again; none where it must wait on. -/
def State.copyAgain (s : State) (w : CopyWait) : Option State :=
  let rest : State := { s with copyWaits := s.copyWaits.filter fun k => k.cid != w.cid }
  match s.copyAttempt w with
  | .bad e =>
    (match refusalOf s e with
      | .refused _ st c k => some (rest.finishCommand w.cid (statusWord st c k 0))
      | _ => none)
  | .full => none
  | .launched s => some { s with copyWaits := s.copyWaits.filter fun k => k.cid != w.cid }

/-- COPY: a command of the ring that waits for its channel's queue is attempted again where it can go on; else the ring's next is dispatched. -/
def execCopy (n : Nat) (s : State) : Host.Outcome State Fault Refusal :=
  .next (match (s.copyWaits.filter fun w => w.ring = n).findSome? s.copyAgain with
    | some s => s
    | none => s.dispatch n (fun w => opcOf w = 5) fun c s => State.startCopy n c s)

/-- REDUCE: nred from slot 0. Its scratchpad addresses are taken whole: one above its field lies outside every range (R3; DESIGN CHOICE,
log 61). -/
def State.startReduce (c : Cmd) (s : State) : CmdEnd :=
  let t := c.word 2 % 2 ^ 11
  let ty := c.word 2 / 2 ^ 16 % 2 ^ 4
  let a := c.word 3
  let b := c.word 4
  if 1536 ≤ t || !(ty = 0 || ty = 1 || ty = 11) then .refused s 0x81 0 0
  else if !s.tileServes t then .refused s 0x84 0x64 4
  else if a % 128 != 0 || b % 8 != 0 then .refused s 0x84 0 7
  else
    let rs := s.unionOf t c.asid
    if (outsideUnion rs a (a + 127)).isSome || (outsideUnion rs b (b + 15)).isSome then .refused s 0x84 0 6
    else
      let r := s.padBase t + b
      let s := s.foldFor ⟨thisDev, r⟩ 16
      let bs := s.viewBytes pathStrand r 16
      let w0 := wordAt bs 0
      let w1 := wordAt bs 8
      match s.recordBad t false w0 w1, s.destAbsent w0 with
      | some k, _ => .refused s 0x84 k 4
      | none, some d => refusalOf s (8, d)
      | none, none => .started (s.launchPacket t false w0 w1 ty a (supSlot t) (sidOf (supSlot t) false 0) c.cid noLaunch (some c.cid)) noLaunch

def execReduce (n : Nat) (s : State) : Host.Outcome State Fault Refusal :=
  .next (s.dispatch n (fun w => opcOf w = 6) fun c s => State.startReduce c s)

/-! ## Completion (R286, R247, R290) -/

/-- COMPLETION_WORD: the word of a complete command is written; a launch's status word is then free. -/
def execCompletionWord (cid : Nat) (s : State) : Host.Outcome State Fault Refusal :=
  .next (match s.commands.find? fun c => c.cid = cid with
    | none => s
    | some c =>
      match c.result with
      | none => s
      | some v =>
        let s := match c.compl with
          | some p => s.poke none false p (natToBytes 8 v.toNat)
          | none => s
        { s with
          commands := s.commands.filter fun k => k.cid != cid
          launches := if c.opc = 1 && c.lid != noLaunch then s.launches.filter fun l => l.lid != c.lid else s.launches })

/-- Whether nothing of a launch is left to do (R247, R273). -/
def State.launchDone (s : State) (lid : Nat) : Bool :=
  !s.waveReqs.any (fun q => q.lid = lid)
    && !s.tiles.any (fun p => p.2.strands.any (fun q => q.2.lid = lid && !q.2.sup)
      || (p.2.deque ++ p.2.overflow).any (fun k => k.lid = lid) || p.2.chans.any fun c => c.queue.any fun t => t.lid = lid)
    && !s.spills.any (fun p => p.strand.lid = lid) && !s.transit.any (fun p => p.2.lid = lid)
    && !s.flight.any (fun a => a.lid = lid && !a.done && a.op.writes)
    && !s.cells.any (fun c => (c.formula.map (·.lid)) = some lid)
    && !s.sheets.any fun sh => sh.edits.any (fun e => (e.form.map (·.lid)) = some lid)
      || sh.seeds.any (fun q => q.form.lid = lid) || sh.ops.any fun o => match o with
        | .edit f _ _ who _ _ => (f.map (·.lid)) = some lid || (who.map (·.lid)) = some lid
        | .commit _ who _ _ => (who.map (·.lid)) = some lid

/-- The supervisors release what a launch holds on a tile, resident there or evicted from it: slots, region, descriptors; with no launch left,
its semaphores (R239, R314). -/
def State.releaseTile (s : State) (lid t : Nat) : State :=
  match s.holderOf t lid with
  | none => s
  | some r =>
    let s := if (s.residOf t lid).isSome then s.giveRings t (r.rings.map fun k => (k, Ring.initial)) else s
    let s : State := { s with evicted := s.evicted.filter fun e => !(e.tile = t && e.res.lid = lid) }
    let s := s.modTile t fun x => { x with resid := x.resid.filter fun q => q.lid != lid, ibuf := x.ibuf.filter fun k => k.lid != lid }
    if s.holdsLaunch t then s else (List.range 32).foldl (fun s k => s.setSem none t k 0) s

/-- LAUNCH_COMPLETE: the launch completes, and what it held is released: slots, barriers, rings and reduction words (R247, R212), and
with them its failed reduction groups (R231). -/
def execLaunchComplete (lid : Nat) (s : State) : Host.Outcome State Fault Refusal :=
  .next (match s.launch? lid with
    | none => s
    | some l =>
      if !s.launchDone lid || !(s.commands.any fun c => c.cid = l.cmd && c.result.isNone) then s
      else
        let s := (s.tiles.map (·.1)).foldl (fun s t => s.releaseTile lid t) s
        let s := (s.freeBars lid).forgetGroups lid
        let mine := s.redWords.filter fun r => r.lid = lid
        let s := mine.foldl (fun s r => s.foldWord r) s
        let s : State := { s with
          redWords := s.redWords.filter fun r => r.lid != lid
          launches := s.launches.map fun k => if k.lid = lid then { k with ending := true } else k }
        s.finishCommand l.cmd (BitVec.ofNat 64 (l.status.toNat % 2 ^ 16 + lid * 2 ^ 32)))

/-! ## Turnouts (R295 to R297) -/

/-- TURNOUT_COUNT (R296): a message with a tag arrives at port die 0 or 1; any other number stands for the completion of a remote copy, which
every record counts. -/
def execTurnoutCount (die : Nat) (tag : BitVec 32) (s : State) : Host.Outcome State Fault Refusal :=
  .next (s.countTag (if die < 2 then some die else none) tag)

/-- TURNOUT_INSERT: the oldest firing of a record that waited for its full ring. -/
def execTurnoutInsert (k : Nat) (s : State) : Host.Outcome State Fault Refusal :=
  .next (match s.cmdRings.findSome? fun r => (r.firings.find? fun f => f.1 = k).map fun f => (r.num, f) with
    | none => s
    | some (n, f) =>
      match s.insertFiring n f.2 with
      | none => s
      | some s => s.putCmdRing { s.ring n with firings := (s.ring n).firings.erase f })

/-- TURNOUT_DISARM: a store to word 0 that clears ARMED. -/
def execTurnoutDisarm (k : Nat) (s : State) : Host.Outcome State Fault Refusal :=
  .next (if (s.turnout k).armed then { s with turnouts := assocSet s.turnouts k ((s.turnout k).write 0 0) } else s)

/-! ## Deterministic lanes (R298 to R300) -/

/-- The lane after the one whose place has come: the members of the waves, then the tasks, then the next round (R298, R300). -/
def Launch.placeAfter (l : Launch) : Nat :=
  if l.lanePos + 1 < l.lanes then l.lanePos + 1
  else if l.lanePos < 2 ^ 40 then (if 0 < l.taskLanes then 2 ^ 40 else 0)
  else if l.lanePos + 1 < 2 ^ 40 + l.taskLanes then l.lanePos + 1
  else 0

/-- The next lane's place in the round. -/
def State.nextPlace (s : State) (lid : Nat) : State :=
  { s with launches := s.launches.map fun l => if l.lid = lid then { l with lanePos := l.placeAfter } else l }

/-- The slot of a lane's strand, if it stands in one. -/
def State.laneSlot (s : State) (lid lane : Nat) : Option SlotId :=
  s.allSlots.find? fun x => ((s.strand? x).map fun st => st.lid = lid && st.lane = lane && !st.sup).getD false

/-- Whether a wave that waits could be placed now (R237). -/
def State.placeable (s : State) (q : WaveReq) : Bool := ((s.launch? q.lid).map fun l => (s.spotsOf q).any (s.spotCan q l)).getD false

/-- Whether a lane without a strand has one to come that nothing but time keeps from it: it is spilled, on its way, the next task of a free slot,
or a member of the launch's next wave, which could be placed. The arbiter waits for it; a lane that must wait for others to end contributes
empty chunks, or the round would never end (DESIGN CHOICE, log 58). -/
def State.laneAwaited (s : State) (lid lane : Nat) : Bool :=
  let mine := fun (k : Task) => k.lid = lid && k.lane = lane
  s.spills.any (fun p => p.strand.lid = lid && p.strand.lane = lane) || s.transit.any (fun p => mine p.2)
    || s.tiles.any (fun p => (p.2.deque ++ p.2.overflow).any fun k =>
      mine k && (List.range 8).any fun i => ((s.taskFor ⟨p.1, k.core, i⟩).map fun q => mine q.2).getD false)
    || ((s.waveReqs.find? fun q => q.lid = lid).map fun q =>
      let size := match q.cols with
        | some c => ((List.range 13).filter fun i => c.getLsbD i).length
        | none => if q.row then q.nm else q.nm + q.nc + q.na
      decide (q.lane ≤ lane) && decide (lane < q.lane + size) && s.placeable q).getD false

/-- The lane's next chunk begins after a commit. -/
def Strand.nextChunk (st : Strand) (c : Chunk) : Strand :=
  { st with
    run := .ready
    committed := st.committed + BitVec.ofNat 64 c.count
    chunk := some ⟨st.regs, st.tx, 0, [], [], false, false⟩ }

/-- A lane asleep has ended its chunk in the retry, and contributes an empty one (R300): what it ran counts, and the next chunk is the one in which
it wakes. -/
def Strand.rested (st : Strand) : Strand :=
  match st.chunk with
  | some c => { st.nextChunk c with run := st.run }
  | none => st

/-- Whether a lane waits in an instruction that waits as a one-instruction transaction that retries, for what another party must do: an ldc or
stp whose word is not as it needs it, a cpin or cwopen that the sluice has not answered (R214, R276, R279). -/
def State.laneRetries (s : State) (x : SlotId) (st : Strand) : Bool :=
  (s.flight.any fun a => a.who = x && a.uid = st.uid && !a.done && s.waitsAtHome a && (match a.op with
    | .ldc => !s.fullAt a 0 || s.queuedBefore a 2
    | .stp _ => s.fullAt a 0 || s.queuedBefore a 3
    | _ => false))
    || st.longs.any fun l => s.cellWaits.any fun w => w.id = l.id

/-- CHUNK_COMMIT: the arbiter visits the lane whose place has come. A lane that has no strand to come, or that is at a barrier, asleep or
waiting as in a retry, contributes an empty chunk; one whose chunk is not over, or that is out of the rotation, is waited for; an instruction
of Table 11.2 is let run as a chunk of its own; a chunk that conflicts is squashed; any other commits, once all that it issued is done. -/
def execChunkCommit (lid : Nat) (s : State) : Host.Outcome State Fault Refusal :=
  .next (match s.launch? lid with
    | none => s
    | some l =>
      if !l.det then s
      else match s.laneSlot lid l.lanePos with
        | none => if s.laneAwaited lid l.lanePos then s else s.nextPlace lid
        | some x =>
          match s.strand? x with
          | none => s
          | some st =>
            if st.run ≠ .ready && st.run ≠ .asleep && !st.run.isPreempted && s.laneRetries x st then s.nextPlace lid
            else match st.run, st.chunk with
            | .held (.bar _ _ _), _ => s.nextPlace lid
            | .asleep, _ => (s.modStrand x Strand.rested).nextPlace lid
            | .held .wave, _ => s.nextPlace lid
            | .held .chunk, some c =>
              if s.unfinished x st || !c.ended && !(c.solo && decide (0 < c.count)) then s
              else if c.reads.any (·.2) then (s.setStrand x (st.squash c)).dropWeir x
              else if c.count = 0 then
                s.setStrand x { st with run := .ready, chunk := some { c with ended := false, solo := true, reads := [], wset := [] } }
              else
                let s := c.wset.foldl (fun s e => s.applyEntry x e) s
                (s.modStrand x fun st => st.nextChunk c).nextPlace lid
            | _, _ => s)

/-- A deterministic lane held with a fault, when its place in the round has come and all that it issued is done: its chunk is squashed where it has
read what a commit has written since, and else commits up to the word, which then takes its fault; with a transaction open, the fault aborts that
(R219, R299, R300; DEDUCED, log 20). None while it waits. -/
def State.laneFault (s : State) (x : SlotId) (st : Strand) (c : Chunk) (code : Nat) (detail : Word) : Option State :=
  let epc := faultPc code st.regs.pc
  if s.unfinished x st || !s.inPlace st then none
  else if c.reads.any (·.2) then some ((s.setStrand x (st.squash c)).dropWeir x)
  else if st.inTx then some (s.takeFault x false code detail epc)
  else
    let s := c.wset.foldl (fun s e => s.applyEntry x e) s
    some (((s.modStrand x fun st => st.nextChunk c).nextPlace st.lid).takeFault x false code detail epc)

end Sys2Proof.Machine
end

