-- ==== Sys2Proof/Machine/Crypto.lean ====
section
/-!
DEFINITION. SHA-384, HKDF and ECDSA P-384 for the boot ROM and the security block (spec/17 R350 to R352). The spec names the algorithms and does
not write them out: they are taken from FIPS 180-4, RFC 5869 and FIPS 186-5, with big-endian integers, a public key as an uncompressed SEC 1 point and a signature as r
followed by s. PRESUMED (log 12).
-/

namespace Sys2Proof.Machine

/-- The big-endian value of bytes. -/
def beNat (bs : List Byte) : Nat := bs.foldl (fun n b => 256 * n + b.toNat) 0

/-- The n low bytes of a value, big-endian. -/
def beBytes (n v : Nat) : List Byte := (natToBytes n v).reverse

/-! ## SHA-384 -/

/-- The round constants: the first 64 bits of the fractional parts of the cube roots of the first 80 primes. -/
def shaK0 : List (BitVec 64) :=
  [0x428A2F98D728AE22, 0x7137449123EF65CD, 0xB5C0FBCFEC4D3B2F, 0xE9B5DBA58189DBBC,
   0x3956C25BF348B538, 0x59F111F1B605D019, 0x923F82A4AF194F9B, 0xAB1C5ED5DA6D8118,
   0xD807AA98A3030242, 0x12835B0145706FBE, 0x243185BE4EE4B28C, 0x550C7DC3D5FFB4E2,
   0x72BE5D74F27B896F, 0x80DEB1FE3B1696B1, 0x9BDC06A725C71235, 0xC19BF174CF692694,
   0xE49B69C19EF14AD2, 0xEFBE4786384F25E3, 0x0FC19DC68B8CD5B5, 0x240CA1CC77AC9C65]
def shaK1 : List (BitVec 64) :=
  [0x2DE92C6F592B0275, 0x4A7484AA6EA6E483, 0x5CB0A9DCBD41FBD4, 0x76F988DA831153B5,
   0x983E5152EE66DFAB, 0xA831C66D2DB43210, 0xB00327C898FB213F, 0xBF597FC7BEEF0EE4,
   0xC6E00BF33DA88FC2, 0xD5A79147930AA725, 0x06CA6351E003826F, 0x142929670A0E6E70,
   0x27B70A8546D22FFC, 0x2E1B21385C26C926, 0x4D2C6DFC5AC42AED, 0x53380D139D95B3DF,
   0x650A73548BAF63DE, 0x766A0ABB3C77B2A8, 0x81C2C92E47EDAEE6, 0x92722C851482353B]
def shaK2 : List (BitVec 64) :=
  [0xA2BFE8A14CF10364, 0xA81A664BBC423001, 0xC24B8B70D0F89791, 0xC76C51A30654BE30,
   0xD192E819D6EF5218, 0xD69906245565A910, 0xF40E35855771202A, 0x106AA07032BBD1B8,
   0x19A4C116B8D2D0C8, 0x1E376C085141AB53, 0x2748774CDF8EEB99, 0x34B0BCB5E19B48A8,
   0x391C0CB3C5C95A63, 0x4ED8AA4AE3418ACB, 0x5B9CCA4F7763E373, 0x682E6FF3D6B2B8A3,
   0x748F82EE5DEFB2FC, 0x78A5636F43172F60, 0x84C87814A1F0AB72, 0x8CC702081A6439EC]
def shaK3 : List (BitVec 64) :=
  [0x90BEFFFA23631E28, 0xA4506CEBDE82BDE9, 0xBEF9A3F7B2C67915, 0xC67178F2E372532B,
   0xCA273ECEEA26619C, 0xD186B8C721C0C207, 0xEADA7DD6CDE0EB1E, 0xF57D4F7FEE6ED178,
   0x06F067AA72176FBA, 0x0A637DC5A2C898A6, 0x113F9804BEF90DAE, 0x1B710B35131C471B,
   0x28DB77F523047D84, 0x32CAAB7B40C72493, 0x3C9EBE0A15C9BEBC, 0x431D67C49C100D4C,
   0x4CC5D4BECB3E42B6, 0x597F299CFC657E2A, 0x5FCB6FAB3AD6FAEC, 0x6C44198C4A475817]
def shaK : List (BitVec 64) := shaK0 ++ shaK1 ++ shaK2 ++ shaK3

/-- The initial hash value. -/
def shaInit : List (BitVec 64) :=
  [0xCBBB9D5DC1059ED8, 0x629A292A367CD507, 0x9159015A3070DD17, 0x152FECD8F70E5939,
   0x67332667FFC00B31, 0x8EB44A8768581511, 0xDB0C2E0D64F98FA7, 0x47B5481DBEFA4FA4]

def shaCh (x y z : BitVec 64) : BitVec 64 := (x &&& y) ^^^ (~~~x &&& z)
def shaMaj (x y z : BitVec 64) : BitVec 64 := (x &&& y) ^^^ (x &&& z) ^^^ (y &&& z)
def shaBig0 (x : BitVec 64) : BitVec 64 := x.rotateRight 28 ^^^ x.rotateRight 34 ^^^ x.rotateRight 39
def shaBig1 (x : BitVec 64) : BitVec 64 := x.rotateRight 14 ^^^ x.rotateRight 18 ^^^ x.rotateRight 41
def shaSmall0 (x : BitVec 64) : BitVec 64 := x.rotateRight 1 ^^^ x.rotateRight 8 ^^^ (x >>> 7)
def shaSmall1 (x : BitVec 64) : BitVec 64 := x.rotateRight 19 ^^^ x.rotateRight 61 ^^^ (x >>> 6)

/-- The message schedule, latest word first: n more words. -/
def shaSchedule : Nat → List (BitVec 64) → List (BitVec 64)
  | 0, w => w
  | n + 1, w => shaSchedule n ((shaSmall1 (w.getD 1 0) + w.getD 6 0 + shaSmall0 (w.getD 14 0) + w.getD 15 0) :: w)

/-- One round on the eight working words. -/
def shaRound (v : List (BitVec 64)) (k w : BitVec 64) : List (BitVec 64) :=
  let t1 := v.getD 7 0 + shaBig1 (v.getD 4 0) + shaCh (v.getD 4 0) (v.getD 5 0) (v.getD 6 0) + k + w
  let t2 := shaBig0 (v.getD 0 0) + shaMaj (v.getD 0 0) (v.getD 1 0) (v.getD 2 0)
  [t1 + t2, v.getD 0 0, v.getD 1 0, v.getD 2 0, v.getD 3 0 + t1, v.getD 4 0, v.getD 5 0, v.getD 6 0]

/-- The eight-byte big-endian words of a byte string. -/
def beWords : Nat → List Byte → List (BitVec 64)
  | 0, _ => []
  | n + 1, bs => BitVec.ofNat 64 (beNat (bs.take 8)) :: beWords n (bs.drop 8)

/-- One 128-byte block. -/
def shaBlock (h : List (BitVec 64)) (block : List Byte) : List (BitVec 64) :=
  let w := (shaSchedule 64 (beWords 16 block).reverse).reverse
  let v := (shaK.zip w).foldl (fun v p => shaRound v p.1 p.2) h
  List.zipWith (fun x y => x + y) h v

def shaBlocks : Nat → List (BitVec 64) → List Byte → List (BitVec 64)
  | 0, h, _ => h
  | n + 1, h, bs => shaBlocks n (shaBlock h (bs.take 128)) (bs.drop 128)

/-- The message with its padding. -/
def shaPad (bs : List Byte) : List Byte :=
  bs ++ [0x80] ++ List.replicate ((239 - bs.length % 128) % 128) 0 ++ beBytes 16 (8 * bs.length)

/-- SHA-384 of a byte string, as its 48 bytes. -/
def sha384 (bs : List Byte) : List Byte :=
  let p := shaPad bs
  ((shaBlocks (p.length / 128) shaInit p).take 6).flatMap fun x => beBytes 8 x.toNat

/-! ## HMAC and HKDF (RFC 2104, RFC 5869) -/

/-- A key as one block of the hash. -/
def hmacKey (key : List Byte) : List Byte :=
  let k := if 128 < key.length then sha384 key else key
  k ++ List.replicate (128 - k.length) 0

def hmac384 (key msg : List Byte) : List Byte :=
  let k := hmacKey key
  sha384 (k.map (fun b => b ^^^ 0x5C) ++ sha384 (k.map (fun b => b ^^^ 0x36) ++ msg))

/-- HKDF-SHA-384 without a salt: the first 48 bytes of the output, which are one block of it. -/
def hkdf384 (ikm info : List Byte) : List Byte := hmac384 (hmac384 (List.replicate 48 0) ikm) (info ++ [1])

/-! ## P-384 -/

def ecP : Nat := 2 ^ 384 - 2 ^ 128 - 2 ^ 96 + 2 ^ 32 - 1
def ecB : Nat := 0xB3312FA7E23EE7E4988E056BE3F82D19181D9C6EFE8141120314088F5013875AC656398D8A2ED19D2A85C8EDD3EC2AEF
def ecN : Nat := 0xFFFFFFFFFFFFFFFFFFFFFFFFFFFFFFFFFFFFFFFFFFFFFFFFC7634D81F4372DDF581A0DB248B0A77AECEC196ACCC52973
def ecGx : Nat := 0xAA87CA22BE8B05378EB1C71EF320AD746E1D3B628BA79B9859F741E082542A385502F25DBF55296C3A545E3872760AB7
def ecGy : Nat := 0x3617DE4A96262C6F5D9E98BF9292DC29F8F41DBD289A147CE9DA3113B5F0B8C00A60B1CE1D7E819D7A431D7C90EA0E5F

/-- x to the power e modulo m; the fuel bounds the bits of e. -/
def powMod (m : Nat) : Nat → Nat → Nat → Nat
  | 0, _, _ => 1 % m
  | f + 1, x, e => if e = 0 then 1 % m else (if e % 2 = 1 then x else 1) * powMod m f (x * x % m) (e / 2) % m

/-- The inverse modulo a prime. -/
def invMod (m x : Nat) : Nat := powMod m 384 (x % m) (m - 2)

/-- A point of the curve: none is the point at infinity. -/
abbrev EcPoint := Option (Nat × Nat)

def ecAdd : EcPoint → EcPoint → EcPoint
  | none, b => b
  | a, none => a
  | some (x1, y1), some (x2, y2) =>
    if x1 = x2 && (y1 + y2) % ecP = 0 then none
    else
      let l := if x1 = x2 then (3 * x1 * x1 + (ecP - 3)) * invMod ecP (2 * y1) % ecP
        else (y2 + ecP - y1) * invMod ecP (x2 + ecP - x1) % ecP
      let x3 := (l * l + 2 * ecP - x1 - x2) % ecP
      some (x3, (l * (x1 + ecP - x3) + ecP - y1) % ecP)

/-- k times a point; the fuel bounds the bits of k. -/
def ecMul : Nat → Nat → EcPoint → EcPoint
  | 0, _, _ => none
  | f + 1, k, p => if k = 0 then none else ecAdd (if k % 2 = 1 then p else none) (ecMul f (k / 2) (ecAdd p p))

/-- A private scalar, from 1 to n - 1, made of any number. -/
def ecScalar (v : Nat) : Nat := v % (ecN - 1) + 1

/-- The public key of a private scalar: an uncompressed SEC 1 point. -/
def ecPublic (d : Nat) : List Byte :=
  match ecMul 384 d (some (ecGx, ecGy)) with
  | some (x, y) => 4 :: (beBytes 48 x ++ beBytes 48 y)
  | none => 0 :: List.replicate 96 0

/-- An ECDSA signature over a digest by a private scalar, with the numbers from i on as its random numbers: one that makes r or s 0 is drawn
again; the fuel bounds the draws. -/
def ecdsaSign (d : Nat) (digest : List Byte) : Nat → Nat → List Byte
  | 0, _ => List.replicate 96 0
  | f + 1, i =>
    let k := ecScalar (Config.signNonce i)
    let r := ((ecMul 384 k (some (ecGx, ecGy))).map (·.1)).getD 0 % ecN
    let t := invMod ecN k * (beNat digest + r * d) % ecN
    if r = 0 || t = 0 then ecdsaSign d digest f (i + 1) else beBytes 48 r ++ beBytes 48 t

/-- Whether bytes are a public key: 0x04, then the coordinates of a point of the curve. -/
def ecKeyOk (key : List Byte) : Bool :=
  let x := beNat ((key.drop 1).take 48)
  let y := beNat (key.drop 49)
  key.length = 97 && key.headD 0 = 4 && decide (x < ecP) && decide (y < ecP) && y * y % ecP = (x * x * x + (ecP - 3) * x + ecB) % ecP

/-- Whether an ECDSA P-384 signature of 96 bytes verifies over a digest under a public key. -/
def ecdsaVerify (digest key sig : List Byte) : Bool :=
  let r := beNat (sig.take 48)
  let t := beNat (sig.drop 48)
  let w := invMod ecN t
  let q := ecAdd (ecMul 384 (beNat digest * w % ecN) (some (ecGx, ecGy)))
    (ecMul 384 (r * w % ecN) (some (beNat ((key.drop 1).take 48), beNat (key.drop 49))))
  ecKeyOk key && sig.length = 96 && decide (0 < r) && decide (r < ecN) && decide (0 < t) && decide (t < ecN)
    && (match q with | some p => p.1 % ecN = r | none => false)

end Sys2Proof.Machine
end

