-- ==== Sys2Proof/Machine/System.lean ====
section
/-!
DEFINITION. Traps, system registers and what reaches a strand between its instructions (spec/15 R302 to R326, spec/03 R52 to R58,
spec/06 R108 to R112), and the performance of accesses in flight.
-/

namespace Sys2Proof.Machine

/-! ## Traps and the return from an event (R305, R322, R323) -/

def execTrap (m : Bool) (code : BitVec 18) (s : State) := s.issue m {} fun _ => .fault 0x20 (code.setWidth 64)
def execBrk (m : Bool) (code : BitVec 18) (s : State) := s.issue m {} fun _ => .fault 0x21 (code.setWidth 64)

/-- The detail word of a privilege fault of sret, tlbinv and selftest: the instruction word (R29). -/
def wordDetail (i : Instr) : Option Word := (encode i).map fun w => w.setWidth 64

def execSret (m : Bool) (s : State) :=
  s.issue m { priv := wordDetail (.sret m), aborts := true } fun st =>
    if st.sepc.toNat % 4 != 0 then .fault 7 st.sepc
    else .jump (s.upd fun st => { st with ie := true, sskipn := 0, regs := { st.regs with skipn := st.sskipn } }) st.sepc

/-! ## The window onto a strand (R308, R309) -/

/-- The member number that TSEL names on its tile; none when its TILE or CORE field names no slot there. -/
def State.selMember (s : State) (t : Nat) : Option Nat :=
  let v := (s.tile t).tsel.toNat
  if v / 2 ^ 16 % 2 ^ 11 = t && v / 8 % 4 != 3 then some (8 * (v / 8 % 4) + v % 8) else none

def low38 (v : Word) : Word := v &&& 0x3FFFFFFFFF

/-- The strand that TSEL selects, when TSEL is valid for one that stands in its slot. -/
def State.selected (s : State) (t : Nat) : Option (SlotId × Strand) :=
  match s.selMember t with
  | none => none
  | some m =>
    match s.strand? (slotOf t m) with
    | some st => if !st.sup && low38 st.sid = low38 (s.tile t).tsel then some (slotOf t m, st) else none
    | none => none

/-- Whether TSEL is valid for the strand last spilled from an empty slot. -/
def State.selSpilled (s : State) (t : Nat) : Bool :=
  match s.selMember t with
  | none => false
  | some m => (s.strand? (slotOf t m)).isNone
      && ((assocGet (s.tile t).lastSpilled m).map low38) = some (low38 (s.tile t).tsel)

/-- TSTATE of a strand (Table 15.4). -/
def Run.code : Run → Nat
  | .ready => 0
  | .out => 1
  | .preempted _ => 2
  | .parked => 4
  | .held _ => 5
  | .asleep => 6

def State.tstate (s : State) (t : Nat) : Word :=
  match s.selected t with
  | some p => BitVec.ofNat 64 p.2.run.code
  | none => if s.selSpilled t then 3 else 0

/-- A register of the selected strand; 0 while TSEL selects none. -/
def State.window (s : State) (t : Nat) (f : Strand → Word) : Word := ((s.selected t).map fun p => f p.2).getD 0

def State.setWindow (s : State) (t : Nat) (f : Strand → Strand) : State :=
  match s.selected t with
  | some p => s.modStrand p.1 f
  | none => s

/-- Whether a host debugger is at work: one is attached, and the device is in the state DEBUG (R322, R354). -/
def State.debugging (s : State) : Bool := s.debugger && s.ctl.lcs = 2

/-- Whether break holds a strand for the host's debugger (R322). -/
def State.breakHeld (s : State) (st : Strand) : Bool := s.debugging && st.run = .out && st.tcause = 0x21

/-- The strand that a write to TRUN acts on (R309). -/
def State.trunOf (s : State) (t : Nat) (v : Word) : Option (SlotId × Strand) :=
  (s.selected t).bind fun p => if low38 v != low38 (s.tile t).tsel || p.2.run != .out then none else some p

/-- The end of a strand's launch with the strand's fault as its status (R309). -/
def State.endFor (s : State) (st : Strand) : State := s.endLaunch st.lid (BitVec.ofNat 64 (2 + 2 ^ 8 * (st.tcause.toNat % 2 ^ 8)))

/-- A write to TRUN (R309). A strand that break holds for a debugger does not go on by it (R322). -/
def State.trun (s : State) (t : Nat) (v : Word) : State :=
  match s.trunOf t v with
  | none => s
  | some (x, st) =>
    if v.getLsbD 63 then s.endFor st
    else if s.breakHeld st then s
    else s.modStrand x Strand.resume

/-- The address at which a write to TRUN would return a strand, when it is no multiple of 4: pc is never set to such a value, and the write
raises the alignment fault of R13 as sret does (DEDUCED, log 64). -/
def State.trunMisaligned (s : State) (t : Nat) (v : Word) : Option Word :=
  (s.trunOf t v).bind fun p => if !v.getLsbD 63 && p.2.tepc.toNat % 4 != 0 then some p.2.tepc else none

/-- How the shipped firmware answers a user strand's event: the strand goes on, changed; its launch ends; or it stays out. -/
inductive Service
  | resume (f : Strand → Strand)
  | endLaunch
  | keep

/-- s0 as a service of trap writes it (R322). -/
def Strand.putS0 (st : Strand) (v : Word) : Strand := st.modRegs fun r => r.setS 0 v

/-- The service of a strand out of the rotation (R309): a stack-limit fault by R43, trap and break by R322; every other cause ends the
launch. CYCLE is read as the strand itself would read it. -/
def State.service (s : State) (t : Nat) (st : Strand) : Service :=
  let c := st.tcause.toNat
  if c = 5 && decide (st.stackBot < st.regs.slim.toNat) then
    .resume fun st => st.modRegs fun r => { r with slim := BitVec.ofNat 64 st.stackBot }
  else if c = 0x20 then
    let v : Word := if st.tdetail = 1 then (if st.det then st.committed else (s.tile t).cycle)
      else if st.tdetail = 2 then BitVec.ofNat 64 st.lid else 0xFFFFFFFFFFFFFFFF
    .resume fun st => st.putS0 v
  else if c = 0x21 then (if s.debugging then .keep else .resume fun st => st)
  else .endLaunch

/-- TRUN_RESUME: the firmware serves an event and returns the strand with bit 63 clear. -/
def execTrunResume (tile : Nat) (v : Word) (s : State) : Host.Outcome State Fault Refusal :=
  .next (match s.trunOf tile v with
    | none => s
    | some (x, st) =>
      match s.service tile st with
      | .resume f => if v.getLsbD 63 || st.tepc.toNat % 4 != 0 then s else s.modStrand x fun st => (f st).resume
      | .endLaunch => s
      | .keep => s)

/-- TRUN_END_LAUNCH: the firmware ends the launch of a strand whose event it does not serve, with bit 63 set. -/
def execTrunEndLaunch (tile : Nat) (v : Word) (s : State) : Host.Outcome State Fault Refusal :=
  .next (match s.trunOf tile v with
    | none => s
    | some (_, st) =>
      match s.service tile st with
      | .endLaunch => if v.getLsbD 63 then s.endFor st else s
      | .resume _ => s
      | .keep => s)

/-- HOST_DEBUGGER_RESUME: an attached debugger lets a strand that break holds go on (R322). -/
def execHostDebuggerResume (who : SlotId) (s : State) : Host.Outcome State Fault Refusal :=
  .next (match s.strand? who with
    | some st => if s.breakHeld st && st.tepc.toNat % 4 = 0 then s.modStrand who Strand.resume else s
    | none => s)

/-! ## Machine-check banks as registers (R317, R318) -/

/-- The bank that MCSEL selects. -/
def bankSel (t : Nat) (v : Word) : Option BankId :=
  let k := v.toNat / 2 ^ 14 % 4
  if k = 0 then some (.tile t)
  else if k = 1 then some (.home (v.toNat % 2 ^ 10))
  else if k = 2 && decide (v.toNat % 2 ^ 5 < 27) then some (.port (v.toNat % 2 ^ 5))
  else none

def Bank.status (b : Bank) : Word :=
  BitVec.ofNat 64 ((if b.v then 2 ^ 63 else 0) + (if b.ovf then 2 ^ 62 else 0) + b.cls.toNat * 2 ^ 60 + b.src.toNat * 2 ^ 16
    + b.strand.toNat * 2 ^ 6)

/-- A write of 0 to MCSTATUS: V, OVER and the fields are cleared, the counts stay. -/
def Bank.clear (b : Bank) : Bank := { Bank.initial with corr := b.corr, unc := b.unc }

def State.modSelBank (s : State) (t : Nat) (f : Bank → Bank) : State :=
  match bankSel t (s.tile t).mcsel with
  | some b => s.modBank b f
  | none => s

def State.selBank (s : State) (t : Nat) (f : Bank → Word) : Word :=
  ((bankSel t (s.tile t).mcsel).map fun b => f (s.bankOf b)).getD 0

/-- MCSTATUS_CLEAR: a supervisor's write to MCSTATUS. -/
def execMcstatusClear (tile : Nat) (v : Word) (s : State) : Host.Outcome State Fault Refusal :=
  .next (if v = 0 then s.modSelBank tile Bank.clear else s)

/-- MCCOUNT_CLEAR: a supervisor's write to MCCOUNT. -/
def execMccountClear (tile : Nat) (s : State) : Host.Outcome State Fault Refusal :=
  .next (s.modSelBank tile fun b => { b with corr := 0, unc := 0 })

/-! ## System registers (R303, R324) -/

/-- An entry of the weir table (Table 11.5). -/
def State.weirWord (s : State) (t i : Nat) : Word :=
  match (s.tile t).weir[i]? with
  | none => 0
  | some e => BitVec.ofNat 64 (2 ^ 63 + (if e.sp then 2 ^ 62 else 0) + e.member * 2 ^ 57 + (if e.sleep then 2 ^ 56 else 0)
      + (if e.hit then 2 ^ 55 else 0) + s.lineAddr e.sp e.line / 64)

/-- Whether user mode has no access: reading, or writing (Table 15.1). -/
def userRefused (num : Nat) (write : Bool) : Bool :=
  if num < 0x40 then write && (num = 1 || num = 2 || num = 3) else true

/-- The value that sysr of a register gives, and the state after it. -/
def State.readSys (s : State) (st : Strand) (num : Nat) : Word × State :=
  let t := s.cur.tile
  let r := st.regs
  let v : Word :=
    if num = 0 then r.fctl
    else if num = 1 then r.slim
    else if num = 2 then r.padlo
    else if num = 3 then r.padhi
    else if num = 4 then st.txstat
    else if num = 5 then r.txaddr
    else if num = 6 then r.cellbase
    else if num = 7 then r.cellgen
    else if 8 ≤ num ∧ num < 0x10 then r.cycw.getD (num - 8) 0
    else if num = 0x10 then st.status
    else if num = 0x11 then (if st.det then st.committed else (s.tile t).cycle)
    else if num = 0x12 then s.devno.setWidth 64
    else if 0x20 ≤ num ∧ num < 0x40 then (r.lfsr.getD (num - 0x20) 0).setWidth 64
    else if num = 0x40 then r.ptroot
    else if num = 0x41 then s.protlo
    else if num = 0x42 then s.prothi
    else if 0x50 ≤ num ∧ num < 0x54 then (s.chan t (num - 0x50)).cpfa
    else if 0x54 ≤ num ∧ num < 0x58 then (s.chan t (num - 0x54)).cpfx
    else if num = 0x80 then st.tvec
    else if num = 0x81 then st.sepc
    else if num = 0x82 then st.scause
    else if num = 0x83 then st.sdetail
    else if num = 0x84 then (s.tile t).popEvent.1
    else if num = 0x85 then (s.tile t).sevdet
    else if num = 0x90 then (s.tile t).tsel
    else if num = 0x91 then s.window t fun k => k.tepc
    else if num = 0x92 then s.window t fun k => k.tcause
    else if num = 0x93 then s.window t fun k => k.tdetail
    else if num = 0x94 then s.window t fun k => k.regs.slim
    else if num = 0x95 then s.window t fun k => BitVec.ofNat 64 k.stackBot
    else if num = 0x97 then s.tstate t
    else if num = 0x98 then s.window t fun k => k.regs.padlo
    else if num = 0x99 then s.window t fun k => k.regs.padhi
    else if num = 0x9A then s.window t fun k => k.regs.ptroot
    else if num = 0xA0 then (s.tile t).wsel
    else if num = 0xA1 then s.weirWord t (s.tile t).wsel.toNat
    else if num = 0xB0 then (s.tile t).mcsel
    else if num = 0xB1 then s.selBank t Bank.status
    else if num = 0xB2 then s.selBank t fun b => b.addr
    else if num = 0xB3 then s.selBank t fun b => b.detail
    else if num = 0xB4 then s.selBank t fun b => b.corr ++ b.unc
    else 0
  (v, if num = 0x84 then s.modTile t fun x => x.popEvent.2 else s)

/-- FCTL as a write leaves it (Table 6.5): a rounding mode above 4 stores 0. -/
def fctlWrite (v : Word) : Word :=
  if 5 ≤ v.toNat % 8 then v &&& 0x1F00 else v &&& 0x1F07

def ptrootMask : Word := 0x00000FFFFFF0FFFF
def protMask : Word := 0x000000FFFFFF0000

/-- The state after sysw of a register: fields that are reserved, and registers that the mode may not write, keep their value. -/
def State.writeSys (s : State) (st : Strand) (num : Nat) (v : Word) : State :=
  let t := s.cur.tile
  let reg := fun (f : Regs → Regs) => s.upd fun k => k.modRegs f
  if num = 0 then reg fun r => { r with fctl := fctlWrite v }
  else if 0x20 ≤ num ∧ num < 0x40 then reg fun r => { r with lfsr := r.lfsr.setIfInBounds (num - 0x20) (v.setWidth 32) }
  else if !st.sup then s
  else if num = 1 then reg fun r => { r with slim := v }
  else if num = 2 then reg fun r => { r with padlo := v }
  else if num = 3 then reg fun r => { r with padhi := v }
  else if num = 0x10 then s.upd fun k => { k with ie := v.getLsbD 1 }
  else if num = 0x40 then reg fun r => { r with ptroot := v &&& ptrootMask }
  else if num = 0x41 then { s with protlo := v &&& protMask }
  else if num = 0x42 then { s with prothi := v &&& protMask }
  else if 0x58 ≤ num ∧ num < 0x5C then
    let c := s.chan t (num - 0x58)
    if !c.halted then s
    else if v.getLsbD 1 then
      s.setChan none t (num - 0x58)
        { c with halted := false, cause := 0, queue := match c.queue with | h :: r => { h with cancelled := true } :: r | [] => [] }
    else if v.getLsbD 0 then s.setChan none t (num - 0x58) { c with halted := false, cause := 0 }
    else s
  else if num = 0x80 then s.upd fun k => { k with tvec := v &&& 0xFFFFFFFFFFFFFFC0 }
  else if num = 0x81 then s.upd fun k => { k with sepc := v }
  else if num = 0x90 then s.modTile t fun x => { x with tsel := v }
  else if num = 0x91 then s.setWindow t fun k => { k with tepc := v }
  else if num = 0x94 then s.setWindow t fun k => k.modRegs fun r => { r with slim := v }
  else if num = 0x96 then s.trun t v
  else if num = 0x98 then s.setWindow t fun k => k.modRegs fun r => { r with padlo := v }
  else if num = 0x99 then s.setWindow t fun k => k.modRegs fun r => { r with padhi := v }
  else if num = 0x9A then s.setWindow t fun k => k.modRegs fun r => { r with ptroot := v &&& ptrootMask }
  else if num = 0xA0 then s.modTile t fun x => { x with wsel := v &&& 0x7FF }
  else if num = 0xB0 then s.modTile t fun x => { x with mcsel := v &&& 0xFFFF }
  else if num = 0xB1 then (if v = 0 then s.modSelBank t Bank.clear else s)
  else if num = 0xB4 then s.modSelBank t fun b => { b with corr := 0, unc := 0 }
  else s

def execSysr (m : Bool) (d : Spec) (num : BitVec 12) (s : State) :=
  s.issue m { useD d with
      priv := if userRefused num.toNat false then some (num.setWidth 64) else none
      aborts := num = 0x84 } fun st =>
    let q := s.readSys st num.toNat
    .ok (q.2.upd fun k => k.putS d q.1)

def execSysw (m : Bool) (num : BitVec 12) (a : Spec) (s : State) :=
  s.issue m { srcs := [(0, false, a)], priv := if userRefused num.toNat true then some (num.setWidth 64) else none, aborts := true } fun st =>
    match (if num = 0x96 then s.trunMisaligned s.cur.tile (st.rs a) else none) with
    | some ea => .fault 7 ea
    | none => .ok (s.writeSys st num.toNat (st.rs a))

/-! ## tlbinv (R58, R325) -/

/-- The entries that a strand's held-back stores and emptyings were translated with. -/
def Strand.heldLeaves (st : Strand) : List Leaf :=
  (((st.tx.map (·.wset)).getD []) ++ ((st.chunk.map (·.wset)).getD [])).flatMap fun e => e.ops.filterMap fun o =>
    match o with
    | .store _ _ leaf => leaf
    | .empty _ leaf => leaf
    | _ => none

/-- The entries that the stores held back in any strand's write set were translated with. -/
def State.heldLeaves (s : State) : List Leaf :=
  (s.tiles.flatMap fun p => p.2.strands.flatMap fun q => q.2.heldLeaves) ++ s.spills.flatMap fun p => p.strand.heldLeaves

/-- Whether an access that used one of some entries is still to be performed: one in flight that is older than a mark, or a store that a
write set holds back (R58). -/
def State.usesLeaf (s : State) (mark : Nat) (gone : List Leaf) : Bool :=
  (s.flight.any fun a => decide (a.id < mark) && !a.done && ((a.trans.map fun l => gone.contains l).getD false))
    || s.heldLeaves.any gone.contains

/-- The entries that accesses not yet performed used, whether or not a buffer holds them still. -/
def State.usedLeaves (s : State) : List Leaf := (s.flight.filterMap fun a => if a.done then none else a.trans) ++ s.heldLeaves

/-- The entries of every buffer of the device. -/
def State.allLeaves (s : State) : List Leaf := (s.tiles.flatMap fun p => p.2.tlb) ++ s.rows.flatMap fun p => p.2.tlb

/-- Removing entries from every buffer, then waiting for the accesses that used them. -/
def State.tlbinv (s : State) (i : Instr) (m : Bool) (srcs : List (Nat × Bool × Spec)) (sel : Strand → Leaf → Bool) :
    Host.Outcome State Fault Refusal :=
  s.issue m { srcs := srcs, priv := wordDetail i, aborts := true } fun st =>
    match st.run with
    | .held (.tlbinv mark gone) => if s.usesLeaf mark gone then .hold s (.tlbinv mark gone) else .ok s
    | _ =>
      let gone := (s.allLeaves ++ s.usedLeaves).filter (sel st)
      let s' : State := { s with
        tiles := s.tiles.map fun p => (p.1, { p.2 with tlb := p.2.tlb.filter fun l => !sel st l })
        rows := s.rows.map fun p => (p.1, { p.2 with tlb := p.2.tlb.filter fun l => !sel st l }) }
      if s.usesLeaf s.nextId gone then .hold s' (.tlbinv s.nextId gone) else .ok s'

def execTlbinvPage (m : Bool) (a : Spec) (s : State) :=
  s.tlbinv (.tlbinvPage m a) m [(0, false, a)] fun st l => l.maps (st.rs a).toNat (asidOf st.regs.ptroot)
def execTlbinvAsid (m : Bool) (a : Spec) (s : State) :=
  s.tlbinv (.tlbinvAsid m a) m [(0, false, a)] fun st l => l.asid = (st.rs a).setWidth 16 && !eG l.entry
def execTlbinvAll (m : Bool) (s : State) := s.tlbinv (.tlbinvAll m) m [] fun _ _ => true

/-! ## Accesses of peers (R207, R211, R214, R321, R355, R358) -/

/-- A peer's atomn performed here: at a reduction word whose operation it matches it is applied to the word directly, with no fold; a COUNT word
counts; elsewhere it is a read-modify-write (R211, R296). -/
def State.peerUpdate (s : State) (a : Nat) (op : AtomOp) (b : Word) : State :=
  let l : Loc := ⟨thisDev, a⟩
  let n := op.size
  let change := fun (s : State) =>
    let s : State := { s with lags := lagsSeen s.lags pathStrand a n }
    (s, natToBytes n (op.apply (BitVec.ofNat 64 (bytesToNat (s.peek l n))) b).toNat)
  if a % n != 0 then s
  else if s.redWords.any fun r => r.takes l op then
    let (s, bs) := change s
    s.store none a bs
  else match s.region a with
    | .port off =>
      match countWord off, op with
      | some k, .add => s.countAt k b.toNat
      | _, _ =>
        let (s, bs) := change s
        s.poke none false l bs
    | _ =>
      let (s, bs) := change (s.foldFor l n)
      s.poke none false l bs

/-- A peer's compare-and-swap: the word is written only where it equals the comparand (R207). -/
def State.peerCas (s : State) (a : Nat) (cmp v : Word) : State :=
  let l : Loc := ⟨thisDev, a⟩
  if a % 8 != 0 then s
  else
    let s := s.foldFor l 8
    let s : State := { s with lags := lagsSeen s.lags pathStrand a 8 }
    if bytesToNat (s.peek l 8) = cmp.toNat then s.poke none false l (natToBytes 8 v.toNat) else s

/-- The request by which a peer's ldc (kind 2) or stp (kind 3) waits on a word here. -/
def peerWait (kind dev a ctx : Nat) : Watch := ⟨dev, kind, ⟨thisDev, a / 64 * 64⟩, 0, 0, a % 64 / 8, ctx⟩

/-- Whether a request of its kind for the same word has come before it (R214). -/
def State.beforePeer (s : State) (w : Watch) : Bool :=
  (s.watches.takeWhile fun k => k != w).any fun k => k.kind = w.kind && k.line = w.line && k.word = w.word

/-- A peer's ldc or stp tested at its home: it is served when the word is as it needs it and none of its kind is before it; else it waits there
(R214). -/
def State.peerBit (s : State) (w : Watch) (a : Nat) (serve : State → State) : State :=
  let s := s.foldFor ⟨thisDev, a⟩ 8
  if a % 8 != 0 then s
  else if s.isFull a = decide (w.kind = 2) && !s.beforePeer w then serve { s with watches := s.watches.filter fun k => k != w }
  else (s.addWatch w).getD s

/-- A peer's access performed at its home. -/
def State.peerPut (s : State) (w : HeldWrite) : State :=
  match w.op with
  | .store bs => s.poke none false ⟨thisDev, w.addr⟩ bs
  | .update op v => s.peerUpdate w.addr op v
  | .cas cmp v => s.peerCas w.addr cmp v
  | .ldc dev ctx => s.peerBit (peerWait 2 dev w.addr ctx) w.addr fun s => s.emptyWord none (w.addr / 8)
  | .stp dev ctx v => s.peerBit (peerWait 3 dev w.addr ctx) w.addr fun s => s.poke none false ⟨thisDev, w.addr⟩ (natToBytes 8 v.toNat)

/-- Whether a peer's write must wait: a checkpoint or a restore runs, or its tile is being tested. -/
def State.peerWaits (s : State) (w : HeldWrite) : Bool := s.ctl.ckpt.isSome || !s.served ⟨thisDev, w.addr⟩

/-- A peer's write arrives. -/
def State.peerArrive (s : State) (w : HeldWrite) : State :=
  if s.peerWaits w then { s with heldWrites := s.heldWrites ++ [w] } else s.peerPut w

/-- The writes that waited and need to wait no longer are performed in the order of their arrival. -/
def State.flushHeld (s : State) : State :=
  let go := s.heldWrites.filter fun w => !s.peerWaits w
  let s : State := { s with heldWrites := s.heldWrites.filter fun w => s.peerWaits w }
  go.foldl (fun s w => s.peerPut w) s

/-! ## selftest (R321, R326) -/

/-- selftest. That a bit of A above bit 9 is an illegal instruction, of reason 6, can be seen only once A has been read: it is judged after the
privilege, the resource and the marker checks, although Table 1.21 has illegal-instruction first (DESIGN CHOICE, log 73). A tile that is being
tested answers BUSY too (DESIGN CHOICE, log 35). -/
def execSelftest (m : Bool) (d a : Spec) (s : State) :=
  s.issue m { srcs := [(0, false, a)], dst := some (false, d), priv := wordDetail (.selftest m d a), aborts := true } fun st =>
    let t := s.cur.tile
    if st.run = .held .selftest then
      if (s.tile t).testing then .hold s .selftest
      else .ok (s.upd fun k => k.putS d (0x8000000000000000 ||| (s.tile t).testFail.setWidth 64))
    else if 1024 ≤ (st.rs a).toNat then .fault 1 (BitVec.ofNat 64 (6 * 2 ^ 32 + ((wordDetail (.selftest m d a)).getD 0).toNat))
    else if s.holdsLaunch t || (s.tile t).testing then .ok (s.upd fun k => k.putS d 0x4000000000000000)
    else
      let mask := (st.rs a).setWidth 10
      .hold (s.modTile t fun x => { x with testing := true, testCmd := none, testMask := if mask = 0 then 0x3FF else mask }) .selftest

/-- The unit that a failing bit of FAIL names in SRC (Tables 15.10, 15.11). -/
def failSrc (i : Nat) : BitVec 8 :=
  if i < 3 then 1 else if i < 5 then 2 else if i = 5 then 3 else if i = 6 then 4 else if i = 7 then 5 else if i = 8 then 6 else 9

/-- The lines of a range of addresses here that some strand has read, or that a watch filter holds. -/
def State.watchedLines (s : State) (lo hi : Nat) : List Loc :=
  let all := (s.tiles.flatMap fun p =>
      (p.2.weir.map fun e => e.line) ++ p.2.strands.flatMap fun q => (((q.2.chunk.map (·.reads)).getD []).map (·.1)))
    ++ s.watches.map fun w => w.line
  all.filter fun l => l.dev = thisDev && decide (lo ≤ l.addr) && decide (l.addr < hi)

/-- A tile's scratchpad zeroed, every word empty and without error, seen by whoever watches its lines. -/
def State.clearPad (s : State) (t : Nat) : State :=
  let b := s.padBase t
  let e := b + 2 ^ 20
  let out := fun (a : Nat) => decide (a < b) || decide (e ≤ a)
  let s : State := { s with
    mem := s.mem.filter fun c => out c.1
    full := s.full.filter fun w => out (8 * w)
    badWords := s.badWords.filter fun w => out (8 * w)
    weakWords := s.weakWords.filter fun w => out (8 * w)
    lags := s.lags.filter fun k => match k.old with | p :: _ => out p.1 | [] => false
    redWords := s.redWords.map fun r => if out r.addr then r else { r with slots := [] } }
  (s.watchedLines b e).foldl (fun s l => s.notifyLine none l) s

/-- SELFTEST_COMPLETE: the tile is left cleared, with its channels idle; failing units among those tested are logged, and the firmware has then
a fence of the tile to make. -/
def execSelftestComplete (tile : Nat) (fail : BitVec 10) (s : State) : Host.Outcome State Fault Refusal :=
  let t := s.tile tile
  .next (if !t.testing then s
    else
      let fail := fail &&& t.testMask
      let s := s.clearPad tile
      let s := s.modTile tile fun x =>
        { x with
          testing := false
          testCmd := none
          testFail := fail
          mustFence := x.mustFence || fail != 0
          mat := { x.mat with acc := [], badPairs := [] } }
      let s := (List.range 4).foldl (fun (s : State) k =>
        s.setChan none tile k { s.chan tile k with queue := [], halted := false, cause := 0, line := [] }) s
      let s := (List.range 10).foldl (fun (s : State) i =>
        if fail.getLsbD i then
          let (d, s) := s.free
          s.modBank (.tile tile) fun b => b.log 2 (failSrc i) 0 0 d
        else s) s
      let s := match t.testCmd with
        | some k => s.finishCommand k (statusWord 1 0 0 (2 ^ 31 + fail.toNat))
        | none => s
      s.flushHeld)

/-! ## Annulled words, deliveries, events (R112, R306, R307, R310) -/

/-- ANNULLED_WORD: the turn of a word that a compare annulled; in deterministic mode it counts in the chunk (R299). -/
def execAnnulledWord (s : State) : Host.Outcome State Fault Refusal :=
  .next (match s.strand? s.cur with
    | none => s
    | some st =>
      if st.regs.skipn = 0 then s
      else if st.chunkStop {} then
        s.setStrand s.cur { st with run := .held .chunk, chunk := st.chunk.map fun c => { c with ended := true } }
      else
        s.setStrand s.cur { st with
          regs := { st.regs with pc := st.regs.pc + 4, skipn := st.regs.skipn - 1 }
          chunk := st.chunk.map fun c => { c with count := c.count + 1 } })

/-- ASYNC_DELIVERY: the strand takes the oldest delivery that waits for a turn (R310). -/
def execAsyncDelivery (s : State) : Host.Outcome State Fault Refusal :=
  .next (match s.strand? s.cur with
    | none => s
    | some st =>
      match st.asyncs with
      | [] => s
      | p :: r => (s.setStrand s.cur { st with asyncs := r }).takeFault s.cur true (p.1 % 256) p.2 st.regs.pc)

/-- EVENT_TAKE: the supervisor's turn is spent on the event queue (R307). -/
def execEventTake (tile : Nat) (s : State) : Host.Outcome State Fault Refusal :=
  .next (match s.strand? (supSlot tile) with
    | none => s
    | some st =>
      if st.sup && st.ie && st.run = .ready && !(s.tile tile).events.isEmpty then
        s.setStrand (supSlot tile) (st.enterAt st.regs.pc st.tvec)
      else s)

/-- SEVENT_READ: the firmware reads the oldest event (R306). One with GONE = 1 has no strand that TSEL could select: its launch ends at once, with
its code as the status (R309). -/
def execSeventRead (tile : Nat) (s : State) : Host.Outcome State Fault Refusal :=
  let s' := s.modTile tile fun x => x.popEvent.2
  .next (match (s.tile tile).events with
    | [] => s'
    | e :: _ =>
      match s'.launches.find? fun l => e.entry.getLsbD 62 && e.cmd = some l.cmd with
      | some l => s'.endLaunch l.lid (BitVec.ofNat 64 (2 + 2 ^ 8 * (e.entry.toNat / 2 ^ 40 % 2 ^ 8)))
      | none => s')

/-! ## Accesses in flight (R45, R62, R90, R108, R188, R207, R214) -/

/-- LONG_RESULT_RETURN. -/
def execLongResultReturn (id : Nat) (s : State) : Host.Outcome State Fault Refusal :=
  .next (match s.flight.find? fun a => a.id = id with
    | some a => s.returnLong a
    | none => s)

/-- Where an access is performed: at a tile's window on this device; on another device; or at a home or a port here. -/
inductive Performer
  | window | remote | home
  deriving DecidableEq, Repr

def State.performer (s : State) (a : Access) : Performer :=
  if a.loc.dev != thisDev then .remote
  else match s.region a.loc.addr with
    | .pad _ _ => .window
    | .ctrl _ _ => .window
    | _ => .home

/-- Which step of a home performs an operation. -/
inductive HomeStep
  | plain | store | atomic | bit
  deriving DecidableEq, Repr

def FlightOp.homeStep : FlightOp → HomeStep
  | .store _ => .store
  | .atom _ _ _ => .atomic
  | .atomn _ _ => .atomic
  | .ldx => .atomic
  | .stx _ => .atomic
  | .redpReg _ => .atomic
  | .redpRel => .atomic
  | .joinDec => .atomic
  | .ldc => .bit
  | .stp _ => .bit
  | .stpTest => .bit
  | _ => .plain

/-- An access performed by a step that may perform it. -/
def State.performBy (s : State) (id : Nat) (may : Performer → HomeStep → Bool) (err : ErrKind) (answer : V128) : State :=
  match s.flight.find? fun a => a.id = id with
  | some a => if may (s.performer a) a.op.homeStep then s.perform a err answer else s
  | none => s

/-- GLOBAL_ACCESS_PERFORMED: a load at its home, or any access at a remote device. -/
def execGlobalAccessPerformed (id : Nat) (err : ErrKind) (answer : V128) (s : State) : Host.Outcome State Fault Refusal :=
  .next (s.performBy id (fun p k => p = .remote || (p = .home && (k = .plain || k = .store))) err answer)

/-- STORE_BUFFER_DRAIN: a store at its home. -/
def execStoreBufferDrain (id : Nat) (s : State) : Host.Outcome State Fault Refusal :=
  .next (s.performBy id (fun p k => p != .window && k = .store) .ok 0)

/-- HOME_ATOMIC: an atomic, a reservation or a reduction word at its home. -/
def execHomeAtomic (id : Nat) (err : ErrKind) (answer : V128) (s : State) : Host.Outcome State Fault Refusal :=
  .next (s.performBy id (fun p k => p != .window && k = .atomic) err answer)

/-- FULL_EMPTY_RETEST: an ldc or a stp is tested at its home. -/
def execFullEmptyRetest (id : Nat) (err : ErrKind) (answer : V128) (s : State) : Host.Outcome State Fault Refusal :=
  .next (s.performBy id (fun p k => p != .window && k = .bit) err answer)

/-- TILE_WINDOW_ACCESS: an access to a scratchpad or a control region through the tile window. -/
def execTileWindowAccess (id : Nat) (err : ErrKind) (s : State) : Host.Outcome State Fault Refusal :=
  .next (s.performBy id (fun p _ => p = .window) err 0)

/-- The read line that a strand's open transaction has lost, of lowest address (R216). -/
def State.lostLine (s : State) (x : SlotId) : Option Word :=
  match ((s.tile x.tile).weir.filter fun e => e.member = x.member && e.hit && !e.sleep).map fun e => s.lineAddr e.sp e.line with
  | [] => none
  | a :: r => some (BitVec.ofNat 64 (r.foldl Nat.min a))

/-- Whether something stands before the fault of an instruction of a strand (R310, R216): a pre-emption, a delivery, an abort. -/
def State.beforeFault (s : State) (x : SlotId) (st : Strand) : Bool :=
  st.preReq || !st.asyncs.isEmpty || (st.inTx && (st.abortReq.isSome || (s.lostLine x).isSome))

/-- What a walk gives one of the misses that it answers (R57): the buffers of its tile and its row are filled and its strand attempts the
access again, or the strand takes the walk's fault; what R310 puts before the instruction comes first, and then it attempts again. -/
def State.endMiss (s : State) (r : Except Nat Leaf) (m : Miss) : State :=
  let s := match r with
    | .ok l => s.fillTlb m.who.tile l
    | .error _ => s
  match s.strand? m.who with
  | none => s
  | some st =>
    if st.uid != m.uid then s
    else match st.run with
      | .held (.walk _ _) =>
        match r with
        | .ok _ => s.setStrand m.who { st with run := .ready }
        | .error c =>
          if s.beforeFault m.who st then s.setStrand m.who { st with run := .ready }
          else s.faultTurn m.who (trFault c m.va).1 (trFault c m.va).2 st.regs.pc
      | _ => s

/-- TRANSLATION_WALK: the walker of a strand's miss ends its walk (R52, R57). Every miss that has joined it gets its result, and the walker
takes up the next that waits. -/
def execTranslationWalk (who : SlotId) (s : State) : Host.Outcome State Fault Refusal :=
  .next (match s.walks.find? fun m => m.who = who && m.walking with
    | none => s
    | some m =>
      let r := s.walkFrom m.ptroot m.va
      let done := s.walks.filter fun k => k.walking && k.sameWalk m
      let s : State := { s with walks := startWalks (s.walks.filter fun k => !(k.walking && k.sameWalk m)) }
      done.foldl (fun s k => s.endMiss r k) s)

/-- What the scrubber finds in a word: a scratchpad word's own error, or in HBM what the step says. -/
def State.scrubErr (s : State) (pa : Nat) (err : ErrKind) : ErrKind :=
  match s.region pa with
  | .pad _ _ => if s.badWords.contains (pa / 8) then .uncorrectable else if s.weakWords.contains (pa / 8) then .corrected else .ok
  | _ => err

/-- PATROL_SCRUB: the scrubber reads a word; what it corrects, or cannot correct, is logged at the word's home or in its tile's bank (R63, R91,
R315). -/
def execPatrolScrub (pa : Nat) (err : ErrKind) (s : State) : Host.Outcome State Fault Refusal :=
  let l : Loc := ⟨thisDev, pa⟩
  let log := fun (s : State) (cls : BitVec 2) =>
    let (d, s) := s.free
    s.modBank (s.bankFor l) fun b => b.log cls (s.srcFor l) 0 (BitVec.ofNat 64 (s.lineAddr false l)) d
  .next (match s.scrubErr pa err with
    | .ok => s
    | .corrected => log { s with weakWords := s.weakWords.filter fun w => w != pa / 8 } 1
    | .uncorrectable => log s 2)

/-- REMOTE_TIMEOUT: a remote access that had no response fails (R356). -/
def execRemoteTimeout (id : Nat) (s : State) : Host.Outcome State Fault Refusal :=
  .next (match s.flight.find? fun a => a.id = id with
    | some a => if a.loc.dev != thisDev && !a.done && !a.op.isResult then s.failAccess a else s
    | none => s)

/-- PEER_RESET: every access in flight to a remote device fails (R356). -/
def execPeerReset (dev : BitVec 12) (s : State) : Host.Outcome State Fault Refusal :=
  .next ((s.flight.filter fun a => a.loc.dev = dev.toNat && a.loc.dev != thisDev && !a.done && !a.op.isResult).foldl
    (fun s a => if s.flight.any fun e => e.id = a.id then s.failAccess a else s) s)

/-! ## Transactions between instructions (R216, R220) -/

/-- TX_CONFLICT: the strand's open transaction aborts for a lost line, or for what was asked of it (R216, R221). -/
def execTxConflict (who : SlotId) (s : State) : Host.Outcome State Fault Refusal :=
  .next (match s.strand? who with
    | none => s
    | some st =>
      if !st.inTx then s
      else match st.abortReq, s.lostLine who with
        | some r, _ => s.abortTx who r.1 r.2
        | none, some a => s.abortTx who 1 a
        | none, none => s)

/-- TX_WAKE: a strand asleep on a line that has been written wakes (R220). -/
def execTxWake (who : SlotId) (s : State) : Host.Outcome State Fault Refusal :=
  .next (match s.strand? who with
    | none => s
    | some st =>
      let hits := ((s.tile who.tile).weir.filter fun e => e.member = who.member && e.sleep && e.hit).map fun e => s.lineAddr e.sp e.line
      match hits with
      | [] => s
      | a :: r => if st.run = .asleep then s.wakeAt who (BitVec.ofNat 64 (r.foldl Nat.min a)) else s)

/-- WAKE_WITH_NO_WRITE: a sleeping strand may be woken with TXADDR 0 (R220), but no deterministic lane: when such a wake comes is timing, on which
its results must not depend (R301; DEDUCED, log 20). -/
def execWakeWithNoWrite (who : SlotId) (s : State) : Host.Outcome State Fault Refusal :=
  .next (match s.strand? who with
    | some st => if st.run = .asleep && st.chunk.isNone then s.wakeAt who 0 else s
    | none => s)

/-! ## Errors (R315, R316, R319) -/

/-- The end of every ring's work: RCFG.EN is cleared (R282, R316). -/
def CmdRing.disable (r : CmdRing) : CmdRing :=
  if r.rcfg.getLsbD 63 then { r with rcfg := r.rcfg &&& 0x7FFFFFFFFFFFFFFF, head := r.tail, slots := [] } else r

/-- The checkpoint that a tier and CKTGT name (R358). -/
def Ctl.ckKey (c : Ctl) (tier : Bool) : Nat × Nat := (if tier then 1 else 0, c.cktgt.toNat)

/-- The checkpoints when a reset or a fatal error interrupts a checkpoint or a restore: its tier's copy is unusable (R358). -/
def State.keptCheckpoints (s : State) : List ((Nat × Nat) × Saved) :=
  match s.ctl.ckpt with
  | some (_, tier) => s.checkpoints.filter fun k => k.1 != s.ctl.ckKey tier
  | none => s.checkpoints

/-- A fatal error (R316): logged, FATAL set, every launch ended, every ring disabled; a checkpoint that runs fails (R358). -/
def State.fatal (s : State) (bank : BankId) (src : BitVec 8) (addr detail : Word) : State :=
  let s := s.modBank bank fun b => b.log 3 src 0 addr detail
  let broken := s.ctl.ckpt.isSome
  let s : State := { s with
    ctl := { s.ctl with
      fatal := true
      ckpt := none
      busy := if broken then false else s.ctl.busy
      ckstat := if broken then 0x4000000000000000 else s.ctl.ckstat }
    checkpoints := s.keptCheckpoints }
  let s := (s.launches.map (·.lid)).foldl (fun s l => s.endLaunch l (codeWord 0 0x1002)) s
  { s with cmdRings := s.cmdRings.map CmdRing.disable }

/-- FATAL_ERROR. -/
def execFatalError (bank : BankId) (src : BitVec 8) (addr detail : Word) (s : State) : Host.Outcome State Fault Refusal :=
  .next (s.fatal bank src addr detail)

/-- LINK_RESEND: a flit or beat fails its parity a number of times in a row: each of the first four is resent, as corrected; a fifth is
fatal (R315). -/
def execLinkResend (bank : BankId) (fails : Nat) (addr detail : Word) (s : State) : Host.Outcome State Fault Refusal :=
  let s := (List.range (Nat.min fails 4)).foldl (fun (s : State) _ => s.modBank bank fun b => b.log 1 9 0 addr detail) s
  .next (if 5 ≤ fails then s.fatal bank 9 addr detail else s)

/-- A supervisor's start at its dispatch entry (R319, R350). -/
def Strand.restart (st : Strand) (img : List Byte) : Strand :=
  { st with run := .ready, ie := true, regs := { st.regs with pc := (Config.imageEntry img).setWidth 64 * 4, skipn := 0 } }

/-! ### The signed image (R350) -/

/-- n bytes of an image from an offset. -/
def imagePart (img : List Byte) (off n : Nat) : List Byte := (img.drop off).take n

/-- SHA-384 of what the image's digest covers: all but the digest itself and the signature. -/
def imageDigest (img : List Byte) : List Byte := sha384 (imagePart img 0 16 ++ imagePart img 64 (img.length - 160))

/-- Whether the digest that stands in an image is its own. -/
def digestOk (img : List Byte) : Bool := imageDigest img = imagePart img 16 48

/-- Whether an image's signature verifies over that digest, under the key whose SHA-384 is fused. -/
def State.signedOk (s : State) (img : List Byte) : Bool :=
  ecdsaVerify (imageDigest img) s.key (img.drop (img.length - 96)) && decide (beNat (sha384 s.key) = s.keyDigest.toNat)

/-- SUPERVISOR_MEMORY_ERROR: the code store is reloaded from the image, whose signature is verified as at boot, and the supervisor restarts; or
the queue tables come back from their mirror, which holds what they held; with the mirror lost, the tile is fenced (R319). What follows an
image that does not verify is not stated: the supervisor stays out of the rotation (DESIGN CHOICE, log 59). -/
def execSupervisorMemoryError (tile : Nat) (queues mirrorLost : Bool) (s : State) : Host.Outcome State Fault Refusal :=
  let (d, s) := s.free
  let s := s.modBank (.tile tile) fun b => b.log 2 7 0 0 d
  .next (if !queues then
      let ok := digestOk s.fwImage && s.signedOk s.fwImage
      { s with codeStore := [] }.modStrand (supSlot tile) fun st => if ok then st.restart s.fwImage else { st with run := .out }
    else if mirrorLost || (s.tile tile).mirrorLost then s.fence tile
    else s)

end Sys2Proof.Machine
end

