-- ==== Sys2Proof/Machine/Host.lean ====
section
/-!
DEFINITION. The device's edges (spec/17 R347 to R358): the control page, boot, attestation, life cycle, Ultra Ethernet connections,
checkpoint and restore.
-/

namespace Sys2Proof.Machine

/-! ## Reset and boot (R349, R350, R353) -/

/-- The device after a reset: wiped, the fuses as they were; a checkpoint or a restore that was running has failed (R358). What the host
keeps outside (BAR4, the debugger) and the schedule stay. -/
def State.afterReset (s : State) : State :=
  let broken := s.ctl.ckpt.isSome
  { State.reset with
    nextId := s.nextId
    freeCount := s.freeCount
    fusedRows := s.fusedRows
    fusedCols := s.fusedCols
    staging := s.staging
    secret := s.secret
    rollbackMin := s.rollbackMin
    keyDigest := s.keyDigest
    key := s.key
    checkpoints := s.keptCheckpoints
    debugger := s.debugger
    hostSaw := s.hostSaw
    agenda := s.agenda
    focus := s.focus
    ctl := { Ctl.initial with lcs := s.ctl.lcs, ckstat := if broken then 0x4000000000000000 else 0 } }

/-- RESET. -/
def execReset (s : State) : Host.Outcome State Fault Refusal := .next s.afterReset

/-- n bytes of the boot image in BAR4. -/
def State.staged (s : State) (a n : Nat) : List Byte := (List.range n).map fun i => (assocGet s.staging (a + i)).getD 0

/-- The boot checks of Table 17.3 in their order: 0x06 first; 0 when all pass. -/
def State.bootCheck (s : State) : BitVec 8 :=
  let n := s.ctl.fwlen.toNat
  if s.ctl.lcs = 3 then 6
  else if n < 256 || 2 ^ 26 < n || s.staged 0 8 != [0x4E, 0x47, 0x46, 0x4B, 1, 0, 0, 0] then 1
  else if !digestOk (s.staged 0 n) then 2
  else if !s.signedOk (s.staged 0 n) then 3
  else if bytesToNat (s.staged 8 4) < s.rollbackMin.toNat then 4
  else if 3072 ≤ s.ctl.devnoset.toNat then 5
  else 0

/-- The supervisor of a tile as boot starts it. -/
def bootStrand (t uid : Nat) (img : List Byte) : Strand :=
  { Strand.initial with sup := true, sid := sidOf (supSlot t) false 0, uid := uid }.restart img

/-- Every supervisor started at its dispatch entry. -/
def State.startSups (s : State) (img : List Byte) : State :=
  { (List.range 1536).foldl (fun (s : State) t => s.setStrand (supSlot t) (bootStrand t (s.nextId + t) img)) s with
    nextId := s.nextId + 1536 }

/-- BOOTGO: the ROM checks the image and starts the supervisors; it acts only before the device runs. -/
def execBootgo (s : State) : Host.Outcome State Fault Refusal :=
  .next (if s.ctl.ready then s
    else
      let e := s.bootCheck
      if e != 0 then { s with ctl := { s.ctl with booterr := e, busy := false } }
      else
        let img := s.staged 0 s.ctl.fwlen.toNat
        { s.startSups img with
          fwImage := img
          codeStore := []
          devno := s.ctl.devnoset
          ctl := { s.ctl with ready := true, busy := false, booterr := 0 } })

/-! ## Life cycle (R354) -/

/-- The transitions of Table 17.4. -/
def lcAllowed (now : BitVec 2) (v : BitVec 3) : Bool :=
  (now = 0 && v = 1) || (now = 1 && (v = 2 || v = 3)) || (now = 2 && v = 3)

/-- LCREQ: an allowed next state resets the device and is burnt; any other value is ignored. -/
def execLcreq (v : BitVec 3) (s : State) : Host.Outcome State Fault Refusal :=
  .next (if lcAllowed s.ctl.lcs v then
      let t := s.afterReset
      { t with ctl := { t.ctl with lcs := v.setWidth 2 } }
    else s)

/-! ## Attestation (R351, R352) -/

/-- "foaskio-id". -/
def idLabel : List Byte := [0x66, 0x6F, 0x61, 0x73, 0x6B, 0x69, 0x6F, 0x2D, 0x69, 0x64]

/-- A byte string cut or filled with zeros to a length. -/
def fitTo (n : Nat) (bs : List Byte) : List Byte := (bs ++ List.replicate n 0).take n

def State.identityInfo (s : State) : List Byte := idLabel ++ fitTo 48 ((s.fwImage.drop 16).take 48)

/-- The private scalar of the device identity key: of what HKDF-SHA-384 derives from the fused secret and the info string (R351). How a scalar is
taken from those bytes the spec leaves open (log 12). -/
def State.identityScalar (s : State) : Nat := ecScalar (Config.scalarOf (hkdf384 (fitTo 48 s.secret) s.identityInfo))

/-- Bytes 0x000 to 0x0FF of a report (Table 17.5), with its valid bit as given. -/
def State.reportHead (s : State) (valid : Bool) : List Byte :=
  natToBytes 8 ((if valid then 2 ^ 63 else 0) + s.ctl.lcs.toNat + s.devno.toNat * 2 ^ 32)
    ++ natToBytes 8 (s.rollbackMin.toNat * 2 ^ 32 + bytesToNat (fitTo 4 ((s.fwImage.drop 8).take 4)))
    ++ fitTo 48 ((s.fwImage.drop 16).take 48) ++ fitTo 48 s.ctl.nonce
    ++ ecPublic s.identityScalar ++ List.replicate 47 0

/-- ATTGO: a report is built from the nonce as it stands; until it is complete its valid bit is 0. -/
def execAttgo (s : State) : Host.Outcome State Fault Refusal :=
  .next { s with ctl := { s.ctl with building := true, report := s.reportHead false ++ List.replicate 256 0 } }

/-- REPORT_COMPLETE: the report is valid and signed (R352), with random numbers that the spec leaves open (log 12). -/
def execReportComplete (s : State) : Host.Outcome State Fault Refusal :=
  .next (if !s.ctl.building then s
    else
      let head := s.ctl.report.take 256
      let head := head.set 7 ((head.getD 7 0) ||| 0x80)
      let sig := ecdsaSign s.identityScalar (sha384 head) 8 s.freeCount
      { s with
        freeCount := s.freeCount + 8
        ctl := { s.ctl with building := false, report := head ++ sig ++ List.replicate 160 0 } })

/-! ## The control page (Table 17.2) -/

/-- DEVICE_REGISTER_WRITE: FWLEN, DEVNOSET, CKTGT and NONCE; a write elsewhere has no effect of its own. -/
def execDeviceRegisterWrite (off : Nat) (v : Word) (s : State) : Host.Outcome State Fault Refusal :=
  .next (if off = 0x18 then { s with ctl := { s.ctl with fwlen := v.setWidth 26 } }
    else if off = 0x20 then { s with ctl := { s.ctl with devnoset := v.setWidth 12 } }
    else if off = 0x48 then { s with ctl := { s.ctl with cktgt := v.setWidth 16 } }
    else if 0x100 ≤ off && off < 0x130 && off % 8 = 0 then
      { s with ctl := { s.ctl with
        nonce := s.ctl.nonce.take (off - 0x100) ++ natToBytes 8 v.toNat ++ s.ctl.nonce.drop (off - 0x100 + 8) } }
    else s)

/-- DSTAT (Table 17.2). -/
def Ctl.dstat (c : Ctl) : Word :=
  BitVec.ofNat 64 ((if c.fatal then 2 ^ 63 else 0) + (if c.ready then 2 ^ 62 else 0) + (if c.busy then 2 ^ 61 else 0) + c.booterr.toNat)

/-- The word that the host reads at an offset of BAR2 (Table 17.2): the registers that are written alone, and offsets that the table does not
name, read 0. -/
def Ctl.word (c : Ctl) (off : Nat) : Word :=
  if off = 0 then c.dstat
  else if off = 8 then c.lcs.setWidth 64
  else if off = 0x18 then c.fwlen.setWidth 64
  else if off = 0x20 then c.devnoset.setWidth 64
  else if off = 0x48 then c.cktgt.setWidth 64
  else if off = 0x50 then c.ckstat
  else if 0x100 ≤ off && off < 0x130 then wordAt c.nonce (off - 0x100)
  else if 0x400 ≤ off && off < 0x600 then wordAt c.report (off - 0x400)
  else 0

/-- A read of the control page by the host (R348). -/
def State.hostRegRead (s : State) (off : Nat) : State := { s with hostSaw := s.ctl.word (off / 8 * 8) }

/-- A read of the port window through BAR0 (R281, R283): an aligned one of RESV reserves a ticket. -/
def State.hostRead (s : State) (off : Nat) : State :=
  if off % 0x10000 = 8 && off < 0x400000 then
    let (w, r) := (s.ring (off / 0x10000)).reserve
    { s.putCmdRing r with hostSaw := w }
  else { s with hostSaw := s.portWord (off / 8 * 8) }

/-- A read of eight bytes of the boot staging buffer BAR4 (R347). -/
def State.hostStageRead (s : State) (off : Nat) : State := { s with hostSaw := wordAt (s.staged (off / 8 * 8) 8) 0 }

/-! ## Ultra Ethernet (R357) -/

def UetOption.supported : UetOption → Bool
  | .aiBase => true
  | .aiFull => true
  | .hpc => false
  | .rod => true
  | .rud => true
  | .rudi => true
  | .uud => false
  | .nscc => true
  | .rccc => true
  | .linkRetry => true
  | .creditFlow => false
  | .tssAesGcm256 => true
  | .unencrypted => false

/-- UET_CONNECT: the supported options of an offer are in use; the others are refused. -/
def execUetConnect (port : Nat) (offer : List UetOption) (s : State) : Host.Outcome State Fault Refusal :=
  .next (if port < 8 then { s with uet := assocSet s.uet port (offer.filter UetOption.supported) } else s)

/-! ## Checkpoint and restore (R358) -/

/-- Every user strand is asked to leave the rotation; one that is ready leaves at once, since no turn will come. -/
def State.stopStrands (s : State) : State :=
  s.allSlots.foldl (fun s x =>
    match s.strand? x with
    | some st => if st.sup then s else if st.run = .ready then s.preempt x else s.requestPreempt x
    | none => s) s

/-- CKCTL_GO: dispatch stops and every strand leaves the rotation; the supervisors' SPILL steps and the engines' own steps follow. -/
def execCkctlGo (tier : BitVec 1) (s : State) : Host.Outcome State Fault Refusal :=
  .next (if !s.ctl.ready || s.ctl.ckpt.isSome then s
    else { s.stopStrands with ctl := { s.ctl with busy := true, ckpt := some (false, tier = 1) } })

/-- CKCTL_RESTORE. -/
def execCkctlRestore (tier : BitVec 1) (s : State) : Host.Outcome State Fault Refusal :=
  .next (if !s.ctl.ready || s.ctl.ckpt.isSome then s
    else { s.stopStrands with ctl := { s.ctl with busy := true, ckpt := some (true, tier = 1) } })

/-- Whether every user strand is spilled and every transfer, matrix operation and engine action has ended. A pending ldc or stp stays at its home
(R214). -/
def State.quiet (s : State) : Bool :=
  !(s.allSlots.any fun x => ((s.strand? x).map fun st => !st.sup).getD false)
    && s.tiles.all (fun p => (p.2.chans.all fun c => c.queue.isEmpty) && decide (p.2.mat.opsLeft = 0))
    && s.flight.all (fun a => s.waitsAtHome a || s.spills.any fun p => p.strand.longs.any fun l => l.id = a.id)
    && s.packets.isEmpty && s.transit.isEmpty && s.intkReqs.isEmpty && s.copyWaits.isEmpty && s.outfalls.all fun o => o.todo.isEmpty

/-- What the safe tier receives. -/
def State.saved (s : State) : Saved :=
  { mem := s.mem
    full := s.full
    sems := s.tiles.map fun p => (p.1, p.2.sem)
    tbars := s.tiles.map fun p => (p.1, p.2.tbar)
    rings := s.tiles.map fun p => (p.1, p.2.rings)
    ids := s.tiles.map fun p => (p.1, p.2.chans.map fun c => (c.nextid, c.doneId))
    tasks := s.tiles.map fun p => (p.1, p.2.deque, p.2.overflow)
    resid := s.tiles.map fun p => (p.1, p.2.resid)
    spills := s.spills
    evicted := s.evicted
    cells := s.cells
    sheets := s.sheets
    redWords := s.redWords
    svcQueues := s.svcQueues
    members := s.members
    fwImage := s.fwImage
    launches := s.launches
    images := s.images
    roots := s.roots
    waves := s.waves
    waveReqs := s.waveReqs
    commands := s.commands
    flight := s.flight
    watches := s.watches
    cellWaits := s.cellWaits }

/-- A tile with what a checkpoint saved of it. -/
def Tile.restored (x : Tile) (k : Saved) (t : Nat) : Tile :=
  let q := (assocGet k.tasks t).getD ([], [])
  let ids := (assocGet k.ids t).getD (Vector.replicate 4 (0, 0))
  { x with
    sem := (assocGet k.sems t).getD (Vector.replicate 32 0)
    tbar := (assocGet k.tbars t).getD (Vector.replicate 4 Barrier.initial)
    rings := (assocGet k.rings t).getD (Vector.replicate 8 Ring.initial)
    ringsAt := (assocGet k.rings t).getD (Vector.replicate 8 Ring.initial)
    chans := x.chans.zipWith (fun c i => { c with nextid := i.1, doneId := i.2, queue := [], halted := false, cause := 0 }) ids
    deque := q.1
    overflow := q.2
    resid := (assocGet k.resid t).getD []
    tlb := []
    ibuf := []
    weir := []
    strands := x.strands.filter fun p => p.2.sup }

/-- The device with a checkpoint read back: every spilled strand then returns by the supervisors' RESTORE steps. -/
def State.restored (s : State) (k : Saved) : State :=
  { s with
    tiles := s.tiles.map fun p => (p.1, p.2.restored k p.1)
    rows := s.rows.map fun p => (p.1, { p.2 with tlb := [] })
    mem := k.mem
    full := k.full
    walks := []
    lags := []
    badWords := []
    weakWords := []
    spills := k.spills
    evicted := k.evicted
    cells := k.cells
    sheets := k.sheets
    redWords := k.redWords
    svcQueues := k.svcQueues
    members := k.members
    fwImage := k.fwImage
    launches := k.launches
    images := k.images
    roots := k.roots
    waves := k.waves
    waveReqs := k.waveReqs
    commands := k.commands
    flight := k.flight
    watches := k.watches
    cellWaits := k.cellWaits }

/-- CHECKPOINT_COMPLETE: the copy has ended, CKSTAT is written, the writes that waited are performed and dispatch resumes. A restore that finds
no usable copy fails (DESIGN CHOICE, log 63). -/
def execCheckpointComplete (fail : Bool) (ms : BitVec 32) (s : State) : Host.Outcome State Fault Refusal :=
  .next (match s.ctl.ckpt with
    | none => s
    | some (back, tier) =>
      let key := s.ctl.ckKey tier
      let close := fun (t : State) (fail : Bool) =>
        let stat := BitVec.ofNat 64 (2 ^ 63 + (if fail then 2 ^ 62 else 0) + ms.toNat)
        State.flushHeld { t with ctl := { t.ctl with busy := false, ckpt := none, ckstat := stat } }
      if fail then close { s with checkpoints := s.keptCheckpoints } true
      else if back then
        match s.checkpoints.find? fun k => k.1 = key with
        | some k => close (s.restored k.2) false
        | none => close s true
      else if s.quiet then close { s with checkpoints := (s.checkpoints.filter fun k => k.1 != key) ++ [(key, s.saved)] } false
      else s)

end Sys2Proof.Machine
end

