-- ==== Sys2Proof/Machine/Dispatch.lean ====
section
/-!
DEFINITION. One arm per step: which meaning runs it. Instruction words first, then the steps of the other agents (spec/95).
-/

namespace Sys2Proof.Machine

def exec (i : Instr) (s : State) : Host.Outcome State Fault Refusal :=
  match i with
  | .add m d a b => Sys2Proof.Machine.execAdd m d a b s
  | .sub m d a b => Sys2Proof.Machine.execSub m d a b s
  | .and m d a b => Sys2Proof.Machine.execAnd m d a b s
  | .or m d a b => Sys2Proof.Machine.execOr m d a b s
  | .xor m d a b => Sys2Proof.Machine.execXor m d a b s
  | .shl m d a b => Sys2Proof.Machine.execShl m d a b s
  | .shr m d a b => Sys2Proof.Machine.execShr m d a b s
  | .sha m d a b => Sys2Proof.Machine.execSha m d a b s
  | .min m d a b => Sys2Proof.Machine.execMin m d a b s
  | .max m d a b => Sys2Proof.Machine.execMax m d a b s
  | .minn m d a b => Sys2Proof.Machine.execMinn m d a b s
  | .maxn m d a b => Sys2Proof.Machine.execMaxn m d a b s
  | .sel m d a b => Sys2Proof.Machine.execSel m d a b s
  | .clz m d a => Sys2Proof.Machine.execClz m d a s
  | .popc m d a => Sys2Proof.Machine.execPopc m d a s
  | .mul m d a b => Sys2Proof.Machine.execMul m d a b s
  | .mulh m d a b => Sys2Proof.Machine.execMulh m d a b s
  | .mulhn m d a b => Sys2Proof.Machine.execMulhn m d a b s
  | .div m d a b => Sys2Proof.Machine.execDiv m d a b s
  | .divn m d a b => Sys2Proof.Machine.execDivn m d a b s
  | .rem m d a b => Sys2Proof.Machine.execRem m d a b s
  | .remn m d a b => Sys2Proof.Machine.execRemn m d a b s
  | .addi m d a imm => Sys2Proof.Machine.execAddi m d a imm s
  | .andi m d a imm => Sys2Proof.Machine.execAndi m d a imm s
  | .ori m d a imm => Sys2Proof.Machine.execOri m d a imm s
  | .xori m d a imm => Sys2Proof.Machine.execXori m d a imm s
  | .shli m d a sh => Sys2Proof.Machine.execShli m d a sh s
  | .shri m d a sh => Sys2Proof.Machine.execShri m d a sh s
  | .shai m d a sh => Sys2Proof.Machine.execShai m d a sh s
  | .lih m d imm => Sys2Proof.Machine.execLih m d imm s
  | .addpc m d imm => Sys2Proof.Machine.execAddpc m d imm s
  | .bext m d a pos len => Sys2Proof.Machine.execBext m d a pos len s
  | .bins m d a pos len => Sys2Proof.Machine.execBins m d a pos len s
  | .cmp m cond sk a b => Sys2Proof.Machine.execCmp m cond sk a b s
  | .cmpi m cond sk a imm => Sys2Proof.Machine.execCmpi m cond sk a imm s
  | .set m cond d a b => Sys2Proof.Machine.execSet m cond d a b s
  | .seti m cond d a imm => Sys2Proof.Machine.execSeti m cond d a imm s
  | .br m cond a disp => Sys2Proof.Machine.execBr m cond a disp s
  | .j m disp => Sys2Proof.Machine.execJ m disp s
  | .call m d disp => Sys2Proof.Machine.execCall m d disp s
  | .calli m d a imm => Sys2Proof.Machine.execCalli m d a imm s
  | .enter m imm => Sys2Proof.Machine.execEnter m imm s
  | .leave m imm => Sys2Proof.Machine.execLeave m imm s
  | .fadd m ty d a b => Sys2Proof.Machine.execFadd m ty d a b s
  | .fsub m ty d a b => Sys2Proof.Machine.execFsub m ty d a b s
  | .fmul m ty d a b => Sys2Proof.Machine.execFmul m ty d a b s
  | .fdiv m ty d a b => Sys2Proof.Machine.execFdiv m ty d a b s
  | .fmin m ty d a b => Sys2Proof.Machine.execFmin m ty d a b s
  | .fmax m ty d a b => Sys2Proof.Machine.execFmax m ty d a b s
  | .fsqrt m ty d a => Sys2Proof.Machine.execFsqrt m ty d a s
  | .fclass m ty d a => Sys2Proof.Machine.execFclass m ty d a s
  | .fmv m ty d a => Sys2Proof.Machine.execFmv m ty d a s
  | .ffma m ty d a b => Sys2Proof.Machine.execFfma m ty d a b s
  | .fcvt m dt st d a => Sys2Proof.Machine.execFcvt m dt st d a s
  | .fcmp m cond sk ty a b => Sys2Proof.Machine.execFcmp m cond sk ty a b s
  | .tsum m d a b => Sys2Proof.Machine.execTsum m d a b s
  | .lds m d a off z => Sys2Proof.Machine.execLds m d a off z s
  | .sts m b a off z => Sys2Proof.Machine.execSts m b a off z s
  | .ldg m d a off z => Sys2Proof.Machine.execLdg m d a off z s
  | .stg m b a off z => Sys2Proof.Machine.execStg m b a off z s
  | .ldsv m d a imm => Sys2Proof.Machine.execLdsv m d a imm s
  | .stsv m b a imm => Sys2Proof.Machine.execStsv m b a imm s
  | .ldgv m d a imm => Sys2Proof.Machine.execLdgv m d a imm s
  | .stgv m b a imm => Sys2Proof.Machine.execStgv m b a imm s
  | .ldc m d a imm => Sys2Proof.Machine.execLdc m d a imm s
  | .stp m b a imm => Sys2Proof.Machine.execStp m b a imm s
  | .ldx m d a => Sys2Proof.Machine.execLdx m d a s
  | .stx m d a b => Sys2Proof.Machine.execStx m d a b s
  | .fence m pred scope succ => Sys2Proof.Machine.execFence m pred scope succ s
  | .fencex m pred scope succ => Sys2Proof.Machine.execFencex m pred scope succ s
  | .atomAdd m ord d a b => Sys2Proof.Machine.execAtomAdd m ord d a b s
  | .atomAnd m ord d a b => Sys2Proof.Machine.execAtomAnd m ord d a b s
  | .atomOr m ord d a b => Sys2Proof.Machine.execAtomOr m ord d a b s
  | .atomXor m ord d a b => Sys2Proof.Machine.execAtomXor m ord d a b s
  | .atomMin m ord d a b => Sys2Proof.Machine.execAtomMin m ord d a b s
  | .atomMax m ord d a b => Sys2Proof.Machine.execAtomMax m ord d a b s
  | .atomMinn m ord d a b => Sys2Proof.Machine.execAtomMinn m ord d a b s
  | .atomMaxn m ord d a b => Sys2Proof.Machine.execAtomMaxn m ord d a b s
  | .atomSwap m ord d a b => Sys2Proof.Machine.execAtomSwap m ord d a b s
  | .atomCas m ord d a b => Sys2Proof.Machine.execAtomCas m ord d a b s
  | .atomFaddF64 m ord d a b => Sys2Proof.Machine.execAtomFaddF64 m ord d a b s
  | .atomFaddF32 m ord d a b => Sys2Proof.Machine.execAtomFaddF32 m ord d a b s
  | .atomnAdd m rel a b => Sys2Proof.Machine.execAtomnAdd m rel a b s
  | .atomnAnd m rel a b => Sys2Proof.Machine.execAtomnAnd m rel a b s
  | .atomnOr m rel a b => Sys2Proof.Machine.execAtomnOr m rel a b s
  | .atomnXor m rel a b => Sys2Proof.Machine.execAtomnXor m rel a b s
  | .atomnMin m rel a b => Sys2Proof.Machine.execAtomnMin m rel a b s
  | .atomnMax m rel a b => Sys2Proof.Machine.execAtomnMax m rel a b s
  | .atomnMinn m rel a b => Sys2Proof.Machine.execAtomnMinn m rel a b s
  | .atomnMaxn m rel a b => Sys2Proof.Machine.execAtomnMaxn m rel a b s
  | .atomnFaddF64 m rel a b => Sys2Proof.Machine.execAtomnFaddF64 m rel a b s
  | .atomnFaddF32 m rel a b => Sys2Proof.Machine.execAtomnFaddF32 m rel a b s
  | .redpReg m ty a => Sys2Proof.Machine.execRedpReg m ty a s
  | .redpRel m a => Sys2Proof.Machine.execRedpRel m a s
  | .txb m disp => Sys2Proof.Machine.execTxb m disp s
  | .txe m => Sys2Proof.Machine.execTxe m s
  | .txa m a => Sys2Proof.Machine.execTxa m a s
  | .retry m => Sys2Proof.Machine.execRetry m s
  | .txst m d => Sys2Proof.Machine.execTxst m d s
  | .oth m disp => Sys2Proof.Machine.execOth m disp s
  | .sempost m k a => Sys2Proof.Machine.execSempost m k a s
  | .semtry m d k => Sys2Proof.Machine.execSemtry m d k s
  | .cpset m ch field a => Sys2Proof.Machine.execCpset m ch field a s
  | .cpseti m ch field imm => Sys2Proof.Machine.execCpseti m ch field imm s
  | .cpget m d ch field => Sys2Proof.Machine.execCpget m d ch field s
  | .cplaunch m d ch => Sys2Proof.Machine.execCplaunch m d ch s
  | .cpstat m d ch => Sys2Proof.Machine.execCpstat m d ch s
  | .cpstop m ch => Sys2Proof.Machine.execCpstop m ch s
  | .lkcfg m ring a => Sys2Proof.Machine.execLkcfg m ring a s
  | .lkadv m ring => Sys2Proof.Machine.execLkadv m ring s
  | .lkpos m d ring => Sys2Proof.Machine.execLkpos m d ring s
  | .lkjoin m ring a => Sys2Proof.Machine.execLkjoin m ring a s
  | .vadd m rnd t d a b => Sys2Proof.Machine.execVadd m rnd t d a b s
  | .vsub m rnd t d a b => Sys2Proof.Machine.execVsub m rnd t d a b s
  | .vmul m rnd t d a b => Sys2Proof.Machine.execVmul m rnd t d a b s
  | .vfma m rnd t d a b => Sys2Proof.Machine.execVfma m rnd t d a b s
  | .vfms m rnd t d a b => Sys2Proof.Machine.execVfms m rnd t d a b s
  | .vfnma m rnd t d a b => Sys2Proof.Machine.execVfnma m rnd t d a b s
  | .vdiv m rnd t d a b => Sys2Proof.Machine.execVdiv m rnd t d a b s
  | .vsqrt m rnd t d a => Sys2Proof.Machine.execVsqrt m rnd t d a s
  | .vabs m rnd t d a => Sys2Proof.Machine.execVabs m rnd t d a s
  | .vneg m rnd t d a => Sys2Proof.Machine.execVneg m rnd t d a s
  | .vrcp m rnd t d a => Sys2Proof.Machine.execVrcp m rnd t d a s
  | .vrsq m rnd t d a => Sys2Proof.Machine.execVrsq m rnd t d a s
  | .vexp2 m rnd t d a => Sys2Proof.Machine.execVexp2 m rnd t d a s
  | .vmin m t d a b => Sys2Proof.Machine.execVmin m t d a b s
  | .vmax m t d a b => Sys2Proof.Machine.execVmax m t d a b s
  | .vcmp m cnd t d a b => Sys2Proof.Machine.execVcmp m cnd t d a b s
  | .vsel m t d a b => Sys2Proof.Machine.execVsel m t d a b s
  | .vredAdd m t d a => Sys2Proof.Machine.execVredAdd m t d a s
  | .vredMin m t d a => Sys2Proof.Machine.execVredMin m t d a s
  | .vredMax m t d a => Sys2Proof.Machine.execVredMax m t d a s
  | .vtsum m d a => Sys2Proof.Machine.execVtsum m d a s
  | .vcvt m dt st rnd d a => Sys2Proof.Machine.execVcvt m dt st rnd d a s
  | .vperm m d a b => Sys2Proof.Machine.execVperm m d a b s
  | .vshufZlo m d a b => Sys2Proof.Machine.execVshufZlo m d a b s
  | .vshufZhi m d a b => Sys2Proof.Machine.execVshufZhi m d a b s
  | .vshufEven m d a b => Sys2Proof.Machine.execVshufEven m d a b s
  | .vshufOdd m d a b => Sys2Proof.Machine.execVshufOdd m d a b s
  | .vbcast m t d a => Sys2Proof.Machine.execVbcast m t d a s
  | .vmov m t d a => Sys2Proof.Machine.execVmov m t d a s
  | .vext m t d a idx => Sys2Proof.Machine.execVext m t d a idx s
  | .vextHigh m t d a idx => Sys2Proof.Machine.execVextHigh m t d a idx s
  | .viadd m t d a b => Sys2Proof.Machine.execViadd m t d a b s
  | .visub m t d a b => Sys2Proof.Machine.execVisub m t d a b s
  | .vimul m t d a b => Sys2Proof.Machine.execVimul m t d a b s
  | .vand m d a b => Sys2Proof.Machine.execVand m d a b s
  | .vor m d a b => Sys2Proof.Machine.execVor m d a b s
  | .vxor m d a b => Sys2Proof.Machine.execVxor m d a b s
  | .vshl m t d a b => Sys2Proof.Machine.execVshl m t d a b s
  | .vshr m t d a b => Sys2Proof.Machine.execVshr m t d a b s
  | .plane m pm1 d a b => Sys2Proof.Machine.execPlane m pm1 d a b s
  | .unplane m pm1 d a b => Sys2Proof.Machine.execUnplane m pm1 d a b s
  | .p2enc m t d a => Sys2Proof.Machine.execP2enc m t d a s
  | .p2dec m t d a => Sys2Proof.Machine.execP2dec m t d a s
  | .bscale m t d a b => Sys2Proof.Machine.execBscale m t d a b s
  | .srnd m t d a => Sys2Proof.Machine.execSrnd m t d a s
  | .mptrOpa m a b => Sys2Proof.Machine.execMptrOpa m a b s
  | .mptrOpb m a b => Sys2Proof.Machine.execMptrOpb m a b s
  | .msclOpa m a b => Sys2Proof.Machine.execMsclOpa m a b s
  | .msclOpb m a b => Sys2Proof.Machine.execMsclOpb m a b s
  | .mspar m a b => Sys2Proof.Machine.execMspar m a b s
  | .mgang m k => Sys2Proof.Machine.execMgang m k s
  | .mmul m => Sys2Proof.Machine.execMmul m s
  | .mzero m a => Sys2Proof.Machine.execMzero m a s
  | .mwr m a b => Sys2Proof.Machine.execMwr m a b s
  | .mrdhi m d a => Sys2Proof.Machine.execMrdhi m d a s
  | .mrdlo m d a => Sys2Proof.Machine.execMrdlo m d a s
  | .mrds m d a => Sys2Proof.Machine.execMrds m d a s
  | .cbind m a b => Sys2Proof.Machine.execCbind m a b s
  | .cunbind m a => Sys2Proof.Machine.execCunbind m a s
  | .cwopen m d a => Sys2Proof.Machine.execCwopen m d a s
  | .ccommit m d a b => Sys2Proof.Machine.execCcommit m d a b s
  | .cdone m a => Sys2Proof.Machine.execCdone m a s
  | .cpin m d a => Sys2Proof.Machine.execCpin m d a s
  | .cunpin m a b => Sys2Proof.Machine.execCunpin m a b s
  | .cgen m d a => Sys2Proof.Machine.execCgen m d a s
  | .cstat m d a => Sys2Proof.Machine.execCstat m d a s
  | .fork m disp => Sys2Proof.Machine.execFork m disp s
  | .join m a => Sys2Proof.Machine.execJoin m a s
  | .mig m row col a => Sys2Proof.Machine.execMig m row col a s
  | .gang m a => Sys2Proof.Machine.execGang m a s
  | .barTile m k => Sys2Proof.Machine.execBarTile m k s
  | .barRow m k => Sys2Proof.Machine.execBarRow m k s
  | .exit m => Sys2Proof.Machine.execExit m s
  | .yield m => Sys2Proof.Machine.execYield m s
  | .nred m t a b => Sys2Proof.Machine.execNred m t a b s
  | .nsend m a b => Sys2Proof.Machine.execNsend m a b s
  | .intk m d a => Sys2Proof.Machine.execIntk m d a s
  | .outf m d a => Sys2Proof.Machine.execOutf m d a s
  | .rndcLo m d a b => Sys2Proof.Machine.execRndcLo m d a b s
  | .rndcHi m d a b => Sys2Proof.Machine.execRndcHi m d a b s
  | .trap m code => Sys2Proof.Machine.execTrap m code s
  | .sret m => Sys2Proof.Machine.execSret m s
  | .sysr m d num => Sys2Proof.Machine.execSysr m d num s
  | .sysw m num a => Sys2Proof.Machine.execSysw m num a s
  | .tlbinvPage m a => Sys2Proof.Machine.execTlbinvPage m a s
  | .tlbinvAsid m a => Sys2Proof.Machine.execTlbinvAsid m a s
  | .tlbinvAll m => Sys2Proof.Machine.execTlbinvAll m s
  | .selftest m d a => Sys2Proof.Machine.execSelftest m d a s
  | .brk m code => Sys2Proof.Machine.execBrk m code s
  | .annulledWord => Sys2Proof.Machine.execAnnulledWord s
  | .longResultReturn id => Sys2Proof.Machine.execLongResultReturn id s
  | .translationWalk who => Sys2Proof.Machine.execTranslationWalk who s
  | .globalAccessPerformed id err answer => Sys2Proof.Machine.execGlobalAccessPerformed id err answer s
  | .storeBufferDrain id => Sys2Proof.Machine.execStoreBufferDrain id s
  | .homeAtomic id err answer => Sys2Proof.Machine.execHomeAtomic id err answer s
  | .fullEmptyRetest id err answer => Sys2Proof.Machine.execFullEmptyRetest id err answer s
  | .patrolScrub pa err => Sys2Proof.Machine.execPatrolScrub pa err s
  | .tileWindowAccess id err => Sys2Proof.Machine.execTileWindowAccess id err s
  | .transferStart tile ch => Sys2Proof.Machine.execTransferStart tile ch s
  | .copyElement tile ch old err answer => Sys2Proof.Machine.execCopyElement tile ch old err answer s
  | .transferComplete tile ch => Sys2Proof.Machine.execTransferComplete tile ch s
  | .sendPacketAccept tile ch => Sys2Proof.Machine.execSendPacketAccept tile ch s
  | .cpctlResume tile ch => Sys2Proof.Machine.execCpctlResume tile ch s
  | .cpctlCancel tile ch => Sys2Proof.Machine.execCpctlCancel tile ch s
  | .asyncDelivery => Sys2Proof.Machine.execAsyncDelivery s
  | .preemption who => Sys2Proof.Machine.execPreemption who s
  | .spill who base => Sys2Proof.Machine.execSpill who base s
  | .restore who uid => Sys2Proof.Machine.execRestore who uid s
  | .restoreDeadline tile waveId => Sys2Proof.Machine.execRestoreDeadline tile waveId s
  | .launchEvict tile ev => Sys2Proof.Machine.execLaunchEvict tile ev s
  | .wavePlace req place => Sys2Proof.Machine.execWavePlace req place s
  | .dequeTake who stackBot => Sys2Proof.Machine.execDequeTake who stackBot s
  | .dequeOverflowMove tile => Sys2Proof.Machine.execDequeOverflowMove tile s
  | .continuationArrive idx => Sys2Proof.Machine.execContinuationArrive idx s
  | .loadExchange src dst kind => Sys2Proof.Machine.execLoadExchange src dst kind s
  | .classWindow tile => Sys2Proof.Machine.execClassWindow tile s
  | .eventTake tile => Sys2Proof.Machine.execEventTake tile s
  | .seventRead tile => Sys2Proof.Machine.execSeventRead tile s
  | .trunResume tile v => Sys2Proof.Machine.execTrunResume tile v s
  | .trunEndLaunch tile v => Sys2Proof.Machine.execTrunEndLaunch tile v s
  | .supervisorMemoryError tile queues mirrorLost => Sys2Proof.Machine.execSupervisorMemoryError tile queues mirrorLost s
  | .mcstatusClear tile v => Sys2Proof.Machine.execMcstatusClear tile v s
  | .mccountClear tile => Sys2Proof.Machine.execMccountClear tile s
  | .fatalError bank src addr detail => Sys2Proof.Machine.execFatalError bank src addr detail s
  | .linkResend bank fails addr detail => Sys2Proof.Machine.execLinkResend bank fails addr detail s
  | .selftestComplete tile fail => Sys2Proof.Machine.execSelftestComplete tile fail s
  | .txConflict who => Sys2Proof.Machine.execTxConflict who s
  | .txWake who => Sys2Proof.Machine.execTxWake who s
  | .editAccept sheet => Sys2Proof.Machine.execEditAccept sheet s
  | .publicationStep sheet => Sys2Proof.Machine.execPublicationStep sheet s
  | .taskRelease sheet cell => Sys2Proof.Machine.execTaskRelease sheet cell s
  | .formulaPublish sheet => Sys2Proof.Machine.execFormulaPublish sheet s
  | .routerPacketArrive idx => Sys2Proof.Machine.execRouterPacketArrive idx s
  | .routerTimeout die group router => Sys2Proof.Machine.execRouterTimeout die group router s
  | .nsendDeliver idx => Sys2Proof.Machine.execNsendDeliver idx s
  | .matrixOpStart tile => Sys2Proof.Machine.execMatrixOpStart tile s
  | .matrixBlockApply tile err => Sys2Proof.Machine.execMatrixBlockApply tile err s
  | .ringReserve n => Sys2Proof.Machine.execRingReserve n s
  | .ringCommit n t => Sys2Proof.Machine.execRingCommit n t s
  | .rcfgWrite n v => Sys2Proof.Machine.execRcfgWrite n v s
  | .rerrClear n => Sys2Proof.Machine.execRerrClear n s
  | .launch n => Sys2Proof.Machine.execLaunch n s
  | .commit n => Sys2Proof.Machine.execCommit n s
  | .bind n => Sys2Proof.Machine.execBind n s
  | .sheetnew n => Sys2Proof.Machine.execSheetnew n s
  | .cellnew n => Sys2Proof.Machine.execCellnew n s
  | .sheetend n => Sys2Proof.Machine.execSheetend n s
  | .sheetDestroy sheet => Sys2Proof.Machine.execSheetDestroy sheet s
  | .launchend n => Sys2Proof.Machine.execLaunchend n s
  | .fwopSelftest n => Sys2Proof.Machine.execFwopSelftest n s
  | .turnarm n => Sys2Proof.Machine.execTurnarm n s
  | .copy n => Sys2Proof.Machine.execCopy n s
  | .reduce n => Sys2Proof.Machine.execReduce n s
  | .nop n => Sys2Proof.Machine.execNop n s
  | .completionWord cid => Sys2Proof.Machine.execCompletionWord cid s
  | .launchComplete lid => Sys2Proof.Machine.execLaunchComplete lid s
  | .turnoutCount die tag => Sys2Proof.Machine.execTurnoutCount die tag s
  | .turnoutInsert k => Sys2Proof.Machine.execTurnoutInsert k s
  | .turnoutDisarm k => Sys2Proof.Machine.execTurnoutDisarm k s
  | .chunkCommit lid => Sys2Proof.Machine.execChunkCommit lid s
  | .sqMessageArrive handle asid msg => Sys2Proof.Machine.execSqMessageArrive handle asid msg s
  | .intake idx => Sys2Proof.Machine.execIntake idx s
  | .outfallVersion cell => Sys2Proof.Machine.execOutfallVersion cell s
  | .reset => Sys2Proof.Machine.execReset s
  | .bootgo => Sys2Proof.Machine.execBootgo s
  | .lcreq v => Sys2Proof.Machine.execLcreq v s
  | .attgo => Sys2Proof.Machine.execAttgo s
  | .reportComplete => Sys2Proof.Machine.execReportComplete s
  | .ckctlGo tier => Sys2Proof.Machine.execCkctlGo tier s
  | .ckctlRestore tier => Sys2Proof.Machine.execCkctlRestore tier s
  | .checkpointComplete fail ms => Sys2Proof.Machine.execCheckpointComplete fail ms s
  | .deviceRegisterWrite off v => Sys2Proof.Machine.execDeviceRegisterWrite off v s
  | .remoteTimeout id => Sys2Proof.Machine.execRemoteTimeout id s
  | .peerReset dev => Sys2Proof.Machine.execPeerReset dev s
  | .uetConnect port offer => Sys2Proof.Machine.execUetConnect port offer s
  | .wakeWithNoWrite who => Sys2Proof.Machine.execWakeWithNoWrite who s
  | .hostDebuggerResume who => Sys2Proof.Machine.execHostDebuggerResume who s

end Sys2Proof.Machine
end

