-- ==== Sys2Proof/Machine/Turn.lean ====
section
/-!
DEFINITION. Whose turn it is and what a turn comes to (spec/12 R234, R235, spec/15 R310): recognition, fetch, decode; and what
the outside world does between turns. exec gives every step its effect.
-/

namespace Sys2Proof.Machine

/-- The outcome of a step with its next state changed. -/
def mapNext (o : Host.Outcome State Fault Refusal) (f : State → State) : Host.Outcome State Fault Refusal :=
  match o with
  | .next s => .next (f s)
  | .fault r => .fault r
  | .refused r => .refused r

/-- The rotation of a tile moves on: by one half-turn when the turn is lent, else past the sibling's (R234, R235). At the end of the cycle the
rings as they stand are those that the next cycle's addresses see (R100). -/
def Tile.rotate (t : Tile) (lent : Bool) : Tile :=
  let p := if lent && t.phase % 2 = 0 then t.phase + 1 else (t.phase / 2 + 1) * 2
  if 6 ≤ p then { t with phase := 0, cycle := t.cycle + 1, ringsAt := t.rings } else { t with phase := p }

def State.rotate (s : State) (t : Nat) (lent : Bool) : State := s.modTile t fun x => x.rotate lent

/-- The slot that owns the turn at a tile's rotation, and the slot that may borrow it (R234, R235). -/
def Tile.owner (t : Tile) (n : Nat) : SlotId := ⟨n, coreOf (t.phase / 2), (t.cycle.toNat) % 8⟩
def sibling (x : SlotId) : SlotId := { x with slot := Nat.xor x.slot 1 }

/-- What a strand's fetch comes to. -/
inductive Fetched
  | word (w : BitVec 32)
  | miss (va : Nat)
  | fault (code : Nat) (detail : Word)
  deriving DecidableEq, Repr

/-- The word of a launch's text at an address as a core fetches it: what its instruction buffer holds, else what stands in memory (R59,
log 44). -/
def State.textAt (s : State) (x : SlotId) (lid addr : Nat) : BitVec 32 :=
  match (s.tile x.tile).ibuf.find? fun k => k.core = x.core.num && k.lid = lid && k.addr = addr with
  | some k => k.word
  | none => BitVec.ofNat 32 (s.readNat addr 4)

/-- The word that a strand fetches at its pc (R54, R59, R350): a user strand through translation, the supervisor from its code store. -/
def State.fetch (s : State) (x : SlotId) (st : Strand) : Fetched :=
  if st.sup then
    .word ((assocGet s.codeStore st.regs.pc.toNat).getD (Config.imageCode s.fwImage st.regs.pc.toNat))
  else match s.translate x.tile st.regs.ptroot false st.regs.pc .fetch with
    | .at_ p _ => .word (s.textAt x st.lid p.addr)
    | .miss => .miss st.regs.pc.toNat
    | .fault c d => .fault c d

/-- The detail word of an illegal-instruction fault (R30). -/
def illegalDetail (w : BitVec 32) (r : Nat) : Word := BitVec.ofNat 64 (r * 2 ^ 32 + w.toNat)

/-- The repeat of an instruction whose residue check failed now matches: the error was a corrected one (R315). An issue ends a row of forfeited
turns (R89). -/
def State.settleRedo (s : State) (x : SlotId) (st : Strand) : State :=
  match st.redo with
  | none => if st.lost = 0 then s else s.setStrand x { st with lost := 0 }
  | some r => (s.setStrand x { st with redo := none, lost := 0 }).modBank (.tile x.tile) fun b => b.log 1 r.1 (BitVec.ofNat 5 x.member) r.2.1 r.2.2

/-- Fetching, decoding and running the word at a strand's pc. -/
def State.runWord (s : State) (x : SlotId) (st : Strand) : Host.Outcome State Fault Refusal :=
  match s.fetch x st with
  | .miss va => .next (s.holdAt x (.walk va .fetch) false)
  | .fault c d => .next (s.faultTurn x c d st.regs.pc)
  | .word w =>
    match decodeFor x.core w with
    | .error r => .next (s.faultTurn x 1 (illegalDetail w r) st.regs.pc)
    | .ok i => exec i { s.settleRedo x st with cur := x }

/-- What the turn of a strand that is able to issue comes to, in the order of Table 15.5; then what ends a transaction, then the
supervisor's events, annulled words, and the instruction itself. -/
inductive Recognised
  | preempt | deliver | conflict | wave | event | annul | word
  deriving DecidableEq, Repr

/-- Whether a strand's next word is a retry without an alternative: it acts on a written read line itself, as a wake (R220, log 49). -/
def State.retriesNext (s : State) (x : SlotId) (st : Strand) : Bool :=
  st.regs.skipn = 0 && st.abortReq.isNone && ((st.tx.map (·.levels)).getD []).all (fun l => l.next.isNone)
    && (match s.fetch x st with
      | .word w => (match decodeFor x.core w with | .ok (.retry _) => true | _ => false)
      | _ => false)

def State.recognise (s : State) (x : SlotId) (st : Strand) : Recognised :=
  if st.preReq then .preempt
  else if !st.asyncs.isEmpty then .deliver
  else if st.inTx && (st.abortReq.isSome || ((s.lostLine x).isSome && !s.retriesNext x st)) then .conflict
  else if s.waveSleeps x then .wave
  else if st.sup && st.ie && !(s.tile x.tile).events.isEmpty then .event
  else if st.regs.skipn != 0 then .annul
  else .word

/-- The turn of a strand that is able to issue. -/
def State.issueTurn (s : State) (x : SlotId) (st : Strand) : Host.Outcome State Fault Refusal :=
  match s.recognise x st with
  | .preempt => exec (.preemption x) s
  | .deliver => exec .asyncDelivery { s with cur := x }
  | .conflict => exec (.txConflict x) s
  | .wave => .next ((s.abortTx x 9 0).modStrand x fun st => { st with run := .held .wave })
  | .event => exec (.eventTake x.tile) s
  | .annul => exec .annulledWord { s with cur := x }
  | .word => s.runWord x st

/-- A held strand's turn: whether it may try again, and what that comes to; none while it waits. An instruction that tests its condition again
is issued anew, after what stands before it (R216, R222, R310); a fault that waited for results comes after a delivery that has come meanwhile. -/
def State.heldTurn (s : State) (x : SlotId) (st : Strand) (h : Hold) : Option (Host.Outcome State Fault Refusal) :=
  if st.preReq then some (exec (.preemption x) s)
  else match h with
    | .walk _ _ => none
    | .bar _ _ _ => none
    | .wave => none
    | .chunk => none
    | .fault code detail =>
      match (if code < 256 then st.chunk else none) with
      | some c =>
        if !st.asyncs.isEmpty then some (exec .asyncDelivery { s with cur := x }) else (s.laneFault x st c code detail).map .next
      | none =>
      if !st.longs.isEmpty || s.stpPending x then none
      else if decide (code < 256) && !st.asyncs.isEmpty then some (exec .asyncDelivery { s with cur := x })
      else some (.next (s.takeFault x (decide (256 ≤ code)) (code % 256) detail (faultPc (code % 256) st.regs.pc)))
    | .again =>
      match s.recognise x st with
      | .deliver => some (exec .asyncDelivery { s with cur := x })
      | .conflict => some (exec (.txConflict x) s)
      | .wave => some (.next ((s.abortTx x 9 0).modStrand x fun st => { st with run := .held .wave }))
      | _ => some (s.runWord x st)
    | .home _ => some (s.runWord x st)
    | .joined _ => some (s.runWord x st)
    | .tlbinv _ _ => some (s.runWord x st)
    | .selftest => some (s.runWord x st)
    | .edit _ => none

/-- Whether a held strand is still held: then the turn was idle and is lent (Table 12.1). -/
def State.heldNow (s : State) (x : SlotId) : Bool :=
  match s.strand? x with
  | some st => (match st.run with | .held _ => true | _ => false)
  | none => false

/-- Whether a deterministic launch holds a slot: its idle turns are left empty then (R235, R298). -/
def State.detSlot (s : State) (x : SlotId) : Bool :=
  (s.holders x.tile).any fun r => r.slots.contains x.member && ((s.launch? r.lid).map (·.det)).getD false

/-- The owner's turn (Table 12.1): its effect, and whether the turn is lent. An empty slot takes the next task of the launch that holds it
(R243). Nothing is lent in deterministic mode. Table 12.1 has no row for a turn that R310 spends on a pre-emption, a delivery, a lost transaction or an
event: it is lent where the next word is annulled, and spent otherwise (DESIGN CHOICE, log 74). -/
def State.ownerTurn (s : State) (x : SlotId) : Host.Outcome State Fault Refusal :=
  match s.strand? x with
  | none => .next (((s.takeAtTurn x).getD s).rotate x.tile (!s.detSlot x))
  | some st =>
    let lend := !st.det
    match st.run with
    | .ready => mapNext (s.issueTurn x st) fun t => t.rotate x.tile (lend && st.regs.skipn != 0)
    | .parked =>
      if st.longs.isEmpty then
        let st := { st with run := .ready }
        mapNext ((s.setStrand x st).issueTurn x st) fun t => t.rotate x.tile (lend && st.regs.skipn != 0)
      else if st.preReq then mapNext (exec (.preemption x) s) fun t => t.rotate x.tile lend
      else .next (s.rotate x.tile lend)
    | .held h =>
      match s.heldTurn x st h with
      | none => .next (s.rotate x.tile lend)
      | some o => mapNext o fun t => t.rotate x.tile (lend && t.heldNow x)
    | .asleep => if st.preReq then mapNext (exec (.preemption x) s) fun t => t.rotate x.tile lend else .next (s.rotate x.tile lend)
    | .out => .next (s.rotate x.tile lend)
    | .preempted _ => .next (s.rotate x.tile lend)

/-- A lent turn: the sibling issues if it is able to, one whose hold is over among them; otherwise the turn is empty (R235). A parked one leaves its
park at a turn of its own alone (R109). A sibling whose next word is annulled spends the lent turn on it, since a borrowed turn counts as the borrower's for every rule (DEDUCED, log 60). -/
def State.borrowedTurn (s : State) (x : SlotId) : Host.Outcome State Fault Refusal :=
  match s.strand? x with
  | none => .next (s.rotate x.tile false)
  | some st =>
    if st.det then .next (s.rotate x.tile false)
    else match st.run with
      | .ready => mapNext (s.issueTurn x st) fun t => t.rotate x.tile false
      | .held h =>
        match s.heldTurn x st h with
        | none => .next (s.rotate x.tile false)
        | some o => mapNext o fun t => t.rotate x.tile false
      | _ => .next (s.rotate x.tile false)

/-- The slot whose turn the rotation has reached. -/
def State.turnSlot (s : State) (t : Nat) : SlotId :=
  let x := (s.tile t).owner t
  if (s.tile t).phase % 2 = 0 then x else sibling x

/-- Whether a checkpoint or a restore keeps a slot's strand out of the rotation (R358). -/
def State.stopped (s : State) (x : SlotId) : Bool := s.ctl.ckpt.isSome && !isSup x

/-- The next turn of a tile's rotation. While a checkpoint or a restore runs, every user strand stays out of the rotation (R358). -/
def State.turn (s : State) (t : Nat) : Host.Outcome State Fault Refusal :=
  let x := (s.tile t).owner t
  if s.stopped (s.turnSlot t) then .next (s.rotate t false)
  else if (s.tile t).phase % 2 = 0 then s.ownerTurn x else s.borrowedTurn (sibling x)

/-! ## Turns that meet an error, or lose a bank -/

/-- The strand of a tile's turn with the instruction that it would run: it is able to issue, and nothing stands before its word. -/
def State.wouldRun (s : State) (t : Nat) : Option (SlotId × Strand × Instr) :=
  let x := s.turnSlot t
  match s.strand? x with
  | none => none
  | some st =>
    let own := decide ((s.tile t).phase % 2 = 0)
    let able := st.run = .ready || (own && st.run = .parked && st.longs.isEmpty)
    if !able || s.stopped x || (st.det && !own) || s.recognise x st != .word then none
    else match s.fetch x st with
      | .word w => (match decodeFor x.core w with | .ok i => some (x, st, i) | .error _ => none)
      | _ => none

/-- What an instruction asks of the banks of its tile, if it makes a strand's scratchpad access (R88, R158): its registers, the address, the bytes and
their alignment. -/
def padAsk (st : Strand) : Instr → Option (Uses × Word × Nat × Nat)
  | .lds _ d a off z => some (useLoad false d a false, eaScalar (st.rs a) off z, sizeOf z, sizeOf z)
  | .sts _ b a off z => some (useStore false b a, eaScalar (st.rs a) off z, sizeOf z, sizeOf z)
  | .ldsv _ d a imm => some (useLoad true d a false, eaVector (st.rs a) imm, 128, 128)
  | .stsv _ b a imm => some (useStore true b a, eaVector (st.rs a) imm, 128, 128)
  | .lkcfg _ _ a => some ({ srcs := [(0, false, a)], access := true, aborts := true }, st.rs a, 8, 8)
  | .plane _ pm1 d a b => some (useGroups d (planeRegs (pm1.toNat + 1)) a 4 b, st.rs b, 1, 1)
  | .unplane _ pm1 d a b => some (useGroups d 4 a (planeRegs (pm1.toNat + 1)) b, st.rs b, 1, 1)
  | .nred _ _ a b => some ({ srcs := [(0, false, a), (1, false, b)], access := true, aborts := true }, st.rs b, 16, 8)
  | .nsend _ a b => some ({ srcs := [(0, false, a), (1, false, b)], access := true, aborts := true }, st.rs b, 16, 8)
  | _ => none

/-- What an instruction checks of itself before that access, beside its address: the ring of lkcfg, the payload of nred and nsend. -/
def State.padFirst (s : State) (x : SlotId) (st : Strand) : Instr → Bool
  | .lkcfg _ ring a =>
    (match s.physRing x st ring.toNat with
      | none => false
      | some k =>
        let r := (s.tile x.tile).rings.getD k Ring.initial
        r.pmem ||| r.cmem = 0 && !((st.rs a).getLsbD 23 && decide ((st.rs a).toNat < 2 ^ 24)))
  | .nred _ _ a _ => (st.rs a).toNat % 128 = 0 && (match s.padAddr x st (st.rs a) 128 with | .ok _ => true | .error _ => false)
  | .nsend _ a _ => (st.rs a).toNat % 128 = 0 && (match s.padAddr x st (st.rs a) 128 with | .ok _ => true | .error _ => false)
  | _ => true

/-- Whether an instruction would ask a bank now: nothing stops it before its access. -/
def State.asksBank (s : State) (x : SlotId) (st : Strand) (i : Instr) : Bool :=
  match padAsk st i with
  | none => false
  | some (u, ea, n, al) =>
    (match st.checked s x u (fun _ => .forfeit) with | .forfeit => true | _ => false) && s.padFirst x st i && ea.toNat % al = 0
      && (match s.padAddr x st ea n with | .ok _ => true | .error _ => false)

/-- A turn whose strand's scratchpad access loses bank arbitration: spent with no effect, and not lent (R88). Which requests meet at a bank is
timing (log 14), but none loses more than 23 turns in a row (R89). -/
def State.forfeitTurn (s : State) (t : Nat) : State :=
  match s.wouldRun t with
  | some (x, st, i) =>
    if s.asksBank x st i && decide (st.lost < 23) then (s.modStrand x fun st => { st with lost := st.lost + 1 }).rotate t false else s
  | none => s

/-- The instructions whose results carry a residue check: the integer adders and multipliers, and the significand paths (Table 15.9). -/
def residueChecked : Instr → Bool
  | .add _ _ _ _ | .sub _ _ _ _ | .addi _ _ _ _ | .addpc _ _ _ | .enter _ _ | .leave _ _ => true
  | .mul _ _ _ _ | .mulh _ _ _ _ | .mulhn _ _ _ _ | .fcvt _ _ _ _ _ | .vcvt _ _ _ _ _ _ => true
  | .fadd _ _ _ _ _ | .fsub _ _ _ _ _ | .fmul _ _ _ _ _ | .fdiv _ _ _ _ _ | .fsqrt _ _ _ _ | .ffma _ _ _ _ _ | .tsum _ _ _ _ => true
  | .viadd _ _ _ _ _ | .visub _ _ _ _ _ | .vimul _ _ _ _ _ => true
  | .vadd _ _ _ _ _ _ | .vsub _ _ _ _ _ _ | .vmul _ _ _ _ _ _ | .vdiv _ _ _ _ _ _ | .vsqrt _ _ _ _ _ => true
  | .vrcp _ _ _ _ _ | .vrsq _ _ _ _ _ | .vexp2 _ _ _ _ _ => true
  | .vfma _ _ _ _ _ _ | .vfms _ _ _ _ _ _ | .vfnma _ _ _ _ _ _ | .vredAdd _ _ _ _ | .vtsum _ _ _ => true
  | _ => false

/-- A turn whose residue check finds a mismatch (R315): the instruction writes nothing and is attempted again at the strand's next turn; a
second mismatch is contained. The delivery's detail word is free (log 8). -/
def State.residueTurn (s : State) (t : Nat) (src : BitVec 8) (addr detail : Word) : State :=
  match s.wouldRun t with
  | none => s
  | some (x, st, i) =>
    if !residueChecked i then s
    else match st.redo with
      | none => (s.setStrand x { st with redo := some (src, addr, detail) }).rotate t false
      | some _ =>
        let (d, s) := (s.setStrand x { st with run := .ready, redo := none }).free
        let s := s.modBank (.tile t) fun b => b.log 2 src (BitVec.ofNat 5 x.member) addr detail
        (s.takeFault x false 15 d st.regs.pc).rotate t false

/-- A turn in which a register's parity is wrong (R105, R144): Strand.spoilt says whether the instruction reads it. -/
def State.parityTurn (s : State) (t : Nat) (vec : Bool) (spec : Spec) : Host.Outcome State Fault Refusal :=
  let x := s.turnSlot t
  mapNext ((s.modStrand x fun st => { st with upset := some (vec, spec) }).turn t) fun s =>
    s.modStrand x fun st => { st with upset := none }

/-- A word of a tile's scratchpad with one wrong bit, or with two (R91). -/
def State.spoil (s : State) (t word : Nat) (corrected : Bool) : State :=
  let w := s.padBase t / 8 + word % 2 ^ 17
  if corrected then (if s.badWords.contains w then s else { s with weakWords := natInsert s.weakWords w })
  else { s with badWords := natInsert s.badWords w, weakWords := s.weakWords.filter fun k => k != w }

/-! ## The agenda (log 2) -/

/-- Whether a step may stand on the agenda as another agent's: no instruction word, nothing that only a turn comes to, as the pre-emption of a
strand that has been asked for is (R311), and a take by a slot at its own turn alone (R243). -/
def State.eventOk (s : State) : Instr → Bool
  | .annulledWord => false
  | .asyncDelivery => false
  | .eventTake _ => false
  | .preemption x => s.ctl.ckpt.isSome || !((s.strand? x).map fun st => st.preReq && decide (st.run ≠ .out) && !st.run.isPreempted).getD false
  | .dequeTake x _ => s.turnSlot x.tile = x && (s.tile x.tile).phase % 2 = 0 && !s.stopped x
  | i => !i.isWord

/-- A store to the boot staging buffer (R347). -/
def State.stage (s : State) (off : Nat) (bytes : List Byte) : State :=
  if s.ctl.ready then s
  else { s with staging := bytes.zipIdx.foldl (fun m p =>
    if p.1 = 0 then assocErase m (off + p.2) else assocSet m (off + p.2) p.1) s.staging }

/-- A core's instruction buffer reads in a word of a launch's text (R59). -/
def State.keepText (s : State) (t : Nat) (core : Core) (lid addr : Nat) : State :=
  if addr % 4 != 0 || decide (2 ^ 40 ≤ addr) || (s.tile t).ibuf.any fun k => k.core = core.num && k.lid = lid && k.addr = addr then s
  else s.modTile t fun x => { x with ibuf := x.ibuf ++ [⟨core.num, lid, addr, BitVec.ofNat 32 (s.readNat addr 4)⟩] }

/-- A class's writes may be missed by another, or not any more (log 18). -/
def State.setLag (s : State) (writer reader : Nat) (on : Bool) : State :=
  if 5 < writer || 5 < reader || writer = reader then s
  else
    let rest := s.lagOn.filter fun p => p != (writer, reader)
    { s with lagOn := if on then rest ++ [(writer, reader)] else rest }

/-- A peer's load of this device's memory: what it reads folds the reduction words there, and an aligned one of RESV reserves (R211, R283); it waits
while the tile of its place is being tested (R321). -/
def State.peerRead (s : State) (a n : Nat) : State :=
  if !s.served ⟨thisDev, a⟩ then s
  else match s.resvAt ⟨thisDev, a⟩ with
  | some k => if n = 8 && a % 8 = 0 then s.putCmdRing (s.ring k).reserve.2 else s
  | none => s.foldFor ⟨thisDev, a⟩ n

/-- What a choice of the agenda does (log 2): a turn, another agent's step, or an act of the outside world. -/
def State.choose (s : State) : Choice → Host.Outcome State Fault Refusal
  | .turn t => s.turn t
  | .forfeit t => .next (s.forfeitTurn t)
  | .residue t src a d => .next (s.residueTurn t src a d)
  | .parity t vec spec => s.parityTurn t vec spec
  | .spoil t w corrected => .next (s.spoil t w corrected)
  | .spoilPair t p low => .next (s.modTile t fun x => { x with mat := { x.mat with badPairs := x.mat.badPairs ++ [(p % 6144, low)] } })
  | .supCorrected t a d => .next (s.modBank (.tile t) fun b => b.log 1 7 0 a d)
  | .event i => if s.eventOk i then exec i s else .refused .notAnEvent
  | .evict row place idx =>
    .next (if row then s.modRow place fun r => { r with tlb := r.tlb.eraseIdx idx }
      else s.modTile place fun t => { t with tlb := t.tlb.eraseIdx idx })
  | .keepText t core lid addr => .next (s.keepText t core lid addr)
  | .dropText t idx => .next (s.modTile t fun x => { x with ibuf := x.ibuf.eraseIdx idx })
  | .engineTile t => .next { s with engineTile := t % 1536 }
  | .lag w r on => .next (s.setLag w r on)
  | .catchUp idx => .next { s with lags := s.lags.eraseIdx idx }
  | .remoteWrite dev line => .next (if dev < thisDev then s.notifyLine none ⟨dev, line / 64 * 64⟩ else s)
  | .peerWatch dev kind a tile ctx =>
    .next (if dev < thisDev && kind < 4 then (s.addWatch ⟨dev, kind, ⟨thisDev, a / 64 * 64⟩, tile, 0, a % 64 / 8, ctx⟩).getD s else s)
  | .peerWatchEnd dev ctx => .next { s with watches := s.watches.filter fun w => !(w.dev = dev && w.dev != thisDev && w.ctx = ctx) }
  | .loadImage img bytes =>
    let s := bytes.foldl (fun (s : State) (p : Nat × Byte) => s.store none p.1 [p.2]) s
    .next { s with images := s.images ++ [img], roots := assocSet s.roots img.asid.toNat img.ptroot }
  | .openSpace asid root => .next { s with roots := assocSet s.roots asid.toNat root }
  | .hostWrite off v => .next (s.portPut true off v)
  | .hostRead off => .next (s.hostRead off)
  | .hostRegRead off => .next (s.hostRegRead off)
  | .hostStage off bytes => .next (s.stage off bytes)
  | .hostStageRead off => .next (s.hostStageRead off)
  | .peerWrite a bytes => .next (s.peerArrive ⟨a, .store bytes⟩)
  | .peerAdd a op v => .next (if op = .cas then s else s.peerArrive ⟨a, .update op v⟩)
  | .peerCas a cmp v => .next (s.peerArrive ⟨a, .cas cmp v⟩)
  | .peerLdc dev a ctx => .next (if dev < thisDev then s.peerArrive ⟨a, .ldc dev ctx⟩ else s)
  | .peerStp dev a ctx v => .next (if dev < thisDev then s.peerArrive ⟨a, .stp dev ctx v⟩ else s)
  | .peerRead a n => .next (s.peerRead a n)
  | .membership devs => .next { s with members := (devs.filter fun d => decide (d < 3072)).foldl natInsert [] }
  | .fenceTile t => .next (if (s.tile t).mustFence then (s.modTile t fun x => { x with mustFence := false }).fence t else s)
  | .openSendQueue h => .next { s with sendQueues := if s.sendQueues.contains h then s.sendQueues else s.sendQueues ++ [h] }
  | .closeSendQueue h => .next { s with sendQueues := s.sendQueues.filter fun k => k != h }
  | .installQueue q => .next { s with svcQueues := q :: s.svcQueues.filter fun k => k.handle != q.handle }
  | .debugger on => .next { s with debugger := on }

/-- The step that an access in flight waits for, if it can be made now. -/
def State.flightStep (s : State) (a : Access) : Option Instr :=
  if a.done then
    (match a.op with
      | .redpReg _ => none
      | .redpRel => none
      | .joinDec => none
      | .loadV false => none
      | .loadV true => if s.flight.any fun (e : Access) => e.id + 1 = a.id && e.done then some (.longResultReturn a.id) else none
      | _ => some (.longResultReturn a.id))
  else if a.op.isResult || !s.readyNow a || a.loc.dev != thisDev then none
  else match s.region a.loc.addr with
    | .pad _ _ => some (.tileWindowAccess a.id .ok)
    | .ctrl _ _ => some (.tileWindowAccess a.id .ok)
    | _ =>
      match a.op with
      | .store _ => some (.storeBufferDrain a.id)
      | .ldc => if s.waitsAtHome a && !s.fullAt a 0 then none else some (.fullEmptyRetest a.id .ok 0)
      | .stp _ => if s.waitsAtHome a && s.fullAt a 0 then none else some (.fullEmptyRetest a.id .ok 0)
      | .stpTest => some (.fullEmptyRetest a.id .ok 0)
      | .load _ _ => some (.globalAccessPerformed a.id .ok 0)
      | .loadV _ => some (.globalAccessPerformed a.id .ok 0)
      | .resv _ => some (.globalAccessPerformed a.id .ok 0)
      | _ => some (.homeAtomic a.id .ok 0)

/-- The step that a channel of a tile can make. -/
def State.chanStep (s : State) (t k : Nat) : Option (Host.Outcome State Fault Refusal) :=
  let c := s.chan t k
  match c.queue with
  | [] => none
  | h :: _ =>
    let f : Fields := h.fields
    if h.cancelled then some (execTransferComplete t k s)
    else if c.halted then none
    else if !h.started then some (execTransferStart t k s)
    else if h.dstKind = 12 && !(h.packet.isEmpty && (f.total != 0 || !f.eom || h.x = 1))
        && (h.packet.length = f.payload || decide (f.total ≤ h.x)) then some (execSendPacketAccept t k s)
    else if f.total ≤ h.x then some (execTransferComplete t k s)
    else some (execCopyElement t k false ⟨.ok, false⟩ 0 s)

/-- The step that a sluice can make: the operation at its head, else the publication or the release of its lowest task. -/
def State.sluiceStep (s : State) : Option (Host.Outcome State Fault Refusal) :=
  s.sheets.findSome? fun sh =>
    match sh.ops with
    | .edit _ _ _ _ _ _ :: _ => some (execEditAccept sh.num s)
    | .commit _ _ _ _ :: _ => some (execPublicationStep sh.num s)
    | [] =>
      if ((sh.seeds.head?).map (·.finished)) = some true then some (execFormulaPublish sh.num s)
      else (sh.seeds.find? fun q => s.releasable sh q).map fun q => execTaskRelease sh.num q.cell s

/-- What another agent does when nothing is chosen (log 2): the oldest walk, then the oldest access that can move, then the focus tile's
channels and its matrix engine, then the sluices. -/
def State.background (s : State) (t : Nat) : Option (Host.Outcome State Fault Refusal) :=
  match s.walks.find? (·.walking) with
  | some m => some (exec (.translationWalk m.who) s)
  | none =>
    match s.flight.findSome? s.flightStep with
    | some i => some (exec i s)
    | none =>
      match (List.range 4).findSome? (s.chanStep t) with
      | some o => some o
      | none =>
        let m := (s.tile t).mat
        if m.running.isSome then some (execMatrixBlockApply t .ok s)
        else if m.pending.isSome then some (execMatrixOpStart t s)
        else s.sluiceStep

/-- Whether the turn that the rotation has reached is idle, so that another agent moves in it by default. -/
def State.idleTurn (s : State) (t : Nat) : Bool :=
  match s.strand? (s.turnSlot t) with
  | none => true
  | some st =>
    match st.run with
    | .ready => false
    | .parked => !st.longs.isEmpty
    | .held _ => true
    | _ => true

/-- The default of the schedule (log 2): the focus tile's turn; when that turn is idle, another agent's step as well. -/
def State.defaultStep (s : State) : Host.Outcome State Fault Refusal :=
  if s.idleTurn s.focus then
    match s.background s.focus with
    | some (.next s') => s'.turn s'.focus
    | some (.fault r) => .fault r
    | some (.refused r) => .refused r
    | none => s.turn s.focus
  else s.turn s.focus

end Sys2Proof.Machine
end

