-- ==== Sys2Proof/Machine/Step.lean ====
section
/-!
DEFINITION. One step of the device: the choice at the head of the agenda, or the default of the schedule (log 2); and how the
host places one instruction before a step.
-/

namespace Sys2Proof.Machine

def step (s : State) : Host.Outcome State Fault Refusal :=
  match s.agenda with
  | [] => s.defaultStep
  | c :: r => State.choose { s with agenda := r } c

/-- Where withFetchWord places a word: the supervisor's slot for words that only it may run, else a user slot of a core kind that
may run it. -/
def fetchSlot (w : BitVec 32) : SlotId :=
  let op := (fOp w).toNat
  if op = 0x79 || op = 0x7C || op = 0x7D then ⟨0, .m, 0⟩
  else if lfsrOnM w .m then ⟨0, .a, 0⟩
  else if op = 0x7A || op = 0x7B then ⟨0, .m, 0⟩
  else if opLegal (fOp w) .a then ⟨0, .a, 0⟩
  else if opLegal (fOp w) .c then ⟨0, .c, 0⟩
  else ⟨0, .m, 1⟩

/-- The page-table leaf that withFetchWord gives the tile's buffer: virtual page 0 on the second 64 KiB of HBM (the first is protected at
reset), readable, writable, executable, for user mode. -/
def fetchLeaf : Leaf := ⟨0, 0, 0x00FFF0000001003F, 0⟩

/-- s with the word of an instruction stored where step fetches its next instruction: a strand able to issue stands at address 0 of
the focus tile, and its turn has come. The table's bits are the word's, and every instruction is one word of 32 bits. -/
def State.withFetchWord (s : State) (nbits w : Nat) : State :=
  let word := BitVec.ofNat 32 (w % 2 ^ nbits)
  let x := fetchSlot word
  let sup := isSup x
  let st : Strand := { Strand.initial with
    sup := sup
    ie := false
    sid := BitVec.ofNat 64 (8 * x.core.num + x.slot)
    run := .ready }
  let s : State := if sup then { s with codeStore := assocSet s.codeStore 0 word }
    else { s with mem := memSetBytes s.mem 0x10000 (natToBytes 4 word.toNat), full := natInsert s.full 0x2000 }
  let s := s.modTile 0 fun t =>
    { t with
      strands := assocSet t.strands x.member st
      tlb := fetchLeaf :: t.tlb
      ibuf := t.ibuf.filter fun k => k.addr != 0x10000
      cycle := BitVec.ofNat 64 (t.cycle.toNat / 8 * 8 + x.slot)
      phase := 2 * x.core.num }
  { s with agenda := [], focus := 0, cur := x, ctl := { s.ctl with ckpt := none } }

end Sys2Proof.Machine
end

