-- ==== Sys2Proof/Safety.lean ====
section
/-!
DEFINITION. What the claims about the machine speak of: the invariant of its memory, the conditions under which an instruction word
has its own effect and nothing else, and the strand as it stands after one.
-/

namespace Sys2Proof.Machine

/-! ## Memory -/

/-- Memory and its full/empty bits are in their one canonical form. -/
def Saved.MemOk (k : Saved) : Prop := Memory.wf k.mem = true ∧ natSorted k.full = true

/-- The device's memory, and that of every checkpoint that stands in a tier, are in canonical form: every step keeps it. -/
def State.MemOk (s : State) : Prop :=
  Memory.wf s.mem = true ∧ natSorted s.full = true ∧ ∀ k ∈ s.checkpoints, k.2.MemOk

/-! ## When an instruction word has its own effect -/

/-- The strand st stands in the slot on which a word acts, may run the word (R29), names only declared registers (R20, R246) and none
that awaits a long result (R110), need not abort its transaction (R215), its chunk need not end first (R299), and no earlier acquire
of it is unanswered (R198); and the parity of the registers that it reads is right (R105, R144). -/
structure State.Clear (s : State) (st : Strand) (u : Uses) : Prop where
  here : s.strand? s.cur = some st
  mode : st.sup = true ∨ u.priv = none
  declared : st.undeclared u = none
  settled : st.marker u = none
  outside : u.aborts = true → st.inTx = false
  chunk : st.chunkStop u = false
  order : u.access = true → st.acquiring = false
  parity : st.spoilt u = none

/-- A strand that has completed a word and goes on at pc: parked if the word's M bit is 1 and a long result is still to come (R16,
R109), else able to issue; a deterministic lane has run one word more of its chunk (R299). -/
def Strand.after (st : Strand) (m : Bool) (pc : Word) : Strand :=
  { st with
    run := if m && !st.longs.isEmpty then .parked else .ready
    regs := { st.regs with pc := pc }
    chunk := st.chunk.map fun c => { c with count := c.count + 1 } }

/-- The state in which the executing strand has become st, has completed its word and goes on at the next one. -/
def State.completes (s : State) (m : Bool) (st : Strand) : State := s.setStrand s.cur (st.after m (st.regs.pc + 4))

/-- The same with pc set to a target. -/
def State.jumps (s : State) (m : Bool) (st : Strand) (t : Word) : State := s.setStrand s.cur (st.after m t)

/-! ## What a word names -/

/-- The registers that an instruction word names or uses without naming them, with their roles, and the checks that follow (Tables 1.6 to 1.19, 1.21,
R18, R29, R110, R157, R198, R215). A step that is no word names nothing. -/
def wordUses : Instr → Uses
  | .add _ d a b | .sub _ d a b | .and _ d a b | .or _ d a b | .xor _ d a b | .shl _ d a b | .shr _ d a b | .sha _ d a b | .min _ d a b
  | .max _ d a b | .minn _ d a b | .maxn _ d a b | .mul _ d a b | .mulh _ d a b | .mulhn _ d a b | .div _ d a b | .divn _ d a b | .rem _ d a b
  | .remn _ d a b | .set _ _ d a b | .fadd _ _ d a b | .fsub _ _ d a b | .fmul _ _ d a b | .fdiv _ _ d a b | .fmin _ _ d a b | .fmax _ _ d a b
  | .tsum _ d a b => useAB d a b
  | .sel _ d a b => { useAB d a b with readsQ := true }
  | .clz _ d a | .popc _ d a | .addi _ d a _ | .andi _ d a _ | .ori _ d a _ | .xori _ d a _ | .shli _ d a _ | .shri _ d a _ | .shai _ d a _
  | .bext _ d a _ _ | .seti _ _ d a _ | .calli _ d a _ | .fsqrt _ _ d a | .fclass _ _ d a | .fmv _ _ d a | .fcvt _ _ _ d a => useA d a
  | .lih _ d _ | .addpc _ d _ | .call _ d _ | .cpget _ d _ _ | .cpstat _ d _ | .lkpos _ d _ | .txst _ d | .semtry _ d _ => useD d
  | .bins _ d a _ _ => { srcs := [(0, false, a), (2, false, d)], dst := some (false, d) }
  | .cmp _ _ sk a b | .fcmp _ _ sk _ a b => { srcs := [(0, false, a), (1, false, b)], writesQ := sk = 0 }
  | .cmpi _ _ sk a _ => { srcs := [(0, false, a)], writesQ := sk = 0 }
  | .br _ _ a _ | .txa _ a | .sempost _ _ a | .cpset _ _ _ a => { srcs := [(0, false, a)] }
  | .j _ _ | .cpseti _ _ _ _ | .txb _ _ | .txe _ | .retry _ | .oth _ _ | .trap _ _ | .brk _ _ => {}
  | .enter _ _ | .leave _ _ => { sp := true }
  | .ffma _ _ d a b => useABD d a b
  | .lds _ d a _ _ => useLoad false d a false
  | .ldsv _ d a _ => useLoad true d a false
  | .ldg _ d a _ _ | .ldc _ d a _ => useLoad false d a true
  | .ldgv _ d a _ => useLoad true d a true
  | .sts _ b a _ _ | .stg _ b a _ _ | .stp _ b a _ => useStore false b a
  | .stsv _ b a _ | .stgv _ b a _ => useStore true b a
  | .ldx _ d a => { useLoad false d a true with aborts := true }
  | .stx _ d a b | .atomAdd _ _ d a b | .atomAnd _ _ d a b | .atomOr _ _ d a b | .atomXor _ _ d a b | .atomMin _ _ d a b | .atomMax _ _ d a b
  | .atomMinn _ _ d a b | .atomMaxn _ _ d a b | .atomSwap _ _ d a b | .atomFaddF64 _ _ d a b | .atomFaddF32 _ _ d a b | .ccommit _ d a b =>
    { srcs := [(0, false, a), (1, false, b)], dst := some (false, d), long := true, access := true, aborts := true }
  | .atomCas _ _ d a b =>
    { srcs := [(0, false, a), (1, false, b), (2, false, d)], dst := some (false, d), long := true, access := true, aborts := true }
  | .atomnAdd _ _ a b | .atomnAnd _ _ a b | .atomnOr _ _ a b | .atomnXor _ _ a b | .atomnMin _ _ a b | .atomnMax _ _ a b | .atomnMinn _ _ a b
  | .atomnMaxn _ _ a b | .atomnFaddF64 _ _ a b | .atomnFaddF32 _ _ a b | .cbind _ a b | .nred _ _ a b | .nsend _ a b =>
    { srcs := [(0, false, a), (1, false, b)], access := true, aborts := true }
  | .redpReg _ _ a | .redpRel _ a | .lkcfg _ _ a | .join _ a | .gang _ a => { srcs := [(0, false, a)], access := true, aborts := true }
  | .fence _ _ _ _ | .fencex _ _ _ _ | .cpstop _ _ | .lkadv _ _ | .mgang _ _ | .mmul _ | .barTile _ _ | .barRow _ _ | .exit _ | .yield _ =>
    { aborts := true }
  | .cplaunch _ d _ => { useD d with aborts := true }
  | .lkjoin _ _ a | .mzero _ a | .cunbind _ a | .cdone _ a => { srcs := [(0, false, a)], aborts := true }
  | .vadd _ _ _ d a b | .vsub _ _ _ d a b | .vmul _ _ _ d a b | .vdiv _ _ _ d a b | .vmin _ _ d a b | .vmax _ _ d a b | .vcmp _ _ _ d a b
  | .vperm _ d a b | .vshufZlo _ d a b | .vshufZhi _ d a b | .vshufEven _ d a b | .vshufOdd _ d a b | .viadd _ _ d a b | .visub _ _ d a b
  | .vimul _ _ d a b | .vand _ d a b | .vor _ d a b | .vxor _ d a b | .vshl _ _ d a b | .vshr _ _ d a b | .bscale _ _ d a b => vuseAB d a b
  | .vfma _ _ _ d a b | .vfms _ _ _ d a b | .vfnma _ _ _ d a b => vuseABD d a b
  | .vsqrt _ _ _ d a | .vabs _ _ _ d a | .vneg _ _ _ d a | .vrcp _ _ _ d a | .vrsq _ _ _ d a | .vexp2 _ _ _ d a | .vcvt _ _ _ _ d a
  | .vmov _ _ d a | .p2enc _ _ d a | .p2dec _ _ d a | .srnd _ _ d a => vuseA d a
  | .vsel _ _ d a b => { vuseAB d a b with readsQv := true }
  | .vredAdd _ _ d a | .vredMin _ _ d a | .vredMax _ _ d a | .vtsum _ d a => useRed d a
  | .vbcast _ _ d a => { srcs := [(0, false, a)], dst := some (true, d) }
  | .vext _ _ d a _ | .vextHigh _ _ d a _ => { srcs := [(0, true, a)], dst := some (false, d) }
  | .plane _ pm1 d a b => useGroups d (planeRegs (pm1.toNat + 1)) a 4 b
  | .unplane _ pm1 d a b => useGroups d 4 a (planeRegs (pm1.toNat + 1)) b
  | .mptrOpa _ a b | .mptrOpb _ a b | .msclOpa _ a b | .msclOpb _ a b | .mspar _ a b => { useAB0 a b with aborts := true }
  | .mwr _ a b => { srcs := [(0, false, a), (1, true, b)], aborts := true }
  | .mrdhi _ d a | .mrdlo _ d a | .mrds _ d a => { srcs := [(0, false, a)], dst := some (true, d), long := true, aborts := true }
  | .cwopen _ d a | .intk _ d a | .outf _ d a => { useSluice d a with aborts := true }
  | .cpin _ d a | .cgen _ d a | .cstat _ d a => useSluice d a
  | .cunpin _ a b => { srcs := [(0, false, a), (1, false, b)], aborts := true }
  | .fork _ _ => { reads := (sRegs 8).map fun r => (0, r), aborts := true }
  | .mig _ _ _ a =>
    { srcs := [(0, false, a)]
      reads := (sRegs 16 ++ (List.range 8).map fun i => BitVec.ofNat 6 (32 + i)).map fun r => (2, r)
      aborts := true }
  | .rndcLo _ d a b | .rndcHi _ d a b => { useAB d a b with aborts := true }
  | .sysr _ d num => { useD d with priv := if userRefused num.toNat false then some (num.setWidth 64) else none, aborts := num = 0x84 }
  | .sysw _ num a => { srcs := [(0, false, a)], priv := if userRefused num.toNat true then some (num.setWidth 64) else none, aborts := true }
  | .sret m => { priv := wordDetail (.sret m), aborts := true }
  | .tlbinvPage m a => { srcs := [(0, false, a)], priv := wordDetail (.tlbinvPage m a), aborts := true }
  | .tlbinvAsid m a => { srcs := [(0, false, a)], priv := wordDetail (.tlbinvAsid m a), aborts := true }
  | .tlbinvAll m => { priv := wordDetail (.tlbinvAll m), aborts := true }
  | .selftest m d a => { srcs := [(0, false, a)], dst := some (false, d), priv := wordDetail (.selftest m d a), aborts := true }
  | .annulledWord | .longResultReturn _ | .translationWalk _ | .globalAccessPerformed _ _ _ | .storeBufferDrain _ | .homeAtomic _ _ _
  | .fullEmptyRetest _ _ _ | .patrolScrub _ _ | .tileWindowAccess _ _ | .transferStart _ _ | .copyElement _ _ _ _ _ | .transferComplete _ _
  | .sendPacketAccept _ _ | .cpctlResume _ _ | .cpctlCancel _ _ | .asyncDelivery | .preemption _ | .spill _ _ | .restore _ _
  | .restoreDeadline _ _ | .launchEvict _ _ | .wavePlace _ _ | .dequeTake _ _ | .dequeOverflowMove _ | .continuationArrive _ | .loadExchange _ _ _
  | .classWindow _ | .eventTake _ | .seventRead _ | .trunResume _ _ | .trunEndLaunch _ _ | .supervisorMemoryError _ _ _ | .mcstatusClear _ _
  | .mccountClear _ | .fatalError _ _ _ _ | .linkResend _ _ _ _ | .selftestComplete _ _ | .txConflict _ | .txWake _ | .editAccept _
  | .publicationStep _ | .taskRelease _ _ | .formulaPublish _ | .routerPacketArrive _ | .routerTimeout _ _ _ | .nsendDeliver _ | .matrixOpStart _
  | .matrixBlockApply _ _ | .ringReserve _ | .ringCommit _ _ | .rcfgWrite _ _ | .rerrClear _ | .launch _ | .commit _ | .bind _ | .sheetnew _
  | .cellnew _ | .sheetend _ | .sheetDestroy _ | .launchend _ | .fwopSelftest _ | .turnarm _ | .copy _ | .reduce _ | .nop _ | .completionWord _
  | .launchComplete _ | .turnoutCount _ _ | .turnoutInsert _ | .turnoutDisarm _ | .chunkCommit _ | .sqMessageArrive _ _ _ | .intake _
  | .outfallVersion _ | .reset | .bootgo | .lcreq _ | .attgo | .reportComplete | .ckctlGo _ | .ckctlRestore _ | .checkpointComplete _ _
  | .deviceRegisterWrite _ _ | .remoteTimeout _ | .peerReset _ | .uetConnect _ _ | .wakeWithNoWrite _ | .hostDebuggerResume _ => {}

end Sys2Proof.Machine
end

