-- ==== Sys2Proof/Certificates/Slice0/Obligations.lean ====
section
/-!
DEFINITION. The statements about the machine for the provers. Each names the rules of spec/ that it formalises. Safety.lean holds the
terms: State.Clear, when a word has its own effect; State.completes and State.jumps, the state in which it has run and everything
but its strand is as it was; wordUses, what a word names. A word's precise fault is written State.faultTurn: what it does, TakingAFault says.
-/

open Sys2Proof Sys2Proof.Machine

/-! ## Encoding and stepping -/

/-- R14 to R28, R30: every well-formed instruction word, encoded and decoded on a core that may run it, is itself again, with every operand
at every value that the encoding admits. -/
def Obligations.DecodeOfEncode : Prop :=
  ∀ (k : Core) (i : Instr) (w : BitVec 32),
    encode i = some w → i.wellFormed = true → opLegal (fOp w) k = true → lfsrOnM w k = false → decodeFor k w = .ok i

/-- R14 to R28: a word that decodes is the one word of its instruction, so no bit of it is ignored. -/
def Obligations.EncodeOfDecode : Prop :=
  ∀ (k : Core) (i : Instr) (w : BitVec 32), decodeFor k w = .ok i → encode i = some w ∧ i.wellFormed = true

/-- Words that the spec's encodings give, written out, decode to what they stand for (R14, Tables 1.6 to 1.19). -/
def Obligations.DecodedWords : Prop :=
  decodeFor .a 0x0030A274 = .ok (.rndcLo false 4 5 6)
    ∧ decodeFor .m 0x000054F8 = .ok (.trap false 2)
    ∧ decodeFor .m 0x04AD20FA = .ok (.sysr false 1 0x095)
    ∧ decodeFor .m 0x014D34F9 = .ok (.sret false)
    ∧ decodeFor .a 0x0010612B = .ok (.fence false 2 3 2)
    ∧ decodeFor .c 0x00000000 = .error 1
/-! ## Scalar instructions: each of these leaves every other strand, all of memory and every other register as they were -/

/-- A scalar register that the strand's kernel header declares, or one that is always there (R20). -/
def declaredS (st : Strand) (x : Spec) : Prop := x.toNat < 32 → x.toNat < st.nregs

/-- A register, not z, for which a long result is still to come (R108). -/
def waitsFor (st : Strand) (x : Spec) : Prop := x ≠ 41 ∧ ∃ l ∈ st.longs, l.dest = ⟨false, x⟩

/-- Every word of major opcode op that has the property is illegal, on every core kind, with this reason (R30). -/
def illegal (op reason : Nat) (p : BitVec 32 → Prop) : Prop :=
  ∀ (k : Core) (w : BitVec 32), w.toNat % 2 ^ 7 = op → p w → decodeFor k w = .error reason

/-- R113, R114, Table 6.3: the results of opcode 0x01; d and q receive them by R18, and nothing else changes. sel chooses by q, and raises a
marker fault while q awaits a long result; clz counts the zeros above the highest one bit, popc the one bits. The FN values that name
nothing are illegal, and so are clz and popc with a B. -/
def Obligations.IntegerResults : Prop :=
  (∀ (s : State) (st : Strand) (m : Bool) (d a b : Spec), s.Clear st (useAB d a b) →
      let A := st.rs a
      let B := st.rs b
      exec (.add m d a b) s = .next (s.completes m (st.putS d (A + B)))
        ∧ exec (.sub m d a b) s = .next (s.completes m (st.putS d (A - B)))
        ∧ exec (.and m d a b) s = .next (s.completes m (st.putS d (A &&& B)))
        ∧ exec (.or m d a b) s = .next (s.completes m (st.putS d (A ||| B)))
        ∧ exec (.xor m d a b) s = .next (s.completes m (st.putS d (A ^^^ B)))
        ∧ exec (.shl m d a b) s = .next (s.completes m (st.putS d (BitVec.ofNat 64 (A.toNat * 2 ^ B.toNat))))
        ∧ exec (.shr m d a b) s = .next (s.completes m (st.putS d (BitVec.ofNat 64 (A.toNat / 2 ^ B.toNat))))
        ∧ exec (.sha m d a b) s = .next (s.completes m (st.putS d (BitVec.ofInt 64 (A.toInt / 2 ^ B.toNat))))
        ∧ exec (.min m d a b) s = .next (s.completes m (st.putS d (if A.toInt ≤ B.toInt then A else B)))
        ∧ exec (.max m d a b) s = .next (s.completes m (st.putS d (if B.toInt ≤ A.toInt then A else B)))
        ∧ exec (.minn m d a b) s = .next (s.completes m (st.putS d (if A.toNat ≤ B.toNat then A else B)))
        ∧ exec (.maxn m d a b) s = .next (s.completes m (st.putS d (if B.toNat ≤ A.toNat then A else B))))
  ∧ (∀ (s : State) (st : Strand) (m : Bool) (d a b : Spec),
      (s.Clear st { useAB d a b with readsQ := true } →
        exec (.sel m d a b) s = .next (s.completes m (st.putS d (if st.regs.q = 0 then st.rs b else st.rs a))))
      ∧ (s.Clear st (useA d a) →
        (∃ n : Nat, exec (.clz m d a) s = .next (s.completes m (st.putS d (BitVec.ofNat 64 n)))
          ∧ n ≤ 64 ∧ (st.rs a).toNat < 2 ^ (64 - n) ∧ (n < 64 → 2 ^ (63 - n) ≤ (st.rs a).toNat))
        ∧ exec (.popc m d a) s = .next (s.completes m (st.putS d
            (BitVec.ofNat 64 ((List.range 64).filter fun i => (st.rs a).getLsbD i).length))))
      ∧ (s.strand? s.cur = some st → declaredS st a → declaredS st b → declaredS st d → ¬ waitsFor st a → ¬ waitsFor st b → waitsFor st 40 →
        exec (.sel m d a b) s = .next (s.faultTurn s.cur 3 (BitVec.ofNat 64 (0x400 + 0x200 + 40)) st.regs.pc)))
  ∧ illegal 0x01 2 (fun w => 15 ≤ w.toNat / 2 ^ 25 % 2 ^ 6)
  ∧ illegal 0x01 6 (fun w => (w.toNat / 2 ^ 25 % 2 ^ 6 = 13 ∨ w.toNat / 2 ^ 25 % 2 ^ 6 = 14) ∧ w.toNat / 2 ^ 19 % 2 ^ 6 ≠ 41)

/-- R115, Table 6.4: products, quotients truncated toward zero, remainders with the sign of the dividend, and what a zero divisor
gives; the FN values that name nothing are illegal. -/
def Obligations.MultiplyDivide : Prop :=
  illegal 0x02 2 (fun w => 7 ≤ w.toNat / 2 ^ 25 % 2 ^ 6)
  ∧ ∀ (s : State) (st : Strand) (m : Bool) (d a b : Spec), s.Clear st (useAB d a b) →
    let A := st.rs a
    let B := st.rs b
    exec (.mul m d a b) s = .next (s.completes m (st.putS d (BitVec.ofInt 64 (A.toInt * B.toInt))))
      ∧ exec (.mulh m d a b) s = .next (s.completes m (st.putS d (BitVec.ofInt 64 (A.toInt * B.toInt / 2 ^ 64))))
      ∧ exec (.mulhn m d a b) s = .next (s.completes m (st.putS d (BitVec.ofNat 64 (A.toNat * B.toNat / 2 ^ 64))))
      ∧ exec (.div m d a b) s = .next (s.completes m (st.putS d
          (if B = 0 then 0xFFFFFFFFFFFFFFFF else BitVec.ofInt 64 (A.toInt.tdiv B.toInt))))
      ∧ exec (.divn m d a b) s = .next (s.completes m (st.putS d
          (if B = 0 then 0xFFFFFFFFFFFFFFFF else BitVec.ofNat 64 (A.toNat / B.toNat))))
      ∧ exec (.rem m d a b) s = .next (s.completes m (st.putS d
          (if B = 0 then A else BitVec.ofInt 64 (A.toInt.tmod B.toInt))))
      ∧ exec (.remn m d a b) s = .next (s.completes m (st.putS d
          (if B = 0 then A else BitVec.ofNat 64 (A.toNat % B.toNat))))

/-- R116 to R118: the immediate forms, the built constants, and the bit fields. The shift codes that name nothing are illegal, and so is a
field that passes bit 63; bins of a d that awaits a long result raises a marker fault. -/
def Obligations.ImmediateResults : Prop :=
  illegal 0x07 2 (fun w => 3 ≤ w.toNat / 2 ^ 25 % 2 ^ 6)
  ∧ illegal 0x0A 6 (fun w => 64 < w.toNat / 2 ^ 25 % 2 ^ 6 + w.toNat / 2 ^ 19 % 2 ^ 6 + 1)
  ∧ illegal 0x0B 6 (fun w => 64 < w.toNat / 2 ^ 25 % 2 ^ 6 + w.toNat / 2 ^ 19 % 2 ^ 6 + 1)
  ∧ (∀ (s : State) (st : Strand) (m : Bool) (d a : Spec) (pos len : BitVec 6), s.strand? s.cur = some st → declaredS st a → declaredS st d →
    ¬ waitsFor st a → waitsFor st d →
    exec (.bins m d a pos len) s = .next (s.faultTurn s.cur 3 (BitVec.ofNat 64 (0x200 + d.toNat)) st.regs.pc))
  ∧ ∀ (s : State) (st : Strand) (m : Bool) (d a : Spec),
    (s.Clear st (useA d a) → ∀ (imm : BitVec 12) (sh pos len : BitVec 6),
      exec (.addi m d a imm) s = .next (s.completes m (st.putS d (BitVec.ofInt 64 ((st.rs a).toInt + imm.toInt))))
      ∧ exec (.andi m d a imm) s = .next (s.completes m (st.putS d (st.rs a &&& BitVec.ofInt 64 imm.toInt)))
      ∧ exec (.ori m d a imm) s = .next (s.completes m (st.putS d (st.rs a ||| BitVec.ofInt 64 imm.toInt)))
      ∧ exec (.xori m d a imm) s = .next (s.completes m (st.putS d (st.rs a ^^^ BitVec.ofInt 64 imm.toInt)))
      ∧ exec (.shli m d a sh) s = .next (s.completes m (st.putS d (BitVec.ofNat 64 ((st.rs a).toNat * 2 ^ sh.toNat))))
      ∧ exec (.shri m d a sh) s = .next (s.completes m (st.putS d (BitVec.ofNat 64 ((st.rs a).toNat / 2 ^ sh.toNat))))
      ∧ exec (.shai m d a sh) s = .next (s.completes m (st.putS d (BitVec.ofInt 64 ((st.rs a).toInt / 2 ^ sh.toNat))))
      ∧ exec (.bext m d a pos len) s = .next (s.completes m (st.putS d
          (BitVec.ofNat 64 ((st.rs a).toNat / 2 ^ pos.toNat % 2 ^ (len.toNat + 1))))))
    ∧ (s.Clear st (useD d) → ∀ imm : BitVec 18,
      exec (.lih m d imm) s = .next (s.completes m (st.putS d (BitVec.ofInt 64 (imm.toInt * 4096))))
      ∧ exec (.addpc m d imm) s = .next (s.completes m (st.putS d (st.regs.pc + BitVec.ofInt 64 (4 * imm.toInt)))))
    ∧ (s.Clear st { srcs := [(0, false, a), (2, false, d)], dst := some (false, d) } → ∀ pos len : BitVec 6,
      pos.toNat + len.toNat + 1 ≤ 64 →
      ∃ v : Word, exec (.bins m d a pos len) s = .next (s.completes m (st.putS d v))
        ∧ ∀ i < 64, v.getLsbD i = if pos.toNat ≤ i ∧ i < pos.toNat + len.toNat + 1 then (st.rs a).getLsbD (i - pos.toNat)
          else (st.rs d).getLsbD i)

/-- The integer condition of a code that R21 allows, as Table 1.3 gives it. -/
def condition (c : BitVec 3) (a b : Word) : Bool :=
  if c = 0 then decide (a = b) else if c = 1 then decide (a ≠ b) else if c = 2 then decide (a.toInt < b.toInt)
  else if c = 3 then decide (b.toInt ≤ a.toInt) else if c = 4 then decide (a.toNat < b.toNat) else decide (b.toNat ≤ a.toNat)

/-- R21, R126, R127: cmp and cmpi with SK = 0 write their truth to q alone, and raise a marker fault while q awaits a long result; with SK = k a
false condition annuls k words and a true one none; set and seti write 1 or 0 to d and q. Their condition codes 110 and 111, and the
FN values that name nothing, are illegal. -/
def Obligations.Comparisons : Prop :=
  illegal 0x10 2 (fun w => w.toNat / 2 ^ 7 % 2 ^ 6 ≠ 0)
  ∧ illegal 0x10 4 (fun w => w.toNat / 2 ^ 7 % 2 ^ 6 = 0 ∧ 6 ≤ w.toNat / 2 ^ 28 % 2 ^ 3)
  ∧ illegal 0x11 2 (fun w => w.toNat / 2 ^ 29 % 2 ^ 2 ≠ 0)
  ∧ illegal 0x11 4 (fun w => w.toNat / 2 ^ 29 % 2 ^ 2 = 0 ∧ 6 ≤ w.toNat / 2 ^ 25 % 2 ^ 3)
  ∧ (∀ (s : State) (st : Strand) (m : Bool) (c : BitVec 3) (a b : Spec) (imm : BitVec 6), s.strand? s.cur = some st →
    declaredS st a → ¬ waitsFor st a → waitsFor st 40 →
    let fault := Host.Outcome.next (s.faultTurn s.cur 3 (BitVec.ofNat 64 (0x400 + 0x300 + 40)) st.regs.pc)
    exec (.cmpi m c 0 a imm) s = fault ∧ (declaredS st b → ¬ waitsFor st b → exec (.cmp m c 0 a b) s = fault))
  ∧ ∀ (s : State) (st : Strand) (m : Bool) (c : BitVec 3) (k : BitVec 2) (d a b : Spec) (imm : BitVec 6), c.toNat ≤ 5 →
    let effect := fun (h : Bool) =>
      if k = 0 then { st with regs := { st.regs with q := if h then 1 else 0 } }
      else if h then st else { st with regs := { st.regs with skipn := k } }
    let I : Word := BitVec.ofInt 64 imm.toInt
    (s.Clear st { srcs := [(0, false, a), (1, false, b)], writesQ := k = 0 } →
      exec (.cmp m c k a b) s = .next (s.completes m (effect (condition c (st.rs a) (st.rs b)))))
    ∧ (s.Clear st { srcs := [(0, false, a)], writesQ := k = 0 } →
      exec (.cmpi m c k a imm) s = .next (s.completes m (effect (condition c (st.rs a) I))))
    ∧ (s.Clear st (useAB d a b) →
      exec (.set m c d a b) s = .next (s.completes m (st.putS d (if condition c (st.rs a) (st.rs b) then 1 else 0))))
    ∧ (s.Clear st (useA d a) →
      exec (.seti m c d a imm) s = .next (s.completes m (st.putS d (if condition c (st.rs a) I then 1 else 0))))

/-- R15, R128, R129: br goes to its target when A and 0 meet its condition, else on; j, call and calli always; call and calli write the
address of the next word to d and q, after their target is formed; a calli whose target is no word address raises an alignment fault
with the target as its detail word, and has no other effect. A br of an A that awaits a long result raises a marker fault in role 0; br's
condition codes 110 and 111 are illegal, and so is a j whose D is not z. -/
def Obligations.BranchesAndCalls : Prop :=
  illegal 0x12 4 (fun w => 6 ≤ w.toNat / 2 ^ 7 % 2 ^ 3)
  ∧ illegal 0x13 6 (fun w => w.toNat / 2 ^ 7 % 2 ^ 6 ≠ 41)
  ∧ (∀ (s : State) (st : Strand) (m : Bool) (c : BitVec 3) (a : Spec) (disp : BitVec 15), s.strand? s.cur = some st → declaredS st a →
    waitsFor st a → exec (.br m c a disp) s = .next (s.faultTurn s.cur 3 (BitVec.ofNat 64 a.toNat) st.regs.pc))
  ∧ ∀ (s : State) (st : Strand) (m : Bool) (d a : Spec) (c : BitVec 3) (d15 : BitVec 15) (d18 : BitVec 18) (imm : BitVec 12),
    (s.Clear st { srcs := [(0, false, a)] } → c.toNat ≤ 5 →
      exec (.br m c a d15) s = .next (if condition c (st.rs a) 0
        then s.jumps m st (st.regs.pc + BitVec.ofInt 64 (4 * d15.toInt)) else s.completes m st))
    ∧ (s.Clear st {} → exec (.j m d18) s = .next (s.jumps m st (st.regs.pc + BitVec.ofInt 64 (4 * d18.toInt))))
    ∧ (s.Clear st (useD d) →
      exec (.call m d d18) s =
        .next (s.jumps m (st.putS d (st.regs.pc + 4)) (st.regs.pc + BitVec.ofInt 64 (4 * d18.toInt))))
    ∧ (s.Clear st (useA d a) →
      let t := st.rs a + BitVec.ofInt 64 imm.toInt
      exec (.calli m d a imm) s = .next (if t.toNat % 4 = 0 then s.jumps m (st.putS d (st.regs.pc + 4)) t
        else s.faultTurn s.cur 7 t st.regs.pc))

/-- R130: enter lowers sp by its immediate, or raises a stack-limit fault with what sp would be when that is below 0 or below SLIM; leave raises
sp and checks nothing; neither writes q. That enter and leave are not subject to R20's check is the model's reading (log 38). -/
def Obligations.StackFrames : Prop :=
  ∀ (s : State) (st : Strand) (m : Bool) (imm : BitVec 18), s.Clear st { sp := true } →
    let sp := st.rs 31
    let set := fun (v : Word) => { st with regs := st.regs.setS 31 v }
    exec (.enter m imm) s = .next
      (if (sp.toNat : Int) - imm.toNat < 0 ∨ (sp.toNat : Int) - imm.toNat < st.regs.slim.toNat
       then s.faultTurn s.cur 5 (BitVec.ofInt 64 ((sp.toNat : Int) - imm.toNat)) st.regs.pc
       else s.completes m (set (BitVec.ofInt 64 ((sp.toNat : Int) - imm.toNat))))
    ∧ exec (.leave m imm) s = .next (s.completes m (set (BitVec.ofNat 64 (sp.toNat + imm.toNat))))

/-! ## Scalar floating point -/

/-- R106, R119 to R122, Table 6.6: every result is the exact one rounded once in FCTL's mode and written zero-extended to d and q; the
flags it raises are added to FCTL's; ffma rounds A · B + D once. -/
def Obligations.ScalarFloat : Prop :=
  ∀ (s : State) (st : Strand) (m : Bool) (ty : BitVec 1) (d a b : Spec),
    let f : Fmt := if ty = 0 then .f64 else .f32
    let bits := fun (w : Word) => w.toNat % 2 ^ (8 * f.bytes)
    let A := bits (st.rs a)
    let B := bits (st.rs b)
    let D := bits (st.rs d)
    let done := fun (r : Nat × FFlags) =>
      Host.Outcome.next (s.completes m ((st.raise r.2).putS d (BitVec.ofNat 64 r.1)))
    (s.Clear st (useAB d a b) →
      exec (.fadd m ty d a b) s = done (f.finish st.rm ((f.read A).add st.rm (f.read B)))
      ∧ exec (.fsub m ty d a b) s = done (f.finish st.rm ((f.read A).add st.rm (f.read B).neg))
      ∧ exec (.fmul m ty d a b) s = done (f.finish st.rm ((f.read A).mul (f.read B)))
      ∧ exec (.fdiv m ty d a b) s = done (f.div st.rm (f.read A) (f.read B))
      ∧ exec (.fmin m ty d a b) s = done (f.minmax false A B)
      ∧ exec (.fmax m ty d a b) s = done (f.minmax true A B))
    ∧ (s.Clear st (useA d a) →
      exec (.fsqrt m ty d a) s = done (f.sqrt st.rm (f.read A))
      ∧ exec (.fclass m ty d a) s = done (f.classOf A, 0)
      ∧ exec (.fmv m ty d a) s = done (A, 0))
    ∧ (s.Clear st (useABD d a b) →
      exec (.ffma m ty d a b) s = done (f.finish st.rm (FVal.fma st.rm (f.read A) (f.read B) (f.read D))))

/-- R123 to R125, R11: conversions, comparisons and the exact sum. An fcvt rounds by FCTL's mode, but to an integer truncates; fcmp
writes q or annuls as cmp does, with its flags; tsum packs the error above the sum. -/
def Obligations.ConvertCompareTwosum : Prop :=
  ∀ (s : State) (st : Strand) (m : Bool) (dt sty c : BitVec 3) (k : BitVec 2) (ty : BitVec 1) (d a b : Spec),
    (s.Clear st (useA d a) → fcvtPairOk dt sty = true →
      let v : FVal := if sty.toNat = 4 then valOfInt (st.rs a).toInt else if sty.toNat = 5 then valOfInt (st.rs a).toNat
        else (((cvtFmt sty).getD .f64).read ((st.rs a).toNat % 2 ^ (8 * ((cvtFmt sty).getD .f64).bytes)))
      let r : Nat × FFlags := if dt.toNat = 4 then (⟨64, true⟩ : IntTy).fromVal .rz v else if dt.toNat = 5 then (⟨64, false⟩ : IntTy).fromVal .rz v
        else ((cvtFmt dt).getD .f64).write st.rm v
      exec (.fcvt m dt sty d a) s = .next (s.completes m ((st.raise r.2).putS d (BitVec.ofNat 64 r.1))))
    ∧ (s.Clear st { srcs := [(0, false, a), (1, false, b)], writesQ := k = 0 } →
      let f : Fmt := if ty = 0 then .f64 else .f32
      let r := fpCond c (f.read ((st.rs a).toNat % 2 ^ (8 * f.bytes))) (f.read ((st.rs b).toNat % 2 ^ (8 * f.bytes)))
      let st' := st.raise r.2
      exec (.fcmp m c k ty a b) s = .next (s.completes m
        (if k = 0 then { st' with regs := { st'.regs with q := if r.1 then 1 else 0 } }
         else if r.1 then st' else { st' with regs := { st'.regs with skipn := k } })))
    ∧ (s.Clear st (useAB d a b) →
      let A := (st.rs a).toNat % 2 ^ 32
      let B := (st.rs b).toNat % 2 ^ 32
      exec (.tsum m d a b) s = .next (s.completes m ((st.raise (tsumFlags A B (twosum A B).1)).putS d
        (BitVec.ofNat 64 ((twosum A B).2 * 2 ^ 32 + (twosum A B).1)))))

/-- R131 to R135: writing a number in the format that it was read from gives its bits again and raises no flag, in every rounding mode, also
the stochastic one; a NaN is written as the format's canonical quiet NaN, with NV exactly when it signals. -/
def Obligations.WriteOfRead : Prop :=
  (∀ (f : Fmt) (md : RMode) (x : Nat), x < 2 * f.signBit → (f.read x).isNan = false → f.write md (f.read x) = (x, 0))
  ∧ (∀ (f : Fmt) (md : RMode) (x : Nat), (f.read x).isNan = true →
      (f.write md (f.read x)).1 = f.nan ∧ ((f.write md (f.read x)).2 = fNV ↔ (f.read x).isSig = true))

/-! ## Checks before an instruction's effect, faults, and the return from them -/

/-- The outcome of a word that finds an uncorrectable error in what it reads: it is logged as contained in the tile's bank, with its unit and
its place, and taken at the instruction as machine-check-contained, with no other effect (R91, R105, R144). The syndrome and the detail word
are free (log 8). -/
def finds (s : State) (st : Strand) (src : BitVec 8) (place : Nat) (o : Host.Outcome State Fault Refusal) : Prop :=
  ∃ d1 d2 : Word, o = .next ((({ s with freeCount := s.freeCount + 2 } : State).modBank (.tile s.cur.tile) fun b =>
    b.log 2 src (BitVec.ofNat 5 s.cur.member) (BitVec.ofNat 64 place) d1).takeFault s.cur false 15 d2 st.regs.pc)

/-- The register fields of a word, with the role that a resource and a marker fault give each: A 0, B 1, D read 2, D written 3 (R110), a group's
registers one by one (R157). -/
def namedBy (i : Instr) : List (Nat × Bool × Spec) :=
  (wordUses i).srcs ++ (wordUses i).dsts.map (fun d => (3, d)) ++ ((wordUses i).dst.map fun d => (3, d)).toList

/-- A register field that the kernel header of the strand's launch does not declare (R20). -/
def missing (st : Strand) (f : Nat × Bool × Spec) : Prop := f.2.2.toNat < 32 ∧ (if f.2.1 then st.nvregs else st.nregs) ≤ f.2.2.toNat

/-- A long result is still to come for a scalar or a vector register, which is not z (R108). -/
def awaits (st : Strand) (vec : Bool) (x : Spec) : Prop := x ≠ 41 ∧ ∃ l ∈ st.longs, l.dest = ⟨vec, x⟩

/-- A word uses a register that awaits a long result: the role and the register that a marker fault gives, and whether it is q, or qv, that no
field names (R110). -/
def awaitedBy (st : Strand) (i : Instr) (k : Nat × Spec × Bool) : Prop :=
  let u := wordUses i
  (∃ f ∈ namedBy i, awaits st f.2.1 f.2.2 ∧ k = (f.1, f.2.2, false))
    ∨ (∃ r ∈ u.reads, awaits st false r.2 ∧ k = (r.1, r.2, false))
    ∨ (u.sp = true ∧ awaits st false 31 ∧ k = (2, 31, false))
    ∨ (u.readsQ = true ∧ awaits st false 40 ∧ k = (2, 40, true))
    ∨ (u.readsQv = true ∧ awaits st true 40 ∧ k = (2, 40, true))
    ∨ (u.writesQ = true ∧ awaits st false 40 ∧ k = (3, 40, true))
    ∨ ∃ d, u.writesQ = false ∧ u.dst = some d ∧ u.long = false ∧ d.2 ≠ 41 ∧ d.2 ≠ 40 ∧ awaits st d.1 40 ∧ k = (3, 40, true)

/-- A word reads a register that carries parity: s0 to s31, o0 to o7 and q, or v0 to v31, w0 to w3 and qv (R105, R144). -/
def readBy (i : Instr) (vec : Bool) (x : Spec) : Prop :=
  let u := wordUses i
  ((if vec then x.toNat < 36 else x.toNat < 40) ∨ x = 40)
    ∧ ((∃ f ∈ u.srcs, f.2 = (vec, x)) ∨ (vec = false ∧ ((∃ r ∈ u.reads, r.2 = x) ∨ (u.sp = true ∧ x = 31) ∨ (u.readsQ = true ∧ x = 40)))
      ∨ (vec = true ∧ u.readsQv = true ∧ x = 40))

/-- R18, R20, R105, R108, R110, R144, R246, of every instruction word: one that names an undeclared register raises a resource fault with code 0x01, a
number that it names so in the lowest role in which one stands, and that role; one that uses a register for which a long result is still to come,
named or not, or that would write q or qv while that awaits one, raises a marker fault that gives the register, the lowest such role, and in bit 10
whether no field names it. A read that finds a parity error in a register is logged with the specifier and delivered as machine-check-contained.
None has another effect. Which of two registers of one role is reported is the model's choice (log 46) and is not stated; that enter and leave name
no register field is its reading (log 38). The syndrome and the delivery's detail word are free (log 8). -/
def Obligations.RegisterChecks : Prop :=
  ∀ (i : Instr) (s : State) (st : Strand), i.isWord = true → s.strand? s.cur = some st → (st.sup = true ∨ (wordUses i).priv = none) →
    let fault := fun (code n : Nat) => exec i s = .next (s.faultTurn s.cur code (BitVec.ofNat 64 n) st.regs.pc)
    ((∃ f ∈ namedBy i, missing st f) →
      ∃ f ∈ namedBy i, missing st f ∧ (∀ g ∈ namedBy i, missing st g → f.1 ≤ g.1) ∧ fault 4 (2 ^ 56 + 0x100 * f.1 + f.2.2.toNat))
    ∧ ((∀ f ∈ namedBy i, ¬ missing st f) → (∃ k, awaitedBy st i k) →
      ∃ k, awaitedBy st i k ∧ (∀ j, awaitedBy st i j → k.1 ≤ j.1) ∧ fault 3 ((if k.2.2 then 0x400 else 0) + 0x100 * k.1 + k.2.1.toNat))
    ∧ ((∀ f ∈ namedBy i, ¬ missing st f) → (∀ k, ¬ awaitedBy st i k) → ∀ vec x, readBy i vec x → st.upset = some (vec, x) →
      finds s st (if vec then 2 else 1) x.toNat (exec i s))

/-- R29: a user strand's sret, tlbinv or selftest raises a privilege fault with the instruction word as its detail word; its sysr of a
register from 0x040 up, and its sysw of one of those or of SLIM, PADLO or PADHI, raise it with the register's number. Nothing else
happens. -/
def Obligations.PrivilegeFaults : Prop :=
  ∀ (s : State) (st : Strand) (m : Bool) (d a : Spec) (num : BitVec 12), s.strand? s.cur = some st → st.sup = false →
    let fault := fun (detail : Word) => Host.Outcome.next (s.faultTurn s.cur 2 detail st.regs.pc)
    (∀ i ∈ [Instr.sret m, .tlbinvPage m a, .tlbinvAsid m a, .tlbinvAll m, .selftest m d a],
      ∃ w, encode i = some w ∧ exec i s = fault (w.setWidth 64))
    ∧ (0x40 ≤ num.toNat → exec (.sysr m d num) s = fault (num.setWidth 64))
    ∧ (0x40 ≤ num.toNat ∨ num = 1 ∨ num = 2 ∨ num = 3 → exec (.sysw m num a) s = fault (num.setWidth 64))

/-- R305 to R307: a user strand with nothing in flight and no open transaction that takes a fault leaves the rotation; the address, the code
(256 more for an asynchronous delivery) and the detail word are recorded, its reservation ends, and an event with its sid joins its tile's
queue, or waits while the 64 entries are taken; its registers and all of memory are as they were. The supervisor's own fault with IE = 1
saves the address, the code and the detail word, clears IE and enters at TVEC + 64; with IE = 0 it is a double fault, and the tile is
fenced. The supervisor's skip window waits in SSKIPN for its return, so that no word of the handler is annulled (log 43); its reservation ends,
and all of memory is as it was. A word's precise fault is taken at once, but a deterministic lane is held with it until its place in the round, where
its chunk is squashed if what it has read is stale (log 20). The address that a supervisor's own trap saves is the model's reading (log 25). -/
def Obligations.TakingAFault : Prop :=
  (∀ (s : State) (x : SlotId) (st : Strand) (code : Nat) (detail epc : Word), s.strand? x = some st →
      (st.chunk = none → s.faultTurn x code detail epc = s.takeFault x false code detail epc)
      ∧ ∀ c, st.chunk = some c →
        s.faultTurn x code detail epc = s.setStrand x { st with run := .held (.fault code detail), chunk := some { c with ended := true } })
  ∧ (∀ (s : State) (x : SlotId) (st : Strand) (async : Bool) (code : Nat) (detail epc : Word),
      s.strand? x = some st → st.sup = false → st.longs = [] → s.stpPending x = false → st.tx = none → code < 256 →
      let t := s.takeFault x async code detail epc
      t.strand? x = some { st with
        run := .out
        rsv := none
        tepc := epc
        tcause := BitVec.ofNat 64 (code + if async then 256 else 0)
        tdetail := detail }
      ∧ (let e : Event := ⟨BitVec.ofNat 64 (2 ^ 63 + code * 2 ^ 40) ||| (st.sid &&& 0x3FFFFFFFFF), detail, none⟩
         if (s.tile x.tile).events.length < 64 ∧ (s.tile x.tile).waiting = []
         then (t.tile x.tile).events = (s.tile x.tile).events ++ [e] ∧ (t.tile x.tile).waiting = []
         else (t.tile x.tile).events = (s.tile x.tile).events ∧ (t.tile x.tile).waiting = (s.tile x.tile).waiting ++ [e])
      ∧ t.mem = s.mem ∧ t.full = s.full)
  ∧ (∀ (s : State) (x : SlotId) (st : Strand) (code : Nat) (detail epc : Word), s.strand? x = some st → st.sup = true → st.longs = [] →
      s.stpPending x = false → st.tx = none → code < 256 →
      (st.ie = true → (s.takeFault x false code detail epc).strand? x = some { st with
          run := .ready
          ie := false
          rsv := none
          sepc := epc
          scause := BitVec.ofNat 64 code
          sdetail := detail
          sskipn := st.regs.skipn
          regs := { st.regs with pc := st.tvec + 64, skipn := 0 } }
        ∧ (s.takeFault x false code detail epc).mem = s.mem ∧ (s.takeFault x false code detail epc).full = s.full)
      ∧ (st.ie = false →
        ((s.takeFault x false code detail epc).tile x.tile).fenced = true
        ∧ ((s.takeFault x false code detail epc).tile x.tile).strands = []))

/-- R43, R305, R309, R322, R323: trap and break take their event at the next word's address, with the code they name as the detail word; sret
sets IE, gives the supervisor its skip window back (log 43) and goes on at SEPC. A write to TRUN that names the selected strand, out of the
rotation after an event, with bit 63 clear, lets it go on at TEPC, unless break holds it for a host debugger in the state DEBUG; with bit 63
set it ends the launch. The firmware serves a trap with s0 and then resumes it, resumes a break unless a debugger keeps it, lowers SLIM to the
bottom of the reservation and resumes after a stack-limit fault above it, and ends the launch of any other event; an address at TEPC that is
no multiple of 4 resumes nothing (log 64). The address that a supervisor's own trap saves is the model's reading (log 25). -/
def Obligations.TrapsAndReturns : Prop :=
  (∀ (s : State) (st : Strand) (m : Bool) (code : BitVec 18), s.Clear st {} →
      exec (.trap m code) s = .next (s.faultTurn s.cur 0x20 (BitVec.ofNat 64 code.toNat) (st.regs.pc + 4))
      ∧ exec (.brk m code) s = .next (s.faultTurn s.cur 0x21 (BitVec.ofNat 64 code.toNat) (st.regs.pc + 4)))
  ∧ (∀ (s : State) (st : Strand) (m : Bool), s.Clear st { priv := wordDetail (.sret m), aborts := true } → st.sepc.toNat % 4 = 0 →
      exec (.sret m) s =
        .next (s.jumps m { st with ie := true, sskipn := 0, regs := { st.regs with skipn := st.sskipn } } st.sepc))
  ∧ ∀ (s : State) (t : Nat) (v : Word) (x : SlotId) (st : Strand), s.selected t = some (x, st) → s.strand? x = some st →
      st.run = .out → v &&& 0x3FFFFFFFFF = (s.tile t).tsel &&& 0x3FFFFFFFFF →
      let back := fun (r : Regs) => s.setStrand x { st with run := .ready, regs := { r with pc := st.tepc } }
      let debugging := s.debugger = true ∧ s.ctl.lcs = 2
      (v.getLsbD 63 = false → st.tepc.toNat % 4 = 0 → ¬ (debugging ∧ st.tcause = 0x21) → s.trun t v = back st.regs)
      ∧ (v.getLsbD 63 = true → s.trun t v = s.endLaunch st.lid (BitVec.ofNat 64 (2 + 256 * (st.tcause.toNat % 256))))
      ∧ (v.getLsbD 63 = false → st.tepc.toNat % 4 = 0 →
        (st.tcause = 5 → st.stackBot < st.regs.slim.toNat →
          exec (.trunResume t v) s = .next (back { st.regs with slim := BitVec.ofNat 64 st.stackBot }))
        ∧ (st.tcause = 0x20 → exec (.trunResume t v) s = .next (back (st.regs.setS 0
            (if st.tdetail = 1 then (if st.det then st.committed else (s.tile t).cycle)
             else if st.tdetail = 2 then BitVec.ofNat 64 st.lid else 0xFFFFFFFFFFFFFFFF))))
        ∧ (st.tcause = 0x21 → ¬ debugging → exec (.trunResume t v) s = .next (back st.regs))
        ∧ (st.tcause = 0x21 → debugging → exec (.trunResume t v) s = .next s
          ∧ exec (.hostDebuggerResume x) s = .next (back st.regs)))
      ∧ (v.getLsbD 63 = true → st.tcause ≠ 0x20 → st.tcause ≠ 0x21 → ¬ (st.tcause = 5 ∧ st.stackBot < st.regs.slim.toNat) →
        exec (.trunEndLaunch t v) s = .next (s.endLaunch st.lid (BitVec.ofNat 64 (2 + 256 * (st.tcause.toNat % 256)))))

/-! ## Scratchpad accesses -/

/-- R40, R85, R100: a plain address names its byte when the whole range lies in the launch's region or in the strand's stack reservation; an address
from 2^23 up to 2^24 names a byte of the stage of the ring in its bits [22:20], when the ring, as it stood at the start of the rotation's cycle
(R100), may be used and the range stays in the stage.
A plain access that begins in one of the two ranges and leaves it reports the first address past it; every other address is a pad-bounds
fault with the address as its detail word. The bounds of the supervisor's own region are the model's reading (log 26). -/
def Obligations.ScratchpadAddress : Prop :=
  ∀ (s : State) (x : SlotId) (st : Strand) (ea : Word) (len : Nat), 0 < len →
    let a := ea.toNat
    (a < 2 ^ 20 →
      (st.regs.padlo.toNat ≤ a ∧ a + len ≤ st.regs.padlo.toNat + st.padLen) ∨ (st.stackBot ≤ a ∧ a + len ≤ st.stackTop) →
      s.padAddr x st ea len = .ok a)
    ∧ (a < 2 ^ 20 → ¬ (st.regs.padlo.toNat ≤ a ∧ a < st.regs.padlo.toNat + st.padLen) → ¬ (st.stackBot ≤ a ∧ a < st.stackTop) →
      s.padAddr x st ea len = .error (6, ea))
    ∧ (a < 2 ^ 20 → (st.regs.padlo.toNat ≤ a ∧ a < st.regs.padlo.toNat + st.padLen) → st.regs.padlo.toNat + st.padLen < a + len →
      ¬ (st.stackBot ≤ a ∧ a < st.stackTop) →
      s.padAddr x st ea len = .error (6, BitVec.ofNat 64 (st.regs.padlo.toNat + st.padLen)))
    ∧ (a < 2 ^ 20 → ¬ (st.regs.padlo.toNat ≤ a ∧ a < st.regs.padlo.toNat + st.padLen) → (st.stackBot ≤ a ∧ a < st.stackTop) →
      st.stackTop < a + len → s.padAddr x st ea len = .error (6, BitVec.ofNat 64 st.stackTop))
    ∧ (2 ^ 20 ≤ a ∧ a < 2 ^ 23 ∨ 2 ^ 24 ≤ a → s.padAddr x st ea len = .error (6, ea))
    ∧ (2 ^ 23 ≤ a ∧ a < 2 ^ 24 →
      (∀ r, s.ringCheckAt x st (a / 2 ^ 20 % 8) = .ok r →
        s.padAddr x st ea len = if a % 2 ^ 20 + len ≤ 2 ^ r.slog2
          then .ok (r.base + r.idx x.member st.uid * 2 ^ r.slog2 + a % 2 ^ 20) else .error (6, ea))
      ∧ ∀ c, s.ringCheckAt x st (a / 2 ^ 20 % 8) = .error c →
        s.padAddr x st ea len = .error (4, BitVec.ofNat 64 (c * 2 ^ 56 + a)))

/-- The n bytes at a local address are as they read: none of their words holds an error (R91), no reduction word there has updates that wait
to be folded (R211), and no path still misses a write to them (log 18). -/
def sound (s : State) (A n : Nat) : Prop :=
  (∀ w ∈ wordsOf A n, w ∉ s.badWords ∧ w ∉ s.weakWords)
    ∧ (∀ r ∈ s.redWords, r.slots = [] ∨ A + n ≤ r.addr ∨ r.addr + 8 ≤ A)
    ∧ ∀ k ∈ s.lags, ∀ p ∈ k.old, p.1 < A ∨ A + n ≤ p.1

/-- R64, R90, R91, R102: lds reads the bytes that its size code names at its effective address, sign-extended when the code's bit 0 is 0, and
writes d and q; ldsv reads 128 bytes and writes d and qv. Memory and every other register are as they were. A word that holds an
uncorrectable error is logged with its address and delivered as machine-check-contained; a corrected error is fixed and logged, and the load
goes on; s' is the state with the corrected errors of the access fixed and logged. The syndrome and the delivery's detail word are free (log 8). -/
def Obligations.ScratchpadLoads : Prop :=
  ∀ (s : State) (st : Strand) (m : Bool) (d a : Spec) (p : Nat), st.inTx = false → st.chunk = none →
    let A := s.padBase s.cur.tile + p
    (∀ (off : BitVec 9) (z : BitVec 3), s.Clear st (useLoad false d a false) →
      let n : Nat := 2 ^ (z.toNat / 2)
      let ea := st.rs a + BitVec.ofInt 64 (off.toInt * n)
      let v := bytesToNat (s.readBytes A n)
      let r := if z.getLsbD 0 = false ∧ 2 ^ (8 * n - 1) ≤ v then BitVec.ofInt 64 ((v : Int) - 2 ^ (8 * n)) else BitVec.ofNat 64 v
      ea.toNat % n = 0 → s.padAddr s.cur st ea n = .ok p →
      let s' := s.fixWords A n (BitVec.ofNat 5 s.cur.member)
      (sound s A n → exec (.lds m d a off z) s = .next (s.completes m (st.putS d r)))
      ∧ (A / 8 ∈ s.badWords → finds s' st 5 (s.devno.toNat * 2 ^ 44 + A / 8 * 8) (exec (.lds m d a off z) s))
      ∧ (A % n = 0 → A / 8 ∈ s.weakWords → A / 8 ∉ s.badWords → s.region (A / 8 * 8) = .pad s.cur.tile (p / 8 * 8) → s.redWords = [] → s.lags = [] →
        ∃ e : Word, exec (.lds m d a off z) s = .next ((({ s with
          freeCount := s.freeCount + 1
          weakWords := s.weakWords.filter fun w => w != A / 8 } : State).modBank (.tile s.cur.tile) fun b =>
            b.log 1 5 (BitVec.ofNat 5 s.cur.member) (BitVec.ofNat 64 (s.devno.toNat * 2 ^ 44 + A / 8 * 8)) e).completes m (st.putS d r))))
    ∧ (∀ imm : BitVec 12, s.Clear st (useLoad true d a false) →
      let ea := st.rs a + BitVec.ofInt 64 (imm.toInt * 128)
      ea.toNat % 128 = 0 → s.padAddr s.cur st ea 128 = .ok p →
      (sound s A 128 → exec (.ldsv m d a imm) s = .next (s.completes m (st.putV d (BitVec.ofNat 1024 (bytesToNat (s.readBytes A 128))))))
      ∧ ∀ w ∈ wordsOf A 128, w ∈ s.badWords → (∀ k ∈ wordsOf A 128, k < w → k ∉ s.badWords) →
        finds (s.fixWords A 128 (BitVec.ofNat 5 s.cur.member)) st 5 (s.devno.toNat * 2 ^ 44 + w * 8) (exec (.ldsv m d a imm) s))

/-- The outcome of a store of bytes at a local address by the executing strand: those bytes are written and their words full, every other
byte reads as before, and the strand goes on with its registers as they were. -/
def storedOnly (s : State) (st : Strand) (m : Bool) (A : Nat) (bs : List Byte) (o : Host.Outcome State Fault Refusal) : Prop :=
  ∃ t : State, o = .next t
    ∧ t.mem = memSetBytes s.mem A bs
    ∧ (∀ w, w ∈ t.full ↔ w ∈ s.full ∨ (A / 8 ≤ w ∧ w < (A + bs.length + 7) / 8))
    ∧ t.strand? s.cur = some (st.after m (st.regs.pc + 4))
    ∧ (Memory.wf s.mem = true →
      (∀ j, j < A ∨ A + bs.length ≤ j → memGet t.mem j = memGet s.mem j) ∧ ∀ i (h : i < bs.length), memGet t.mem (A + i) = bs[i])

/-- R60, R90, R91, R102: sts and stsv store the low bytes of B at their effective address. One that covers a word whole clears the word's
error; one narrower than 8 bytes into a word with an uncorrectable error writes nothing, and the error is logged and delivered as
machine-check-contained, beside which the corrected errors of the access are fixed and logged. The syndrome and the delivery's detail word are free
(log 8). -/
def Obligations.ScratchpadStores : Prop :=
  ∀ (s : State) (st : Strand) (m : Bool) (b a : Spec) (p : Nat), st.inTx = false → st.chunk = none → st.run = .ready →
    let A := s.padBase s.cur.tile + p
    s.region A = .pad s.cur.tile p →
    (∀ (off : BitVec 9) (z : BitVec 3), s.Clear st (useStore false b a) →
      let n : Nat := 2 ^ (z.toNat / 2)
      let ea := st.rs a + BitVec.ofInt 64 (off.toInt * n)
      let store := exec (.sts m b a off z) s
      ea.toNat % n = 0 → s.padAddr s.cur st ea n = .ok p →
      (sound s A n → storedOnly s st m A (natToBytes n (st.rs b).toNat) store)
      ∧ (n = 8 → A % 8 = 0 → s.redWords = [] → storedOnly s st m A (natToBytes 8 (st.rs b).toNat) store
        ∧ ∀ t, store = .next t → A / 8 ∉ t.badWords ∧ A / 8 ∉ t.weakWords)
      ∧ (n < 8 → A / 8 ∈ s.badWords →
        finds (s.fixWords A n (BitVec.ofNat 5 s.cur.member)) st 5 (s.devno.toNat * 2 ^ 44 + A / 8 * 8) store))
    ∧ (∀ imm : BitVec 12, s.Clear st (useStore true b a) →
      let ea := st.rs a + BitVec.ofInt 64 (imm.toInt * 128)
      ea.toNat % 128 = 0 → s.padAddr s.cur st ea 128 = .ok p → s.redWords = [] →
      storedOnly s st m A (natToBytes 128 (st.rv b).toNat) (exec (.stsv m b a imm) s))

/-- R64, R65, R102, R103, R208, R212 to R214, R229, R250, R252, R274, R275: an effective address that is no multiple of the access's size,
or of a record's alignment, raises an alignment fault with the address as its detail word, and nothing else happens. -/
def Obligations.AlignmentFaults : Prop :=
  ∀ (s : State) (st : Strand) (m : Bool) (d a b : Spec) (off : BitVec 9) (z : BitVec 3) (imm : BitVec 12) (ord ty : BitVec 2) (rel : BitVec 1)
    (t : BitVec 4) (ring : BitVec 3), st.chunk = none →
    let n : Nat := 2 ^ (z.toNat / 2)
    let e := st.rs a + BitVec.ofInt 64 (off.toInt * n)
    let v := st.rs a + BitVec.ofInt 64 (imm.toInt * 128)
    let w := st.rs a + BitVec.ofInt 64 (imm.toInt * 8)
    let A := st.rs a
    let fault := fun (ea : Word) => Host.Outcome.next (s.faultTurn s.cur 7 ea st.regs.pc)
    (s.Clear st (useLoad false d a false) → e.toNat % n ≠ 0 → exec (.lds m d a off z) s = fault e)
    ∧ (s.Clear st (useLoad false d a true) → e.toNat % n ≠ 0 → exec (.ldg m d a off z) s = fault e)
    ∧ (s.Clear st (useStore false b a) → e.toNat % n ≠ 0 →
      exec (.sts m b a off z) s = fault e ∧ exec (.stg m b a off z) s = fault e)
    ∧ (s.Clear st (useLoad true d a false) → v.toNat % 128 ≠ 0 → exec (.ldsv m d a imm) s = fault v)
    ∧ (s.Clear st (useLoad true d a true) → v.toNat % 128 ≠ 0 → exec (.ldgv m d a imm) s = fault v)
    ∧ (s.Clear st (useStore true b a) → v.toNat % 128 ≠ 0 →
      exec (.stsv m b a imm) s = fault v ∧ exec (.stgv m b a imm) s = fault v)
    ∧ (s.Clear st (useLoad false d a true) → w.toNat % 8 ≠ 0 → exec (.ldc m d a imm) s = fault w)
    ∧ (s.Clear st (useStore false b a) → w.toNat % 8 ≠ 0 → exec (.stp m b a imm) s = fault w)
    ∧ (s.Clear st { useLoad false d a true with aborts := true } → A.toNat % 8 ≠ 0 → exec (.ldx m d a) s = fault A)
    ∧ (A.toNat % 8 ≠ 0 → st.run = .ready →
      (s.Clear st { srcs := [(0, false, a), (1, false, b)], dst := some (false, d), long := true, access := true, aborts := true } →
        ∀ i ∈ [Instr.stx m d a b, .atomAdd m ord d a b, .atomAnd m ord d a b, .atomOr m ord d a b, .atomXor m ord d a b, .atomMin m ord d a b,
          .atomMax m ord d a b, .atomMinn m ord d a b, .atomMaxn m ord d a b, .atomSwap m ord d a b, .atomFaddF64 m ord d a b], exec i s = fault A)
      ∧ (s.Clear st { srcs := [(0, false, a), (1, false, b), (2, false, d)], dst := some (false, d), long := true, access := true, aborts := true } →
        exec (.atomCas m ord d a b) s = fault A)
      ∧ (s.Clear st { srcs := [(0, false, a), (1, false, b)], access := true, aborts := true } →
        ∀ i ∈ [Instr.atomnAdd m rel a b, .atomnAnd m rel a b, .atomnOr m rel a b, .atomnXor m rel a b, .atomnMin m rel a b, .atomnMax m rel a b,
          .atomnMinn m rel a b, .atomnMaxn m rel a b, .atomnFaddF64 m rel a b], exec i s = fault A)
      ∧ (s.Clear st { srcs := [(0, false, a)], access := true, aborts := true } →
        ∀ i ∈ [Instr.redpReg m ty a, .redpRel m a, .join m a, .gang m a], exec i s = fault A))
    ∧ (A.toNat % 4 ≠ 0 →
      (s.Clear st { srcs := [(0, false, a), (1, false, b)], dst := some (false, d), long := true, access := true, aborts := true } →
        exec (.atomFaddF32 m ord d a b) s = fault A)
      ∧ (s.Clear st { srcs := [(0, false, a), (1, false, b)], access := true, aborts := true } → exec (.atomnFaddF32 m rel a b) s = fault A))
    ∧ (s.Clear st { srcs := [(0, false, a)], access := true, aborts := true } → A.toNat % 8 ≠ 0 → exec (.lkcfg m ring a) s = fault A)
    ∧ (s.Clear st { srcs := [(0, false, a), (1, false, b)], access := true, aborts := true } →
      let B := st.rs b
      (∀ i ∈ [Instr.nred m t a b, .nsend m a b],
        (A.toNat % 128 ≠ 0 → exec i s = fault A) ∧ (A.toNat % 128 = 0 → B.toNat % 8 ≠ 0 → exec i s = fault B))
      ∧ ∀ k f c, st.run = .ready → s.declared st = some (k, f, c) → f ≤ A.toNat % 2 ^ 24 → A.toNat % 2 ^ 24 < f + c →
        B.toNat % 64 ≠ 0 → exec (.cbind m a b) s = fault B)
    ∧ (s.Clear st { srcs := [(0, false, a), (1, false, b)], dst := some (false, d), long := true, access := true, aborts := true } →
      let B := st.rs b
      ∀ k f c, st.run = .ready → s.declared st = some (k, f, c) → A.toNat / 2 ^ 32 % 2 ^ 12 = k → B.toNat % 8 ≠ 0 →
        exec (.ccommit m d a b) s = fault B)

/-! ## Global accesses: issue -/

/-- Nothing in memory has changed. -/
def unwritten (s t : State) : Prop := t.mem = s.mem ∧ t.full = s.full

/-- The outcome of a word whose global access enters flight: it is the youngest, unperformed, and nothing in memory has changed; a
destination is marked as awaiting a long result, and the strand goes on. -/
def entersFlight (s : State) (st : Strand) (m : Bool) (op : FlightOp) (l : Loc) (dest : Option Dest) (kind : Nat) (rel acq : Bool)
    (tr : Leaf) (o : Host.Outcome State Fault Refusal) : Prop :=
  ∃ t : State, o = .next t
    ∧ t.flight = s.flight ++ [⟨s.nextId, s.cur, st.lid, st.sid, st.uid, op, l, dest, kind, rel, acq, [], none, false, false, 0, some tr⟩]
    ∧ t.nextId = s.nextId + 1 ∧ t.mem = s.mem ∧ t.full = s.full
    ∧ t.strand? s.cur = some ({ st with longs := st.longs ++ (dest.map fun d => (⟨s.nextId, d, acq⟩ : Long)).toList }.after m (st.regs.pc + 4))

/-- R61, R62, R64, R65, R108, R188, R214, R283: ldg and ldc are issued to the place that their address translates to, and mark d as awaiting a long
result; an ldc acquires; an 8-byte ldg of a command ring's RESV asks it for a ticket. An ldgv is two accesses, one for each of its lines, of which the
second carries the result; an stgv is two stores. stg enters its core's store buffer while that has room, and forfeits its turn while it has none; a
stp releases. What another device answers is free (log 8). -/
def Obligations.GlobalAccessesIssue : Prop :=
  (∀ (s : State) (st : Strand) (m : Bool) (d a : Spec) (off : BitVec 9) (z : BitVec 3) (imm : BitVec 12) (p : Loc) (tr : Leaf),
      s.Clear st (useLoad false d a true) → st.inTx = false → st.chunk = none →
      (let n : Nat := 2 ^ (z.toNat / 2)
       let ea := st.rs a + BitVec.ofInt 64 (off.toInt * n)
       ea.toNat % n = 0 → s.translate s.cur.tile st.regs.ptroot st.sup ea .read = .at_ p tr →
       (s.resvAt p = none ∨ n < 8 →
         entersFlight s st m (.load n (!z.getLsbD 0)) p (some ⟨false, d⟩) 0 false false tr (exec (.ldg m d a off z) s))
       ∧ ∀ k, s.resvAt p = some k → n = 8 → entersFlight s st m (.resv k) p (some ⟨false, d⟩) 0 false false tr (exec (.ldg m d a off z) s))
      ∧ (let ea := st.rs a + BitVec.ofInt 64 (imm.toInt * 8)
         ea.toNat % 8 = 0 → s.translate s.cur.tile st.regs.ptroot st.sup ea .rw = .at_ p tr →
         entersFlight s st m .ldc p (some ⟨false, d⟩) 4 false true tr (exec (.ldc m d a imm) s)))
  ∧ (∀ (s : State) (st : Strand) (m : Bool) (d b a : Spec) (imm : BitVec 12) (p : Loc) (tr : Leaf), st.inTx = false → st.chunk = none →
      let ea := st.rs a + BitVec.ofInt 64 (imm.toInt * 128)
      let acc := fun (id : Nat) (op : FlightOp) (l : Loc) (dest : Option Dest) (kind : Nat) =>
        (⟨id, s.cur, st.lid, st.sid, st.uid, op, l, dest, kind, false, false, [], none, false, false, 0, some tr⟩ : Access)
      let upper : Loc := ⟨p.dev, p.addr + 64⟩
      ea.toNat % 128 = 0 →
      (s.Clear st (useLoad true d a true) → s.translate s.cur.tile st.regs.ptroot st.sup ea .read = .at_ p tr →
        ∃ t : State, exec (.ldgv m d a imm) s = .next t
          ∧ t.flight = s.flight ++ [acc s.nextId (.loadV false) p none 0, acc (s.nextId + 1) (.loadV true) upper (some ⟨true, d⟩) 0]
          ∧ t.mem = s.mem ∧ t.full = s.full
          ∧ t.strand? s.cur = some ({ st with longs := st.longs ++ [(⟨s.nextId + 1, ⟨true, d⟩, false⟩ : Long)] }.after m (st.regs.pc + 4)))
      ∧ (s.Clear st (useStore true b a) → s.translate s.cur.tile st.regs.ptroot st.sup ea .write = .at_ p tr →
        let bs := natToBytes 128 (st.rv b).toNat
        (s.bufferUsed s.cur + 2 ≤ 16 → ∃ t : State, exec (.stgv m b a imm) s = .next t
          ∧ t.flight = s.flight ++ [acc s.nextId (.store (bs.take 64)) p none 1, acc (s.nextId + 1) (.store (bs.drop 64)) upper none 1]
          ∧ t.mem = s.mem ∧ t.full = s.full ∧ t.strand? s.cur = some (st.after m (st.regs.pc + 4)))
        ∧ (16 < s.bufferUsed s.cur + 2 → exec (.stgv m b a imm) s = .next (s.setStrand s.cur { st with run := .ready }))))
  ∧ (∀ (s : State) (st : Strand) (m : Bool) (b a : Spec) (off : BitVec 9) (z : BitVec 3) (imm : BitVec 12) (p : Loc) (tr : Leaf),
      s.Clear st (useStore false b a) → st.inTx = false → st.chunk = none →
      (let n : Nat := 2 ^ (z.toNat / 2)
       let ea := st.rs a + BitVec.ofInt 64 (off.toInt * n)
       ea.toNat % n = 0 → s.translate s.cur.tile st.regs.ptroot st.sup ea .write = .at_ p tr →
       (s.bufferUsed s.cur < 16 →
         entersFlight s st m (.store (natToBytes n (st.rs b).toNat)) p none 1 false false tr (exec (.stg m b a off z) s))
       ∧ (16 ≤ s.bufferUsed s.cur → exec (.stg m b a off z) s = .next (s.setStrand s.cur { st with run := .ready })))
      ∧ (let ea := st.rs a + BitVec.ofInt 64 (imm.toInt * 8)
         ea.toNat % 8 = 0 → s.translate s.cur.tile st.regs.ptroot st.sup ea .rw = .at_ p tr →
         entersFlight s st m (.stp (st.rs b)) p none 4 true false tr (exec (.stp m b a imm) s)))

/-- R208, R209, R213: atom, atomn, ldx and stx are issued to the home of the place that A translates to, aligned on their size; an atom
carries its operation, operand and comparand and its acquire and release bits; ldx first gives up the strand's reservation, and that of an earlier
ldx of it that is still on its way. -/
def Obligations.AtomicsIssue : Prop :=
  ∀ (s : State) (st : Strand) (m : Bool) (ord : BitVec 2) (rel : BitVec 1) (d a b : Spec) (p : Loc) (tr : Leaf),
    st.chunk = none → s.translate s.cur.tile st.regs.ptroot st.sup (st.rs a) .rw = .at_ p tr →
    (∀ q ∈ [(Instr.atomAdd m ord d a b, AtomOp.add), (.atomAnd m ord d a b, .and), (.atomOr m ord d a b, .or), (.atomXor m ord d a b, .xor),
        (.atomMin m ord d a b, .min), (.atomMax m ord d a b, .max), (.atomMinn m ord d a b, .minn), (.atomMaxn m ord d a b, .maxn),
        (.atomSwap m ord d a b, .swap), (.atomCas m ord d a b, .cas), (.atomFaddF64 m ord d a b, .fadd64), (.atomFaddF32 m ord d a b, .fadd32)],
      s.Clear st { srcs := [(0, false, a), (1, false, b)] ++ (if q.2 = AtomOp.cas then [(2, false, d)] else []),
                   dst := some (false, d), long := true, access := true, aborts := true } →
      (st.rs a).toNat % (if q.2 = .fadd32 then 4 else 8) = 0 →
      entersFlight s st m (.atom q.2 (st.rs b) (st.rs d)) p (some ⟨false, d⟩) 4 (ord.getLsbD 1) (ord.getLsbD 0) tr (exec q.1 s))
    ∧ (∀ q ∈ [(Instr.atomnAdd m rel a b, AtomOp.add), (.atomnAnd m rel a b, .and), (.atomnOr m rel a b, .or), (.atomnXor m rel a b, .xor),
        (.atomnMin m rel a b, .min), (.atomnMax m rel a b, .max), (.atomnMinn m rel a b, .minn), (.atomnMaxn m rel a b, .maxn),
        (.atomnFaddF64 m rel a b, .fadd64), (.atomnFaddF32 m rel a b, .fadd32)],
      s.Clear st { srcs := [(0, false, a), (1, false, b)], access := true, aborts := true } →
      (st.rs a).toNat % (if q.2 = .fadd32 then 4 else 8) = 0 →
      entersFlight s st m (.atomn q.2 (st.rs b)) p none 4 (rel = 1) false tr (exec q.1 s))
    ∧ (s.Clear st { useLoad false d a true with aborts := true } → (st.rs a).toNat % 8 = 0 →
      entersFlight (s.dropRsv s.cur) { st with rsv := none } m .ldx p (some ⟨false, d⟩) 4 false false tr (exec (.ldx m d a) s))
    ∧ (s.Clear st { srcs := [(0, false, a), (1, false, b)], dst := some (false, d), long := true, access := true, aborts := true } →
      (st.rs a).toNat % 8 = 0 →
      entersFlight s st m (.stx (st.rs b)) p (some ⟨false, d⟩) 4 false false tr (exec (.stx m d a b) s))

/-- R212: redp.reg and redp.rel send their request to A's home and hold their strand; when the home has answered 0 they are complete, and any
other answer is the code of the resource fault that they raise. Sent to a home on this device with nothing before them, answered and executed
again, they leave their word registered, or released, and their strand at the next word. -/
def Obligations.ReductionWords : Prop :=
  ∀ (s : State) (st : Strand) (m : Bool) (ty : BitVec 2) (a : Spec),
    s.Clear st { srcs := [(0, false, a)], access := true, aborts := true } →
    let ea := st.rs a
    let completes := fun (i : Instr) => ∀ (id : Nat) (e : Access), st.run = .held (.home id) → (s.flight.find? fun k => k.id = id) = some e →
      e.done = true → e.value = 0 → (∀ l ∈ st.longs, l.id ≠ e.id) → (∀ k ∈ s.spills, ∀ l ∈ k.strand.longs, l.id ≠ e.id) →
      ∃ t : State, exec i s = .next t ∧ t.flight = s.flight.filter (fun k => k.id != e.id)
        ∧ t.strand? s.cur = some (st.after m (st.regs.pc + 4)) ∧ t.mem = s.mem
    let fails := fun (i : Instr) => ∀ (id : Nat) (e : Access), st.run = .held (.home id) → (s.flight.find? fun k => k.id = id) = some e →
      e.done = true → e.value ≠ 0 → st.longs = [] → s.spills = [] →
      ∃ t : State, exec i s = .next t ∧ t.mem = s.mem ∧ t.strand? s.cur
        = ((s.dropAccess e).faultTurn s.cur 4 (BitVec.ofNat 64 (e.value.toNat * 2 ^ 56 + ea.toNat % 2 ^ 56)) st.regs.pc).strand? s.cur
    let sends := fun (i : Instr) (op : FlightOp) => ∀ (p : Loc) (tr : Leaf), st.run = .ready → st.chunk = none → ea.toNat % 8 = 0 →
      s.translate s.cur.tile st.regs.ptroot st.sup ea .rw = .at_ p tr →
      ∃ t : State, exec i s = .next t
        ∧ t.flight = s.flight ++ [⟨s.nextId, s.cur, st.lid, st.sid, st.uid, op, p, none, 4, false, false, [], none, false, false, 0, some tr⟩]
        ∧ t.strand? s.cur = some { st with run := .held (.home s.nextId), mark := m }
    let runs := fun (i : Instr) (words : Nat → List RedWord) => ∀ (p : Loc) (tr : Leaf), st.run = .ready → st.chunk = none → ea.toNat % 8 = 0 →
      s.translate s.cur.tile st.regs.ptroot st.sup ea .rw = .at_ p tr → p.dev = thisDev → s.region p.addr = .hbm → sound s p.addr 8 →
      s.flight = [] → s.spills = [] → (∀ l ∈ st.longs, l.id ≠ s.nextId) →
      ∃ t u v : State, exec i s = .next t ∧ exec (.homeAtomic s.nextId .ok 0) t = .next u ∧ exec i u = .next v ∧ unwritten s v
        ∧ v.strand? s.cur = some ({ st with mark := m }.after m (st.regs.pc + 4)) ∧ v.flight = [] ∧ v.redWords = words p.addr
    completes (.redpReg m ty a) ∧ completes (.redpRel m a) ∧ fails (.redpReg m ty a) ∧ fails (.redpRel m a)
      ∧ sends (.redpReg m ty a) (.redpReg ty.toNat) ∧ sends (.redpRel m a) .redpRel
      ∧ (s.redWords = [] → runs (.redpReg m ty a) fun A => [⟨A, ty.toNat, [], st.lid⟩])
      ∧ runs (.redpRel m a) fun A => s.redWords.filter fun r => r.addr != A

/-- R196, R197, R201: a fence is complete once no access in flight that it names, within its scope, is still to be performed: of its own
strand those of the kinds in its predecessor set, and of its core the stores and atomics when the set holds gs or at; until then its
strand is held at it. fencex waits for the strand path alone, and then no path in its successor set misses a write of one in its
predecessor set, over all places, whose operation has ended, or whose value the strand has read. That stores of siblings which are issued while a fence
is held count as before it is the model's choice (log 67). -/
def Obligations.Fences : Prop :=
  ∀ (s : State) (st : Strand) (m : Bool) (pred : BitVec 6) (scope : BitVec 3) (succ : BitVec 6), s.Clear st { aborts := true } →
    let left := fun (named : Access → Bool) => ∃ a ∈ s.flight, a.done = false ∧ a.op.isResult = false
      ∧ s.covers s.cur.tile scope.toNat a.loc = true ∧ named a = true
    let own := fun (a : Access) => decide (a.who = s.cur) && s.present a
    let core := fun (a : Access) => a.op.writes && sameCore a.who s.cur
    let byFence := fun (a : Access) => (own a && pred.getLsbD a.kind) || ((pred.getLsbD 1 || pred.getLsbD 4) && core a)
    let byFencex := fun (a : Access) => pred.getLsbD 0 && (own a || core a)
    let held := Host.Outcome.next (s.setStrand s.cur { st with run := .held .again, mark := m })
    (¬ left byFence → exec (.fence m pred scope succ) s = .next (s.completes m st))
    ∧ (left byFence → exec (.fence m pred scope succ) s = held)
    ∧ (¬ left byFencex → ∃ ks : List Lag, exec (.fencex m pred scope succ) s = .next (({ s with lags := ks } : State).completes m st)
      ∧ (s.lags = [] → ks = [])
      ∧ ∀ k ∈ s.lags, pred.getLsbD k.writer = true → succ.getLsbD k.reader = true → 4 ≤ scope.toNat → (s.opEnded k = true ∨ st.uid ∈ k.seen) → k ∉ ks)
    ∧ (left byFencex → exec (.fencex m pred scope succ) s = held)

/-! ## Steps, reset, boot and the device's edges -/

/-- The word that a strand finds at its pc: a user strand's at the place that its pc translates to, as its core's instruction buffer holds it
or, where it does not, as memory does; a supervisor's in its tile's code store, or in the image that it was loaded from (R59, R350, log 44). -/
def fetches (s : State) (x : SlotId) (st : Strand) (w : BitVec 32) : Prop :=
  (st.sup = false ∧ ∃ p tr, s.translate x.tile st.regs.ptroot false st.regs.pc .fetch = .at_ p tr
    ∧ let held := (s.tile x.tile).ibuf.find? fun k => k.core = x.core.num && k.lid = st.lid && k.addr = p.addr
      (∀ k, held = some k → w = k.word) ∧ (held = none → w = BitVec.ofNat 32 (bytesToNat (s.readBytes p.addr 4))))
  ∨ (st.sup = true ∧ w = (assocGet s.codeStore st.regs.pc.toNat).getD (Config.imageCode s.fwImage st.regs.pc.toNat))

/-- R13, R30, R234, R235, R310, R315: when the rotation of the tile has come to a strand that is able to issue, with nothing to be delivered to it
first, the step runs the instruction that the word at its pc, as its core's instruction buffer or memory holds it (log 44), decodes to, and the
rotation moves on; a word that does not decode raises an illegal-instruction fault with the word and the reason as its detail word. The repeat of an
instruction whose residue check failed logs a corrected error; an issue ends the count of the turns in a row that the strand has lost at its banks
(R89). Which tile's turn it is, the agenda says (log 2). -/
def Obligations.StepRunsDecoded : Prop :=
  ∀ (s : State) (r : List Choice) (x : SlotId) (st : Strand) (w : BitVec 32),
    (s.agenda = .turn x.tile :: r ∨ (s.agenda = [] ∧ r = [] ∧ s.focus = x.tile)) →
    (((s.tile x.tile).phase % 2 = 0 ∧ (s.tile x.tile).owner x.tile = x)
      ∨ ((s.tile x.tile).phase % 2 = 1 ∧ sibling ((s.tile x.tile).owner x.tile) = x ∧ st.det = false)) →
    s.ctl.ckpt = none ∨ isSup x = true → s.strand? x = some st → st.run = .ready → st.preReq = false → st.asyncs = [] →
    (st.tx = none ∨ (st.abortReq = none ∧ s.lostLine x = none)) → s.waveSleeps x = false →
    (st.sup = true → st.ie = false ∨ (s.tile x.tile).events = []) → st.regs.skipn = 0 → fetches s x st w →
    let s' : State := { s with agenda := r }
    (∀ i, decodeFor x.core w = .ok i →
      (st.redo = none → st.lost = 0 → step s = mapNext (exec i { s' with cur := x }) fun t => t.rotate x.tile false)
      ∧ (st.redo = none → st.lost ≠ 0 →
        step s = mapNext (exec i { s'.setStrand x { st with lost := 0 } with cur := x }) fun t => t.rotate x.tile false)
      ∧ ∀ q, st.redo = some q → step s = mapNext (exec i { (s'.setStrand x { st with redo := none, lost := 0 }).modBank (.tile x.tile) fun b =>
        b.log 1 q.1 (BitVec.ofNat 5 x.member) q.2.1 q.2.2 with cur := x }) fun t => t.rotate x.tile false)
    ∧ ∀ c, decodeFor x.core w = .error c →
      step s = .next ((s'.faultTurn x 1 (BitVec.ofNat 64 (c * 2 ^ 32 + w.toNat)) st.regs.pc).rotate x.tile false)

/-- Every step keeps memory, its full/empty bits, and those of a checkpoint, in their one canonical form. -/
def Obligations.StepKeepsMemory : Prop :=
  ∀ s t : State, s.MemOk → step s = .next t → t.MemOk

/-- A device that has just been wiped (R349, R353). -/
def wiped (t : State) : Prop :=
  (∀ a, memGet t.mem a = 0) ∧ (∀ a, t.isFull a = false) ∧ t.watches = [] ∧ t.ctl.ready = false ∧ t.ctl.busy = true
    ∧ ∀ n, (t.tile n).tlb = [] ∧ (t.rowAt n).tlb = [] ∧ (t.tile n).weir = [] ∧ (t.tile n).deque = [] ∧ (t.tile n).events = []
      ∧ (t.tile n).strands = [] ∧ (∀ k, ((t.tile n).mat.acc.find? fun p => p.1 = k) = none)
      ∧ ∀ k, (t.chan n k).nextid = 0 ∧ (t.chan n k).doneId = 0 ∧ (t.chan n k).queue = []

/-- R349, R353: the device after reset is wiped and meets the invariant of memory; a later RESET wipes it again, from any state, and leaves the
fuses. What RESET keeps beside the fuses is the model's reading (log 36) and is not stated here. -/
def Obligations.ResetWipes : Prop :=
  wiped State.reset ∧ State.reset.MemOk
    ∧ ∀ s : State, ∃ t : State, exec .reset s = .next t ∧ wiped t
      ∧ t.ctl.lcs = s.ctl.lcs ∧ t.fusedRows = s.fusedRows ∧ t.fusedCols = s.fusedCols ∧ t.rollbackMin = s.rollbackMin

/-- R350, R354: BOOTGO makes its checks in the order of Table 17.3, 0x06 first, and stops at the first that fails; when all pass it sets READY
and DEVNO, keeps the image, and starts every tile's supervisor at the dispatch entry. LCREQ with a next state that Table 17.4 allows resets
the device and burns it; any other value is ignored. SHA-384 and ECDSA P-384 are computed as their standards give them (log 12); the image's
code is an uninterpreted function of it (log 6). -/
def Obligations.BootAndLifeCycle : Prop :=
  ∀ s : State,
    (s.ctl.ready = false →
      let n := s.ctl.fwlen.toNat
      let digest := sha384 (s.staged 0 16 ++ s.staged 64 (n - 160))
      let checks : List (BitVec 8 × Bool) :=
        [(6, s.ctl.lcs != 3), (1, decide (256 ≤ n) && decide (n ≤ 2 ^ 26) && s.staged 0 8 == [0x4E, 0x47, 0x46, 0x4B, 1, 0, 0, 0]),
         (2, digest == s.staged 16 48),
         (3, ecdsaVerify digest s.key (s.staged (n - 96) 96) && beNat (sha384 s.key) == s.keyDigest.toNat),
         (4, decide (s.rollbackMin.toNat ≤ bytesToNat (s.staged 8 4))), (5, decide (s.ctl.devnoset.toNat < 3072))]
      (∀ c, (checks.find? fun c => !c.2) = some c →
        exec .bootgo s = .next { s with ctl := { s.ctl with booterr := c.1, busy := false } })
      ∧ ((checks.find? fun c => !c.2) = none →
        ∃ t : State, exec .bootgo s = .next t ∧ t.ctl = { s.ctl with ready := true, busy := false, booterr := 0 }
          ∧ t.devno = s.ctl.devnoset ∧ t.fwImage = s.staged 0 n ∧ t.mem = s.mem
          ∧ ∀ k < 1536, ∃ st : Strand, t.strand? ⟨k, .m, 0⟩ = some st ∧ st.sup = true ∧ st.run = .ready
            ∧ st.regs.pc = (Config.imageEntry (s.staged 0 n)).setWidth 64 * 4))
    ∧ ∀ v : BitVec 3,
      if (s.ctl.lcs, v) ∈ [((0, 1) : BitVec 2 × BitVec 3), (1, 2), (1, 3), (2, 3)]
      then ∃ t : State, exec (.lcreq v) s = .next t ∧ wiped t ∧ t.ctl.lcs.toNat = v.toNat
      else exec (.lcreq v) s = .next s

/-- R348, R351, R352, R357, Table 17.2: a report is built at once and is complete, with its valid bit and its signature over the first 256
bytes, at REPORT_COMPLETE; FWLEN, DEVNOSET, CKTGT and NONCE hold what is written, and the host reads each register as it stands, those that are
written alone as 0; of a peer's offer the options of Table 17.6 that the device does not support are refused. The report holds the identity key's
public key, and its signature is one by that key's scalar; how the scalar is taken from the bytes that HKDF-SHA-384 derives, and the signature's random
numbers, are uninterpreted functions (log 12). -/
def Obligations.HostRegisters : Prop :=
  (∀ s : State, s.ctl.nonce.length = 48 → ∃ t u : State, exec .attgo s = .next t ∧ exec .reportComplete t = .next u
    ∧ t.ctl.report.length = 512 ∧ (t.ctl.report.getD 7 0).getLsbD 7 = false
    ∧ u.ctl.report.length = 512 ∧ (u.ctl.report.getD 7 0).getLsbD 7 = true ∧ u.ctl.building = false
    ∧ (u.ctl.report.drop 0x40).take 48 = s.ctl.nonce
    ∧ (let key := ecScalar (Config.scalarOf (hkdf384 (fitTo 48 s.secret) s.identityInfo))
       (u.ctl.report.drop 0x70).take 97 = ecPublic key
       ∧ (u.ctl.report.drop 0x100).take 96 = ecdsaSign key (sha384 (u.ctl.report.take 256)) 8 s.freeCount)
    ∧ u.mem = s.mem)
  ∧ (∀ (s : State) (v : Word),
    exec (.deviceRegisterWrite 0x18 v) s = .next { s with ctl := { s.ctl with fwlen := v.setWidth 26 } }
    ∧ exec (.deviceRegisterWrite 0x20 v) s = .next { s with ctl := { s.ctl with devnoset := v.setWidth 12 } }
    ∧ exec (.deviceRegisterWrite 0x48 v) s = .next { s with ctl := { s.ctl with cktgt := v.setWidth 16 } }
    ∧ (s.ctl.nonce.length = 48 → ∀ k < 6, ∃ l : List Byte, exec (.deviceRegisterWrite (0x100 + 8 * k) v) s = .next { s with ctl := { s.ctl with nonce := l } }
      ∧ l.length = 48 ∧ ∀ j < 48, l.getD j 0 = if 8 * k ≤ j ∧ j < 8 * k + 8 then BitVec.ofNat 8 (v.toNat / 2 ^ (8 * (j - 8 * k)))
        else s.ctl.nonce.getD j 0))
  ∧ (∀ (s : State) (r : List Choice) (off : Nat), s.agenda = .hostRegRead off :: r →
    let reads := fun (w : Word) => step s = .next { s with agenda := r, hostSaw := w }
    let c := s.ctl
    let bit := fun (b : Bool) (k : Nat) => if b then 2 ^ k else 0
    (off = 0 → reads (BitVec.ofNat 64 (bit c.fatal 63 + bit c.ready 62 + bit c.busy 61 + c.booterr.toNat)))
    ∧ (∀ q ∈ [(0x08, c.lcs.toNat), (0x10, 0), (0x18, c.fwlen.toNat), (0x20, c.devnoset.toNat), (0x28, 0), (0x40, 0), (0x48, c.cktgt.toNat),
        (0x50, c.ckstat.toNat), (0x130, 0)], off = q.1 → reads (BitVec.ofNat 64 q.2))
    ∧ (∀ k < 6, off = 0x100 + 8 * k → reads (BitVec.ofNat 64 (bytesToNat ((c.nonce.drop (8 * k)).take 8))))
    ∧ ∀ k < 64, off = 0x400 + 8 * k → reads (BitVec.ofNat 64 (bytesToNat ((c.report.drop (8 * k)).take 8))))
  ∧ ∀ (s : State) (port : Nat) (offer : List UetOption), port < 8 →
    ∃ t : State, exec (.uetConnect port offer) s = .next t ∧ t.mem = s.mem
      ∧ assocGet t.uet port = some (offer.filter fun o => decide (o ∉ [.hpc, .uud, .creditFlow, .unencrypted]))

/-- R358: CKCTL with GO, or with RESTORE, sets BUSY and takes every user strand out of the rotation; a checkpoint that completes holds memory
and every full/empty bit as they stand, in the tier and for the target that CKCTL and CKTGT name, and a restore brings back what stands
there; CKSTAT then has DONE, FAIL and the time, and BUSY is clear. One that fails leaves no copy there. A peer's store that arrives meanwhile
waits and is performed after it. That a user strand that is able leaves at once, what a failed checkpoint leaves, and that a restore which
finds no copy fails are the model's reading (logs 16, 36, 63). -/
def Obligations.Checkpoints : Prop :=
  (∀ (s : State) (tier : BitVec 1), s.ctl.ready = true → s.ctl.ckpt = none →
    (∃ t : State, exec (.ckctlGo tier) s = .next t ∧ t.ctl = { s.ctl with busy := true, ckpt := some (false, tier = 1) } ∧ t.mem = s.mem)
    ∧ ∃ t : State, exec (.ckctlRestore tier) s = .next t ∧ t.ctl = { s.ctl with busy := true, ckpt := some (true, tier = 1) } ∧ t.mem = s.mem)
  ∧ (∀ (s : State) (n : Nat), s.ctl.ckpt.isSome = true → (s.turnSlot n).core ≠ .m ∨ (s.turnSlot n).slot ≠ 0 →
    s.turn n = .next (s.rotate n false))
  ∧ (∀ (s : State) (r : List Choice) (a : Nat) (bs : List Byte), s.agenda = .peerWrite a bs :: r → s.ctl.ckpt.isSome = true →
    step s = .next { s with agenda := r, heldWrites := s.heldWrites ++ [⟨a, .store bs⟩] })
  ∧ ∀ (s : State) (back tier : Bool) (ms : BitVec 32), s.ctl.ckpt = some (back, tier) →
    let place : Nat × Nat := (if tier = true then 1 else 0, s.ctl.cktgt.toNat)
    let copyIn := fun (t : State) => (t.checkpoints.find? fun q => q.1 = place).map fun q => q.2
    let ends := fun (t : State) (fails : Bool) => t.ctl.ckpt = none ∧ t.ctl.busy = false
      ∧ t.ctl.ckstat = BitVec.ofNat 64 (2 ^ 63 + (if fails then 2 ^ 62 else 0) + ms.toNat)
    (back = false → s.quiet = true → ∃ (t : State) (k : Saved), exec (.checkpointComplete false ms) s = .next t ∧ copyIn t = some k
      ∧ k.mem = s.mem ∧ k.full = s.full ∧ k.spills = s.spills ∧ k.cells = s.cells ∧ ends t false
      ∧ (s.heldWrites = [] → t.mem = s.mem ∧ t.full = s.full)
      ∧ ∀ a bs, s.heldWrites = [⟨a, .store bs⟩] → s.region a = .hbm → s.redWords = [] → t.heldWrites = [] ∧ t.mem = memSetBytes s.mem a bs)
    ∧ (∀ k, back = true → copyIn s = some k → ∃ t : State, exec (.checkpointComplete false ms) s = .next t ∧ ends t false
      ∧ (s.heldWrites = [] → t.mem = k.mem ∧ t.full = k.full ∧ t.spills = k.spills ∧ t.cells = k.cells))
    ∧ (back = true → copyIn s = none → ∃ t : State, exec (.checkpointComplete false ms) s = .next t ∧ ends t true)
    ∧ ∃ t : State, exec (.checkpointComplete true ms) s = .next t ∧ copyIn t = none ∧ ends t true ∧ (s.heldWrites = [] → t.mem = s.mem)

/-! ## Global accesses: performance -/

/-- An access of n bytes on this device that may be performed now, outside a transaction, whose home has room for it; no word there holds an
error, and no strand in a context block awaits its result (R91, R188 to R198, R221). -/
structure Performable (s : State) (a : Access) (n : Nat) : Prop where
  flies : s.flight.find? (fun e => e.id = a.id) = some a
  ready : s.readyNow a = true
  room : s.hasRoom a = true
  plain : a.inTx = false ∧ a.overlay = [] ∧ a.ovFull = none
  here : a.loc.dev = thisDev
  whole : ∀ w ∈ wordsOf a.loc.addr n, w ∉ s.badWords ∧ w ∉ s.weakWords
  spilled : ∀ p ∈ s.spills, ∀ l ∈ p.strand.longs, l.id ≠ a.id

/-- No strand awaits a result of the access. -/
def unmarked (s : State) (a : Access) : Prop := ∀ st, s.strand? a.who = some st → ∀ l ∈ st.longs, l.id ≠ a.id

/-- Memory after bytes are written at an address: those bytes, their words full, and every other byte as before (R60). -/
def written (s t : State) (A : Nat) (bs : List Byte) : Prop :=
  t.mem = memSetBytes s.mem A bs ∧ (∀ w, w ∈ t.full ↔ w ∈ s.full ∨ (A / 8 ≤ w ∧ w < (A + bs.length + 7) / 8))

/-- The byte at A lies in a tile's scratchpad. -/
def inPad (s : State) (A : Nat) : Prop := ∃ t k, s.region A = .pad t k

/-- The access has its value and waits for its return. -/
def answered (s t : State) (a : Access) (v : V128) : Prop :=
  t.flight = s.flight.map fun e => if e.id = a.id then { a with done := true, value := v } else e

/-- The n bytes that an access finds: memory's, or those of its core's latest earlier store that still waits (R190). -/
def found (s : State) (a : Access) (n : Nat) : Nat :=
  bytesToNat ((List.range n).map fun i =>
    (forwarded (s.flight.takeWhile fun e => e.id != a.id) a.who ⟨a.loc.dev, a.loc.addr + i⟩).getD (memGet s.mem (a.loc.addr + i)))

/-- R45, R60, R62, R90: a store that leaves its core's buffer, or comes through a tile's window, writes its bytes at its place and is gone;
nothing else of memory changes. -/
def Obligations.StoresPerform : Prop :=
  ∀ (s : State) (a : Access) (bs : List Byte), Performable s a bs.length → sound s a.loc.addr bs.length → unmarked s a → a.op = .store bs → a.dest = none →
    let done := fun (o : Host.Outcome State Fault Refusal) =>
      ∃ t : State, o = .next t ∧ written s t a.loc.addr bs ∧ t.flight = s.flight.filter fun e => e.id != a.id
    (s.region a.loc.addr = .hbm → done (exec (.storeBufferDrain a.id) s))
    ∧ ∀ t off, s.region a.loc.addr = .pad t off → (s.tile t).testing = false → done (exec (.tileWindowAccess a.id .ok) s)

/-- R7, R108, R188, R190, R211: a load finds at its home the bytes of memory, or those of its core's latest earlier store that still waits, and
extends them as its size code says; a load of a reduction word folds its slots first; when the result returns it is written to its destination
alone, and the mark on it lifts. A load whose destination is z is finished as it is performed. -/
def Obligations.LoadsPerform : Prop :=
  (∀ (s : State) (a : Access) (k : Nat) (signed : Bool) (d : Dest), k < 4 → a.op = .load (2 ^ k) signed → a.dest = some d → d.spec ≠ 41 →
    Performable s a (2 ^ k) → sound s a.loc.addr (2 ^ k) → s.region a.loc.addr = .hbm →
    let n := 2 ^ k
    let v := found s a n
    let r : Word := if signed = true ∧ 2 ^ (8 * n - 1) ≤ v then BitVec.ofInt 64 ((v : Int) - 2 ^ (8 * n)) else BitVec.ofNat 64 v
    ∃ t : State, exec (.globalAccessPerformed a.id .ok 0) s = .next t ∧ answered s t a (r.setWidth 1024) ∧ unwritten s t)
  ∧ (∀ (s : State) (a : Access) (k : Nat) (signed : Bool) (d : Dest), k < 4 → a.op = .load (2 ^ k) signed → a.dest = some d → d.spec = 41 →
    Performable s a (2 ^ k) → sound s a.loc.addr (2 ^ k) → s.region a.loc.addr = .hbm → unmarked s a →
    ∃ t : State, exec (.globalAccessPerformed a.id .ok 0) s = .next t ∧ unwritten s t ∧ t.flight = s.flight.filter fun e => e.id != a.id)
  ∧ (∀ (s : State) (a : Access) (d : Dest) (r : RedWord), a.op = .load 8 false → a.dest = some d → d.spec ≠ 41 → Performable s a 8 →
    s.region a.loc.addr = .hbm → s.flight = [a] → s.lags = [] → s.redWords = [r] → r.addr = a.loc.addr → r.slots ≠ [] →
    ∀ q ∈ [(0, fun (x y : Word) => BitVec.ofNat 64 (Fmt.f64.add .rne x.toNat y.toNat).1), (2, fun (x y : Word) => x + y)], r.ty = q.1 →
      let v := r.slots.foldl (fun v p => q.2 v p.2) (BitVec.ofNat 64 (bytesToNat (memBytes s.mem a.loc.addr 8)))
      ∃ t : State, exec (.globalAccessPerformed a.id .ok 0) s = .next t ∧ answered s t a (v.setWidth 1024)
        ∧ written s t a.loc.addr (natToBytes 8 v.toNat) ∧ t.redWords = [{ r with slots := [] }])
  ∧ ∀ (s : State) (a : Access) (d : Dest) (st : Strand), s.flight.find? (fun e => e.id = a.id) = some a → a.done = true → a.dest = some d →
    a.op ≠ .wrongBit → (∀ u, a.op ≠ .loadV u) → s.strand? a.who = some st → (∃ l ∈ st.longs, l.id = a.id) →
    (∀ p ∈ s.spills, ∀ l ∈ p.strand.longs, l.id ≠ a.id) →
    ∃ t : State, exec (.longResultReturn a.id) s = .next t ∧ unwritten s t
      ∧ t.strand? a.who = some { st.putLong d a.value with longs := st.longs.filter fun l => l.id != a.id }
      ∧ t.flight = s.flight.filter fun e => e.id != a.id

/-- R207, R208, R209, R211 to R213, Table 11.1: at its home an atom replaces the old value by its operation's and answers the old one; cas writes only
when the old value is its comparand; atomn answers nothing, and one of a reduction word's own operation adds to its tile's slot and leaves the word;
ldx reserves its word, and stx writes and answers 0 when the reservation stands, else answers 1; redp.reg registers its word, or answers 0x42 for one
that is registered and 0x41 at a home that holds 64; redp.rel releases it. -/
def Obligations.AtomicsPerform : Prop :=
  (∀ (s : State) (a : Access) (b : Word) (r : RedWord), Performable s a 8 → s.region a.loc.addr = .hbm → a.dest = none → unmarked s a →
    s.redWords = [r] → r.addr = a.loc.addr →
    ∀ q ∈ [(0, AtomOp.fadd64, fun (x y : Word) => BitVec.ofNat 64 (Fmt.f64.add .rne x.toNat y.toNat).1),
        (1, .fadd32, fun x y => BitVec.ofNat 64 (Fmt.f32.add .rne (x.toNat % 2 ^ 32) (y.toNat % 2 ^ 32)).1), (2, .add, fun x y => x + y)],
      r.ty = q.1 → a.op = .atomn q.2.1 b →
      ∃ (t : State) (r' : RedWord), exec (.homeAtomic a.id .ok 0) s = .next t ∧ unwritten s t ∧ t.redWords = [r'] ∧ r'.addr = r.addr ∧ r'.ty = r.ty
        ∧ t.flight = (s.flight.filter fun e => e.id != a.id)
        ∧ assocGet r'.slots a.who.tile = some (q.2.2 ((assocGet r.slots a.who.tile).getD 0) b))
  ∧ ∀ (s : State) (a : Access), Performable s a 8 → sound s a.loc.addr 8 → s.region a.loc.addr = .hbm →
    let run := exec (.homeAtomic a.id .ok 0) s
    let old : Word := BitVec.ofNat 64 (bytesToNat (memBytes s.mem a.loc.addr 8))
    let old32 := bytesToNat (memBytes s.mem a.loc.addr 4)
    let f32 := fun (b : Word) => natToBytes 4 (Fmt.f32.add .rne old32 (b.toNat % 2 ^ 32)).1
    let f := fun (b : Word) => ([(.add, old + b), (.and, old &&& b), (.or, old ||| b), (.xor, old ^^^ b),
      (.min, if old.toInt ≤ b.toInt then old else b), (.max, if b.toInt ≤ old.toInt then old else b),
      (.minn, if old.toNat ≤ b.toNat then old else b), (.maxn, if b.toNat ≤ old.toNat then old else b),
      (.fadd64, BitVec.ofNat 64 (Fmt.f64.add .rne old.toNat b.toNat).1)] : List (AtomOp × Word))
    let gone := fun (t : State) => t.flight = s.flight.filter fun e => e.id != a.id
    let s1 : State := { s with flight := s.flight.map fun e => e.unreserve a.who a.id }
    (∀ (b cmp : Word) (d : Dest), a.dest = some d → d.spec ≠ 41 →
      (∀ q ∈ (.swap, b) :: f b, a.op = .atom q.1 b cmp →
        ∃ t : State, run = .next t ∧ answered s t a (old.setWidth 1024) ∧ written s t a.loc.addr (natToBytes 8 q.2.toNat))
      ∧ (a.op = .atom .fadd32 b cmp →
        ∃ t : State, run = .next t ∧ answered s t a (BitVec.ofNat 1024 old32) ∧ written s t a.loc.addr (f32 b))
      ∧ (a.op = .atom .cas b cmp → ∃ t : State, run = .next t ∧ answered s t a (old.setWidth 1024)
        ∧ if old = cmp then written s t a.loc.addr (natToBytes 8 b.toNat) else unwritten s t)
      ∧ (a.op = .ldx → s.watches.length < 4096 → ∃ t : State, run = .next t ∧ answered s t a (BitVec.ofNat 1024 (found s a 8)) ∧ unwritten s t
        ∧ ∀ st, s.strand? a.who = some st → t.strand? a.who = some { st with rsv := some a.loc })
      ∧ (∀ w, a.op = .stx b → s.present a = true →
        (s.watches.find? fun w => w.dev = thisDev && w.kind = 1 && w.tile = a.who.tile && w.member = a.who.member && decide (w.ctx < a.id)) = some w →
        if w.line = a.loc.line ∧ w.word = a.loc.addr % 64 / 8
        then ∃ t : State, run = .next t ∧ answered s1 t a 0 ∧ written s t a.loc.addr (natToBytes 8 b.toNat)
        else ∃ t : State, run = .next t ∧ answered s1 t a 1 ∧ unwritten s t)
      ∧ (a.op = .stx b → (∀ w ∈ s.watches, w.kind ≠ 1) ∨ s.present a = false → ∃ t : State, run = .next t ∧ answered s1 t a 1 ∧ unwritten s t))
    ∧ (∀ b : Word, a.dest = none → unmarked s a → (∀ r ∈ s.redWords, r.addr ≠ a.loc.addr) →
      (∀ q ∈ f b, a.op = .atomn q.1 b → ∃ t : State, run = .next t ∧ gone t ∧ written s t a.loc.addr (natToBytes 8 q.2.toNat))
      ∧ (a.op = .atomn .fadd32 b → ∃ t : State, run = .next t ∧ gone t ∧ written s t a.loc.addr (f32 b)))
    ∧ (a.op = .joinDec → ∃ t : State, run = .next t ∧ answered s t a (old.setWidth 1024) ∧ written s t a.loc.addr (natToBytes 8 (old - 1).toNat))
    ∧ (∀ ty : Nat, a.op = .redpReg ty →
      ∃ (t : State) (c : V128), run = .next t ∧ answered s t a c ∧ unwritten s t
        ∧ (if ∃ r ∈ s.redWords, r.addr = a.loc.addr then c = 0x42 ∧ t.redWords = s.redWords
          else if 64 ≤ (s.redWords.filter fun r => s.homeKey ⟨thisDev, r.addr⟩ = s.homeKey a.loc).length
          then c = 0x41 ∧ t.redWords = s.redWords else c = 0 ∧ t.redWords = s.redWords ++ [⟨a.loc.addr, ty, [], a.lid⟩]))
    ∧ (a.op = .redpRel → ∃ t : State, run = .next t ∧ answered s t a a.value ∧ unwritten s t
      ∧ t.redWords = s.redWords.filter fun r => r.addr != a.loc.addr)

/-- R60, R214: at its home an ldc of a full word takes its value and leaves it empty, and a stp of an empty word writes it and leaves it full;
an ldc of an empty word and a stp of a full one wait there, registered, and change nothing; so does one behind another of its kind that waits
on the word, for they are served in the order in which they came. One of a deterministic lane waits for its lane's place in the round, where
the retry that its waiting is tests the word again (R214, R300; the model's reading, log 20). -/
def Obligations.FullEmptyWords : Prop :=
  ∀ (s : State) (a : Access), Performable s a 8 → sound s a.loc.addr 8 → s.region a.loc.addr = .hbm → a.loc.addr % 8 = 0 →
    let run := exec (.fullEmptyRetest a.id .ok 0) s
    let w := a.loc.addr / 8
    let there := fun (k : Nat) (e : Watch) => e.kind = k ∧ e.line = a.loc.line ∧ e.word = w % 8
    let first := fun (k : Nat) => ∀ e ∈ s.watches, there k e → e.dev = thisDev ∧ e.ctx = a.id
    let behind := fun (k : Nat) => ∃ e r, s.watches = e :: r ∧ there k e ∧ ¬ (e.dev = thisDev ∧ e.ctx = a.id)
    let waits := fun (t : State) => unwritten s t ∧ t.waitsAtHome a = true ∧ t.flight = s.flight
    let owner := fun (st : Strand) => (s.strand? a.who = some st ∨ ∃ p ∈ s.spills, p.strand = st) ∧ st.uid = a.uid
    let placed := ∀ st, owner st → st.chunk = none ∨ ∀ l ∈ s.launches, l.lid = st.lid → l.lanePos = st.lane
    let early := ∃ st, owner st ∧ st.chunk ≠ none ∧ ∃ l, s.launch? st.lid = some l ∧ l.lanePos ≠ st.lane
    (∀ d : Dest, a.op = .ldc → a.dest = some d → d.spec ≠ 41 →
      (w ∈ s.full → first 2 → placed → ∃ t : State, run = .next t ∧ answered s t a (BitVec.ofNat 1024 (found s a 8)) ∧ t.mem = s.mem
        ∧ ∀ k, k ∈ t.full ↔ k ∈ s.full ∧ k ≠ w)
      ∧ (w ∉ s.full ∨ behind 2 ∨ early → ∃ t : State, run = .next t ∧ waits t))
    ∧ (∀ v : Word, a.op = .stp v → a.dest = none → unmarked s a →
      (w ∈ s.full ∨ behind 3 ∨ early → ∃ t : State, run = .next t ∧ waits t)
      ∧ (w ∉ s.full → first 3 → placed →
        ∃ t : State, run = .next t ∧ written s t a.loc.addr (natToBytes 8 v.toNat) ∧ t.flight = s.flight.filter fun e => e.id != a.id))

/-! ## Transactions, semaphores and lock rings -/

/-- The standing of a strand that goes on at another place: parked if a long result is still to come and the word's M bit is 1, or it was parked
(R16, R109). -/
def standing (m : Bool) (st : Strand) : Run := if (m = true ∨ st.run = .parked) ∧ st.longs ≠ [] then .parked else .ready

/-- The strand that an abort of its whole transaction leaves: it stands at the target of its outermost level, with every register but pc,
SKIPN, TXSTAT and TXADDR as they were (R219). -/
def aborted (m : Bool) (st : Strand) (l : TxLevel) (reason : BitVec 8) (addr : Word) : Strand :=
  { st with
    run := standing m st
    tx := none
    abortReq := none
    redo := none
    regs := { st.regs with pc := l.tgt, skipn := 0, txReason := reason, txaddr := addr } }

/-- The outcome of an abort of the whole transaction by a word with the M bit m, or between words: its read set and write set are gone, and
nothing in memory has changed. -/
def aborts (s : State) (m : Bool) (st : Strand) (l : TxLevel) (reason : BitVec 8) (addr : Word) (o : Host.Outcome State Fault Refusal) : Prop :=
  ∃ t : State, o = .next t ∧ t.strand? s.cur = some (aborted m st l reason addr) ∧ unwritten s t
    ∧ ∀ e ∈ (t.tile s.cur.tile).weir, e.member ≠ s.cur.member

/-- The outcome of an instruction that completes, leaves memory as it was, and whose strand has become st. -/
def goesOn (s : State) (m : Bool) (st : Strand) (o : Host.Outcome State Fault Refusal) : Prop :=
  ∃ t : State, o = .next t ∧ t.strand? s.cur = some (st.after m (st.regs.pc + 4)) ∧ unwritten s t

/-- R16, R217, R219, R220, Tables 11.3, 11.7: txb opens a level and oth names an alternative, each with the next tag; txe closes an inner level; txa
aborts the whole transaction at depth 1 and its level alone deeper, with reason 0x80 + A[6:0]; retry goes to the alternative of the innermost
level that has one, closing those within it, else sleeps; txst reads depth and reason. A strand parks at the place where it goes on when the word's
M bit asks for it (R16). A fifth level aborts with reason 0x04, a 257th tag with 0x03. Outside
a transaction oth, txe, txa and retry raise code 0x40. The address field of the fault 0x40 is the model's reading (log 40). -/
def Obligations.TransactionWords : Prop :=
  ∀ (s : State) (st : Strand) (m : Bool) (d a : Spec) (disp : BitVec 18), st.chunk = none → st.run = .ready →
    let target := st.regs.pc + BitVec.ofInt 64 (4 * disp.toInt)
    let reason : BitVec 8 := BitVec.ofNat 8 (0x80 + (st.rs a).toNat % 0x80)
    let fault := Host.Outcome.next (s.faultTurn s.cur 4 (BitVec.ofNat 64 (0x40 * 2 ^ 56)) st.regs.pc)
    (s.Clear st {} →
      (st.tx = none → goesOn s m { st with rsv := none, tx := some ⟨st.regs.pc, [⟨target, none, 0, 0⟩], 1, [], none⟩ } (exec (.txb m disp) s)
        ∧ exec (.oth m disp) s = fault ∧ exec (.txe m) s = fault ∧ exec (.retry m) s = fault)
      ∧ ∀ (x : Tx) (l : TxLevel) (r : List TxLevel), st.tx = some x → x.levels = l :: r →
        (r.length < 3 → x.nextTag < 256 →
          goesOn s m { st with tx := some { x with levels := ⟨target, none, x.nextTag, x.nextTag⟩ :: l :: r, nextTag := x.nextTag + 1 } }
            (exec (.txb m disp) s))
        ∧ (∀ o, x.levels.getLast? = some o → 3 ≤ r.length → aborts s m st o 4 st.regs.pc (exec (.txb m disp) s))
        ∧ (x.nextTag < 256 →
          goesOn s m { st with tx := some { x with levels := { l with next := some target, alt := x.nextTag } :: r, nextTag := x.nextTag + 1 } }
            (exec (.oth m disp) s))
        ∧ (r ≠ [] → goesOn s m { st with tx := some { x with levels := r } } (exec (.txe m) s))
        ∧ (∀ o, x.levels.getLast? = some o → 256 ≤ x.nextTag →
          (r.length < 3 → aborts s m st o 3 0 (exec (.txb m disp) s)) ∧ aborts s m st o 3 0 (exec (.oth m disp) s))
        ∧ (∀ k e q p, x.levels = k ++ e :: q → (∀ y ∈ k, y.next = none) → e.next = some p →
          ∃ t : State, exec (.retry m) s = .next t ∧ unwritten s t ∧ t.strand? s.cur = some { st with
            run := standing m st
            tx := some { x with levels := { e with next := none } :: q, wset := x.wset.filter fun w => decide (w.tag < e.alt) }
            regs := { st.regs with pc := p, skipn := 0 } })
        ∧ ((∀ k ∈ x.levels, k.next = none) → (∃ e ∈ (s.tile s.cur.tile).weir, e.member = s.cur.member) →
          (∀ e ∈ (s.tile s.cur.tile).weir, e.member = s.cur.member → e.hit = false) →
          ∃ t : State, exec (.retry m) s = .next t ∧ unwritten s t
            ∧ t.strand? s.cur = some { st with run := .asleep, mark := m, tx := some { x with levels := [], wset := [], tg := none } }))
    ∧ (s.Clear st { srcs := [(0, false, a)] } →
      (st.tx = none → exec (.txa m a) s = fault)
      ∧ ∀ (x : Tx) (l : TxLevel) (r : List TxLevel), st.tx = some x → x.levels = l :: r →
        (r = [] → aborts s m st l reason st.regs.pc (exec (.txa m a) s))
        ∧ (r ≠ [] → exec (.txa m a) s = .next (s.setStrand s.cur { st with
          run := standing m st
          tx := some { x with levels := r, wset := x.wset.filter fun e => decide (e.tag < l.chk) }
          regs := { st.regs with pc := l.tgt, skipn := 0, txReason := reason, txaddr := st.regs.pc } })))
    ∧ (s.Clear st (useD d) →
      exec (.txst m d) s = .next (s.completes m (st.putS d (BitVec.ofNat 64 (256 * st.depth) ||| st.regs.txReason.setWidth 64))))

/-- R215, R216, R218, R283: in a transaction a load adds its line to the read set and enters flight, and a store only enters the write set; one
that finds either full aborts with reason 0x02 or 0x03, and a load of RESV with 0x07. The outermost txe commits when the read set is still as
it was read and no earlier access waits: every store of the write set is written, in order, in that one step; when a line of the read set has
been written, the transaction aborts with reason 0x01 and nothing is written. That TXADDR is the line's domain address with reasons 0x01, 0x02 and
0x03 is the model's reading (log 39). -/
def Obligations.TransactionCommit : Prop :=
  (∀ (s : State) (st : Strand) (m : Bool) (x : Tx) (l : TxLevel) (d a : Spec) (off : BitVec 9) (z : BitVec 3) (p : Loc) (tr : Leaf),
    st.run = .ready → st.chunk = none → st.tx = some x → x.levels.getLast? = some l →
    let n : Nat := 2 ^ (z.toNat / 2)
    let ea := st.rs a + BitVec.ofInt 64 (off.toInt * n)
    let line : Loc := ⟨p.dev, p.addr / 64 * 64⟩
    let mine := (s.tile s.cur.tile).weir.filter fun e => e.member = s.cur.member
    let place := BitVec.ofNat 64 (s.lineAddr false line)
    ea.toNat % n = 0 → p.addr % n = 0 →
    (s.Clear st (useStore false d a) → s.translate s.cur.tile st.regs.ptroot st.sup ea .write = .at_ p tr →
      let held := addEntry x.wset (x.nextTag - 1) line [.store (p.addr % 64) (natToBytes n (st.rs d).toNat) (some tr)]
      (∀ w, held = some w → ∃ t : State, exec (.stg m d a off z) s = .next t ∧ unwritten s t ∧ t.flight = s.flight
        ∧ t.strand? s.cur = some ({ st with tx := some { x with wset := w } }.after m (st.regs.pc + 4)))
      ∧ (held = none → aborts s m st l 3 place (exec (.stg m d a off z) s)))
    ∧ (s.Clear st (useLoad false d a true) → s.translate s.cur.tile st.regs.ptroot st.sup ea .read = .at_ p tr →
      (s.resvAt p = none → (∀ e ∈ mine, e.line ≠ line) →
        (mine.length < 64 → ∃ (t : State) (y : Access), exec (.ldg m d a off z) s = .next t ∧ unwritten s t ∧ t.flight = s.flight ++ [y]
          ∧ y.op = .load n (!z.getLsbD 0) ∧ y.loc = p ∧ y.dest = some ⟨false, d⟩ ∧ y.inTx = true ∧ y.overlay = st.ownBytes p n
          ∧ (t.tile s.cur.tile).weir = (s.tile s.cur.tile).weir ++ [⟨false, s.cur.member, false, false, false, line⟩])
        ∧ (64 ≤ mine.length → aborts s m st l 2 place (exec (.ldg m d a off z) s)))
      ∧ ∀ k, s.resvAt p = some k → aborts s m st l 7 st.regs.pc (exec (.ldg m d a off z) s)))
  ∧ ∀ (s : State) (st : Strand) (m : Bool) (x : Tx) (l : TxLevel), s.Clear st {} → st.run = .ready → st.chunk = none → st.abortReq = none →
    st.tx = some x → x.levels = [l] →
    let mine := (s.tile s.cur.tile).weir.filter fun e => e.member = s.cur.member
    ((∀ e ∈ mine, e.hit = false) → s.commitWaits s.cur = false → s.redWords = [] →
      (∀ e ∈ x.wset, e.line.dev = thisDev ∧ ∀ o ∈ e.ops, ∃ off bs leaf, o = .store off bs leaf ∧ s.region (e.line.addr + off) = .hbm) →
      ∃ t : State, exec (.txe m) s = .next t
        ∧ t.mem = (x.wset.flatMap fun e => e.ops.filterMap fun o => match o with
          | .store off bs _ => some (e.line.addr + off, bs)
          | _ => none).foldl (fun k p => memSetBytes k p.1 p.2) s.mem
        ∧ t.strand? s.cur = some ({ st with tx := none }.after m (st.regs.pc + 4))
        ∧ ∀ e ∈ (t.tile s.cur.tile).weir, e.member ≠ s.cur.member)
    ∧ ∀ e, mine = [e] → e.hit = true → e.sleep = false →
      aborts s m st l 1 (BitVec.ofNat 64 (s.lineAddr e.sp e.line)) (exec (.txe m) s)

/-- R216, R219, R220, R221: a lost line, or an abort that was asked for, ends the transaction between instructions; a sleeper whose line has been
written wakes at its txb with reason 0x08 and the lowest such line in TXADDR, and may wake at any time with TXADDR 0; a fault inside a transaction, of
a user strand or of a supervisor, first aborts all of it with reason 0x05, and records its target as the address. Which line a wake or an abort
reports, by its domain address, is the model's reading (log 39). -/
def Obligations.TransactionEnds : Prop :=
  ∀ (s : State) (x : SlotId) (st : Strand) (tx : Tx), s.strand? x = some st → st.tx = some tx → st.wave = none → st.chunk = none →
    let mine := (s.tile x.tile).weir.filter fun e => e.member = x.member
    let woken := fun (a : Word) => { st with
      run := standing st.mark st
      tx := none
      regs := { st.regs with pc := tx.txpc, skipn := 0, txReason := 8, txaddr := a } }
    (∀ l, tx.levels.getLast? = some l →
      (∀ r, st.abortReq = some r → aborts { s with cur := x } false st l r.1 r.2 (exec (.txConflict x) s))
      ∧ (∀ e, st.abortReq = none → mine = [e] → e.hit = true → e.sleep = false →
        aborts { s with cur := x } false st l 1 (BitVec.ofNat 64 (s.lineAddr e.sp e.line)) (exec (.txConflict x) s))
      ∧ (∀ (code : Nat) (detail epc : Word), st.sup = true → st.ie = true → st.longs = [] → s.stpPending x = false →
        ∃ k : Strand, (s.takeFault x false code detail epc).strand? x = some k
          ∧ k.run = .ready ∧ k.tx = none ∧ k.sepc = l.tgt ∧ k.regs.pc = st.tvec + 64 ∧ k.ie = false ∧ k.regs.txReason = 5 ∧ k.regs.txaddr = st.regs.pc)
      ∧ ∀ (code : Nat) (detail epc : Word), st.sup = false → st.longs = [] → s.stpPending x = false →
        ∃ k : Strand, (s.takeFault x false code detail epc).strand? x = some k
          ∧ k.run = .out ∧ k.tx = none ∧ k.tepc = l.tgt ∧ k.regs.pc = l.tgt ∧ k.regs.txReason = 5 ∧ k.regs.txaddr = st.regs.pc
          ∧ k.regs.s = st.regs.s ∧ k.regs.o = st.regs.o ∧ k.regs.q = st.regs.q)
    ∧ (st.run = .asleep →
      (∃ t : State, exec (.wakeWithNoWrite x) s = .next t ∧ t.strand? x = some (woken 0) ∧ unwritten s t)
      ∧ ((∃ e ∈ mine, e.sleep = true ∧ e.hit = true) →
        ∃ (t : State) (e : Weir), exec (.txWake x) s = .next t ∧ e ∈ mine ∧ e.sleep = true ∧ e.hit = true
          ∧ t.strand? x = some (woken (BitVec.ofNat 64 (s.lineAddr e.sp e.line))) ∧ unwritten s t
          ∧ ∀ k ∈ mine, k.sleep = true → k.hit = true → s.lineAddr e.sp e.line ≤ s.lineAddr k.sp k.line))

/-- R92, R228: sempost adds A[31:0] to its semaphore, up to 2^32 - 1, once its strand's earlier accesses of the tile are performed; semtry
takes one from a semaphore that is not 0 and returns what it was, else returns 0. -/
def Obligations.Semaphores : Prop :=
  ∀ (s : State) (st : Strand) (m : Bool) (d a : Spec) (k : BitVec 5), st.tx = none → st.chunk = none → st.run = .ready → s.cur.tile < 1536 →
    let sems := (s.tile s.cur.tile).sem
    let c := (sems.getD k.toNat 0).toNat
    let sets := fun (n : Nat) (st' : Strand) (o : Host.Outcome State Fault Refusal) =>
      ∃ t : State, o = .next t ∧ (t.tile s.cur.tile).sem = sems.setIfInBounds k.toNat (BitVec.ofNat 32 n)
        ∧ t.strand? s.cur = some (st'.after m (st.regs.pc + 4)) ∧ unwritten s t
    (s.Clear st { srcs := [(0, false, a)] } → s.tileWaits s.cur = false →
      sets (Nat.min (c + (st.rs a).toNat % 2 ^ 32) (2 ^ 32 - 1)) st (exec (.sempost m k a) s))
    ∧ (s.Clear st { srcs := [(0, false, a)] } → s.tileWaits s.cur = true →
      exec (.sempost m k a) s = .next (s.setStrand s.cur { st with run := .held .again, mark := m }))
    ∧ (s.Clear st (useD d) → sets (c - 1) (st.putS d (BitVec.ofNat 64 c)) (exec (.semtry m d k) s))

/-- A ring whose sides complete when their arrivals equal their members and are not empty (R98). -/
def settle (r : Ring) : Ring :=
  let p := if r.parr ≠ 0 ∧ r.parr = r.pmem then { r with pgen := r.pgen + 1, parr := 0 } else r
  if p.carr ≠ 0 ∧ p.carr = p.cmem then { p with cgen := p.cgen + 1, carr := 0 } else p

/-- R93 to R99, Tables 5.3 to 5.6: lkcfg configures a ring without members from the descriptor at its address; lkadv by a member to which the
stage is open is an arrival, and the arrival that makes a side complete advances its generation; lkjoin joins the producers or the consumers,
or leaves; lkpos reads the member's place. Each code of Table 5.5 is raised where its condition holds. That a member is told by its slot and
its own number, so that a spilled one keeps its bit, is the model's way of R97; the address field of codes that come with no address is the
model's reading (log 40). -/
def Obligations.LockRings : Prop :=
  ∀ (s : State) (st : Strand) (m : Bool) (d a : Spec) (ring : BitVec 3), st.tx = none → st.chunk = none → st.run = .ready →
    let ea := st.rs a
    let fault := fun (code addr : Nat) => Host.Outcome.next (s.faultTurn s.cur 4 (BitVec.ofNat 64 (code * 2 ^ 56 + addr % 2 ^ 56)) st.regs.pc)
    let forCfg := s.Clear st { srcs := [(0, false, a)], access := true, aborts := true } ∧ ea.toNat % 8 = 0
    let forAdv := s.Clear st { aborts := true }
    let forJoin := s.Clear st { srcs := [(0, false, a)], aborts := true }
    let forPos := s.Clear st (useD d)
    (st.nlocks ≤ ring.toNat →
      (forCfg → exec (.lkcfg m ring a) s = fault 0x20 ea.toNat) ∧ (forAdv → exec (.lkadv m ring) s = fault 0x20 0)
      ∧ (forJoin → exec (.lkjoin m ring a) s = fault 0x20 0) ∧ (forPos → exec (.lkpos m d ring) s = fault 0x20 0))
    ∧ ∀ (k : Nat) (r : Ring), s.physRing s.cur st ring.toNat = some k → (s.tile s.cur.tile).rings[k]? = some r →
      let x := s.cur.member
      let me : BitVec 24 := 1 <<< x
      let here := r.owners.contains (x, st.uid)
      let prod := here && r.pmem &&& me != 0
      let cons := here && r.cmem &&& me != 0
      let arrived := here && (r.parr ||| r.carr) &&& me != 0
      let gap := (r.pgen - r.cgen).toNat
      let isOpen := r.cfg && !arrived && ((prod && decide (gap < r.dist)) || (cons && decide (0 < gap)))
      let becomes := fun (t : State) (r' : Ring) => (t.tile s.cur.tile).rings = (s.tile s.cur.tile).rings.setIfInBounds k r'
        ∧ t.strand? s.cur = some (st.after m (st.regs.pc + 4)) ∧ unwritten s t
      (forCfg →
        (r.pmem ≠ 0 ∨ r.cmem ≠ 0 → exec (.lkcfg m ring a) s = fault 0x26 ea.toNat)
        ∧ ∀ p, r.pmem = 0 → r.cmem = 0 → ea.toNat < 2 ^ 20 → s.padAddr s.cur st ea 8 = .ok p →
          sound s (s.padBase s.cur.tile + p) 8 →
          let w := BitVec.ofNat 64 (bytesToNat (s.readBytes (s.padBase s.cur.tile + p) 8))
          let new : Ring := ⟨true, w.setWidth 63, 0, 0, 0, 0, 0, 0, []⟩
          let good := w &&& 0xFFFFE0E0E0F00000 = 0 ∧ 2 ≤ new.nstg ∧ new.nstg ≤ 16 ∧ 1 ≤ new.dist ∧ new.dist ≤ new.nstg ∧ 8 ≤ new.slog2
            ∧ new.slog2 ≤ 18 ∧ new.base % 2 ^ new.slog2 = 0
          (¬ good → exec (.lkcfg m ring a) s = fault 0x27 ea.toNat)
          ∧ (good → st.regs.padlo.toNat ≤ new.base → new.base + new.nstg * 2 ^ new.slog2 ≤ st.regs.padlo.toNat + st.padLen →
            ∃ t : State, exec (.lkcfg m ring a) s = .next t ∧ becomes t new))
      ∧ (forAdv →
        (r.cfg = false → exec (.lkadv m ring) s = fault 0x21 0)
        ∧ (r.cfg = true → prod = false → cons = false → exec (.lkadv m ring) s = fault 0x22 0)
        ∧ (r.cfg = true → prod = true ∨ cons = true → isOpen = false → exec (.lkadv m ring) s = fault 0x23 0)
        ∧ (isOpen = true → ∃ t : State, exec (.lkadv m ring) s = .next t
          ∧ becomes t (settle (if prod then { r with parr := r.parr ||| me } else { r with carr := r.carr ||| me }))))
      ∧ (forJoin →
        (r.cfg = false → exec (.lkjoin m ring a) s = fault 0x21 0)
        ∧ (r.cfg = true → 2 < ea.toNat → exec (.lkjoin m ring a) s = fault 0x28 0)
        ∧ (r.cfg = true → ea.toNat < 2 → prod = true ∨ cons = true → exec (.lkjoin m ring a) s = fault 0x25 0)
        ∧ (r.cfg = true → prod = false → cons = false →
          (ea = 0 → ∃ t : State, exec (.lkjoin m ring a) s = .next t
            ∧ becomes t { r with pmem := r.pmem ||| me, owners := r.owners ++ [(x, st.uid)] })
          ∧ (ea = 1 → ∃ t : State, exec (.lkjoin m ring a) s = .next t
            ∧ becomes t { r with cmem := r.cmem ||| me, owners := r.owners ++ [(x, st.uid)] })
          ∧ (ea = 2 → ∃ t : State, exec (.lkjoin m ring a) s = .next t ∧ becomes t r))
        ∧ (r.cfg = true → ea = 2 → prod = true ∨ cons = true →
          let left := r.owners.filter fun o => o != (x, st.uid)
          ((∀ o ∈ left, o.1 ≠ x) → ∃ t : State, exec (.lkjoin m ring a) s = .next t ∧ becomes t (settle { r with
            pmem := r.pmem &&& ~~~ me
            parr := r.parr &&& ~~~ me
            cmem := r.cmem &&& ~~~ me
            carr := r.carr &&& ~~~ me
            owners := left }))
          ∧ ((∃ o ∈ left, o.1 = x) → ∃ t : State, exec (.lkjoin m ring a) s = .next t ∧ becomes t (settle { r with owners := left }))))
      ∧ (forPos → ∃ v : Word, exec (.lkpos m d ring) s = .next (s.completes m (st.putS d v))
        ∧ (r.cfg = false → v = 0)
        ∧ (r.cfg = true → v.toNat / 2 ^ 63 = 1 ∧ v.getLsbD 62 = (prod || cons) ∧ v.getLsbD 61 = cons ∧ v.getLsbD 60 = isOpen
          ∧ v.getLsbD 59 = arrived ∧ v.toNat / 2 ^ 56 % 8 = k % 8
          ∧ (let idx := (if cons then r.cgen else r.pgen).toNat % Nat.max 1 r.nstg
             v.toNat / 2 ^ 52 % 16 = idx % 16 ∧ v.toNat / 2 ^ 32 % 2 ^ 20 = (r.base + idx * 2 ^ r.slog2) % 2 ^ 20)
          ∧ v.toNat % 2 ^ 32 = (if cons then r.cgen else r.pgen).toNat))

/-! ## The block-transfer engine -/

/-- R66, R68, R69, R73, R80, Tables 4.1 to 4.3: cpset and cpseti write one shadow field, without its reserved bits, and cpget reads one;
cplaunch queues the shadow set under the next transfer number and returns it, forfeits its turn while eight wait, and faults when a check
of R69 fails (ESIZE code 0x01, NDIM code 0x02); cpstat reads the channel's status word; cpstop cancels the strand's own transfers. -/
def Obligations.ChannelWords : Prop :=
  ∀ (s : State) (st : Strand) (m : Bool) (d a : Spec) (ch : BitVec 2) (field : BitVec 6) (imm : BitVec 12), field.toNat < 42 →
    let c := s.chan s.cur.tile ch.toNat
    let f : Fields := st.regs.shadow.getD ch.toNat (Vector.replicate 42 0)
    let sets := fun (v : Word) (o : Host.Outcome State Fault Refusal) => ∃ k : Strand, o = .next (s.completes m k)
      ∧ { k with regs := { k.regs with shadow := st.regs.shadow } } = st
      ∧ ∀ i < 4, ∀ j < 42, (k.regs.shadow.getD i (Vector.replicate 42 0)).getD j 0 = if i = ch.toNat ∧ j = field.toNat
        then v &&& shadowMask j else (st.regs.shadow.getD i (Vector.replicate 42 0)).getD j 0
    let becomes := fun (c' : Chan) (st' : Strand) (o : Host.Outcome State Fault Refusal) =>
      ∃ t : State, o = .next t ∧ (t.tile s.cur.tile).chans = (s.tile s.cur.tile).chans.setIfInBounds ch.toNat c'
        ∧ t.strand? s.cur = some (st'.after m (st.regs.pc + 4)) ∧ unwritten s t
    (s.Clear st { srcs := [(0, false, a)] } → sets (st.rs a) (exec (.cpset m ch field a) s))
    ∧ (s.Clear st {} → sets (BitVec.ofInt 64 imm.toInt) (exec (.cpseti m ch field imm) s))
    ∧ (s.Clear st (useD d) → exec (.cpget m d ch field) s = .next (s.completes m (st.putS d (f.getD field.toNat 0))))
    ∧ (s.Clear st { useD d with aborts := true } → st.chunk = none → st.run = .ready →
      let bad := fun (code i : Nat) =>
        exec (.cplaunch m d ch) s = .next (s.faultTurn s.cur 13 (BitVec.ofNat 64 (code * 2 ^ 56 + i * 2 ^ 50)) st.regs.pc)
      (s.launchCheck s.cur st f (outsideUnion (s.declaredPad s.cur st)) = none →
        (c.queue.length < 8 → ∃ tr : Transfer, tr.id = c.nextid ∧ tr.fields = f ∧ tr.who = s.cur ∧ tr.started = false ∧ tr.x = 0
          ∧ becomes { c with nextid := c.nextid + 1, doneId := if c.queue = [] then c.nextid else c.doneId, queue := c.queue ++ [tr] }
            (st.putS d (BitVec.ofNat 64 c.nextid.toNat)) (exec (.cplaunch m d ch) s))
        ∧ (8 ≤ c.queue.length → exec (.cplaunch m d ch) s = .next (s.setStrand s.cur st)))
      ∧ (Fields.at_ f 0 < 2 ^ 60 → Fields.at_ f 1 < 2 ^ 60 →
        (Fields.at_ f 2 ∉ [1, 2, 4, 8, 16, 32, 64] → bad 1 2)
        ∧ (Fields.at_ f 2 ∈ [1, 2, 4, 8, 16, 32, 64] → (Fields.at_ f 3 = 0 ∨ 12 < Fields.at_ f 3) → bad 2 3)))
    ∧ (s.Clear st (useD d) → st.tx = none → st.det = false → ∃ v : Word, exec (.cpstat m d ch) s = .next (s.completes m (st.putS d v))
      ∧ v.toNat / 2 ^ 62 = (if c.halted then 2 else if c.queue = [] then 0 else 1) ∧ v.toNat / 2 ^ 58 % 16 = c.queue.length % 16
      ∧ v.toNat % 2 ^ 32 = c.doneId.toNat)
    ∧ (s.Clear st { aborts := true } → st.chunk = none → st.run = .ready →
      let mine := fun (t : Transfer) => t.who = s.cur ∧ t.uid = st.uid
      let head := match c.queue with | t :: _ => decide (mine t) | [] => false
      becomes { c with
          queue := c.queue.map fun t => if mine t then { t with cancelled := true } else t
          line := []
          halted := c.halted && !head
          cause := if head && c.halted then 0 else c.cause } st (exec (.cpstop m ch) s))

/-- The byte at A lies in HBM or in a tile's scratchpad. -/
def inMemory (s : State) (A : Nat) : Prop := s.region A = .hbm ∨ inPad s A

/-- R70 to R72, R75, R77 to R79, R91: a channel takes up the transfer at its head; moves its elements in order, each from its source address to its
destination address, a row that the line buffer holds from there; gives a full packet to the port die, which checks the handle with the transfer's
first packet alone; and completes the transfer when all of it is done, with the last rows it has read in the line buffer. An address that does not
translate halts it with its code, a source word with an uncorrectable error with cause 0x60 at that word, an invalid or closed handle with 0x70 at its
first element. The supervisor lets a halted transfer go on, or cancels it. Elements are moved in their index order, and `old` chooses what an
overlapped source reads: the model's choice (log 10). What another device answers is free (log 8). s1 is the state with the translations of the source
in the tile's buffers, lines the lines that count as read. -/
def Obligations.TransferSteps : Prop :=
  ∀ (s : State) (n k : Nat) (h : Transfer) (r : List Transfer) (answer : V128), n < 1536 → k < 4 → (s.chan n k).queue = h :: r →
    let c := s.chan n k
    let becomes := fun (c' : Chan) (o : Host.Outcome State Fault Refusal) =>
      ∃ t : State, o = .next t ∧ t.chan n k = c' ∧ unwritten s t
    (c.halted = false → h.cancelled = false →
      let f : Fields := h.fields
      (h.started = false → becomes { c with
        queue := { h with started := true } :: r
        line := if f.lineEn = true ∧ f.lineFlush = false then c.line else [] } (exec (.transferStart n k) s))
      ∧ (h.started = true →
        let moved := exec (.copyElement n k false ⟨.ok, false⟩ answer) s
        let halts := fun (cause : BitVec 8) (addr : Word) => ∃ t : State, moved = .next t ∧ t.mem = s.mem ∧ (t.chan n k).halted = true
          ∧ (t.chan n k).cause = cause ∧ (t.chan n k).cpfa = addr ∧ (t.chan n k).cpfx = BitVec.ofNat 64 (h.x % 2 ^ 32)
        let sa := h.addr false h.x
        let da := h.addr true h.x
        let i := h.x % Nat.max 1 (f.count 0)
        let row := s.sideLoc n h h.srcKind (h.addr false (h.x - i)) .read
        let s0 := if f.lineEn then row.2 else s
        let key := fun (l : Loc) => l.dev * 2 ^ 44 + l.addr
        let held := fun (l : Loc) => c.heldRow (asidOf h.ptroot) h.srcKind (key l) (f.count 0 * f.esize)
        let puts := fun (bs : List Byte) (rows : List HeldRow) (s1 : State) (lines : Nat) =>
          (h.dstKind = 12 → h.packet.length + f.esize ≤ f.payload →
            ∃ t : State, moved = .next t ∧ t.mem = s.mem ∧ (t.chan n k).queue = { h with x := h.x + 1, packet := h.packet ++ bs, rows := rows } :: r)
          ∧ (h.dstKind ≠ 12 →
            let place := ((s1.countWork n h.lid 0 lines).sideLoc n h h.dstKind da .write).1
            (∀ code, place = .error code → halts (BitVec.ofNat 8 code) da)
            ∧ ∀ l, place = .ok l →
              (l.dev ≠ thisDev → ∃ (t : State) (u : List (Loc × Byte)), moved = .next t ∧ t.mem = s.mem
                ∧ (t.chan n k).queue = { h with x := h.x + 1, rows := rows, undo := u } :: r)
              ∧ (l.dev = thisDev → inMemory s l.addr → ∃ (t : State) (u : List (Loc × Byte)), moved = .next t ∧ t.mem = memSetBytes s.mem l.addr bs
                ∧ (t.chan n k).queue = { h with x := h.x + 1, rows := rows, undo := u } :: r))
        (h.x < f.total → s.redWords = [] → s.lags = [] → s.weakWords = [] → s.sideServed n h false = true → s.sideServed n h true = true →
          h.dstKind ≠ 12 ∨ h.packet.length + f.esize ≤ f.payload →
          (∀ l q, f.lineEn = true → row.1 = .ok l → held l = some q → s.badWords = [] → 0 < f.esize →
            let bs := (q.bytes.drop (i * f.esize)).take f.esize
            puts bs (if i = 0 then h.rows ++ [⟨asidOf h.ptroot, h.srcKind, key l, bs⟩]
              else h.rows.dropLast ++ (h.rows.drop (h.rows.length - 1)).map fun y => { y with bytes := y.bytes ++ bs }) s0 0)
          ∧ (f.lineEn = false ∨ (∃ l, row.1 = .ok l ∧ held l = none) →
            (∀ code, (s0.sideLoc n h h.srcKind sa .read).1 = .error code → halts (BitVec.ofNat 8 code) sa)
            ∧ ∀ l s1, s0.sideLoc n h h.srcKind sa .read = (.ok l, s1) →
              (∀ w, l.dev = thisDev → (wordsOf l.addr f.esize).find? (fun w => s.badWords.contains w) = some w →
                halts 0x60 (sa + BitVec.ofNat 64 (8 * w - l.addr)))
              ∧ (s.badWords = [] → l.dev ≠ thisDev ∨ inMemory s l.addr →
                let bs := if l.dev = thisDev then s.readBytes l.addr f.esize else natToBytes f.esize answer.toNat
                ∀ rows, (f.lineEn = false → rows = h.rows)
                  → (∀ l0, f.lineEn = true → row.1 = .ok l0 → rows = if i = 0 then h.rows ++ [⟨asidOf h.ptroot, h.srcKind, key l0, bs⟩]
                    else h.rows.dropLast ++ (h.rows.drop (h.rows.length - 1)).map fun y => { y with bytes := y.bytes ++ bs })
                  → puts bs rows s1 (if h.srcKind < 8 then (linesOf l f.esize).length else 0))))
        ∧ (h.dstKind = 12 → f.total ≠ 0 → h.packet ≠ [] → h.packet.length = f.payload →
          let q := BitVec.ofNat 16 h.dst
          (h.offered = true ∨ q ∈ s.sendQueues →
            ∃ t : State, exec (.sendPacketAccept n k) s = .next t ∧ unwritten s t
              ∧ (t.chan n k).queue = { h with packet := [], offered := true } :: r
              ∧ t.netOut = s.netOut ++ [⟨q, f.tag, decide (f.total ≤ h.x) && f.eom, h.packet⟩])
          ∧ (h.offered = false → q ∉ s.sendQueues →
            ∃ t : State, exec (.sendPacketAccept n k) s = .next t ∧ t.netOut = s.netOut ∧ (t.chan n k).halted = true
              ∧ (t.chan n k).cause = 0x70 ∧ (t.chan n k).cpfx = 0))
        ∧ (h.dstKind ≠ 12 → f.total ≤ h.x → becomes { c with
          queue := r
          doneId := h.id + 1
          line := if f.lineEn then keptRows f h.rows else c.line } (exec (.transferComplete n k) s))))
    ∧ (c.halted = true →
      becomes { c with halted := false, cause := 0 } (exec (.cpctlResume n k) s)
      ∧ becomes { c with halted := false, cause := 0, queue := { h with cancelled := true } :: r } (exec (.cpctlCancel n k) s))

/-! ## Vector instructions -/

/-- The rounding mode of element i of w bytes: that of the selector, or of FCTL; in mode RS with the draw of the element's lane, whose LFSR has
been advanced once for each earlier element of the lane and once for this one (R26, R136, R145). -/
def elemMode (st : Strand) (rnd : BitVec 2) (w i : Nat) : RMode :=
  match st.vmode rnd with
  | some r => r
  | none => .rs (Nat.iterate lfsrNext (i % Nat.max 1 (4 / w) + 1) (st.regs.lfsr.getD (laneOf w i) 0))

/-- The LFSRs after n elements of w bytes have been drawn for (R136). -/
def drawn (st : Strand) (rnd : BitVec 2) (w n : Nat) (lf : Vector (BitVec 32) 32) : Prop :=
  ∀ j < 32, lf.getD j 0 = if st.vmode rnd = none
    then Nat.iterate lfsrNext (((List.range n).filter fun i => laneOf w i = j).length) (st.regs.lfsr.getD j 0) else st.regs.lfsr.getD j 0

/-- R26, R136, R143 to R149, R292, Tables 8.2, 8.3: each element of the result is the operation on the operands' elements, rounded once in its
mode; d and qv receive it, no FCTL flag changes, and the launch's window counts one operation. vabs and vneg change the sign alone, and
write a NaN as the canonical one; vmin and vmax choose as fmin and fmax do. The precision of vexp2 is the model's own (log 13); which
instructions count operations is its reading of R292 (log 24). -/
def Obligations.VectorFloat : Prop :=
  ∀ (s : State) (st : Strand) (m : Bool) (rnd t : BitVec 2) (d a b : Spec),
    let f := fmtOf t.toNat
    let w := f.bytes
    let A := fun (i : Nat) => V128.elem (st.rv a) w i
    let B := fun (i : Nat) => V128.elem (st.rv b) w i
    let D := fun (i : Nat) => V128.elem (st.rv d) w i
    let rounds := fun (r : Nat → RMode → Nat) (o : Host.Outcome State Fault Refusal) =>
      ∃ (v : V128) (lf : Vector (BitVec 32) 32), o = .next ((s.countWork s.cur.tile st.lid 1 0).completes m ((st.setLfsr lf).putV d v))
        ∧ (∀ i < 128 / w, V128.elem v w i = r i (elemMode st rnd w i) % 2 ^ (8 * w)) ∧ drawn st rnd w (128 / w) lf
    let gives := fun (r : Nat → Nat) (o : Host.Outcome State Fault Refusal) =>
      ∃ v : V128, o = .next ((s.countWork s.cur.tile st.lid 1 0).completes m (st.putV d v))
        ∧ ∀ i < 128 / w, V128.elem v w i = r i % 2 ^ (8 * w)
    (s.Clear st (vuseAB d a b) →
      rounds (fun i md => (f.finish md ((f.read (A i)).add md (f.read (B i)))).1) (exec (.vadd m rnd t d a b) s)
      ∧ rounds (fun i md => (f.finish md ((f.read (A i)).add md (f.read (B i)).neg)).1) (exec (.vsub m rnd t d a b) s)
      ∧ rounds (fun i md => (f.finish md ((f.read (A i)).mul (f.read (B i)))).1) (exec (.vmul m rnd t d a b) s)
      ∧ rounds (fun i md => (f.div md (f.read (A i)) (f.read (B i))).1) (exec (.vdiv m rnd t d a b) s)
      ∧ gives (fun i => (f.minmax false (A i) (B i)).1) (exec (.vmin m t d a b) s)
      ∧ gives (fun i => (f.minmax true (A i) (B i)).1) (exec (.vmax m t d a b) s))
    ∧ (s.Clear st (vuseABD d a b) →
      rounds (fun i md => (f.finish md (FVal.fma md (f.read (A i)) (f.read (B i)) (f.read (D i)))).1) (exec (.vfma m rnd t d a b) s)
      ∧ rounds (fun i md => (f.finish md (FVal.fma md (f.read (A i)) (f.read (B i)) (f.read (D i)).neg)).1) (exec (.vfms m rnd t d a b) s)
      ∧ rounds (fun i md => (f.finish md (FVal.fma md (f.read (A i)).neg (f.read (B i)) (f.read (D i)))).1) (exec (.vfnma m rnd t d a b) s))
    ∧ (s.Clear st (vuseA d a) →
      rounds (fun i md => (f.sqrt md (f.read (A i))).1) (exec (.vsqrt m rnd t d a) s)
      ∧ rounds (fun i md => (f.div md (.fin false 1 0) (f.read (A i))).1) (exec (.vrcp m rnd t d a) s)
      ∧ rounds (fun i md => f.rsqrt md (f.read (A i))) (exec (.vrsq m rnd t d a) s)
      ∧ rounds (fun i md => f.exp2 md (f.read (A i))) (exec (.vexp2 m rnd t d a) s)
      ∧ gives (fun i => if (f.read (A i)).isNan then f.nan else A i % f.signBit) (exec (.vabs m rnd t d a) s)
      ∧ gives (fun i => if (f.read (A i)).isNan then f.nan else A i ^^^ f.signBit) (exec (.vneg m rnd t d a) s))

/-- The tree of R141 over the 2^k leaves from i · 2^k up: each node pairs adjacent results, the lower index on the left. -/
def tree {α : Type} (op : α → α → α) (x : Nat → α) : Nat → Nat → α
  | 0, i => x i
  | k + 1, i => op (tree op x k (2 * i)) (tree op x k (2 * i + 1))

/-- R141, R142, R150 to R153, R292: vcmp writes all ones where its condition holds, else zeros; vsel chooses by qv's elements; vred folds its
widened elements in the tree order to a scalar, vtsum pairs in the same order; vcvt converts each element with one rounding, and elements
past the last read 0. That vcmp, vsel, vred and vtsum count one operation of the launch's window, and vcvt none, is the model's reading of R292
(log 24). -/
def Obligations.VectorCompareReduce : Prop :=
  ∀ (s : State) (st : Strand) (m : Bool) (cnd t2 rnd : BitVec 2) (t dt : BitVec 4) (d a b : Spec),
    let w := typeWidth t
    let A := fun (i : Nat) => V128.elem (st.rv a) w i
    let B := fun (i : Nat) => V128.elem (st.rv b) w i
    let counted := s.countWork s.cur.tile st.lid 1 0
    (s.Clear st (vuseAB d a b) → ∃ v : V128, exec (.vcmp m cnd t d a b) s = .next (counted.completes m (st.putV d v))
      ∧ ∀ i < 128 / w, V128.elem v w i = if vcmpHolds cnd t (A i) (B i) then 2 ^ (8 * w) - 1 else 0)
    ∧ (s.Clear st { vuseAB d a b with readsQv := true } → ∃ v : V128, exec (.vsel m t d a b) s = .next (counted.completes m (st.putV d v))
      ∧ ∀ i < 128 / w, V128.elem v w i = if V128.elem st.regs.qv w i ≠ 0 then A i else B i)
    ∧ (s.Clear st (useRed d a) →
      let f := fmtOf t2.toNat
      let g : Fmt := if t2 = 0 then .f64 else .f32
      let x := fun (i : Nat) => if f = g then V128.elem (st.rv a) f.bytes i else (g.write .rne (f.read (V128.elem (st.rv a) f.bytes i))).1
      let k := Nat.log2 (128 / f.bytes)
      exec (.vredAdd m t2 d a) s = .next (counted.completes m (st.putS d (BitVec.ofNat 64 (tree (fun y z => (g.add .rne y z).1) x k 0))))
      ∧ exec (.vredMin m t2 d a) s = .next (counted.completes m (st.putS d (BitVec.ofNat 64 (tree (fun y z => (g.minmax false y z).1) x k 0))))
      ∧ exec (.vredMax m t2 d a) s = .next (counted.completes m (st.putS d (BitVec.ofNat 64 (tree (fun y z => (g.minmax true y z).1) x k 0))))
      ∧ (let p := tree (fun (y z : Nat × Nat) => pairAdd y.1 y.2 z.1 z.2) (fun i => (V128.elem (st.rv a) 4 i, 0)) 5 0
         exec (.vtsum m d a) s = .next (counted.completes m (st.putS d (BitVec.ofNat 64 (p.2 * 2 ^ 32 + p.1))))))
    ∧ (s.Clear st (vuseA d a) → ∃ (v : V128) (lf : Vector (BitVec 32) 32), exec (.vcvt m dt t rnd d a) s = .next (s.completes m ((st.setLfsr lf).putV d v))
      ∧ drawn st rnd w (128 / Nat.max w (typeWidth dt)) lf
      ∧ ∀ i < 128 / typeWidth dt, V128.elem v (typeWidth dt) i =
        if i < 128 / Nat.max w (typeWidth dt) then convElem dt t (elemMode st rnd w i) (A i) % 2 ^ (8 * typeWidth dt) else 0)

/-- R154 to R156: integer results modulo 2^n, shifts by unsigned counts, bitwise operations, permutations, broadcast, move and extraction. -/
def Obligations.VectorIntegerAndMoves : Prop :=
  ∀ (s : State) (st : Strand) (m : Bool) (t : BitVec 3) (t4 : BitVec 4) (d a b : Spec) (idx : BitVec 6),
    let n := 8 * 2 ^ (t.toNat % 4)
    let w := 2 ^ (t.toNat % 4)
    let A := fun (i : Nat) => V128.elem (st.rv a) w i
    let B := fun (i : Nat) => V128.elem (st.rv b) w i
    let signed := fun (x k : Nat) => if 2 ^ (k - 1) ≤ x then (x : Int) - 2 ^ k else (x : Int)
    let gives := fun (w : Nat) (r : Nat → Nat) (o : Host.Outcome State Fault Refusal) =>
      ∃ v : V128, o = .next (s.completes m (st.putV d v)) ∧ ∀ i < 128 / w, V128.elem v w i = r i
    let pick := fun (r : Nat → Bool × Nat) (i : Nat) => V128.elem (if (r i).1 then st.rv b else st.rv a) 4 (r i).2
    (s.Clear st (vuseAB d a b) →
      gives w (fun i => (A i + B i) % 2 ^ n) (exec (.viadd m t d a b) s)
      ∧ gives w (fun i => (A i + (2 ^ n - B i)) % 2 ^ n) (exec (.visub m t d a b) s)
      ∧ gives w (fun i => (A i * B i) % 2 ^ n) (exec (.vimul m t d a b) s)
      ∧ gives w (fun i => A i * 2 ^ B i % 2 ^ n) (exec (.vshl m t d a b) s)
      ∧ gives w (fun i => if t.toNat < 4 then (signed (A i) n / 2 ^ B i % 2 ^ n).toNat else A i / 2 ^ B i) (exec (.vshr m t d a b) s)
      ∧ exec (.vand m d a b) s = .next (s.completes m (st.putV d (st.rv a &&& st.rv b)))
      ∧ exec (.vor m d a b) s = .next (s.completes m (st.putV d (st.rv a ||| st.rv b)))
      ∧ exec (.vxor m d a b) s = .next (s.completes m (st.putV d (st.rv a ^^^ st.rv b)))
      ∧ gives 1 (fun i => if V128.elem (st.rv b) 1 i < 128 then V128.elem (st.rv a) 1 (V128.elem (st.rv b) 1 i) else 0)
        (exec (.vperm m d a b) s)
      ∧ gives 4 (pick fun i => (i % 2 == 1, i / 2)) (exec (.vshufZlo m d a b) s)
      ∧ gives 4 (pick fun i => (i % 2 == 1, 16 + i / 2)) (exec (.vshufZhi m d a b) s)
      ∧ gives 4 (pick fun i => (decide (16 ≤ i), 2 * (i % 16))) (exec (.vshufEven m d a b) s)
      ∧ gives 4 (pick fun i => (decide (16 ≤ i), 2 * (i % 16) + 1)) (exec (.vshufOdd m d a b) s))
    ∧ (s.Clear st { srcs := [(0, false, a)], dst := some (true, d) } →
      gives (typeWidth t4) (fun _ => (st.rs a).toNat % 2 ^ (8 * typeWidth t4)) (exec (.vbcast m t4 d a) s))
    ∧ (s.Clear st (vuseA d a) → exec (.vmov m t4 d a) s = .next (s.completes m (st.putV d (st.rv a))))
    ∧ (s.Clear st { srcs := [(0, true, a)], dst := some (false, d) } →
      let k := typeWidth t4
      let ext := fun (i : Nat) => if 8 ≤ t4.toNat ∧ t4.toNat < 12 then BitVec.ofInt 64 (signed (V128.elem (st.rv a) k i) (8 * k))
        else BitVec.ofNat 64 (V128.elem (st.rv a) k i)
      exec (.vext m t4 d a idx) s = .next (s.completes m (st.putS d (ext idx.toNat)))
      ∧ exec (.vextHigh m t4 d a idx) s = .next (s.completes m (st.putS d (ext (64 + idx.toNat)))))

/-- R137, R139, R157 to R164: plane writes the planes of its 128 elements to a group and their scale byte to the scratchpad, and unplane
reads both back as binary32; p2enc and p2dec write codes of P2 weights and their values; bscale scales each element by a power of two;
srnd rounds each element stochastically to the narrower format. -/
def Obligations.ConversionUnit : Prop :=
  ∀ (s : State) (st : Strand) (m : Bool) (pm1 : BitVec 5) (t2 : BitVec 2) (t : BitVec 4) (d a b : Spec) (p : Nat),
    let P := pm1.toNat + 1
    let n := (P + 7) / 8
    let f := fmtOf t2.toNat
    let k := fmtOf t.toNat
    let src : Fmt := if t = 1 then .f64 else .f32
    (s.Clear st (useGroups d n a 4 b) → st.tx = none → st.chunk = none → st.run = .ready → s.padAddr s.cur st (st.rs b) 1 = .ok p →
      s.region (s.padBase s.cur.tile + p) = .pad s.cur.tile p → sound s (s.padBase s.cur.tile + p) 1 →
      let xs := (List.range 128).map fun j => Fmt.f32.read (st.groupVal a 4 / 2 ^ (32 * j) % 2 ^ 32)
      ∃ (t : State) (g : Nat) (e : Byte), exec (.plane m pm1 d a b) s = .next t ∧ t.mem = memSetBytes s.mem (s.padBase s.cur.tile + p) [e]
        ∧ t.strand? s.cur = some ((st.putGroup d n g).after m (st.regs.pc + 4))
        ∧ if ∃ x ∈ xs, x.isNan = true then g = 0 ∧ e = 0xFF
          else e = BitVec.ofInt 8 (planeScale P xs + 127)
            ∧ ∀ j < 128, blockElem P g j = (⟨P, true⟩ : IntTy).read (planeElem P (planeScale P xs) (xs.getD j (.nan false))))
    ∧ (s.Clear st (useGroups d 4 a n b) → st.tx = none → st.chunk = none → s.padAddr s.cur st (st.rs b) 1 = .ok p →
      sound s (s.padBase s.cur.tile + p) 1 →
      let e := memGet s.mem (s.padBase s.cur.tile + p)
      ∃ g : Nat, exec (.unplane m pm1 d a b) s = .next (s.completes m (st.putGroup d 4 g))
        ∧ ∀ j < 128, g / 2 ^ (32 * j) % 2 ^ 32 = if e = 0xFF then 0x7FC00000 else
          (let v := blockElem P (st.groupVal a n) j
           (Fmt.f32.round .rne (decide (v < 0)) v.natAbs ((e.toNat : Int) - 127) false).1 % 2 ^ 32))
    ∧ (s.Clear st (vuseA d a) →
      (∃ v : V128, exec (.p2enc m t2 d a) s = .next (s.completes m (st.putV d v))
        ∧ ∀ i < 128, V128.elem v 1 i = if i < 128 / f.bytes then p2Encode (f.read (V128.elem (st.rv a) f.bytes i)) % 256 else 0x88)
      ∧ (∃ v : V128, exec (.p2dec m t2 d a) s = .next (s.completes m (st.putV d v))
        ∧ ∀ i < 128 / f.bytes, V128.elem v f.bytes i =
          (f.write .rne (valOfInt (p2Term (V128.elem (st.rv a) 1 i / 16) + p2Term (V128.elem (st.rv a) 1 i % 16)))).1 % 2 ^ (8 * f.bytes))
      ∧ ∃ (v : V128) (lf : Vector (BitVec 32) 32), exec (.srnd m t d a) s = .next (s.completes m ((st.setLfsr lf).putV d v)) ∧ drawn st 3 src.bytes (128 / src.bytes) lf
        ∧ ∀ i < 128 / src.bytes, V128.elem v src.bytes i =
          (src.write .rne (k.read (k.write (elemMode st 3 src.bytes i) (src.read (V128.elem (st.rv a) src.bytes i))).1)).1 % 2 ^ (8 * src.bytes))
    ∧ (s.Clear st (vuseAB d a b) → ∃ v : V128, exec (.bscale m t d a b) s = .next (s.completes m (st.putV d v))
      ∧ ∀ i < 128 / k.bytes, V128.elem v k.bytes i =
        (let e := V128.elem (st.rv b) 1 i
         if e = 0xFF then k.nan else (k.write .rne ((k.read (V128.elem (st.rv a) k.bytes i)).scale ((e : Int) - 127))).1) % 2 ^ (8 * k.bytes))

/-! ## The matrix engine -/

/-- R165 to R171, R180, R181, R184, R186, R187, Tables 9.1 to 9.3: a strand that owns the accumulator store, or claims a free one and finds it
all zero, sets pointer records, zeroes and writes rows, reads rows as long results, and starts an operation from a snapshot of its records,
which waits while two stand in the engine. Another strand's store raises code 0x30, and a record that fails a check of Table 9.3 raises
matrix-operand with the check and the record; a row with a word of wrong parity is logged with unit 4 and its number, and delivered. Which of
two wrong records a fault names is the model's reading (log 21). -/
def Obligations.MatrixWords : Prop :=
  ∀ (s : State) (st : Strand) (m : Bool) (d a b : Spec),
    let mat := (s.tile s.cur.tile).mat
    let E : Matrix := if mat.owner.isSome then mat else { Matrix.initial with owner := some st.uid }
    let becomes := fun (good : Matrix → Prop) (o : Host.Outcome State Fault Refusal) =>
      ∃ t : State, o = .next t ∧ good (t.tile s.cur.tile).mat ∧ t.strand? s.cur = some (st.after m (st.regs.pc + 4)) ∧ unwritten s t
    let A := (st.rs a).toNat
    let fault := fun (c : Nat) (n : Nat) => Host.Outcome.next (s.faultTurn s.cur c (BitVec.ofNat 64 n) st.regs.pc)
    (s.Clear st { useAB0 a b with aborts := true } →
      ∀ q ∈ [(Instr.mptrOpa m a b, 0), (.mptrOpb m a b, 1), (.msclOpa m a b, 2), (.msclOpb m a b, 3), (.mspar m a b, 4)],
        (mat.owner = none ∨ mat.owner = some st.uid →
          becomes (fun e => e = { E with recs := E.recs.setIfInBounds q.2 ⟨st.rs a, st.rs b⟩ }) (exec q.1 s))
        ∧ (∀ k, mat.owner = some k → k ≠ st.uid → exec q.1 s = fault 4 (0x30 * 2 ^ 56)))
    ∧ (mat.owner = none ∨ mat.owner = some st.uid →
      (s.Clear st { srcs := [(0, false, a)], aborts := true } → E.opsLeft = 0 →
        let f := A % 256
        let c := A / 256 % 256
        (A < 2 ^ 16 → f + c ≤ 192 → becomes (fun e => ∀ r < 192, ∀ n < 32, e.pair r n = if f ≤ r ∧ r < f + c then (0, 0) else E.pair r n)
          (exec (.mzero m a) s))
        ∧ (2 ^ 16 ≤ A ∨ 192 < f + c → exec (.mzero m a) s = fault 11 (10 * 2 ^ 56 + A % 2 ^ 48)))
      ∧ (s.Clear st { srcs := [(0, false, a), (1, true, b)], aborts := true } → E.opsLeft = 0 → A < 2 ^ 9 → A % 256 ≤ 191 →
        becomes (fun e => ∀ r < 192, ∀ n < 32, e.pair r n = if r = A % 256
          then (if A / 256 = 1 then ((E.pair r n).1, BitVec.ofNat 32 (V128.elem (st.rv b) 4 n)) else (BitVec.ofNat 32 (V128.elem (st.rv b) 4 n), (E.pair r n).2))
          else E.pair r n) (exec (.mwr m a b) s))
      ∧ (s.Clear st { srcs := [(0, false, a)], dst := some (true, d), long := true, aborts := true } → E.opsLeft = 0 →
        ∀ q ∈ [(Instr.mrdhi m d a, fun (p : BitVec 32 × BitVec 32) => p.1.toNat), (.mrdlo m d a, fun p => p.2.toNat),
            (.mrds m d a, fun p => f32add p.1.toNat p.2.toNat % 2 ^ 32)],
          (A ≤ 191 → (∃ p ∈ E.badPairs, p.1 / 32 = A ∧ (q.1 = .mrds m d a ∨ p.2 = decide (q.1 = .mrdlo m d a))) → finds s st 4 A (exec q.1 s))
          ∧ (A ≤ 191 → (∀ p ∈ E.badPairs, p.1 / 32 ≠ A) → d = 41 → becomes (fun e => e = E) (exec q.1 s))
          ∧ (A ≤ 191 → (∀ p ∈ E.badPairs, p.1 / 32 ≠ A) → d ≠ 41 → ∃ (t : State) (x : Access), exec q.1 s = .next t ∧ unwritten s t ∧ t.flight = s.flight ++ [x] ∧ x.id = s.nextId ∧ x.done = true
            ∧ x.dest = some ⟨true, d⟩ ∧ (∀ n < 32, V128.elem x.value 4 n = q.2 (E.pair A n))
            ∧ t.strand? s.cur = some ({ st with longs := st.longs ++ [(⟨s.nextId, ⟨true, d⟩, false⟩ : Long)] }.after m (st.regs.pc + 4)))
          ∧ (191 < A → exec q.1 s = fault 11 (10 * 2 ^ 56 + A % 2 ^ 48)))
      ∧ (s.Clear st { aborts := true } →
        (∀ c k, matCheck E.recs false = some (c, k) → exec (.mmul m) s = fault 11 (c * 2 ^ 56 + k * 2 ^ 48))
        ∧ ∀ op, s.matSnapshot s.cur st E.recs false = .ok op →
          (E.pending = none → becomes (fun e => e = { E with pending := some op }) (exec (.mmul m) s))
          ∧ (∀ p, E.pending = some p → E.running = none → becomes (fun e => e = { E with running := some p, pending := some op }) (exec (.mmul m) s))
          ∧ (E.pending.isSome = true → E.running.isSome = true →
            ∃ t : State, exec (.mmul m) s = .next t ∧ t.strand? s.cur = some { st with run := .held .again, mark := m } ∧ unwritten s t)))

/-- R169, R171, R173, R175, R180: mgang of a strand whose wave is not row-shaped raises code 0x32; else it takes its snapshot and arrives at its
row barrier. Its strand is held there until the last member of the wave arrives, and then the joint operation enters every member's engine and
the strands go on. The engine takes up its pending operation when
none runs; a block adds to each element of the rows and columns of the operation the exact sum of its products, scaled, by one accumulation
into its pair, and to no other; after the last block the operation ends. That a block is one step, on every member, is the model's choice
(logs 21, 41). -/
def Obligations.MatrixSteps : Prop :=
  (∀ (s : State) (st : Strand) (m : Bool) (k : BitVec 3) (w phys : Nat) (wv : Wave) (op : MatOp) (b : Barrier),
    let mat := (s.tile s.cur.tile).mat
    let row := s.tileRow s.cur.tile
    let bit : BitVec 24 := 1 <<< s.tileCol s.cur.tile
    mat.owner = some st.uid → s.Clear st { aborts := true } → st.chunk = none → k.toNat < st.nbars →
    (st.wave = none → exec (.mgang m k) s = .next (s.faultTurn s.cur 4 (BitVec.ofNat 64 (0x32 * 2 ^ 56)) st.regs.pc))
    ∧ (st.wave = some w → s.waves.find? (fun v => v.num = w) = some wv → wv.row = true → wv.bars[k.toNat]? = some phys →
    (∀ y ∈ wv.members, y.core = .a) → s.matSnapshot s.cur st mat.recs true = .ok op → mat.pending = none → s.barWaits 1 = false →
    (s.rowAt row).bars[phys]? = some b → s.spills = [] →
    (b.arr ||| bit ≠ b.mem → ∃ t : State, exec (.mgang m k) s = .next t ∧ unwritten s t
      ∧ t.strand? s.cur = some { st with run := .held (.bar true phys true), mark := m }
      ∧ (t.tile s.cur.tile).mat = { mat with snap := some op }
      ∧ (t.rowAt row).bars[phys]? = some { b with arr := b.arr ||| bit, gang := b.gang ||| bit })
    ∧ (wv.num = w → s.cur ∈ wv.members → b.arr ||| bit = b.mem → b.wave = some w → mat.snap = none →
      let D := (op.recs.getD 0 Rec.initial).desc
      let desc := fun (y : SlotId) => if y = s.cur then some D else (s.tile y.tile).mat.snap.map fun o => (o.recs.getD 0 Rec.initial).desc
      let rows := (wv.members.map fun y => ((desc y).map dRows).getD 0).foldl (· + ·) 0
      (∀ y ∈ wv.members, y ≠ s.cur → y.tile ≠ s.cur.tile ∧ b.gang &&& (1 <<< s.tileCol y.tile) ≠ 0
        ∧ ∃ e, desc y = some e ∧ dK e = dK D ∧ dFmt e = dFmt D ∧ dPm1 e = dPm1 D) →
      1 ≤ rows → rows ≤ 192 → ∃ t : State, exec (.mgang m k) s = .next t ∧ unwritten s t
        ∧ t.strand? s.cur = some ({ st with mark := m }.after m (st.regs.pc + 4))
        ∧ (t.tile s.cur.tile).mat = { mat with pending := some { op with gang := wv.members.map (·.tile) }, snap := none })))
  ∧ ∀ (s : State) (n : Nat) (op : MatOp),
    ((s.tile n).mat.running = none → (s.tile n).mat.pending = some op → ∃ t : State, exec (.matrixOpStart n) s = .next t ∧ unwritten s t
      ∧ (t.tile n).mat = { (s.tile n).mat with running := some op, pending := none, mprog := 0 })
    ∧ (let mat := (s.tile n).mat
       let b := mat.mprog
       let A := op.recs.getD 0 Rec.initial
       let B := op.recs.getD 1 Rec.initial
       mat.running = some op → op.gang = [] → s.opCanRun n op = true → s.badNibble [(n, op)] b = none → dRows B.desc ≤ 32 →
       s.badWords = [] → s.weakWords = [] → mat.badPairs = [] →
       ∃ t : State, exec (.matrixBlockApply n .ok) s = .next t ∧ unwritten s t
         ∧ (t.tile n).mat.running = (if b + 1 < dNb A.desc then some op else none)
         ∧ (t.tile n).mat.mprog = (if b + 1 < dNb A.desc then b + 1 else 0)
         ∧ ∀ i k, k < 32 → (t.tile n).mat.pair i k = if i < dRows A.desc ∧ k < dRows B.desc
           then pairAfter (mat.pair i k) (dotProduct (s.storedBlock n A i b) (s.bBlock n op k b))
             (s.scaleByte n (op.recs.getD 2 Rec.initial) (dNb A.desc) i b) (s.scaleByte n (op.recs.getD 3 Rec.initial) (dNb B.desc) k b)
           else mat.pair i k)

/-! ## The cell graph -/

/-- R255, R263, R266, R274 to R280, Table 13.8: what each cell instruction of a strand whose launch declares the sheet does to a cell or a sheet that
exists; the results of cwopen, cpin, cgen and cstat are long, with z none is to come, and cbind, cunbind and ccommit hold their strand until the
sluice has taken them. A cell outside the declared range, or another sheet, raises code 0x70 of every cell instruction that names it. That ccommit holds its strand until the sluice has judged its batch is the
model's reading (log 23). -/
def Obligations.CellWords : Prop :=
  ∀ (s : State) (st : Strand) (m : Bool) (d a b : Spec) (k f n : Nat) (x : Cell) (sh : Sheet),
    let c := (st.rs a).toNat % 2 ^ 24
    let ea := st.rs b
    st.tx = none → st.chunk = none → st.run = .ready →
    let long := fun (acq : Bool) (v : Word) (cells : List Cell) (o : Host.Outcome State Fault Refusal) =>
      (d = 41 → ∃ t : State, o = .next t ∧ unwritten s t ∧ t.flight = s.flight ∧ t.cells = cells
        ∧ t.strand? s.cur = some (st.after m (st.regs.pc + 4)))
      ∧ (d ≠ 41 → ∃ (t : State) (y : Access), o = .next t ∧ unwritten s t ∧ t.flight = s.flight ++ [y] ∧ y.id = s.nextId ∧ y.done = true ∧ y.dest = some ⟨false, d⟩
        ∧ y.value = v.setWidth 1024 ∧ t.cells = cells
        ∧ t.strand? s.cur = some ({ st with longs := st.longs ++ [(⟨s.nextId, ⟨false, d⟩, acq⟩ : Long)] }.after m (st.regs.pc + 4)))
    let me : Asker := ⟨s.cur, st.uid, st.lid⟩
    let asks := fun (num : Nat) (op : SluiceOp) (o : Host.Outcome State Fault Refusal) =>
      ∃ (t : State) (e : Nat) (l : List Long), o = .next t ∧ unwritten s t ∧ t.strand? s.cur = some { st with run := .held (.edit e), mark := m, longs := st.longs ++ l }
        ∧ t.sheets = s.sheets.map fun z => if z.num = num then { z with ops := z.ops ++ [op] } else z
    let setsCell := fun (y : Cell) => s.cells.map fun z => if z.num = y.num then y else z
    (s.declared st = some (k, f, n) → f ≤ c → c < f + n → s.cell? c = some x →
      (s.Clear st { srcs := [(0, false, a), (1, false, b)], access := true, aborts := true } → ∀ w, ea.toNat % 64 = 0 →
        s.recordParts s.cur st ea 8 8 = .got w s → formulaBad w = false → w.getD 1 0 / 2 ^ 63 = 0 →
        let r := formulaOf w (inlinePrecs w) st.lid s.cur.tile ea
        s.inText st.lid r.entry = true → s.holdsKind s.cur.tile st.lid r.core = true →
        asks x.sheet (.edit (some r) x.num ea (some me) none none) (exec (.cbind m a b) s))
      ∧ (s.Clear st { srcs := [(0, false, a)], aborts := true } →
        asks x.sheet (.edit none x.num 0 (some me) none none) (exec (.cunbind m a) s))
      ∧ (s.Clear st { useSluice d a with aborts := true } → x.input = true → x.opened = false → s.shadowHeld x = false →
        long false (x.buf (!x.cur)) (setsCell { x with opened := true }) (exec (.cwopen m d a) s))
      ∧ (s.Clear st (useSluice d a) →
        (x.state = 0 → s.taskGen st x = none → x.pins x.cur < 65535 →
          long true (x.buf x.cur) (setsCell (x.setPins x.cur (x.pins x.cur + 1))) (exec (.cpin m d a) s))
        ∧ ∃ v : Word, long false v s.cells (exec (.cstat m d a) s) ∧ v.toNat / 2 ^ 62 = x.state.toNat ∧ v.getLsbD 61 = x.input
          ∧ v.getLsbD 60 = x.opened ∧ v.toNat / 2 ^ 40 % 2 ^ 16 = x.rank % 2 ^ 16 ∧ v.toNat % 2 ^ 32 = x.version % 2 ^ 32)
      ∧ (s.Clear st { srcs := [(0, false, a)], aborts := true } → st.regs.cellgen.toNat / 2 ^ 32 = 2 ^ 31 + x.num → s.releaseWaits = false →
        ∃ t : State, exec (.cdone m a) s = .next t ∧ unwritten s t
          ∧ t.strand? s.cur = some ({ st with regs := { st.regs with cellgen := st.regs.cellgen &&& 0x7FFFFFFFFFFFFFFF } }.after m (st.regs.pc + 4))
          ∧ t.sheets = s.sheets.map fun z => if z.num = x.sheet then { z with seeds := z.seeds.map fun q =>
            if q.cell = x.num ∧ q.gen = st.regs.cellgen.toNat % 2 ^ 32 then { q with finished := true } else q } else z)
      ∧ (s.Clear st { srcs := [(0, false, a), (1, false, b)], aborts := true } → s.cellWaits = [] → s.sheet? x.sheet = some sh → sh.seeds = [] →
        x.buf0 ≠ x.buf1 → (∃ p l, s.translate s.cur.tile st.regs.ptroot st.sup (st.rs b) .read = .at_ p l) → ∀ which, x.buf which = st.rs b → 0 < x.pins which →
        ∃ t : State, exec (.cunpin m a b) s = .next t ∧ unwritten s t ∧ t.cells = setsCell (x.setPins which (x.pins which - 1))
          ∧ t.strand? s.cur = some (st.after m (st.regs.pc + 4))))
    ∧ (s.declared st = some (k, f, n) → (st.rs a).toNat / 2 ^ 32 % 2 ^ 12 = k → s.sheet? k = some sh →
      (s.Clear st { srcs := [(0, false, a), (1, false, b)], dst := some (false, d), long := true, access := true, aborts := true } →
        ∀ v cs, ea.toNat % 8 = 0 → s.releaseWaits = false → s.recordPart s.cur st ea 8 = .got v s → v ≤ 64 →
        s.recordParts s.cur st (ea + 8) 4 v = .got cs s → asks sh.num (.commit cs (some me) (some s.nextId) none) (exec (.ccommit m d a b) s))
      ∧ (s.Clear st (useSluice d a) →
        long false (BitVec.ofNat 64 (sh.settled * 2 ^ 32 + sh.gen % 2 ^ 32)) s.cells (exec (.cgen m d a) s)))
    ∧ (s.declared st = none ∨ (s.declared st = some (k, f, n) ∧ (c < f ∨ f + n ≤ c)) →
      ∀ q ∈ [(Instr.cbind m a b, ({ srcs := [(0, false, a), (1, false, b)], access := true, aborts := true } : Uses)),
          (.cunbind m a, { srcs := [(0, false, a)], aborts := true }), (.cwopen m d a, { useSluice d a with aborts := true }),
          (.cdone m a, { srcs := [(0, false, a)], aborts := true }), (.cpin m d a, useSluice d a), (.cstat m d a, useSluice d a),
          (.cunpin m a b, { srcs := [(0, false, a), (1, false, b)], aborts := true })],
        s.Clear st q.2 → exec q.1 s = .next (s.faultTurn s.cur 4 (BitVec.ofNat 64 (0x70 * 2 ^ 56 + c)) st.regs.pc))
    ∧ (let z := (st.rs a).toNat / 2 ^ 32 % 2 ^ 12
       s.declared st = none ∨ (s.declared st = some (k, f, n) ∧ z ≠ k) →
       ∀ q ∈ [(Instr.ccommit m d a b, ({ srcs := [(0, false, a), (1, false, b)], dst := some (false, d), long := true, access := true, aborts := true } : Uses)),
           (.cgen m d a, useSluice d a)],
         s.Clear st q.2 → exec q.1 s = .next (s.faultTurn s.cur 4 (BitVec.ofNat 64 (0x70 * 2 ^ 56 + z * 2 ^ 32)) st.regs.pc))

/-- R257 to R261, R264, R268, R271, R275, R277: the sluice takes an edit into its sheet's pending edits and lets its strand go on; a commit whose batch
nothing refuses advances the sheet's generation, publishes each cell of its batch from the inactive buffer, applies the pending edits, marks every
edited cell and every dependant stale at the new generation, and answers who asked for it; a task
whose precedents are fresh goes to the head of its HOME tile's deque; a finished task's version is published. (s.lags = [] says that no write of
another path is still to be handed to the cell class, log 18.) The order in which tasks are
released beyond the spec's is the agenda's (log 2). -/
def Obligations.SluiceSteps : Prop :=
  ∀ (s : State) (sh : Sheet), s.sheet? sh.num = some sh →
    (∀ form c nform x st r, sh.ops = .edit form c nform (some x) none none :: r → s.judgeEdit sh form c none = none →
      s.strand? x.at_ = some st → st.uid = x.uid → (∃ e, st.run = .held (.edit e)) → st.chunk = none →
      (form = none → (s.cell? c).map (·.input) = some false) → (∀ f, form = some f → ∃ l ∈ s.launches, l.lid = f.lid ∧ l.ending = false) →
      ∃ t : State, exec (.editAccept sh.num) s = .next t ∧ unwritten s t
        ∧ t.sheet? sh.num = some { sh with ops := r, edits := (sh.edits.filter fun e => e.cell != c) ++ [⟨c, form, nform⟩] }
        ∧ t.strand? x.at_ = some { st with
          run := if st.mark && !st.longs.isEmpty then .parked else .ready
          regs := { st.regs with pc := st.regs.pc + 4 } })
    ∧ (∀ cs who acc cmd r, sh.ops = .commit cs who acc cmd :: r → s.batchBad sh cs = none → (∀ c ∈ cs, s.shadowWaits c = false) → s.lags = [] →
      s.cellWaits = [] → (sh.edits.map (·.cell)).Nodup → (s.cells.map (·.num)).Nodup →
      let h := sh.gen + 1
      let edited := sh.edits.map (·.cell)
      let bound : State := { s with cells := s.cells.map fun z => match sh.edits.find? fun e => e.cell = z.num with
        | some e => { z with formula := e.form }
        | none => z }
      ∃ t : State, exec (.publicationStep sh.num) s = .next t ∧ unwritten s t
        ∧ (t.sheet? sh.num).map (fun (z : Sheet) => (z.gen, z.edits, z.ops)) = some (h, [], r)
        ∧ (∀ c ∈ cs, ∀ x, s.cell? c = some x → ∃ y : Cell, t.cell? c = some y ∧ y.cur = !x.cur ∧ y.version = h ∧ y.sver = x.version ∧ y.opened = false)
        ∧ (∀ e ∈ sh.edits, ∀ z, s.cell? e.cell = some z → ∃ y : Cell, t.cell? e.cell = some y ∧ y.formula = e.form ∧ y.input = e.form.isNone)
        ∧ (∀ e z, e ∈ edited ∨ e ∈ bound.allDependants (cs ++ edited) → s.cell? e = some z → (t.cell? e).map (·.stalegen) = some h)
        ∧ (∀ id a d, acc = some id → s.flight.find? (fun (a : Access) => a.id = id) = some a → a.dest = some d → d.spec ≠ 41 →
          ∃ y ∈ t.flight, y.id = id ∧ y.done = true ∧ y.value = BitVec.ofNat 1024 h)
        ∧ (∀ x st, who = some x → s.strand? x.at_ = some st → st.uid = x.uid → (∃ e, st.run = .held (.edit e)) → st.chunk = none →
          (∀ id a, acc = some id → s.flight.find? (fun (a : Access) => a.id = id) = some a →
            (∃ d, a.dest = some d ∧ d.spec ≠ 41) ∨ ∀ l ∈ st.longs, l.id ≠ id) →
          t.strand? x.at_ = some { st with
            run := if st.mark && !st.longs.isEmpty then .parked else .ready
            regs := { st.regs with pc := st.regs.pc + 4 } })
        ∧ ∀ k, cmd = some k → t.commands = s.commands.map fun c =>
          if c.cid = k ∧ c.result = none then { c with result := some (BitVec.ofNat 64 (1 + 2 ^ 32 * h)) } else c)
    ∧ (∀ q, (sh.seeds.find? fun q => s.releasable sh q) = some q → (s.tile (q.form.home / 4)).fenced = false →
      (s.tile (q.form.home / 4)).deque.length < 64 →
      ∃ (t : State) (k : Task), exec (.taskRelease sh.num q.cell) s = .next t ∧ unwritten s t ∧ k.kind = .formula q.cell q.gen ∧ k.entry = q.form.entry
        ∧ k.lid = q.form.lid ∧ (t.tile (q.form.home / 4)).deque = k :: (s.tile (q.form.home / 4)).deque)
    ∧ ∀ q r x, sh.seeds = q :: r → q.finished = true → s.shadowWaits q.cell = false → s.lags = [] → s.outfalls = [] → s.cellWaits = [] → s.cell? q.cell = some x →
      ∃ (t : State) (y : Cell), exec (.formulaPublish sh.num) s = .next t ∧ unwritten s t ∧ t.cell? q.cell = some y
        ∧ y.cur = !x.cur ∧ y.version = q.gen ∧ y.sver = x.version

/-! ## Strands, waves and tasks -/

/-- The outcome in which the executing strand has left its slot; with no strand spilled anywhere, nothing in memory has changed. -/
def leaves (s : State) (t : State) : Prop := t.strand? s.cur = none ∧ (s.spills = [] → unwritten s t)

/-- R240, R243, R246, R249 to R254: fork pushes a task with s0 to s7 at its displacement; join sends its decrement, and its strand goes on when
the counter came to 0 and leaves otherwise; mig sends its continuation to another tile and leaves; gang asks for a wave; bar waits until the
last member of its wave arrives, which releases them all; exit leaves; yield leaves the rotation when other work wants the slot. The order
of bar's checks is the model's reading (log 22). -/
def Obligations.StrandWords : Prop :=
  ∀ (s : State) (st : Strand) (m : Bool) (disp : BitVec 18) (a : Spec) (row : BitVec 8) (col : BitVec 4) (k2 : BitVec 2) (k3 : BitVec 3),
    st.tx = none → st.chunk = none →
    let ea := st.rs a
    let drained := s.drains st = false
    let settled := s.fenceWaits s.cur (fun _ => true) true 3 = false
    (s.Clear st { reads := (sRegs 8).map fun r => (0, r), aborts := true } → (s.tile s.cur.tile).deque.length < 64 → settled →
      ∃ t ln, exec (.fork m disp) s = .next t ∧ unwritten s t ∧ t.strand? s.cur = some (st.after m (st.regs.pc + 4))
        ∧ (t.tile s.cur.tile).deque = ⟨st.lid, s.cur.core, st.regs.pc + BitVec.ofInt 64 (4 * disp.toInt),
          .forked (Vector.ofFn fun i => st.regs.s.getD i.val 0) 0, ln⟩ :: (s.tile s.cur.tile).deque)
    ∧ (s.Clear st { srcs := [(0, false, a)], access := true, aborts := true } →
      (∀ p tr, st.run = .ready → ea.toNat % 8 = 0 → s.translate s.cur.tile st.regs.ptroot st.sup ea .rw = .at_ p tr →
        ∃ t : State, exec (.join m a) s = .next t ∧ unwritten s t ∧ t.strand? s.cur = some { st with run := .held (.home s.nextId), mark := m }
          ∧ t.flight = s.flight ++ [⟨s.nextId, s.cur, st.lid, st.sid, st.uid, .joinDec, p, none, 4, true, true, [], none, false, false, 0, some tr⟩])
      ∧ (∀ id e, st.run = .held (.home id) → s.flight.find? (fun e => e.id = id) = some e → e.done = true → (∀ l ∈ st.longs, l.id ≠ id) → s.spills = [] →
        (e.value.setWidth 64 = (1 : Word) → ∃ t : State, exec (.join m a) s = .next t ∧ unwritten s t ∧ t.strand? s.cur = some (st.after m (st.regs.pc + 4)))
        ∧ (e.value.setWidth 64 ≠ (1 : Word) → drained → ∃ t : State, exec (.join m a) s = .next t ∧ leaves s t))
      ∧ (∀ left, st.run = .held (.joined left) → drained → ∃ t : State, exec (.join m a) s = .next t ∧ leaves s t)
      ∧ ∀ w, ea.toNat % 8 = 0 → s.recordParts s.cur st ea 8 10 = .got w s → s.waveBad st w = false →
        ∃ (t : State) (q : WaveReq), exec (.gang m a) s = .next t ∧ unwritten s t ∧ t.strand? s.cur = some (st.after m (st.regs.pc + 4))
          ∧ t.waveReqs = s.waveReqs ++ [q] ∧ q.num = s.nextId ∧ q.lid = st.lid ∧ q.entry = BitVec.ofNat 64 (w.getD 0 0 % 2 ^ 56)
          ∧ (∀ i < 8, q.args.getD i 0 = BitVec.ofNat 64 (w.getD (2 + i) 0)) ∧ q.origin = some s.cur.tile
          ∧ q.row = decide (w.getD 1 0 / 2 ^ 63 = 1) ∧ q.nm = w.getD 1 0 / 2 ^ 8 % 8 ∧ q.nc = w.getD 1 0 / 2 ^ 4 % 16 ∧ q.na = w.getD 1 0 % 16)
    ∧ (s.Clear st
        { srcs := [(0, false, a)]
          reads := (sRegs 16 ++ (List.range 8).map fun i => BitVec.ofNat 6 (32 + i)).map fun r => (2, r)
          aborts := true } →
      (ea.toNat % 4 ≠ 0 → exec (.mig m row col a) s = .next (s.faultTurn s.cur 7 ea st.regs.pc))
      ∧ ∀ n, ea.toNat % 4 = 0 → s.tileAt row.toNat col.toNat = some n → s.holdsKind n st.lid s.cur.core.num = true → drained → settled →
        ∃ (t : State) (k : Task), exec (.mig m row col a) s = .next t ∧ leaves s t ∧ t.transit = s.transit ++ [(n, k)] ∧ k.entry = ea ∧ k.lid = st.lid
          ∧ k.kind = .cont (Vector.ofFn fun i => st.regs.s.getD i.val 0) st.regs.o st.regs.skipn st.regs.cellgen)
    ∧ (s.Clear st { aborts := true } →
      (drained → ∃ t : State, exec (.exit m) s = .next t ∧ leaves s t)
      ∧ (¬ drained → ∃ t : State, exec (.exit m) s = .next t ∧ t.strand? s.cur = some { st with run := .held .again, mark := m } ∧ unwritten s t)
      ∧ (s.slotWanted s.cur.tile st.lid s.cur.core = false → exec (.yield m) s = .next (s.completes m st))
      ∧ (s.slotWanted s.cur.tile st.lid s.cur.core = true → st.run = .ready → ∃ t : State, exec (.yield m) s = .next t ∧ unwritten s t
        ∧ t.strand? s.cur = some { st with
          run := .preempted none
          rsv := none
          preReq := false
          abortReq := none
          yielded := true
          mark := m
          regs := { st.regs with pc := st.regs.pc + 4 } })
      ∧ (∀ p b w, s.barOf st false k2.toNat = some p → s.barWaits 0 = false → (s.tile s.cur.tile).tbar[p]? = some b → st.wave = some w →
        b.wave = some w → s.cur.slot < 8 →
        let bit : BitVec 24 := 1 <<< s.cur.member
        (b.arr ||| bit ≠ b.mem → ∃ t : State, exec (.barTile m k2) s = .next t ∧ unwritten s t
          ∧ t.strand? s.cur = some { st with run := .held (.bar false p false), mark := m }
          ∧ (t.tile s.cur.tile).tbar[p]? = some { b with arr := b.arr ||| bit })
        ∧ (b.arr ||| bit = b.mem → ∃ t : State, exec (.barTile m k2) s = .next t ∧ (s.spills = [] → unwritten s t)
          ∧ t.strand? s.cur = some ({ st with mark := m }.after m (st.regs.pc + 4))
          ∧ (t.tile s.cur.tile).tbar[p]? = some { b with arr := 0, gen := b.gen + 1 }))
      ∧ ∀ p b w wv, s.barOf st true k3.toNat = some p → s.barWaits 1 = false → (s.rowAt (s.tileRow s.cur.tile)).bars[p]? = some b → st.wave = some w →
        b.wave = some w → s.waves.find? (fun v => v.num = w) = some wv → s.cur ∈ wv.members → b.gang = 0 →
        let bit : BitVec 24 := 1 <<< s.tileCol s.cur.tile
        (b.arr ||| bit ≠ b.mem → ∃ t : State, exec (.barRow m k3) s = .next t ∧ unwritten s t
          ∧ t.strand? s.cur = some { st with run := .held (.bar true p false), mark := m }
          ∧ (t.rowAt (s.tileRow s.cur.tile)).bars[p]? = some { b with arr := b.arr ||| bit })
        ∧ (b.arr ||| bit = b.mem → ∃ t : State, exec (.barRow m k3) s = .next t ∧ (s.spills = [] → unwritten s t)
          ∧ t.strand? s.cur = some ({ st with mark := m }.after m (st.regs.pc + 4))
          ∧ (t.rowAt (s.tileRow s.cur.tile)).bars[p]? = some { b with arr := 0, gen := b.gen + 1 }))

/-- R41, R237, R243, R244, R291, R292: a wave that may stand where the supervisors chose starts there whole, each member at the entry with its
arguments and its stack; a free slot takes its next task; a full deque's bottom sixteen entries and a continuation that finds it full go to
the overflow list; forked tasks move to a neighbour; and a window's end sets the class of each launch on the tile. The supervisors' choices
are arguments of the events (log 3); class 1 for an idle window is the model's reading (log 24). -/
def Obligations.SchedulingSteps : Prop :=
  (∀ (s : State) (q : WaveReq) (l : Launch) (p : Placement), s.waveReqs.find? (fun r => r.num = q.num) = some q → s.launch? q.lid = some l →
    s.placeOk q l p = true → q.argkind = 0 →
    ∃ (t : State) (w : Wave), exec (.wavePlace q.num p) s = .next t ∧ unwritten s t ∧ t.waveReqs = s.waveReqs.filter (fun r => r.num != q.num)
      ∧ t.waves = s.waves ++ [w] ∧ w.num = q.num ∧ w.lid = q.lid ∧ w.members = p.members.map (·.at_)
      ∧ ∀ k ∈ p.members, ∃ st : Strand, t.strand? k.at_ = some st ∧ st.run = .ready ∧ st.lid = q.lid ∧ st.wave = some q.num ∧ st.regs.pc = q.entry
        ∧ st.regs.s.getD 31 0 = BitVec.ofNat 64 (k.stackBot + l.image.header.stackReserve)
        ∧ ∀ i < 8, st.regs.s.getD i 0 = q.args.getD i 0)
  ∧ (∀ (s : State) (x : SlotId) (bot : Nat) (r : Resident) (k : Task) (l : Launch), (s.tile x.tile).resid = [r] → x.member ∈ r.slots →
    s.slotFree r.lid x = true → (s.tile x.tile).nextTask r.lid x.core = some k → s.launch? r.lid = some l →
    let res := (bot, bot + l.image.header.stackReserve)
    l.ending = false → padRange res = true → (s.takenRanges x.tile r.lid).all (apart res) = true →
    ∃ (t : State) (st : Strand), exec (.dequeTake x bot) s = .next t ∧ unwritten s t ∧ t.strand? x = some st ∧ st.run = .ready ∧ st.lid = r.lid ∧ st.wave = none
      ∧ st.regs.pc = k.entry ∧ st.sid.getLsbD 37 = true
      ∧ (∀ a h, k.kind = .forked a h → ∀ i < 8, st.regs.s.getD i 0 = a.getD i 0)
      ∧ (∀ s' o n g, k.kind = .cont s' o n g → st.regs.o = o ∧ st.regs.skipn = n ∧ st.regs.cellgen = g ∧ ∀ i < 16, st.regs.s.getD i 0 = s'.getD i 0)
      ∧ (∀ c h, k.kind = .formula c h → st.regs.s.getD 0 0 = BitVec.ofNat 64 c ∧ st.regs.s.getD 1 0 = BitVec.ofNat 64 h
        ∧ st.regs.cellgen = BitVec.ofNat 64 (2 ^ 63 + c * 2 ^ 32 + h)))
  ∧ (∀ (s : State) (n : Nat),
    ((s.tile n).deque.length = 64 → ∃ t : State, exec (.dequeOverflowMove n) s = .next t ∧ unwritten s t
      ∧ (t.tile n).deque = (s.tile n).deque.take 48 ∧ (t.tile n).overflow = (s.tile n).overflow ++ ((s.tile n).deque.drop 48).reverse)
    ∧ ∀ i k, s.transit[i]? = some (n, k) → (s.tile n).fenced = false → ∃ t : State, exec (.continuationArrive i) s = .next t ∧ unwritten s t ∧ t.transit = s.transit.eraseIdx i
      ∧ if 64 ≤ (s.tile n).deque.length then (t.tile n).overflow = (s.tile n).overflow ++ [k] ∧ (t.tile n).deque = (s.tile n).deque
        else (t.tile n).deque = k :: (s.tile n).deque)
  ∧ (∀ (s : State) (src dst : Nat) (kind : Core), src ≠ dst → dst ∈ s.neighbours src → (s.tile dst).fenced = false →
    (s.tile dst).load kind + 2 ≤ (s.tile src).load kind →
    let able := fun (k : Task) => k.forked && k.core = kind && decide (k.hops < 4) && s.holdsKind dst k.lid kind.num
      && s.bestNeighbour src dst kind k
    let go := ((s.tile src).deque.reverse.filter able).take (Nat.min 8 (((s.tile src).load kind - (s.tile dst).load kind) / 2))
    (s.tile dst).deque.length + go.length ≤ 64 →
    ∃ t : State, exec (.loadExchange src dst kind) s = .next t ∧ unwritten s t
      ∧ (t.tile dst).deque = (go.map Task.moved).reverse ++ (s.tile dst).deque)
  ∧ ∀ (s : State) (n : Nat), ∃ t : State, exec (.classWindow n) s = .next t ∧ unwritten s t
    ∧ (t.tile n).resid = (s.tile n).resid.map fun r => { r with
      cls := if 4 * r.lines ≤ r.ops then 1 else if 4 * r.ops ≤ r.lines then 2 else 3
      ops := 0
      lines := 0 }

/-- What the context block of a strand holds (Table 15.8): its registers, each at its offset, with zeros where the layout has nothing. -/
def blockHolds (bs : List Byte) (core : Core) (st : Strand) : Prop :=
  let r := st.regs
  let w := wordAt bs
  (∀ i < 32, w (8 * i) = r.s.getD i 0) ∧ (∀ i < 8, w (0x100 + 8 * i) = r.o.getD i 0)
    ∧ (∀ q ∈ [(0x140, r.q), (0x148, r.pc), (0x150, r.skipn.setWidth 64), (0x158, r.fctl), (0x160, r.slim), (0x168, r.padlo), (0x170, r.padhi),
        (0x178, r.ptroot), (0x180, BitVec.ofNat 64 (256 * st.depth) ||| r.txReason.setWidth 64), (0x188, r.txaddr), (0x190, r.cellbase),
        (0x198, r.cellgen), (0x1A0, st.tepc), (0x1A8, st.tcause), (0x1B0, st.tdetail),
        (0x1B8, BitVec.ofNat 64 ((if st.det then 4 else 0) + (if st.sup && st.ie then 2 else 0) + (if st.sup then 1 else 0)))], w q.1 = q.2)
    ∧ (∀ i < 8, w (0x1C0 + 8 * i) = r.cycw.getD i 0)
    ∧ (∀ c < 4, ∀ i < 42, w (0x200 + 8 * (42 * c + i)) = if core = .m then (r.shadow.getD c (Vector.replicate 42 0)).getD i 0 else 0)
    ∧ (∀ i < 42, (w 0x740).getLsbD i = st.outstanding false (BitVec.ofNat 6 i)) ∧ (w 0x740).toNat < 2 ^ 42 ∧ (∀ i < 23, w (0x748 + 8 * i) = 0)
    ∧ (core ≠ .m → (∀ i < 32, bytesToNat ((bs.drop (0x800 + 4 * i)).take 4) = (r.lfsr.getD i 0).toNat)
      ∧ (∀ i < 4, vecAt bs (0x880 + 128 * i) = r.w.getD i 0) ∧ vecAt bs 0xA80 = r.qv ∧ ∀ i < 32, vecAt bs (0xB00 + 128 * i) = r.v.getD i 0)

/-- What a matrix owner's block holds beside that (Table 15.8). -/
def matrixHolds (bs : List Byte) (m : Matrix) : Prop :=
  let w := wordAt bs
  let recs := fun (at_ : Nat) (k : Vector Rec 5) => ∀ i < 5, w (at_ + 16 * i) = (k.getD i Rec.initial).base ∧ w (at_ + 16 * i + 8) = (k.getD i Rec.initial).desc
  recs 0x1B00 m.recs ∧ w 0x1B50 = BitVec.ofNat 64 m.mprog
    ∧ w 0x1B58 = BitVec.ofNat 64 ((if m.pending.isSome then 2 else 0) + if m.running.isSome then 1 else 0)
    ∧ (∀ op, m.running = some op → recs 0x1B60 op.recs) ∧ (∀ op, m.pending = some op → recs 0x1BB0 op.recs)
    ∧ ∀ k < 6144, let p := (assocGet m.acc k).getD (0, 0)
      bytesToNat ((bs.drop (0x1C00 + 8 * k)).take 4) = p.1.toNat ∧ bytesToNat ((bs.drop (0x1C04 + 8 * k)).take 4) = p.2.toNat

/-- R238, R254, R293, R311 to R314, Table 15.8: a wave that is displaced, or of which a member has yielded its slot to work that waits, is asked to
leave the rotation whole; a pre-empted strand leaves it, is spilled into its context block, which frees its slot and holds its registers at their
offsets, and the matrix engine's state for its owner; it comes back with what its block holds, and goes on once its whole wave is there; a launch with
nothing left on a tile is evicted into protected HBM, with its bytes, their full bits and the status lines of its rings, for a launch of higher
priority that needs its place, and has its place back before a strand of it returns. The supervisors' choices are arguments of the events (logs 3,
27); what a block that was changed gives back is the model's choice (log 56), and so is the order of what an eviction saves (log 57). -/
def Obligations.PreemptionSteps : Prop :=
  (∀ (s : State) (x : SlotId) (st : Strand), s.strand? x = some st → st.sup = false → st.run = .ready → st.tx = none →
    (st.preReq = false → s.ctl.ckpt = none → s.displaced x st = true ∨ s.yieldedWave x st = true → ∃ t : State, exec (.preemption x) s = .next t ∧ unwritten s t
      ∧ ∀ y ∈ s.waveOf x st, ∀ k : Strand, s.strand? y = some k → k.sup = false → k.run = .ready → t.strand? y = some { k with preReq := true })
    ∧ (st.preReq = true → ∃ t : State, exec (.preemption x) s = .next t ∧ unwritten s t
      ∧ t.strand? x = some { st with run := .preempted none, preReq := false, abortReq := none, rsv := none, mark := false }))
  ∧ (∀ (s : State) (x : SlotId) (st : Strand) (base : Nat), s.strand? x = some st → st.sup = false → st.run = .preempted none → st.tx = none →
    st.longs = [] → s.waveOut st = true → s.spills = [] → s.spillDue x st = true →
    let mat := (s.tile x.tile).mat
    let owner := mat.owner = some st.uid
    let n := if owner then 0xDC00 else if x.core = .m then 0x800 else 0x1B00
    s.areaFree base n = true → (owner → x.core = .a) →
    ∃ (t : State) (p : Spilled), exec (.spill x base) s = .next t ∧ t.strand? x = none ∧ t.spills = [p] ∧ p.at_ = x ∧ p.base = base ∧ p.strand = st
      ∧ p.block.length = n ∧ t.mem = memSetBytes s.mem base p.block ∧ blockHolds p.block x.core st ∧ (owner → matrixHolds p.block mat))
  ∧ (∀ (s : State) (x : SlotId) (p : Spilled), s.strand? x = none → s.spills.find? (fun q => q.at_ = x && q.strand.uid = p.strand.uid) = some p →
    p.mat = none → (s.tile x.tile).fenced = false → (s.tile x.tile).testing = false →
    (s.evicted = [] → ∃ (t : State) (k : Strand), exec (.restore x p.strand.uid) s = .next t ∧ unwritten s t ∧ t.strand? x = some k
      ∧ t.spills = s.spills.filter (fun q => q != p)
      ∧ (s.readBytes p.base p.block.length = p.block → k = p.strand)
      ∧ (s.readBytes p.base p.block.length ≠ p.block → p.at_.core = x.core → k.run = p.strand.run ∧ k.lid = p.strand.lid
        ∧ (∀ i < 32, k.regs.s.getD i 0 = s.readWord (p.base + 8 * i)) ∧ (∀ i < 8, k.regs.o.getD i 0 = s.readWord (p.base + 0x100 + 8 * i))
        ∧ (∀ q ∈ [(0x140, k.regs.q), (0x158, k.regs.fctl), (0x160, k.regs.slim), (0x168, k.regs.padlo), (0x170, k.regs.padhi), (0x178, k.regs.ptroot),
            (0x188, k.regs.txaddr), (0x190, k.regs.cellbase), (0x198, k.regs.cellgen), (0x1A0, k.tepc), (0x1A8, k.tcause), (0x1B0, k.tdetail)],
          q.2 = s.readWord (p.base + q.1))
        ∧ (x.core ≠ .m → ∀ i < 32, k.regs.v.getD i 0 = BitVec.ofNat 1024 (s.readNat (p.base + 0xB00 + 128 * i) 128))))
    ∧ (∀ e, s.evicted = [e] → e.tile = x.tile → e.res.lid = p.strand.lid → s.canReturn e = true →
      ∃ t : State, exec (.restore x p.strand.uid) s = .next t ∧ (t.strand? x).isSome = true ∧ t.evicted = []
        ∧ (t.tile x.tile).resid = (s.tile x.tile).resid ++ [e.res]))
  ∧ (∀ (s : State) (x : SlotId) (st : Strand), s.strand? x = some st → st.run = .preempted none → st.tx = none → s.spills = [] →
    exec (.restore x st.uid) s
      = .next (s.setStrand x { st with
        run := if st.mark && !st.longs.isEmpty then .parked else .ready
        wakeReq := none
        yielded := false }))
  ∧ (∀ (s : State) (n w : Nat) (y : SlotId) (v : Wave) (st : Strand), v ∈ s.waves → v.spilled = false → v.num ≠ w → v.members = [y] →
    (∀ u ∈ s.waves, u = v ∨ u.spilled = true) → s.strand? y = some st → st.wave = some v.num → st.run = .ready → st.sup = false →
    (∃ p ∈ s.spills, p.strand.wave = some w ∧ p.at_ = y) → y.tile = n →
    exec (.restoreDeadline n w) s = .next (s.setStrand y { st with preReq := true }))
  ∧ ∀ (s : State) (n lid base : Nat) (r : Resident), s.residOf n lid = some r → (∀ p ∈ (s.tile n).strands, p.2.lid ≠ lid) →
    (∀ q ∈ s.tiles, ∀ c ∈ q.2.chans.toList, ∀ t ∈ c.queue, t.lid ≠ lid ∧ s.writesInto q.1 n r t = false) → s.padWanted n lid = true → s.areaFree base r.savedSize = true →
    ∃ (t : State) (e : Evicted) (bits lines : List Byte), exec (.launchEvict n ⟨lid, base⟩) s = .next t ∧ t.evicted = s.evicted ++ [e] ∧ e.tile = n
      ∧ e.res = r ∧ e.base = base ∧ (t.tile n).resid = (s.tile n).resid.filter (fun q => q.lid != lid)
      ∧ t.mem = memSetBytes s.mem base (r.addrs.map (fun a => memGet s.mem (s.padBase n + a)) ++ bits ++ lines)
      ∧ bits.length = (r.words.length + 7) / 8
      ∧ (∀ i w, r.words[i]? = some w → (bits.getD (i / 8) 0).getLsbD (i % 8) = decide (s.padBase n / 8 + w ∈ s.full))
      ∧ lines.length = 64 * r.rings.length
      ∧ ∀ (j k : Nat) (g : Ring), r.rings[j]? = some k → (s.tile n).rings[k]? = some g →
        let w := fun (i : Nat) => (wordAt lines (64 * j + 8 * i)).toNat
        w 0 = (if g.cfg then 2 ^ 63 else 0) + g.desc.toNat ∧ w 1 = g.pgen.toNat * 2 ^ 32 + g.cgen.toNat ∧ w 2 = g.cmem.toNat * 2 ^ 24 + g.pmem.toNat
          ∧ w 3 = g.carr.toNat * 2 ^ 24 + g.parr.toNat ∧ ∀ i, 4 ≤ i → i < 8 → w i = 0

/-! ## The network -/

/-- Philox-4x32: a round of a counter under a key, with the key's next value (R338). -/
def rndcRound (x : (Nat × Nat × Nat × Nat) × Nat × Nat) : (Nat × Nat × Nat × Nat) × Nat × Nat :=
  let p := 0xD2511F53 * x.1.1
  let q := 0xCD9E8D57 * x.1.2.2.1
  ((q / 2 ^ 32 ^^^ x.1.2.1 ^^^ x.2.1, q % 2 ^ 32, p / 2 ^ 32 ^^^ x.1.2.2.2 ^^^ x.2.2, p % 2 ^ 32),
    (x.2.1 + 0x9E3779B9) % 2 ^ 32, (x.2.2 + 0xBB67AE85) % 2 ^ 32)

/-- R4, R229 to R233, R338, R368, R369: nred and nsend send a packet, whose payload the router reads, by a record that R233 accepts and whose
destination is there; one that is fused off is translation-absent. A router that lacks nothing more sends the sum of its side and its own tile
on, or, at the destination, writes the result and then the status word; a second packet of one contributor, and one that comes after its group
has failed, is discarded; a router whose timer expires fails its group, once, with the number of its missing inputs; a send writes its payload and then the status word, in issue order. rndc gives two words of ten rounds. What becomes of a
duplicate or late packet, who takes the fault of a tile that has sent nothing, and the detail word of an absent destination are the model's
reading of R369, R231 and R4 (log 28). (`sound` says, among other things, that
the router path misses no write of the payload, log 18.) -/
def Obligations.Network : Prop :=
  (∀ (s : State) (st : Strand) (m : Bool) (t : BitVec 4) (d a b : Spec),
    (s.Clear st { srcs := [(0, false, a), (1, false, b)], access := true, aborts := true } → st.chunk = none → ∀ pay r,
      let ea := st.rs a
      let eb := st.rs b
      ea.toNat % 128 = 0 → eb.toNat % 8 = 0 → s.padAddr s.cur st ea 128 = .ok pay → s.padAddr s.cur st eb 16 = .ok r →
      let base := s.padBase s.cur.tile
      sound s (base + r) 16 →
      let w0 := s.readWord (base + r)
      let w1 := s.readWord (base + r + 8)
      let bad := fun (c : Nat) => Host.Outcome.next (s.faultTurn s.cur 4 (BitVec.ofNat 64 (c * 2 ^ 56 + eb.toNat % 2 ^ 56)) st.regs.pc)
      (∀ q ∈ [(Instr.nred m t a b, false, t.toNat, (s.tileRow s.cur.tile, s.tileCol s.cur.tile)), (.nsend m a b, true, 0, (recRow w0, recCol w0))],
        (s.recordBad s.cur.tile q.2.1 w0 w1 = none → (s.tileAt (recRow w0) (recCol w0)).isSome = true →
          let sent : State := { s with
            nextId := s.nextId + 1
            packets := s.packets ++ [⟨s.nextId, q.2.1, w0, w1, q.2.2.1, s.cur.tile, q.2.2.2, 0, s.cur, st.sid, st.uid, st.lid, none, pay, none⟩] }
          exec q.1 s = .next (sent.completes m st))
        ∧ (s.recordBad s.cur.tile q.2.1 w0 w1 = none → s.tileAt (recRow w0) (recCol w0) = none →
          exec q.1 s = .next (s.faultTurn s.cur 8 (BitVec.ofNat 64 (0x35 * 2 ^ 56 + recRow w0 * 16 + recCol w0)) st.regs.pc))
        ∧ (∀ c, s.recordBad s.cur.tile q.2.1 w0 w1 = some c → exec q.1 s = bad c)
        ∧ (w0 &&& 0x7F000F000000FFFF ≠ 0 → exec q.1 s = bad 0x50))
      ∧ (w0 &&& 0x7F000F000000FFFF = 0 → w0.toNat / 2 ^ 32 % 2 ^ 8 = 0 → exec (.nred m t a b) s = bad 0x51))
    ∧ (s.Clear st { useAB d a b with aborts := true } →
      let out := (Nat.iterate rndcRound 10
        (((st.rs a).toNat % 2 ^ 32, (st.rs a).toNat / 2 ^ 32, 0, 0), (st.rs b).toNat % 2 ^ 32, (st.rs b).toNat / 2 ^ 32)).1
      exec (.rndcLo m d a b) s = .next (s.completes m (st.putS d (BitVec.ofNat 64 (out.2.1 * 2 ^ 32 + out.1))))
      ∧ exec (.rndcHi m d a b) s = .next (s.completes m (st.putS d (BitVec.ofNat 64 (out.2.2.2 * 2 ^ 32 + out.2.2.1))))))
  ∧ (∀ (s : State) (p : Packet), s.packets.find? (fun q => q.idx = p.idx && !q.send) = some p →
    let die := s.tileDie p.src
    let grp := recGroup p.rec0
    let here := fun (n : RNode) => n.die = die && n.group = grp && n.place = p.place
    let pay := p.data.getD (BitVec.ofNat 1024 (s.readNat (s.padBase p.src + p.pay) 128))
    p.input = 0 → sound s (s.padBase p.src + p.pay) 128 →
    (∀ g ∈ s.rgroups, g.die = die → g.group = grp → g.failed = none ∧ g.broken = false ∧ p.src ∉ g.came) →
    (∀ t, s.tileAt p.place.1 p.place.2 = some t → (s.tile t).testing = false) →
    (∀ dest, s.inputsOf p.rec0 p.rec1 p.place = [0] → s.nextRouter p.rec0 p.rec1 p.place = none →
      s.tileAt (recRow p.rec0) (recCol p.rec0) = some dest → s.rnodes.any here = false →
      (s.rnodes.filter fun n => n.die = die && n.place = p.place).length < 16 → p.cmd = none → (∀ g ∈ s.rgroups, g.cmds = []) →
      s.redWords = [] → inPad s (s.padBase dest + recData p.rec1) → inPad s (s.padBase dest + recStatus p.rec1) →
      ∃ t u : State, exec (.routerPacketArrive p.idx) s = .next t ∧ written s u (s.padBase dest + recData p.rec1) (natToBytes 128 pay.toNat)
        ∧ written u t (s.padBase dest + recStatus p.rec1) (natToBytes 8 1) ∧ t.packets = s.packets.filter fun q => q.idx != p.idx)
    ∧ ∀ n x nx, s.rnodes.find? here = some n → n.rec0 = p.rec0 → n.rec1 = p.rec1 → n.ty = p.ty → n.inputs = [(1, x)] →
      s.inputsOf p.rec0 p.rec1 p.place = [0, 1] → s.nextRouter p.rec0 p.rec1 p.place = some nx →
      ∃ (t : State) (y : Packet) (v : V128), exec (.routerPacketArrive p.idx) s = .next t ∧ unwritten s t ∧ y.data = some v ∧ t.packets = (s.packets.filter fun q => q.idx != p.idx) ++ [y]
        ∧ y.idx = s.nextId ∧ y.place = nx.1 ∧ y.input = nx.2 ∧ y.rec0 = p.rec0 ∧ y.rec1 = p.rec1 ∧ y.ty = p.ty ∧ y.src = p.src ∧ y.send = false
        ∧ (p.ty = 0 → ∀ i < 16, V128.elem v 8 i = (Fmt.f64.add .rne (V128.elem x 8 i) (V128.elem pay 8 i)).1 % 2 ^ 64)
        ∧ (p.ty = 1 → ∀ i < 32, V128.elem v 4 i = (Fmt.f32.add .rne (V128.elem x 4 i) (V128.elem pay 4 i)).1 % 2 ^ 32)
        ∧ (1 < p.ty → ∀ i < 16, V128.elem v 8 i = (V128.elem x 8 i + V128.elem pay 8 i) % 2 ^ 64))
  ∧ (∀ (s : State) (p : Packet), s.packets.find? (fun q => q.idx = p.idx && !q.send) = some p → p.input = 0 →
    let die := s.tileDie p.src
    let grp := recGroup p.rec0
    let rest := s.packets.filter fun q => q.idx != p.idx
    s.rnodes.any (fun n => n.die = die && n.group = grp && n.place = p.place) = true →
    (∀ t, s.tileAt p.place.1 p.place.2 = some t → (s.tile t).testing = false) →
    (∀ g, s.failedGroup? die grp p.src = some g → p.cmd = none →
      ∃ t : State, exec (.routerPacketArrive p.idx) s = .next t ∧ t.mem = s.mem ∧ t.rnodes = s.rnodes ∧ t.packets = rest)
    ∧ ∀ g, s.failedGroup? die grp p.src = none → s.group? die grp = some g → p.src ∈ g.came →
      ∃ t : State, exec (.routerPacketArrive p.idx) s = .next t ∧ t.mem = s.mem ∧ t.rnodes = s.rnodes ∧ t.packets = rest
        ∧ (t.group? die grp).map (·.broken) = some true)
  ∧ (∀ (s : State) (die grp router dest : Nat) (n : RNode) (g : RGroup),
    s.rnodes.find? (fun n => n.die = die && n.group = grp && n.place = (router / 16, router % 16)) = some n → s.group? die grp = some g →
    g.cmds = [] → s.tileAt (recRow n.rec0) (recCol n.rec0) = some dest → s.redWords = [] → inPad s (s.padBase dest + recStatus n.rec1) →
    let missing := Nat.max 1 ((s.inputsOf n.rec0 n.rec1 n.place).filter fun k => (assocGet n.inputs k).isNone).length
    let mine := fun (p : Packet) => !p.send && s.tileDie p.src = die && recGroup p.rec0 = grp
    ∃ t : State, exec (.routerTimeout die grp router) s = .next t
      ∧ written s t (s.padBase dest + recStatus n.rec1) (natToBytes 8 (2 + 2 ^ 32 * missing))
      ∧ (t.packets = s.packets.filter fun p => !(mine p && p.input != 0)) ∧ (t.rnodes = s.rnodes.filter fun k => !(k.die = die && k.group = grp))
      ∧ t.group? die grp = none
      ∧ ((∃ k ∈ g.due, k ∉ g.sent) → ∃ f ∈ t.rgroups, f = { g with cmds := [], failed := some (BitVec.ofNat 64 (2 + 2 ^ 32 * missing)) })
      ∧ (∀ o st, assocGet g.senders dest = some o → s.strand? o.who = some st → st.uid = o.uid →
        ∃ st' : Strand, t.strand? o.who = some st' ∧ st'.asyncs = st.asyncs ++ [(14, BitVec.ofNat 64 grp)])
      ∧ (assocGet g.senders dest = none → (∀ p ∈ s.packets, mine p = true → p.src ≠ dest) →
        ∃ e ∈ (t.tile dest).events ++ (t.tile dest).waiting, e.entry.toNat / 2 ^ 40 % 2 ^ 8 = 14 ∧ e.detail = BitVec.ofNat 64 grp))
  ∧ ∀ (s : State) (p : Packet) (dest : Nat), s.packets.find? (fun q => q.idx = p.idx && q.send) = some p →
    s.tileAt p.place.1 p.place.2 = some dest → (s.tile dest).testing = false → sound s (s.padBase p.src + p.pay) 128 → s.redWords = [] →
    inPad s (s.padBase dest + recData p.rec1) → inPad s (s.padBase dest + recStatus p.rec1) →
    let pay := p.data.getD (BitVec.ofNat 1024 (s.readNat (s.padBase p.src + p.pay) 128))
    ((∀ q ∈ s.packets, q.send = true → q.uid = p.uid → q.place = p.place → p.idx ≤ q.idx) →
      ∃ t u : State, exec (.nsendDeliver p.idx) s = .next t ∧ written s u (s.padBase dest + recData p.rec1) (natToBytes 128 pay.toNat)
        ∧ written u t (s.padBase dest + recStatus p.rec1) (natToBytes 8 1) ∧ t.packets = s.packets.filter fun q => q.idx != p.idx)
    ∧ ((∃ q ∈ s.packets, q.send = true ∧ q.uid = p.uid ∧ q.place = p.place ∧ q.idx < p.idx) → exec (.nsendDeliver p.idx) s = .next s)

/-! ## Serving -/

/-- R327, R333, R334, R343 to R346: a request message enters its queue while that has room, and rings the doorbell; intk and outf answer as long
results, outf with the code of the first thing that is wrong or with its engine attached; an intake engine, while one is free, answers 0x15, 0x10
or 0x12, or commits the prompt's ids; an outfall engine sends each version's text, whole when it is ASCII, and its end ends the attachment. Some
statuses of the intake engine, the bound on a message, what an outf that finds its version's pins full answers, and the one packet of a version
are the model's reading (logs 29, 30, 62). s1 is the state with the engine's pages in its translation buffers (R56). -/
def Obligations.Serving : Prop :=
  (∀ (s : State) (st : Strand) (m : Bool) (d a : Spec), s.Clear st { useSluice d a with aborts := true } →
    st.tx = none → st.chunk = none → st.run = .ready →
    let goes := fun (y : Access) (t : State) => unwritten s t ∧ t.flight = s.flight ++ [y] ∧ y.id = s.nextId ∧ y.dest = some ⟨false, d⟩
      ∧ t.strand? s.cur = some ({ st with longs := st.longs ++ [(⟨s.nextId, ⟨false, d⟩, false⟩ : Long)] }.after m (st.regs.pc + 4))
    (∃ (t : State) (y : Access), exec (.intk m d a) s = .next t ∧ goes y t ∧ y.done = false
      ∧ t.intkReqs = s.intkReqs ++ [⟨s.nextId, (st.rs a).setWidth 16, asidOf st.regs.ptroot, s.cur.tile, st.sup, none⟩])
    ∧ (let n := (st.rs a).toNat % 2 ^ 24
       let sent := fun (v : V128 → Prop) (t : State) =>
         (d ≠ 41 → ∃ y : Access, goes y t ∧ y.done = true ∧ v y.value)
         ∧ (d = 41 → unwritten s t ∧ t.flight = s.flight ∧ t.strand? s.cur = some (st.after m (st.regs.pc + 4)))
       let answers := fun (code slot : Nat) => sent fun v => v = BitVec.ofNat 1024 (code * 2 ^ 56 + slot * 2 ^ 40)
       let refuses := fun (code slot : Nat) => ∃ t : State, exec (.outf m d a) s = .next t ∧ answers code slot t ∧ t.cells = s.cells ∧ t.outfalls = s.outfalls
       (s.cell? n = none → refuses 0x22 0)
       ∧ ∀ x, s.cell? n = some x → (x.input = false → refuses 0x22 0)
         ∧ (x.input = true → s.attachReaches st n = false → exec (.outf m d a) s = .next (s.setStrand s.cur { st with run := .ready }))
         ∧ (x.input = true → s.attachReaches st n = true → ((∃ o ∈ s.outfalls, o.cell = n) → refuses 0x20 0)
           ∧ ((∀ o ∈ s.outfalls, o.cell ≠ n) → x.pins x.cur = 65535 →
             ∃ t : State, exec (.outf m d a) s = .next t ∧ sent (fun _ => True) t ∧ t.cells = s.cells ∧ t.outfalls = s.outfalls)
           ∧ ((∀ o ∈ s.outfalls, o.cell ≠ n) → x.pins x.cur < 65535 → s.redWords = [] →
             let v : Via := ⟨s.cur.tile, st.regs.ptroot, st.sup⟩
             let s1 := s.vaTouch v (x.buf x.cur).toNat 4 .read
             let e0 := s1.vaNat v (x.buf x.cur).toNat 4
             let slot := e0 % 2 ^ 16
             let handle := BitVec.ofNat 16 (e0 / 2 ^ 16)
             (s.svcQueue handle (asidOf st.regs.ptroot) = none → refuses 0x23 slot)
             ∧ ∀ q, s.svcQueue handle (asidOf st.regs.ptroot) = some q →
               (q.nslot ≤ slot → refuses 0x23 slot)
               ∧ (slot < q.nslot → s1.vaNat { v with ptroot := q.ptroot } (q.slots.toNat + 64 * slot + 8) 8 % 2 ^ 24 = n →
                 (s.outfalls.filter fun o => o.handle.toNat % 8 = handle.toNat % 8).length < 4096 →
                 ∃ t : State, exec (.outf m d a) s = .next t ∧ answers 1 slot t
                   ∧ (t.cells = s.cells.map fun z => if z.num = x.num then x.setPins x.cur (x.pins x.cur + 1) else z)
                   ∧ t.outfalls = s.outfalls ++ [⟨n, handle, slot, q.ptroot, s.cur.tile, st.sup, [x.cur], []⟩])))))
  ∧ (∀ (s : State) (handle asid : BitVec 16) (msg : List Byte) (q : SvcQueue), s.svcQueue handle asid = some q →
    (q.depth ≤ q.msgs.length → exec (.sqMessageArrive handle asid msg) s = .next s)
    ∧ ∀ p, let v : Via := ⟨s.engineTile, q.ptroot, false⟩
      q.msgs.length < q.depth → msg.length ≤ 64 + 1048512 → s.reaches v q.doorbell.toNat 8 .rw = true →
      s.vaLoc v q.doorbell.toNat .rw = some p → p.dev = thisDev → s.region p.addr = .hbm → s.redWords = [] →
      ∃ t : State, exec (.sqMessageArrive handle asid msg) s = .next t ∧ written s t p.addr (natToBytes 8 (s.readNat p.addr 8 + 1))
        ∧ (t.svcQueue handle asid).map (·.msgs) = some (q.msgs ++ [msg]))
  ∧ (∀ (s : State) (idx : Nat) (r : IntkReq), s.intkReqs[idx]? = some r →
    let left := s.intkReqs.filter fun k => k.id != r.id
    let flies := fun (v : Nat) => s.flight.map fun a => if a.id = r.id then { a with done := true, value := BitVec.ofNat 1024 v } else a
    let answers := fun (code : Nat) => exec (.intake idx) s = .next { s with intkReqs := left, flight := flies (code * 2 ^ 56) }
    (∀ a ∈ s.flight, a.id = r.id → ∀ d, a.dest = some d → d.spec ≠ 41) →
    (r.job = none → s.intakeFree = true →
      (s.svcQueue r.handle r.asid = none → answers 0x15)
      ∧ ∀ q, s.svcQueue r.handle r.asid = some q → (q.msgs = [] → answers 0x10)
        ∧ ∀ msg rest, q.msgs = msg :: rest →
          let slot := msgWord msg 0 % 2 ^ 16
          let reply := BitVec.ofNat 16 (msgWord msg 0 / 2 ^ 32)
          let v := 0x12 * 2 ^ 56 + slot * 2 ^ 40
          q.nslot ≤ slot → s.reaches ⟨r.tile, q.ptroot, r.sup⟩ (q.slots.toNat + 64 * slot) 64 .read = true →
          ∃ t : State, exec (.intake idx) s = .next t ∧ unwritten s t ∧ t.intkReqs = left ∧ t.flight = flies v
            ∧ (t.svcQueue r.handle r.asid).map (·.msgs) = some rest
            ∧ t.netOut = if reply ∈ s.sendQueues then s.netOut ++ [⟨reply, 0, true, natToBytes 8 v⟩] else s.netOut)
    ∧ (r.job = none → s.intakeFree = false → exec (.intake idx) s = .next s)
    ∧ ∀ j c sh, r.job = some j → j.msg = none → s.cell? j.cell = some c → c.input = true →
      (c.opened = true → exec (.intake idx) s = .next { s with intkReqs := s.intkReqs.map fun k => if k.id = r.id then { k with job := some j } else k })
      ∧ (c.opened = false → s.shadowHeld c = false → s.sheet? c.sheet = some sh → sh.ops = [] → sh.edits = [] → s.cellWaits = [] → s.lags = [] →
        sh.gen < 2 ^ 32 - 1 → s.outfalls = [] → 1 + j.ids.length ≤ c.bytes / 4 →
        s.reaches ⟨r.tile, j.ptroot, r.sup⟩ (c.buf (!c.cur)).toNat c.bytes .write = true →
        ∃ (t : State) (y : Cell), exec (.intake idx) s = .next t ∧ t.intkReqs = left ∧ t.flight = flies (2 ^ 56 + j.slot % 2 ^ 16 * 2 ^ 40 + j.ids.length % 2 ^ 32)
          ∧ t.cell? j.cell = some y ∧ y.cur = !c.cur ∧ y.version = sh.gen + 1 ∧ y.opened = false
          ∧ (t.sheet? c.sheet).map (·.gen) = some (sh.gen + 1)
          ∧ let v : Via := ⟨r.tile, j.ptroot, r.sup⟩
            let buf := (c.buf (!c.cur)).toNat
            let words := (j.ids.length :: j.ids) ++ List.replicate (c.bytes / 4 - (1 + j.ids.length)) 0
            t.mem = ((s.vaTouch v buf c.bytes .write).vaWrite v buf pathIo (words.flatMap fun w => natToBytes 4 w)).mem))
  ∧ ∀ (s : State) (o : Outfall) (c : Cell) (b : Bool) (todo : List Bool), s.outfalls.find? (fun k => k.cell = o.cell) = some o →
    s.cell? o.cell = some c → o.todo = b :: todo → s.cellWaits = [] → s.redWords = [] →
    let buf := (c.buf b).toNat
    let v : Via := ⟨o.tile, o.ptroot, o.sup⟩
    let s1 := s.vaTouch v buf c.bytes .read
    let base := ((s.svcQueue o.handle (asidOf o.ptroot)).map fun q => q.slots.toNat + 64 * o.slot).getD 0
    let reply := BitVec.ofNat 16 (s1.vaNat v base 8 / 2 ^ 32)
    let image : Image.Read := fun off n => s1.vaNat v (s1.vaNat v (base + 56) 8 % 2 ^ 56 + off) n
    let e1 := s1.vaNat v (buf + 4) 4
    let ids := (List.range (Nat.min (e1 % 2 ^ 8) (c.bytes / 4 - 2))).map fun i => s1.vaNat v (buf + 4 * (i + 2)) 4
    let text := o.held ++ ids.flatMap fun t => (vocabBytes image t).getD [0xEF, 0xBF, 0xBD]
    let ends := decide (e1 / 2 ^ 8 % 2 = 1)
    let length := ((s.cell? (s.vaNat v (base + 8) 8 / 2 ^ 32 % 2 ^ 24)).map (·.bytes)).getD 0
    (∀ x ∈ text, x.toNat < 0x80) → s.reaches v buf c.bytes .read = true → s.reaches v base 64 .rw = true →
    s.reaches v (s.vaNat v (base + 56) 8 % 2 ^ 56) length .read = true →
    ∃ t : State, exec (.outfallVersion o.cell) s = .next t
      ∧ (t.netOut = if (text = [] ∧ ends = false) ∨ reply ∉ s.sendQueues then s.netOut else s.netOut ++ [⟨reply, 0, ends, text⟩])
      ∧ (ends = true → t.outfalls = s.outfalls.filter fun k => k.cell != o.cell)
      ∧ (ends = false → unwritten s t ∧ (t.cell? o.cell).map (·.pins b) = some (c.pins b - 1)
        ∧ t.outfalls = s.outfalls.map fun k => if k.cell = o.cell then { o with todo := todo, held := [] } else k)

/-! ## Command rings and turnouts -/

/-- A record whose count has reached its threshold (R297): FIRED is set; with REARM the count starts again and ARMED stays, else ARMED is
cleared. -/
def fired (r r' : Turnout) : Prop :=
  r'.w0.getLsbD 60 = true ∧ r'.armed = r.rearm ∧ r'.count = (if r.rearm then 0 else r.thresh) ∧ r'.thresh = r.thresh ∧ r'.tag = r.tag
    ∧ r'.v = r.v ∧ r'.rearm = r.rearm ∧ r'.ringNo = r.ringNo ∧ r'.cmd = r.cmd

/-- R282 to R284, R295 to R297: RESV gives the ticket TAIL and advances it while the ring is enabled and not full; COMMIT reads the ticket's 64 bytes
in, once, or counts an error; a write of RCFG that clears EN drops what is committed; a write of 0 to RERR clears its count. A tag that arrives counts
in its record, one of a message in those of its port die (0 or 1), one of a remote copy in those of both, which fires at its threshold: its command
goes into its ring, under a ticket, or waits for room. Clearing ARMED disarms a record. That a firing does not write the ring's slot in HBM is the
model's reading (log 33). -/
def Obligations.RingsAndTurnouts : Prop :=
  ∀ (s : State) (n : Nat), n < 64 →
    let r := s.ring n
    let becomes := fun (r' : CmdRing) (o : Host.Outcome State Fault Refusal) =>
      ∃ t : State, o = .next t ∧ unwritten s t ∧ t.ring n = r' ∧ (∀ k, k ≠ n → t.ring k = s.ring k) ∧ t.turnouts = s.turnouts
    let waits := (r.tail - r.head).toNat
    let entry := fun (tk : BitVec 32) => r.base + 64 * (tk.toNat % 2 ^ r.lsize)
    (r.on = true → waits < 2 ^ r.lsize → r.reserve.1 = BitVec.ofNat 64 r.tail.toNat ∧ becomes { r with tail := r.tail + 1 } (exec (.ringReserve n) s))
    ∧ (r.on = false ∨ 2 ^ r.lsize ≤ waits → r.reserve.1 = 0xFFFFFFFFFFFFFFFF ∧ becomes r (exec (.ringReserve n) s))
    ∧ (∀ tk : BitVec 32,
      let free := ∀ p ∈ r.slots, p.1.toNat % 2 ^ r.lsize ≠ tk.toNat % 2 ^ r.lsize
      ((tk - r.head).toNat < waits → free →
        becomes { r with slots := r.slots ++ [(tk, (List.range 8).map fun i => s.readWord (entry tk + 8 * i))] } (exec (.ringCommit n tk) s))
      ∧ (waits ≤ (tk - r.head).toNat ∨ ¬ free → becomes { r with errCount := r.errCount + 1, errLast := tk } (exec (.ringCommit n tk) s)))
    ∧ (∀ v : Word,
      let kept := v &&& 0xCF000FFFFFFFFFC0
      (r.rcfg.getLsbD 63 = true → v.getLsbD 63 = true → becomes r (exec (.rcfgWrite n v) s))
      ∧ (r.rcfg.getLsbD 63 = true → v.getLsbD 63 = false → becomes { r with rcfg := kept, head := r.tail, slots := [] } (exec (.rcfgWrite n v) s))
      ∧ (r.rcfg.getLsbD 63 = false → becomes { r with rcfg := kept } (exec (.rcfgWrite n v) s)))
    ∧ becomes { r with errCount := 0 } (exec (.rerrClear n) s)
    ∧ (∀ (die k : Nat) (tag : BitVec 32) (u : Turnout), tag ≠ 0 → s.turnout k = u → u.thresh ≠ 0 → u.armed = true → u.v = true → u.ringNo = n →
      (s.turnouts.filter fun p => (decide (2 ≤ die) || p.1 / 1024 = die) && p.2.v && p.2.tag = tag) = [(k, u)] →
      (u.count + 1 < u.thresh → ∃ t : State, exec (.turnoutCount die tag) s = .next t ∧ unwritten s t ∧ t.cmdRings = s.cmdRings
        ∧ t.turnout k = { u with w1 := u.w1 + 1 } ∧ ∀ j, j ≠ k → t.turnout j = s.turnout j)
      ∧ (u.count + 1 = u.thresh → ∃ t : State, exec (.turnoutCount die tag) s = .next t ∧ unwritten s t ∧ fired u (t.turnout k)
        ∧ (∀ j, j ≠ k → t.turnout j = s.turnout j) ∧ (∀ j, j ≠ n → t.ring j = s.ring j)
        ∧ t.ring n = if r.on = true ∧ waits < 2 ^ r.lsize then { r with tail := r.tail + 1, slots := r.slots ++ [(r.tail, u.cmd.toList)] }
          else { r with firings := r.firings ++ [(k, u.cmd.toList)] }))
    ∧ (∀ (k : Nat) (c : List Word), s.cmdRings.findSome? (fun q => (q.firings.find? fun f => f.1 = k).map fun f => (q.num, f)) = some (n, (k, c)) →
      r.on = true → waits < 2 ^ r.lsize →
      becomes { r with tail := r.tail + 1, slots := r.slots ++ [(r.tail, c)], firings := r.firings.erase (k, c) } (exec (.turnoutInsert k) s))
    ∧ ∀ k : Nat, (s.turnout k).armed = true → ∃ t : State, exec (.turnoutDisarm k) s = .next t ∧ unwritten s t ∧ t.cmdRings = s.cmdRings
      ∧ t.turnout k = { s.turnout k with w0 := (s.turnout k).w0 &&& 0xBFFFFFFFFFFFFFFF } ∧ ∀ j, j ≠ k → t.turnout j = s.turnout j

/-! ## Commands -/

/-- The command w stands committed at the head of ring n, which may dispatch it now (R285, R286): the ring is enabled and its turn among the
rings of its port die has come, no WAIT bit holds it back, the device runs, and its completion word, if it asks for one, has the place `at_`. -/
structure Dispatchable (s : State) (n : Nat) (w : List Nat) (at_ : Option Loc) : Prop where
  num : n < 64
  on : (s.ring n).on = true
  head : ((s.ring n).slots.find? fun p => p.1 = (s.ring n).head).map (fun p => p.2.map fun x => x.toNat) = some w
  wait : w.getD 0 0 / 2 ^ 52 % 2 = 0 ∨ ∀ c ∈ s.commands, c.ring ≠ n
  turn : s.ringTurn n = true
  runs : s.ctl.ready = true ∧ s.ctl.fatal = false ∧ s.ctl.ckpt = none
  compl : (w.getD 1 0 % 2 ^ 56 = 0 ∧ at_ = none)
    ∨ (w.getD 1 0 % 2 ^ 56 ≠ 0 ∧ w.getD 1 0 % 8 = 0 ∧ s.viaWaits (s.spaceVia (s.ring n).rasid) (w.getD 1 0 % 2 ^ 56) 8 = false
      ∧ ∃ p, at_ = some p ∧ s.viaLoc (s.spaceVia (s.ring n).rasid) (w.getD 1 0 % 2 ^ 56) .write = .ok p)

/-- The state as a dispatched command's own checks and action find it: its ticket taken from its ring, its number given out, the page of its
completion word in the translation buffers (R56). -/
def dispatched (s : State) (n : Nat) (w : List Nat) : State :=
  let r := s.ring n
  let compl := w.getD 1 0 % 2 ^ 56
  let s := if compl = 0 then s else s.vaFill (s.spaceVia r.rasid) compl 8 .write
  { (s.serveRing n).putCmdRing { r with head := r.head + 1, slots := r.slots.filter fun p => p.1 != r.head } with nextId := s.nextId + 1 }

/-- The outcome in which ring n's command at `at_` leaves the device as t, with its status word known or not, for a launch or none. -/
def commanded (s t : State) (n : Nat) (w : List Nat) (at_ : Option Loc) (status : Option Nat) (lid : Nat) : Host.Outcome State Fault Refusal :=
  .next { t with commands := t.commands
    ++ [⟨s.nextId, n, (s.ring n).head, w.getD 0 0 / 2 ^ 56, at_, status.map fun v => BitVec.ofNat 64 v, lid⟩] }

/-- R285, R286, R289, Tables 14.4 to 14.6, 14.9: a command whose OPC or FOP names nothing, or that sets a reserved bit, completes with status
0x81, a firmware operation of a ring without PRIV with 0x82, and NOP with 1; a command whose COMPL cannot be written is dropped and counted
in RERR. SHEETNEW, CELLNEW, SHEETEND, LAUNCHEND, TURNARM and SELFTEST have their effects, or answer with their failures. That a number above its
field in word 3 is refused and never taken modulo the field (log 61), and statuses that no table gives (log 31), are the model's reading. -/
def Obligations.FirmwareCommands : Prop :=
  ∀ (s : State) (n : Nat) (w : List Nat) (at_ : Option Loc),
    let r := s.ring n
    let t := dispatched s n w
    let via := t.spaceVia r.rasid
    let W := fun (i : Nat) => w.getD i 0
    let opc := W 0 / 2 ^ 56
    let fop := W 2 % 2 ^ 8
    let clean := W 0 % 2 ^ 50 = 0 ∧ W 1 / 2 ^ 56 = 0
    let fops := [(Instr.sheetnew n, 1), (.cellnew n, 2), (.sheetend n, 3), (.launchend n, 4), (.fwopSelftest n, 5), (.turnarm n, 6)]
    let ends := fun (i : Instr) (t : State) (status : Nat) => exec i s = commanded s t n w at_ (some status) 4096
    (Dispatchable s n w at_ →
      (clean → opc = 7 → ends (.nop n) t 1)
      ∧ (opc = 0 ∨ 7 < opc ∨ (opc = 4 ∧ (fop = 0 ∨ 6 < fop)) → ends (.nop n) t 0x81)
      ∧ (¬ clean → (opc = 7 → ends (.nop n) t 0x81)
        ∧ (∀ q ∈ [(Instr.launch n, 1), (.commit n, 2), (.bind n, 3), (.reduce n, 6)], opc = q.2 → ends q.1 t 0x81)
        ∧ ∀ q ∈ fops, opc = 4 → fop = q.2 → ends q.1 t 0x81)
      ∧ (clean → opc = 4 →
        (fop = 5 → 1536 ≤ W 3 → ends (.fwopSelftest n) t 0x81)
        ∧ (r.rcfg.getLsbD 62 = false → (fop = 5 → W 3 < 1536) → ∀ q ∈ fops, fop = q.2 → ends q.1 t 0x82)
        ∧ (r.rcfg.getLsbD 62 = true →
          (fop = 1 →
            (2 ^ 12 ≤ W 3 ∨ (t.sheet? (W 3)).isSome = true → ends (.sheetnew n) t (0x84 + 2 ^ 8 + 12 * 2 ^ 16))
            ∧ (W 3 < 2 ^ 12 → t.sheet? (W 3) = none →
              let u : State := { t with sheets := t.sheets ++ [⟨W 3, 1, 1, [], [], [], none⟩] }
              ends (.sheetnew n) (u.notifyLine none ⟨sheetDev, W 3⟩) 1))
          ∧ (fop = 3 →
            (2 ^ 12 ≤ W 3 ∨ t.sheet? (W 3) = none → ends (.sheetend n) t (0x84 + 2 ^ 8 + 12 * 2 ^ 16))
            ∧ ∀ sh, W 3 < 2 ^ 12 → t.sheet? (W 3) = some sh → sh.ending = none → exec (.sheetend n) s = commanded s
              { t with sheets := t.sheets.map fun x => if x.num = sh.num then { x with ending := some s.nextId } else x } n w at_ none 4096)
          ∧ (fop = 4 →
            ((∀ l ∈ s.launches, l.lid ≠ W 3) → ends (.launchend n) t 0x85)
            ∧ ((∃ l ∈ s.launches, l.lid = W 3) → ends (.launchend n) (t.endLaunch (W 3) 2) 1))
          ∧ (fop = 5 → W 3 < 1536 →
            let x := t.tile (W 3)
            (t.holdsLaunch (W 3) = true ∨ x.testing = true ∨ x.fenced = true → ends (.fwopSelftest n) t (1 + 2 ^ 62))
            ∧ (t.holdsLaunch (W 3) = false → x.testing = false → x.fenced = false → exec (.fwopSelftest n) s = commanded s
              (t.setTile (W 3) { x with testing := true, testCmd := some s.nextId, testMask := 0x3FF, testFail := 0 }) n w at_ none 4096))
          ∧ (fop = 6 → t.reaches via (W 4) 128 .read = true →
            let t := t.vaTouch via (W 4) 128 .read
            let old := s.turnout (W 3)
            (∀ e, t.cmdWords via (W 4) 8 16 = .error e → ends (.turnarm n) t (0x83 + 2 ^ 8 * e))
            ∧ ∀ v, t.cmdWords via (W 4) 8 16 = .ok v →
            (2 ^ 11 ≤ W 3 ∨ (old.v = true ∧ old.armed = true) → ends (.turnarm n) t (0x84 + 2 ^ 8 + 12 * 2 ^ 16))
            ∧ (s.redWords = [] → W 3 < 2 ^ 11 → old.v = false ∨ old.armed = false → ∃ u : State, exec (.turnarm n) s = .next u ∧ unwritten s u
              ∧ (u.turnout (W 3)).w0 = (BitVec.ofNat 64 (v.getD 0 0) &&& 0xAFC00000FFFFFFFF) ||| 0x4000000000000000
              ∧ (u.turnout (W 3)).w1 = BitVec.ofNat 64 (v.getD 1 0)
              ∧ ∀ i < 8, (u.turnout (W 3)).cmd.getD i 0 = BitVec.ofNat 64 (v.getD (8 + i) 0)))
          ∧ (fop = 2 →
            let sh := W 3 / 2 ^ 32
            let k := W 3 % 2 ^ 32
            let len := W 4 % 2 ^ 32
            let b0 := W 5
            let b1 := W 6
            t.reaches via b0 len .write = true → t.reaches via b1 len .write = true →
            let t := (t.vaTouch via b0 len .write).vaTouch via b1 len .write
            (2 ^ 56 ≤ b0 → 0 < len → ends (.cellnew n) t (0x83 + 2 ^ 8 * 0x33))
            ∧ (∀ e, t.rangeBad via b0 len .write = none → t.rangeBad via b1 len .write = some e → ends (.cellnew n) t (0x83 + 2 ^ 8 * e))
            ∧ (t.rangeBad via b0 len .write = none → t.rangeBad via b1 len .write = none →
            (2 ^ 12 ≤ sh ∨ 2 ^ 24 ≤ k ∨ t.sheet? sh = none ∨ (t.cell? k).isSome = true → ends (.cellnew n) t (0x84 + 2 ^ 8 + 12 * 2 ^ 16))
            ∧ (sh < 2 ^ 12 → k < 2 ^ 24 → (t.sheet? sh).isSome = true → t.cell? k = none → b0 % 64 = 0 → b1 % 64 = 0 →
              ∃ (u : State) (x : Cell), exec (.cellnew n) s = .next u ∧ u.mem = ((t.zeroRange via b0 len).zeroRange via b1 len).mem
                ∧ u.cells = s.cells ++ [x] ∧ x.num = k ∧ x.sheet = sh ∧ x.input = true ∧ x.state = 0
                ∧ x.cur = false ∧ x.version = 0 ∧ x.bytes = len ∧ x.buf0 = BitVec.ofNat 64 b0 ∧ x.buf1 = BitVec.ofNat 64 b1
                ∧ x.formula = none ∧ x.pin0 = 0 ∧ x.pin1 = 0))))))
    ∧ (n < 64 → r.on = true → (r.slots.find? fun p => p.1 = r.head).map (fun p => p.2.map fun x => x.toNat) = some w → opc = 7 →
      W 0 / 2 ^ 52 % 2 = 0 → s.ctl.ready = true → s.ctl.fatal = false → s.ctl.ckpt = none → s.ringTurn n = true → W 1 % 8 ≠ 0 → ∃ u : State, exec (.nop n) s = .next u
        ∧ unwritten s u ∧ u.commands = s.commands ∧ u.ring n = { r with
          head := r.head + 1
          slots := r.slots.filter fun p => p.1 != r.head
          errCount := r.errCount + 1
          errLast := r.head })

/-- R285 to R288, R290, R375, R247, Tables 14.5, 14.6: a LAUNCH that may start asks for its waves and makes its launch active; COMMIT and BIND go to
their sheet's sluice; COPY queues a transfer on its channel, or waits there while eight are queued; REDUCE sends a packet; each keeps its completion
for when it is done. A completion word is written at its place, and a launch's number is then free; a launch completes once nothing of it is left; a
sheet goes with its cells once nothing holds it. Address spaces, statuses that no table gives, numbers above their fields, and when a launch is done
are the model's reading (logs 15, 31, 32, 61). -/
def Obligations.CommandsAndCompletion : Prop :=
  (∀ (s : State) (n : Nat) (w : List Nat) (at_ : Option Loc), Dispatchable s n w at_ → w.getD 0 0 % 2 ^ 50 = 0 → w.getD 1 0 / 2 ^ 56 = 0 →
    let r := s.ring n
    let t := dispatched s n w
    let via := t.spaceVia r.rasid
    let W := fun (i : Nat) => w.getD i 0
    let opc := W 0 / 2 ^ 56
    let ends := fun (i : Instr) (t : State) (status : Nat) => exec i s = commanded s t n w at_ (some status) 4096
    let notes := fun (u : State) (lid : Nat) => u.commands = s.commands ++ [⟨s.nextId, n, r.head, opc, at_, none, lid⟩]
    let asks := fun (t : State) (num : Nat) (op : SluiceOp) =>
      commanded s { t with sheets := t.sheets.map fun z => if z.num = num then { z with ops := z.ops ++ [op] } else z } n w at_ none 4096
    (opc = 1 →
      let lid := W 5 / 2 ^ 32 % 2 ^ 16
      let nw := W 5 % 2 ^ 32
      let formed := W 3 % 8 = 0 ∧ nw ≠ 0 ∧ nw ≤ 2 ^ 20 ∧ ∀ j < 8, W 4 % 2 ^ 16 / 2 ^ (2 * j) % 4 ≠ 3
      (¬ formed → ends (.launch n) t 0x81)
      ∧ (formed → (4095 < lid ∨ (∃ l ∈ s.launches, l.lid = lid) → ends (.launch n) t 0x85)
        ∧ (lid ≤ 4095 → (∀ l ∈ s.launches, l.lid ≠ lid) →
          let image := s.images.find? fun i => i.addr.toNat = W 2 && i.asid = r.rasid
          let len := headLen (W 2) image
          t.reaches via (W 2) len .read = true → t.reaches via (W 3) 64 .read = true →
          let t := (t.vaTouch via (W 2) len .read).vaTouch via (W 3) 64 .read
          (∀ e, t.headerCode via (W 2) image = some e → ends (.launch n) t (0x83 + 2 ^ 8 * e))
          ∧ ∀ args, t.headerCode via (W 2) image = none → t.cmdWords via (W 3) 8 8 = .ok args →
            (image.bind (t.headerAt via) = none → ends (.launch n) t (0x84 + 2 ^ 8 * 0x65 + 2 ^ 16 * 4))
            ∧ (∀ img, image = some img → img.proper = true → t.cmdBytes via img.addr.toNat img.head.length = .ok img.head →
              t.headerAt via img = some img.header)
            ∧ ∀ img h, image = some img → t.headerAt via img = some h → s.redWords = [] →
            t.canHold h (W 4 / 2 ^ 56) (W 4 / 2 ^ 48 % 2 ^ 8) = true → t.cellsThere h = true →
            ∃ (u : State) (l : Launch), exec (.launch n) s = .next u ∧ unwritten s u ∧ notes u lid ∧ u.launches = s.launches ++ [l] ∧ l.lid = lid ∧ l.cmd = s.nextId
              ∧ l.asid = r.rasid ∧ l.image = { img with header := h } ∧ l.ending = false ∧ l.prio = BitVec.ofNat 2 (W 0 / 2 ^ 54)
              ∧ l.det = decide (W 0 / 2 ^ 53 % 2 = 1) ∧ l.cls = BitVec.ofNat 2 (W 0 / 2 ^ 50)
              ∧ u.waveReqs.length = s.waveReqs.length + nw
              ∧ ∀ i < nw, ∃ q : WaveReq, u.waveReqs[s.waveReqs.length + i]? = some q ∧ q.num = s.nextId + 1 + i ∧ q.lid = lid ∧ q.entry = img.text
                ∧ q.row = h.row ∧ q.rows = (W 4 / 2 ^ 56, W 4 / 2 ^ 48 % 2 ^ 8)
                ∧ ∀ k < 8, q.args.getD k 0 = BitVec.ofNat 64 (args.getD k 0))))
    ∧ (opc = 2 → t.reaches via (W 3) 8 .read = true →
      let t := t.vaTouch via (W 3) 8 .read
      ∀ v, t.cmdWords via (W 3) 8 1 = .ok [v] → v ≤ 64 → t.reaches via (W 3 + 8) (4 * v) .read = true →
      let t := t.vaTouch via (W 3 + 8) (4 * v) .read
      ∀ cs, t.cmdWords via (W 3 + 8) 4 v = .ok cs →
      (s.sheet? (W 2 / 2 ^ 32) = none → ends (.commit n) t (0x84 + 2 ^ 8 + 2 ^ 16 * 12))
      ∧ ∀ sh, s.sheet? (W 2 / 2 ^ 32) = some sh → W 3 % 8 = 0 → exec (.commit n) s = asks t sh.num (.commit cs none none (some s.nextId)))
    ∧ (opc = 3 →
      let lid := W 4
      (s.launch? lid = none → ends (.bind n) t 0x85)
      ∧ ∀ l x, s.launch? lid = some l → s.cell? (W 2) = some x →
        (W 3 = 0 → exec (.bind n) s = asks t x.sheet (.edit none x.num 0 none (some s.nextId) none))
        ∧ (W 3 ≠ 0 → W 3 % 64 = 0 → t.reaches via (W 3) 64 .read = true →
          let t := t.vaTouch via (W 3) 64 .read
          ∀ v home, t.cmdWords via (W 3) 8 8 = .ok v → formulaBad v = false → v.getD 1 0 / 2 ^ 63 = 0 →
          s.homeTile lid (v.getD 0 0 / 2 ^ 62) = some home →
          let f := formulaOf v (inlinePrecs v) lid home (BitVec.ofNat 64 (W 3))
          t.inText lid f.entry = true →
          exec (.bind n) s = asks t x.sheet (.edit (some f) x.num (BitVec.ofNat 64 (W 3)) none (some s.nextId) none)))
    ∧ (opc = 5 →
      let tile := W 2 % 2 ^ 11
      let ch := W 2 / 2 ^ 16 % 4
      let c := s.chan tile ch
      let via : Via := ⟨tile, s.rootOf r.rasid, true⟩
      (∀ k ∈ s.copyWaits, k.ring ≠ n) → s.redWords = [] → (1536 ≤ tile → ends (.copy n) t 0x81)
      ∧ (tile < 1536 → t.reaches via (W 3) 336 .read = true →
      let t := t.vaTouch via (W 3) 336 .read
      (∀ e, t.cmdWords via (W 3) 8 42 = .error e → ends (.copy n) t (0x83 + 2 ^ 8 * e))
      ∧ ∀ v, t.cmdWords via (W 3) 8 42 = .ok v → (s.tile tile).fenced = false →
        let f : Fields := Vector.ofFn fun i => BitVec.ofNat 64 (v.getD i.val 0) &&& shadowMask i.val
        let k : CopyWait := ⟨s.nextId, n, tile, ch, r.rasid, f⟩
        let t1 := t.modStrand (supSlot tile) fun st =>
          { st with regs := { st.regs with shadow := st.regs.shadow.setIfInBounds ch f } }
        t1.launchCheck (supSlot tile) (t1.copyStrand k) f (outsideUnion (t1.unionOf tile r.rasid)) = none →
        (8 ≤ c.queue.length → ∃ u : State, exec (.copy n) s = .next u ∧ unwritten s u ∧ notes u 4096 ∧ u.copyWaits = s.copyWaits ++ [k])
        ∧ (c.queue.length < 8 → ∃ (u : State) (tr : Transfer), exec (.copy n) s = .next u ∧ unwritten s u ∧ notes u 4096
          ∧ tr.cmd = some s.nextId ∧ tr.id = c.nextid ∧ tr.fields = f ∧ tr.sup = true ∧ tr.ptroot = s.rootOf r.rasid ∧ tr.x = 0
          ∧ u.chan tile ch = { c with nextid := c.nextid + 1, doneId := if c.queue = [] then c.nextid else c.doneId, queue := c.queue ++ [tr] })))
    ∧ (opc = 6 →
      let tile := W 2 % 2 ^ 11
      let ty := W 2 / 2 ^ 16 % 2 ^ 4
      let a : Nat := W 3
      let b : Nat := W 4
      (1536 ≤ tile ∨ (ty ≠ 0 ∧ ty ≠ 1 ∧ ty ≠ 11) → ends (.reduce n) t 0x81)
      ∧ (tile < 1536 → ty = 0 ∨ ty = 1 ∨ ty = 11 → (s.tile tile).fenced = false → a % 128 = 0 → b % 8 = 0 →
        outsideUnion (s.unionOf tile r.rasid) a (a + 127) = none → outsideUnion (s.unionOf tile r.rasid) b (b + 15) = none →
        sound s (s.padBase tile + b) 16 →
        let w0 := s.readWord (s.padBase tile + b)
        let w1 := s.readWord (s.padBase tile + b + 8)
        (∀ e, s.recordBad tile false w0 w1 = some e → ends (.reduce n) t (0x84 + 2 ^ 8 * e + 2 ^ 16 * 4))
        ∧ (s.recordBad tile false w0 w1 = none → s.tileAt (recRow w0) (recCol w0) = none →
          ends (.reduce n) t (0x84 + 2 ^ 8 * 0x35 + 2 ^ 16 * 8))
        ∧ (s.recordBad tile false w0 w1 = none → (s.tileAt (recRow w0) (recCol w0)).isSome = true →
          ∃ (u : State) (y : Packet), exec (.reduce n) s = .next u ∧ unwritten s u ∧ notes u 4096
          ∧ u.packets = s.packets ++ [y] ∧ y.send = false ∧ y.rec0 = w0 ∧ y.rec1 = w1 ∧ y.ty = ty ∧ y.src = tile ∧ y.input = 0
          ∧ y.place = (s.tileRow tile, s.tileCol tile) ∧ y.cmd = some s.nextId
          ∧ y.pay = a ∧ y.data = none))))
  ∧ (∀ (s : State) (c : Command) (v : Word), s.commands.find? (fun k => k.cid = c.cid) = some c → c.result = some v →
    let left := s.commands.filter fun k => k.cid != c.cid
    let launches := if c.opc = 1 ∧ c.lid ≠ 4096 then s.launches.filter fun l => l.lid != c.lid else s.launches
    (c.compl = none → exec (.completionWord c.cid) s = .next { s with commands := left, launches := launches })
    ∧ ∀ p, c.compl = some p → p.dev = thisDev → s.region p.addr = .hbm → s.redWords = [] →
      ∃ t : State, exec (.completionWord c.cid) s = .next t ∧ written s t p.addr (natToBytes 8 v.toNat) ∧ t.commands = left ∧ t.launches = launches)
  ∧ (∀ (s : State) (l : Launch), s.launch? l.lid = some l → s.launchDone l.lid = true → (∃ c ∈ s.commands, c.cid = l.cmd ∧ c.result = none) →
    (∀ r ∈ s.redWords, r.lid ≠ l.lid) →
    ∃ t : State, exec (.launchComplete l.lid) s = .next t ∧ unwritten s t ∧ (∀ n, t.residOf n l.lid = none)
      ∧ (t.commands = s.commands.map fun c => if c.cid = l.cmd ∧ c.result = none
        then { c with result := some (BitVec.ofNat 64 (l.status.toNat % 2 ^ 16 + l.lid * 2 ^ 32)) } else c)
      ∧ t.launches = s.launches.map fun k => if k.lid = l.lid then { k with ending := true } else k)
  ∧ ∀ (s : State) (sh : Sheet) (cid : Nat), s.sheet? sh.num = some sh → sh.ending = some cid → sh.seeds = [] → sh.ops = [] →
    let mine := s.cells.filter fun c => c.sheet = sh.num
    ((∃ c ∈ mine, c.pin0 ≠ 0) → exec (.sheetDestroy sh.num) s = .next s)
    ∧ ((∀ c ∈ mine, c.pin0 = 0 ∧ c.pin1 = 0) → (∀ w ∈ s.cellWaits, ∀ c ∈ mine, c.num ≠ w.cell) →
      let t : State := { s with sheets := s.sheets.filter fun x => x.num != sh.num, cells := s.cells.filter fun c => c.sheet != sh.num }
      exec (.sheetDestroy sh.num) s = .next { mine.foldl (fun u c => u.notifyLine none ⟨cellDev, c.num⟩) (t.notifyLine none ⟨sheetDev, sh.num⟩) with
        commands := s.commands.map fun c => if c.cid = cid ∧ c.result = none then { c with result := some 1 } else c })

/-! ## System registers and the supervisor -/

/-- The register number k places after a first one. -/
def sysNum (first k : Nat) : BitVec 12 := BitVec.ofNat 12 (first + k)

/-- R79, R303, R304, R306, R308, R309, R317, R324, Tables 4.5, 11.5, 15.1: sysr gives d and q the value of each register that a strand may read, and
sysw sets each that it may write, without its reserved bits, and leaves the others as they are; SEVENT pops the event queue, and reads 0 while it is
empty; WENT is an entry of the weir table; CPCTL lets a halted channel go on, or cancels its transfer; the registers of the window belong to the strand
that TSEL selects, and TSTATE is 3 for one that was spilled; a bank that MCSEL does not name reads 0 and ignores writes; TRUN lets the selected strand
go on at its TEPC, and raises an alignment fault where TEPC is no multiple of 4 (the model's reading, log 64). Ignored writes are the model's reading
too (log 34). -/
def Obligations.SystemRegisters : Prop :=
  ∀ (s : State) (st : Strand) (m : Bool) (d a : Spec),
    let n := s.cur.tile
    let x := s.tile n
    let r := st.regs
    let A := st.rs a
    let readable := fun (num : BitVec 12) => s.Clear st { useD d with
      priv := if userRefused num.toNat false then some (num.setWidth 64) else none
      aborts := num.toNat = 0x84 }
    let gives := fun (num : BitVec 12) (v : Word) => readable num → exec (.sysr m d num) s = .next (s.completes m (st.putS d v))
    let writable := fun (num : BitVec 12) => s.Clear st {
      srcs := [(0, false, a)]
      priv := if userRefused num.toNat true then some (num.setWidth 64) else none
      aborts := true }
    let sets := fun (num : BitVec 12) (st' : Strand) => writable num → exec (.sysw m num a) s = .next (s.completes m st')
    let makes := fun (num : BitVec 12) (t : State) => writable num → st.sup = true → exec (.sysw m num a) s = .next (t.completes m st)
    (∀ q ∈ [(0x000#12, r.fctl), (0x001#12, r.slim), (0x002#12, r.padlo), (0x003#12, r.padhi),
        (0x004#12, BitVec.ofNat 64 (256 * st.depth + r.txReason.toNat)), (0x005#12, r.txaddr), (0x006#12, r.cellbase), (0x007#12, r.cellgen),
        (0x010#12, BitVec.ofNat 64 ((if st.det then 4 else 0) + (if st.sup && st.ie then 2 else 0) + (if st.sup then 1 else 0))),
        (0x011#12, if st.det then st.committed else x.cycle), (0x012#12, BitVec.ofNat 64 s.devno.toNat), (0x040#12, r.ptroot),
        (0x041#12, s.protlo), (0x042#12, s.prothi), (0x080#12, st.tvec), (0x081#12, st.sepc), (0x082#12, st.scause), (0x083#12, st.sdetail),
        (0x085#12, x.sevdet), (0x090#12, x.tsel), (0x096#12, 0), (0x0A0#12, x.wsel), (0x0B0#12, x.mcsel)],
      gives q.1 q.2)
    ∧ (∀ k < 8, gives (sysNum 0x008 k) (r.cycw.getD k 0)) ∧ (∀ k < 32, gives (sysNum 0x020 k) (BitVec.ofNat 64 (r.lfsr.getD k 0).toNat))
    ∧ (∀ k < 4, gives (sysNum 0x050 k) (s.chan n k).cpfa ∧ gives (sysNum 0x054 k) (s.chan n k).cpfx)
    ∧ (∀ e l, x.events = e :: l → readable 0x084#12 → exec (.sysr m d 0x084#12) s = .next
      ((s.setTile n { x with sevdet := e.detail, events := l ++ x.waiting.take 1, waiting := x.waiting.drop 1 }).completes m (st.putS d e.entry)))
    ∧ (x.events = [] → readable 0x084#12 → exec (.sysr m d 0x084#12) s = .next ((s.setTile n x).completes m (st.putS d 0)))
    ∧ (x.weir[x.wsel.toNat]? = none → gives 0x0A1#12 0)
    ∧ (∀ e, x.weir[x.wsel.toNat]? = some e → e.member < 32 → s.lineAddr e.sp e.line / 64 < 2 ^ 55 → readable 0x0A1#12 →
      ∃ v : Word, exec (.sysr m d 0x0A1#12) s = .next (s.completes m (st.putS d v)) ∧ v.getLsbD 63 = true ∧ v.getLsbD 62 = e.sp
        ∧ v.toNat / 2 ^ 57 % 2 ^ 5 = e.member ∧ v.getLsbD 56 = e.sleep ∧ v.getLsbD 55 = e.hit ∧ v.toNat % 2 ^ 55 = s.lineAddr e.sp e.line / 64)
    ∧ (s.selected n = none → gives 0x097#12 (if s.selSpilled n then 3 else 0))
    ∧ (∀ y p, x.tsel.toNat / 2 ^ 16 % 2 ^ 11 = n → x.tsel.toNat / 8 % 4 ≠ 3 → y = 8 * (x.tsel.toNat / 8 % 4) + x.tsel.toNat % 8 →
      s.strand? (slotOf n y) = none → assocGet x.lastSpilled y = some p → p.toNat % 2 ^ 38 = x.tsel.toNat % 2 ^ 38 → gives 0x097#12 3)
    ∧ (∀ k < 4, let c := s.chan n k
      let becomes := fun (c' : Chan) => makes (sysNum 0x058 k) (s.setChan none n k c')
      (c.halted = false ∨ A.toNat % 4 = 0 → makes (sysNum 0x058 k) s) ∧ gives (sysNum 0x058 k) 0
      ∧ (c.halted = true → A.toNat % 4 = 1 → becomes { c with halted := false, cause := 0 })
      ∧ (c.halted = true → 2 ≤ A.toNat % 4 → ∀ h r, c.queue = h :: r →
        becomes { c with halted := false, cause := 0, queue := { h with cancelled := true } :: r }))
    ∧ (bankSel n x.mcsel = none → (∀ num ∈ [0x0B1#12, 0x0B2#12, 0x0B3#12, 0x0B4#12], gives num 0)
      ∧ ∀ num ∈ [0x0B1#12, 0x0B4#12], makes num s)
    ∧ (let v := x.mcsel.toNat
       (bankSel n x.mcsel = none ↔ v / 2 ^ 14 % 4 = 3 ∨ (v / 2 ^ 14 % 4 = 2 ∧ 27 ≤ v % 2 ^ 5)))
    ∧ (∀ y k, s.selected n = some (y, k) →
      (∀ q ∈ [(0x091#12, k.tepc), (0x092#12, k.tcause), (0x093#12, k.tdetail), (0x094#12, k.regs.slim), (0x095#12, BitVec.ofNat 64 k.stackBot),
          (0x098#12, k.regs.padlo), (0x099#12, k.regs.padhi), (0x09A#12, k.regs.ptroot)], gives q.1 q.2)
      ∧ (∀ q ∈ [(Run.ready, 0), (.out, 1), (.parked, 4), (.held .again, 5), (.asleep, 6)], k.run = q.1 → gives 0x097#12 (BitVec.ofNat 64 q.2))
      ∧ (∀ q ∈ [(0x091#12, { k with tepc := A }), (0x094#12, { k with regs := { k.regs with slim := A } }),
          (0x098#12, { k with regs := { k.regs with padlo := A } }), (0x099#12, { k with regs := { k.regs with padhi := A } }),
          (0x09A#12, { k with regs := { k.regs with ptroot := A &&& 0x00000FFFFFF0FFFF } })], makes q.1 (s.setStrand y q.2))
      ∧ (k.run = .preempted none → gives 0x097#12 2)
      ∧ (k.run = .out → A.getLsbD 63 = false → A.toNat % 2 ^ 38 = x.tsel.toNat % 2 ^ 38 →
        (k.tepc.toNat % 4 = 0 → (s.debugger = true → s.ctl.lcs = 2 → k.tcause ≠ 0x21) →
          makes 0x096#12 (s.setStrand y { k with run := .ready, regs := { k.regs with pc := k.tepc } }))
        ∧ (k.tepc.toNat % 4 ≠ 0 → writable 0x096#12 → st.sup = true →
          exec (.sysw m 0x096#12 a) s = .next (s.faultTurn s.cur 7 k.tepc r.pc))))
    ∧ (s.selected n = none → ∀ num ∈ [0x091#12, 0x092#12, 0x093#12, 0x094#12, 0x095#12, 0x098#12, 0x099#12, 0x09A#12], gives num 0)
    ∧ (∀ b, bankSel n x.mcsel = some b →
      let k := s.bankOf b
      (∀ q ∈ [(0x0B2#12, k.addr), (0x0B3#12, k.detail), (0x0B4#12, BitVec.ofNat 64 (k.corr.toNat * 2 ^ 32 + k.unc.toNat))], gives q.1 q.2)
      ∧ (readable 0x0B1#12 → ∃ v : Word, exec (.sysr m d 0x0B1#12) s = .next (s.completes m (st.putS d v)) ∧ v.getLsbD 63 = k.v
        ∧ v.getLsbD 62 = k.ovf ∧ v.toNat / 2 ^ 60 % 4 = k.cls.toNat ∧ v.toNat / 2 ^ 16 % 2 ^ 8 = k.src.toNat ∧ v.toNat / 2 ^ 6 % 2 ^ 5 = k.strand.toNat)
      ∧ (A = 0 → makes 0x0B1#12 (s.modBank b fun k => { Bank.initial with corr := k.corr, unc := k.unc }))
      ∧ makes 0x0B4#12 (s.modBank b fun k => { k with corr := 0, unc := 0 }))
    ∧ sets 0x000#12 { st with regs := { r with fctl := if 5 ≤ A.toNat % 8 then A &&& 0x1F00 else A &&& 0x1F07 } }
    ∧ (∀ k < 32, sets (sysNum 0x020 k) { st with regs := { r with lfsr := r.lfsr.setIfInBounds k (BitVec.ofNat 32 A.toNat) } })
    ∧ (∀ num ∈ [0x004#12, 0x005#12, 0x006#12, 0x007#12, 0x011#12, 0x012#12], sets num st)
    ∧ (∀ k < 8, sets (sysNum 0x008 k) st)
    ∧ (st.sup = false → sets 0x010#12 st)
    ∧ (st.sup = true → ∀ q ∈ [(0x001#12, { st with regs := { r with slim := A } }), (0x002#12, { st with regs := { r with padlo := A } }),
        (0x003#12, { st with regs := { r with padhi := A } }), (0x010#12, { st with ie := A.getLsbD 1 }),
        (0x040#12, { st with regs := { r with ptroot := A &&& 0x00000FFFFFF0FFFF } }), (0x080#12, { st with tvec := A &&& 0xFFFFFFFFFFFFFFC0 }),
        (0x081#12, { st with sepc := A })], sets q.1 q.2)
    ∧ (∀ q ∈ [(0x041#12, { s with protlo := A &&& 0x000000FFFFFF0000 }), (0x042#12, { s with prothi := A &&& 0x000000FFFFFF0000 }),
        (0x090#12, s.setTile n { x with tsel := A }), (0x0A0#12, s.setTile n { x with wsel := A &&& 0x7FF }),
        (0x0B0#12, s.setTile n { x with mcsel := A &&& 0xFFFF })], makes q.1 q.2)

/-- R43, R58, R306, R307, R309, R318, R321, R322, R325, R326: tlbinv removes what it selects from every buffer, and holds its strand while
an access that used a removed entry is unperformed, in flight or held back in a write set; selftest holds its strand until the test ends, and
then gives FAIL, or answers BUSY; an event that the supervisor takes saves pc and enters at TVEC. The firmware raises SLIM to the stack's
bottom once, answers the services of trap in s0, lets a break go on unless a debugger holds it, and ends the launch of every other fault with
status 0x02 and the fault's code, that of an event whose strand is gone as it reads the event; a debugger resumes a break in the state DEBUG; writes of
MCSTATUS and MCCOUNT clear a bank. The order of what a strand's turn recognises is the model's reading (log 25), and so are SSKIPN (log 43), the
answer BUSY of a tile that is being tested already (log 35), and where an A of selftest out of range is judged (log 73). -/
def Obligations.SupervisorSteps : Prop :=
  (∀ (s : State) (st : Strand) (m : Bool) (d a : Spec),
    let A := st.rs a
    let forms : List (Instr × List (Nat × Bool × Spec) × (Leaf → Bool)) :=
      [(.tlbinvPage m a, [(0, false, a)], fun l => decide (l.vbase ≤ A.toNat ∧ A.toNat < l.vbase + pageSize l.level
          ∧ (l.entry.getLsbD 6 = true ∨ l.asid = asidOf st.regs.ptroot))),
        (.tlbinvAsid m a, [(0, false, a)], fun l => decide (l.asid = A.setWidth 16 ∧ l.entry.getLsbD 6 = false)),
        (.tlbinvAll m, [], fun _ => true)]
    let flushed := fun (sel : Leaf → Bool) => ({ s with
      tiles := s.tiles.map fun p => (p.1, { p.2 with tlb := p.2.tlb.filter fun l => !sel l })
      rows := s.rows.map fun p => (p.1, { p.2 with tlb := p.2.tlb.filter fun l => !sel l }) } : State)
    let inFlight := fun (l : Leaf) => ∃ e ∈ s.flight, e.done = false ∧ e.id < s.nextId ∧ e.trans = some l
    (∀ q ∈ forms, s.Clear st { srcs := q.2.1, priv := wordDetail q.1, aborts := true } →
      (st.run = .ready → (∀ e ∈ s.flight, e.done = false → ∀ l, e.trans = some l → q.2.2 l = false) → (∀ l ∈ s.heldLeaves, q.2.2 l = false) →
        exec q.1 s = .next ((flushed q.2.2).completes m st))
      ∧ (st.run = .ready → ∀ l, (inFlight l ∨ l ∈ s.heldLeaves) → q.2.2 l = true →
        ∃ gone, l ∈ gone ∧ exec q.1 s = .next ((flushed q.2.2).setStrand s.cur { st with run := .held (.tlbinv s.nextId gone), mark := m }))
      ∧ ∀ mark gone, st.run = .held (.tlbinv mark gone) →
        ((∀ e ∈ s.flight, e.id < mark → e.done = false → ∀ l, e.trans = some l → l ∉ gone) → (∀ l ∈ s.heldLeaves, l ∉ gone) →
          exec q.1 s = .next (s.completes m st))
        ∧ ∀ l ∈ gone, ((∃ e ∈ s.flight, e.id < mark ∧ e.done = false ∧ e.trans = some l) ∨ l ∈ s.heldLeaves) →
          exec q.1 s = .next (s.setStrand s.cur { st with mark := m }))
    ∧ (s.Clear st { srcs := [(0, false, a)], dst := some (false, d), priv := wordDetail (.selftest m d a), aborts := true } →
      let x := s.tile s.cur.tile
      (st.run = .ready → A.toNat < 1024 → (s.holdsLaunch s.cur.tile = true ∨ x.testing = true) →
        exec (.selftest m d a) s = .next (s.completes m (st.putS d 0x4000000000000000)))
      ∧ (st.run = .ready → A.toNat < 1024 → s.holdsLaunch s.cur.tile = false → x.testing = false →
        exec (.selftest m d a) s = .next ((s.setTile s.cur.tile { x with
          testing := true
          testCmd := none
          testMask := if A = 0 then 0x3FF else BitVec.ofNat 10 A.toNat }).setStrand s.cur { st with run := .held .selftest, mark := m }))
      ∧ (st.run = .ready → 1024 ≤ A.toNat → ∃ w : BitVec 32, encode (.selftest m d a) = some w ∧
        exec (.selftest m d a) s = .next (s.faultTurn s.cur 1 (BitVec.ofNat 64 (6 * 2 ^ 32 + w.toNat)) st.regs.pc))
      ∧ (st.run = .held .selftest → x.testing = false →
        exec (.selftest m d a) s = .next (s.completes m (st.putS d (BitVec.ofNat 64 (2 ^ 63 + x.testFail.toNat)))))))
  ∧ ∀ (s : State) (n : Nat) (v : Word),
    let x := s.tile n
    (∀ st, s.strand? ⟨n, .m, 0⟩ = some st → st.sup = true → st.ie = true → st.run = .ready → x.events ≠ [] →
      exec (.eventTake n) s = .next (s.setStrand ⟨n, .m, 0⟩ { st with
        sepc := st.regs.pc
        sskipn := st.regs.skipn
        ie := false
        regs := { st.regs with pc := st.tvec, skipn := 0 } }))
    ∧ (x.events = [] → exec (.seventRead n) s = .next (s.setTile n x))
    ∧ (∀ e l, x.events = e :: l →
      let popped := s.setTile n { x with sevdet := e.detail, events := l ++ x.waiting.take 1, waiting := x.waiting.drop 1 }
      (e.entry.getLsbD 62 = false ∨ (∀ k ∈ s.launches, e.cmd ≠ some k.cmd) → exec (.seventRead n) s = .next popped)
      ∧ ∀ k, e.entry.getLsbD 62 = true → s.launches.find? (fun k => e.cmd = some k.cmd) = some k →
        exec (.seventRead n) s = .next (popped.endLaunch k.lid (BitVec.ofNat 64 (2 + 2 ^ 8 * (e.entry.toNat / 2 ^ 40 % 2 ^ 8)))))
    ∧ (∀ y st, s.selected n = some (y, st) → st.run = .out → v.toNat % 2 ^ 38 = x.tsel.toNat % 2 ^ 38 →
      let goesOn := fun (k : Strand) =>
        exec (.trunResume n v) s = .next (s.setStrand y { k with run := .ready, regs := { k.regs with pc := st.tepc } })
      let inS0 := fun (w : Word) => { st with regs := st.regs.setS 0 w }
      (v.getLsbD 63 = true → st.tcause.toNat ≠ 0x20 → st.tcause.toNat ≠ 0x21 →
        (st.tcause.toNat = 5 → st.regs.slim.toNat ≤ st.stackBot) →
        exec (.trunEndLaunch n v) s = .next (s.endLaunch st.lid (BitVec.ofNat 64 (2 + 2 ^ 8 * (st.tcause.toNat % 2 ^ 8)))))
      ∧ (v.getLsbD 63 = false → st.tepc.toNat % 4 = 0 →
        (st.tcause = 5 → st.stackBot < st.regs.slim.toNat → goesOn { st with regs := { st.regs with slim := BitVec.ofNat 64 st.stackBot } })
        ∧ (st.tcause = 0x20 →
          (st.tdetail = 1 → goesOn (inS0 (if st.det then st.committed else x.cycle)))
          ∧ (st.tdetail = 2 → goesOn (inS0 (BitVec.ofNat 64 st.lid)))
          ∧ (st.tdetail ≠ 1 → st.tdetail ≠ 2 → goesOn (inS0 0xFFFFFFFFFFFFFFFF)))
        ∧ (st.tcause = 0x21 → ¬ (s.debugger = true ∧ s.ctl.lcs = 2) → goesOn st)))
    ∧ (∀ y st, s.strand? y = some st → s.debugger = true → s.ctl.lcs = 2 → st.run = .out → st.tcause = 0x21 → st.tepc.toNat % 4 = 0 →
      exec (.hostDebuggerResume y) s = .next (s.setStrand y { st with run := .ready, regs := { st.regs with pc := st.tepc } }))
    ∧ ∀ b, bankSel n x.mcsel = some b → ∃ t u : State, exec (.mcstatusClear n 0) s = .next t ∧ exec (.mccountClear n) s = .next u
      ∧ t.bankOf b = { Bank.initial with corr := (s.bankOf b).corr, unc := (s.bankOf b).unc }
      ∧ u.bankOf b = { s.bankOf b with corr := 0, unc := 0 } ∧ (v ≠ 0 → exec (.mcstatusClear n v) s = .next s)

/-! ## Between instructions, and errors -/

/-- R52, R54, R56, R57, R63, R91, R112, R299, R300, R310, R315, R316, R318, R319, R321, R356: an annulled word spends its turn; a waiting
delivery is taken as a fault; a walk fills the buffers, or its strand takes the fault unless something stands before it; a lane's chunk
commits once what it issued is done, or is squashed when what it read was written, and a lane whose ldc waits for its word contributes an
empty one, as one asleep does; a bank logs an error and counts it; the scrubber logs what it finds in a word's own bank; a code store is
reloaded from a signed image, and a tile whose tables are lost is fenced; a fatal error sets FATAL, ends every launch and disables every
ring; a link that fails five times is fatal; a self-test leaves the tile cleared; a remote access without a response fails. Syndromes are
free values (log 8). The model's readings are these: that an ldc that waits is a retry of its lane (log 20); what an image that does not verify leads
to (log 59), and where a reloaded supervisor enters (log 6), with the registers it has but pc and SKIPN, and with IE = 1 (log 25); the class under
which the scrubber logs, and the fence that a self-test leaves to the firmware (log 35); and that a fatal error ends a checkpoint (log 36). -/
def Obligations.MachineSteps : Prop :=
  (∀ (s : State) (st : Strand), s.strand? s.cur = some st →
    (st.regs.skipn ≠ 0 → st.chunkStop {} = false → exec .annulledWord s = .next (s.setStrand s.cur { st with
      regs := { st.regs with pc := st.regs.pc + 4, skipn := st.regs.skipn - 1 }
      chunk := st.chunk.map fun c => { c with count := c.count + 1 } }))
    ∧ ∀ code detail l, code < 256 → st.asyncs = (code, detail) :: l →
      exec .asyncDelivery s = .next ((s.setStrand s.cur { st with asyncs := l }).takeFault s.cur true code detail st.regs.pc))
  ∧ (∀ (s : State) (x : SlotId) (st : Strand) (miss : Miss), s.strand? x = some st → st.uid = miss.uid → miss.who = x →
    st.run = .held (.walk miss.va miss.kind) → s.walks = [miss] → miss.walking = true → miss.va < 2 ^ 56 →
    (∀ l, s.walkFrom miss.ptroot miss.va = .ok l → ∃ t : State, exec (.translationWalk x) s = .next t ∧ unwritten s t ∧ t.walks = []
      ∧ t.strand? x = some { st with run := .ready } ∧ l ∈ (t.tile x.tile).tlb ∧ l ∈ (t.rowAt (s.tileRow x.tile)).tlb
      ∧ ((s.tile x.tile).tlb.length ≤ 64 → (t.tile x.tile).tlb.length ≤ 64))
    ∧ ∀ c, s.walkFrom miss.ptroot miss.va = .error c →
      (st.preReq = false → st.asyncs = [] → st.tx = none →
        exec (.translationWalk x) s = .next (({ s with walks := [] } : State).faultTurn x (if c < 0x40 then 8 else 9)
          (BitVec.ofNat 64 (c * 2 ^ 56 + miss.va)) st.regs.pc))
      ∧ ((st.preReq = true ∨ st.asyncs ≠ []) →
        exec (.translationWalk x) s = .next (({ s with walks := [] } : State).setStrand x { st with run := .ready })))
  ∧ (∀ (s : State) (l : Launch) (x : SlotId) (st : Strand) (c : Chunk), s.launch? l.lid = some l → l.det = true →
    s.laneSlot l.lid l.lanePos = some x → s.strand? x = some st →
    let next := fun (t : State) => t.launches = s.launches.map fun q =>
      if q.lid = l.lid then { q with lanePos :=
        if q.lanePos + 1 < q.lanes then q.lanePos + 1
        else if q.lanePos < 2 ^ 40 ∧ 0 < q.taskLanes then 2 ^ 40
        else if 2 ^ 40 ≤ q.lanePos ∧ q.lanePos + 1 < 2 ^ 40 + q.taskLanes then q.lanePos + 1 else 0 } else q
    (∀ row p g, st.run = .held (.bar row p g) → ∃ t : State, exec (.chunkCommit l.lid) s = .next t ∧ unwritten s t ∧ next t ∧ t.strand? x = some st)
    ∧ (st.run = .asleep → ∃ t : State, exec (.chunkCommit l.lid) s = .next t ∧ unwritten s t ∧ next t ∧ (st.chunk = none → t.strand? x = some st)
      ∧ (st.chunk = some c → t.strand? x = some { st with
        committed := st.committed + BitVec.ofNat 64 c.count
        chunk := some ⟨st.regs, st.tx, 0, [], [], false, false⟩ }))
    ∧ (∀ a d, st.run = .held .chunk → a ∈ s.flight → a.who = x → a.uid = st.uid → a.done = false → s.waitsAtHome a = true →
      a.op = .ldc → a.dest = some d → a.ovFull = none → a.loc.dev = thisDev → a.loc.addr / 8 ∉ s.full →
      ∃ t : State, exec (.chunkCommit l.lid) s = .next t ∧ unwritten s t ∧ next t ∧ t.strand? x = some st)
    ∧ (st.run = .held .chunk → st.chunk = some c → st.longs = [] → (∀ a ∈ s.flight, a.who = x → a.done = true) → c.ended = true →
      ((∃ k ∈ c.reads, k.2 = true) → ∃ t : State, exec (.chunkCommit l.lid) s = .next t ∧ unwritten s t ∧ t.launches = s.launches
        ∧ t.strand? x = some { st with
          run := .ready
          regs := c.start
          tx := c.startTx
          abortReq := none
          chunk := some { c with count := 0, reads := [], wset := [], ended := false } })
      ∧ ((∀ k ∈ c.reads, k.2 = false) → 0 < c.count → c.wset = [] → ∃ t : State, exec (.chunkCommit l.lid) s = .next t ∧ next t
        ∧ unwritten s t ∧ t.strand? x = some { st with
          run := .ready
          committed := st.committed + BitVec.ofNat 64 c.count
          chunk := some ⟨st.regs, st.tx, 0, [], [], false, false⟩ })
      ∧ ((∀ k ∈ c.reads, k.2 = false) → 0 < c.count → ∀ k i bs leaf, c.wset = [⟨k, 0, [.store i bs leaf]⟩] → k.dev = thisDev →
        bs ≠ [] → i + bs.length ≤ 64 → k.addr % 64 = 0 → s.region k.addr = .hbm → s.region (k.addr + 63) = .hbm →
        s.redWords = [] → s.lags = [] → s.lagOn = [] → ∃ t : State, exec (.chunkCommit l.lid) s = .next t ∧ written s t (k.addr + i) bs)))
  ∧ (∀ (b : Bank) (cls : BitVec 2) (src : BitVec 8) (k : BitVec 5) (addr detail : Word),
    let c := b.log cls src k addr detail
    let up := fun (n : BitVec 32) => if n = 0xFFFFFFFF then n else n + 1
    c.v = true ∧ c.corr = (if cls = 1 then up b.corr else b.corr) ∧ c.unc = (if cls = 1 then b.unc else up b.unc)
      ∧ c.ovf = b.v
      ∧ (b.v = false ∨ b.cls.toNat < cls.toNat → c.cls = cls ∧ c.src = src ∧ c.strand = k ∧ c.addr = addr ∧ c.detail = detail)
      ∧ (b.v = true → cls.toNat ≤ b.cls.toNat → c.cls = b.cls ∧ c.src = b.src ∧ c.strand = b.strand ∧ c.addr = b.addr ∧ c.detail = b.detail))
  ∧ (∀ (s : State) (n pa : Nat) (bank : BankId) (src : BitVec 8) (addr detail : Word) (st : Strand),
    let logs := fun (b : BankId) (cls : BitVec 2) (src : BitVec 8) (addr : Word) (t : State) =>
      ∃ d, t.bankOf b = (s.bankOf b).log cls src 0 addr d
    let here : Word := BitVec.ofNat 64 (s.devno.toNat * 2 ^ 44 + pa)
    (s.region pa = .hbm → exec (.patrolScrub pa .ok) s = .next s
      ∧ ∀ q ∈ [(ErrKind.corrected, 1#2), (.uncorrectable, 2#2)], ∃ t : State, exec (.patrolScrub pa q.1) s = .next t ∧ unwritten s t
        ∧ logs (.home (homeOf pa)) q.2 8 here t)
    ∧ (∀ off k, s.region pa = .pad n off →
      (pa / 8 ∈ s.badWords → ∃ t : State, exec (.patrolScrub pa k) s = .next t ∧ unwritten s t ∧ logs (.tile n) 2 5 here t)
      ∧ (pa / 8 ∉ s.badWords → pa / 8 ∈ s.weakWords → ∃ t : State, exec (.patrolScrub pa k) s = .next t ∧ unwritten s t
        ∧ logs (.tile n) 1 5 here t ∧ pa / 8 ∉ t.weakWords)
      ∧ (pa / 8 ∉ s.badWords → pa / 8 ∉ s.weakWords → exec (.patrolScrub pa k) s = .next s))
    ∧ (s.strand? ⟨n, .m, 0⟩ = some st → digestOk s.fwImage = true → s.signedOk s.fwImage = true →
      ∃ t : State, exec (.supervisorMemoryError n false false) s = .next t ∧ unwritten s t ∧ logs (.tile n) 2 7 0 t
      ∧ t.codeStore = [] ∧ t.strand? ⟨n, .m, 0⟩ = some { st with
        run := .ready
        ie := true
        regs := { st.regs with pc := (Config.imageEntry s.fwImage).setWidth 64 * 4, skipn := 0 } })
    ∧ ((s.tile n).mirrorLost = false → ∃ t : State, exec (.supervisorMemoryError n true false) s = .next t ∧ unwritten s t ∧ logs (.tile n) 2 7 0 t)
    ∧ (∀ lost, (lost = true ∨ (s.tile n).mirrorLost = true) → ∃ t : State, exec (.supervisorMemoryError n true lost) s = .next t
      ∧ (t.tile n).fenced = true ∧ (t.tile n).strands = [] ∧ (t.rowAt (s.tileRow n)).degraded = true ∧ (t.tile (leftTile n)).mirrorLost = true)
    ∧ (∃ t : State, exec (.fatalError bank src addr detail) s = .next t ∧ t.ctl.fatal = true ∧ (∀ l ∈ t.launches, l.ending = true)
      ∧ (∀ r ∈ t.cmdRings, r.rcfg.getLsbD 63 = false) ∧ t.ctl.ckpt = none
      ∧ (s.launches = [] → t.bankOf bank = (s.bankOf bank).log 3 src 0 addr detail))
    ∧ (∀ fails, fails ≤ 4 → exec (.linkResend bank fails addr detail) s
      = .next (Nat.iterate (fun (t : State) => t.modBank bank fun b => b.log 1 9 0 addr detail) fails s))
    ∧ (∀ fails, 5 ≤ fails → ∃ t : State, exec (.linkResend bank fails addr detail) s = .next t ∧ t.ctl.fatal = true)
    ∧ (∀ fail : BitVec 10, (s.tile n).testing = true → s.heldWrites = [] →
      let found := fail &&& (s.tile n).testMask
      ∃ t : State, exec (.selftestComplete n fail) s = .next t ∧ (t.tile n).testing = false ∧ (t.tile n).testFail = found
        ∧ ((t.tile n).mustFence = true ↔ (s.tile n).mustFence = true ∨ found ≠ 0) ∧ (t.tile n).mat.acc = []
        ∧ (t.tile n).bank.unc.toNat = Nat.min ((s.tile n).bank.unc.toNat + ((List.range 10).filter fun i => found.getLsbD i).length) 0xFFFFFFFF
        ∧ (∀ i < 2 ^ 20, memGet t.mem (s.padBase n + i) = 0 ∧ t.isFull (s.padBase n + i) = false)
        ∧ (∀ i, i < s.padBase n ∨ s.padBase n + 2 ^ 20 ≤ i → memGet t.mem i = memGet s.mem i)
        ∧ ∀ k, (s.tile n).testCmd = some k → t.commands = s.commands.map fun c =>
          if c.cid = k ∧ c.result = none then { c with result := some (BitVec.ofNat 64 (1 + 2 ^ 63 + 2 ^ 32 * found.toNat)) } else c))
  ∧ (∀ (s : State) (a : Access) (st : Strand), s.flight.find? (fun e => e.id = a.id) = some a → a.loc.dev ≠ thisDev → a.loc.dev < 2 ^ 12 → a.done = false →
    a.op.isResult = false → (∀ u, a.op ≠ .loadV u) → s.strand? a.who = some st → st.uid = a.uid → s.spills = [] →
    ∃ (t : State) (d : Word), exec (.remoteTimeout a.id) s = .next t ∧ unwritten s t ∧ t.flight = s.flight.filter (fun e => e.id != a.id)
      ∧ (∃ e, t.bankOf (s.bankFor a.loc) = (s.bankOf (s.bankFor a.loc)).log 2 9 (BitVec.ofNat 5 a.who.member)
        (BitVec.ofNat 64 (a.loc.dev * 2 ^ 44 + a.loc.addr)) e)
      ∧ (∃ p, s.bankFor a.loc = .port p ∧ 8 ≤ p ∧ p < 26)
      ∧ t.strand? a.who = some { st with
        run := if st.run = .held (.home a.id) then .ready
          else if st.run = .preempted (some (.home a.id)) then .preempted none else st.run
        asyncs := st.asyncs ++ [(if a.ordered then 15 + 512 else 15, d)]
        longs := st.longs.filter fun l => l.id != a.id })
  ∧ ∀ (s : State) (dev : BitVec 12), dev.toNat ≠ thisDev →
    ∃ t : State, exec (.peerReset dev) s = .next t ∧ (∀ e ∈ t.flight, e.loc.dev = dev.toNat → e.done = true ∨ e.op.isResult = true)
      ∧ ∀ e ∈ t.flight, e ∈ s.flight
end

