-- ==== Sys2Proof/Laws/Memory.lean ====
section
/-!
SUPPORT. The laws of the tables kept by key, of memory and of the sets of full words: read after write, the rest left alone, and
the canonical form kept.
-/

namespace Sys2Proof.Machine

/-! ## Tables by key -/

@[simp] theorem assocGet_nil {α : Type} (j : Nat) : assocGet ([] : List (Nat × α)) j = none := rfl

theorem assocGet_assocSet {α : Type} (l : List (Nat × α)) (k : Nat) (v : α) (j : Nat) :
    assocGet (assocSet l k v) j = if k = j then some v else assocGet l j := by
  induction l with
  | nil => simp [assocSet, assocGet]
  | cons p r ih =>
    obtain ⟨i, w⟩ := p
    unfold assocSet
    split
    · simp [assocGet]
    · split
      · rename_i h; subst h
        simp only [assocGet]; split <;> rfl
      · simp only [assocGet, ih]
        split <;> split <;> simp_all

@[simp] theorem assocGet_assocSet_same {α : Type} (l : List (Nat × α)) (k : Nat) (v : α) :
    assocGet (assocSet l k v) k = some v := by simp [assocGet_assocSet]

theorem assocGet_assocSet_other {α : Type} (l : List (Nat × α)) {k j : Nat} (v : α) (h : k ≠ j) :
    assocGet (assocSet l k v) j = assocGet l j := by simp [assocGet_assocSet, h]

@[simp] theorem assocSet_assocSet {α : Type} (l : List (Nat × α)) (k : Nat) (v w : α) :
    assocSet (assocSet l k v) k w = assocSet l k w := by
  induction l with
  | nil => simp [assocSet]
  | cons p r ih =>
    obtain ⟨i, u⟩ := p
    simp only [assocSet]
    split
    · simp [assocSet]
    · split
      · simp [assocSet]
      · simp_all [assocSet]

/-! ## Memory -/

@[simp] theorem memGet_nil (a : Nat) : memGet [] a = 0 := rfl

/-- In canonical form every address of a tail lies above the head's. -/
theorem Memory.wf_tail {k : Nat} {b : Byte} {r : List Host.Cell} (h : Memory.wf ((k, b) :: r) = true) : Memory.wf r = true := by
  cases r with
  | nil => rfl
  | cons p q => obtain ⟨i, c⟩ := p; simp only [Memory.wf, Bool.and_eq_true] at h; exact h.2

theorem memGet_below {k : Nat} {b : Byte} {r : List Host.Cell} (h : Memory.wf ((k, b) :: r) = true) {a : Nat} (ha : a ≤ k) :
    memGet r a = 0 := by
  induction r generalizing k b with
  | nil => rfl
  | cons p q ih =>
    obtain ⟨i, c⟩ := p
    simp only [Memory.wf, Bool.and_eq_true, decide_eq_true_eq] at h
    have hi : i ≠ a := by omega
    simp only [memGet, hi, if_false]
    exact ih h.2 (by omega)

/-- Reading after writing: the byte written, and every other byte as before. -/
theorem memGet_memSet {m : List Host.Cell} (h : Memory.wf m = true) (a : Nat) (b : Byte) (j : Nat) :
    memGet (memSet m a b) j = if j = a then b else memGet m j := by
  induction m with
  | nil =>
    simp only [memSet]
    by_cases hj : a = j
    · subst hj; split <;> simp_all [memGet]
    · split <;> simp [memGet, hj, Ne.symm hj]
  | cons p r ih =>
    obtain ⟨k, c⟩ := p
    have hr := Memory.wf_tail h
    simp only [memSet]
    split
    · rename_i hak
      split
      · rename_i hb
        by_cases hj : j = a
        · subst hj
          have : k ≠ j := by omega
          simp [memGet, this, hb, memGet_below h (Nat.le_of_lt hak)]
        · simp [hj]
      · by_cases hj : j = a
        · simp [memGet, hj]
        · simp [memGet, hj, Ne.symm hj]
    · split
      · rename_i hak; subst hak
        split
        · rename_i hb
          by_cases hj : j = a
          · subst hj; simp [hb, memGet_below h (Nat.le_refl _)]
          · simp [memGet, hj, Ne.symm hj]
        · by_cases hj : j = a
          · simp [memGet, hj]
          · simp [memGet, hj, Ne.symm hj]
      · rename_i hak1 hak2
        simp only [memGet, ih hr]
        by_cases hk : k = j
        · have : j ≠ a := by omega
          simp [hk, this]
        · simp [hk]

/-- Everything listed lies above n. -/
def memAbove (n : Nat) (m : List Host.Cell) : Bool := m.all fun p => decide (n < p.1)

theorem Memory.wf_cons {k : Nat} {b : Byte} {r : List Host.Cell} :
    Memory.wf ((k, b) :: r) = true ↔ b ≠ 0 ∧ memAbove k r = true ∧ Memory.wf r = true := by
  induction r generalizing k b with
  | nil => simp [Memory.wf, memAbove]
  | cons p q ih =>
    obtain ⟨i, c⟩ := p
    simp only [Memory.wf, Bool.and_eq_true, decide_eq_true_eq, bne_iff_ne, ne_eq]
    constructor
    · rintro ⟨⟨h1, h2⟩, h3⟩
      refine ⟨h1, ?_, h3⟩
      have := (ih.mp h3).2.1
      simp only [memAbove, List.all_cons, Bool.and_eq_true, decide_eq_true_eq, List.all_eq_true] at this ⊢
      exact ⟨h2, fun x hx => by have := this x hx; omega⟩
    · rintro ⟨h1, h2, h3⟩
      simp only [memAbove, List.all_cons, Bool.and_eq_true, decide_eq_true_eq] at h2
      exact ⟨⟨h1, h2.1⟩, h3⟩

theorem memAbove_memSet {n : Nat} {m : List Host.Cell} (h : memAbove n m = true) {a : Nat} (ha : n < a) (b : Byte) :
    memAbove n (memSet m a b) = true := by
  induction m with
  | nil => simp only [memSet]; split <;> simp [memAbove, ha]
  | cons p r ih =>
    obtain ⟨k, c⟩ := p
    simp only [memAbove, List.all_cons, Bool.and_eq_true, decide_eq_true_eq] at h
    have hr : memAbove n r = true := h.2
    simp only [memSet]
    split
    · split <;> simp [memAbove, ha, h.1] <;> simpa [memAbove] using hr
    · split
      · split
        · exact hr
        · simp [memAbove, ha]; simpa [memAbove] using hr
      · have := ih hr
        simp only [memAbove, List.all_cons, Bool.and_eq_true, decide_eq_true_eq] at this ⊢
        exact ⟨h.1, this⟩

theorem memAbove_mono {n k : Nat} {m : List Host.Cell} (h : memAbove k m = true) (hn : n ≤ k) : memAbove n m = true := by
  simp only [memAbove, List.all_eq_true, decide_eq_true_eq] at h ⊢
  exact fun x hx => by have := h x hx; omega

/-- Writing a byte keeps the canonical form. -/
theorem memSet_wf {m : List Host.Cell} (h : Memory.wf m = true) (a : Nat) (b : Byte) : Memory.wf (memSet m a b) = true := by
  induction m with
  | nil => simp only [memSet]; split <;> simp_all [Memory.wf]
  | cons p r ih =>
    obtain ⟨k, c⟩ := p
    have hc := Memory.wf_cons.mp h
    simp only [memSet]
    split
    · rename_i hak
      split
      · exact h
      · rename_i hb
        refine Memory.wf_cons.mpr ⟨hb, ?_, h⟩
        simp [memAbove, hak]
        simpa [memAbove] using memAbove_mono hc.2.1 (Nat.le_of_lt hak)
    · split
      · rename_i hak; subst hak
        split
        · exact hc.2.2
        · rename_i hb; exact Memory.wf_cons.mpr ⟨hb, hc.2.1, hc.2.2⟩
      · exact Memory.wf_cons.mpr ⟨hc.1, memAbove_memSet hc.2.1 (by omega) b, ih hc.2.2⟩

/-- Writing bytes keeps the canonical form. -/
theorem memSetBytes_wf {m : List Host.Cell} (h : Memory.wf m = true) (a : Nat) (bs : List Byte) :
    Memory.wf (memSetBytes m a bs) = true := by
  induction bs generalizing m a with
  | nil => exact h
  | cons b r ih => exact ih (memSet_wf h a b) (a + 1)

/-- A byte outside those written is as before. -/
theorem memGet_memSetBytes_outside {m : List Host.Cell} (h : Memory.wf m = true) {a : Nat} {bs : List Byte} {j : Nat}
    (hj : j < a ∨ a + bs.length ≤ j) : memGet (memSetBytes m a bs) j = memGet m j := by
  induction bs generalizing m a with
  | nil => rfl
  | cons b r ih =>
    simp only [List.length_cons] at hj
    have hja : j ≠ a := by omega
    rw [memSetBytes, ih (memSet_wf h a b) (by omega), memGet_memSet h]
    simp [hja]

/-- A byte among those written is the one written there. -/
theorem memGet_memSetBytes_inside {m : List Host.Cell} (h : Memory.wf m = true) (a : Nat) (bs : List Byte) {i : Nat}
    (hi : i < bs.length) : memGet (memSetBytes m a bs) (a + i) = bs[i] := by
  induction bs generalizing m a i with
  | nil => simp at hi
  | cons b r ih =>
    cases i with
    | zero =>
      rw [memSetBytes, memGet_memSetBytes_outside (memSet_wf h a b) (by omega), memGet_memSet h]
      simp
    | succ n =>
      have := ih (memSet_wf h a b) (a + 1) (i := n) (by simpa using hi)
      simpa [memSetBytes, Nat.add_assoc, Nat.add_comm 1 n] using this

@[simp] theorem memBytes_length (m : List Host.Cell) (a n : Nat) : (memBytes m a n).length = n := by
  induction n generalizing a with
  | zero => rfl
  | succ n ih => simp [memBytes, ih]

/-- The bytes read are those written. -/
theorem memBytes_memSetBytes {m : List Host.Cell} (h : Memory.wf m = true) (a : Nat) (bs : List Byte) :
    memBytes (memSetBytes m a bs) a bs.length = bs := by
  induction bs generalizing m a with
  | nil => rfl
  | cons b r ih =>
    simp only [List.length_cons, memBytes, memSetBytes]
    rw [ih (memSet_wf h a b) (a + 1), memGet_memSetBytes_outside (memSet_wf h a b) (by omega), memGet_memSet h]
    simp

/-- What a filter keeps is in canonical form. -/
theorem memFilter_wf {m : List Host.Cell} (h : Memory.wf m = true) (f : Host.Cell → Bool) : Memory.wf (m.filter f) = true := by
  induction m with
  | nil => rfl
  | cons p r ih =>
    obtain ⟨k, c⟩ := p
    have hc := Memory.wf_cons.mp h
    rw [List.filter_cons]
    split
    · refine Memory.wf_cons.mpr ⟨hc.1, ?_, ih hc.2.2⟩
      have := hc.2.1
      simp only [memAbove, List.all_eq_true, decide_eq_true_eq] at this ⊢
      exact fun x hx => this x (List.mem_filter.mp hx).1
    · exact ih hc.2.2

/-! ## Sets of naturals -/

theorem natSorted_cons {a : Nat} {r : List Nat} : natSorted (a :: r) = true ↔ (∀ b ∈ r, a < b) ∧ natSorted r = true := by
  induction r generalizing a with
  | nil => simp [natSorted]
  | cons b q ih =>
    simp only [natSorted, Bool.and_eq_true, decide_eq_true_eq, ih]
    constructor
    · rintro ⟨h1, h2, h3⟩
      exact ⟨by intro x hx; rcases List.mem_cons.mp hx with rfl | hx; exact h1; have := h2 x hx; omega, h2, h3⟩
    · rintro ⟨h1, h2, h3⟩
      exact ⟨h1 b (by simp), h2, h3⟩

theorem mem_natInsert (l : List Nat) (a b : Nat) : b ∈ natInsert l a ↔ b = a ∨ b ∈ l := by
  induction l with
  | nil => simp [natInsert]
  | cons k r ih =>
    simp only [natInsert]
    split
    · simp
    · split
      · rename_i h; subst h; simp
      · simp only [List.mem_cons, ih]; tauto

/-- Adding a member keeps the order. -/
theorem natInsert_sorted {l : List Nat} (h : natSorted l = true) (a : Nat) : natSorted (natInsert l a) = true := by
  induction l with
  | nil => rfl
  | cons k r ih =>
    have hc := natSorted_cons.mp h
    simp only [natInsert]
    split
    · rename_i hak
      exact natSorted_cons.mpr ⟨by intro b hb; rcases List.mem_cons.mp hb with rfl | hb; exact hak; have := hc.1 b hb; omega, h⟩
    · split
      · exact h
      · refine natSorted_cons.mpr ⟨fun b hb => ?_, ih hc.2⟩
        rcases (mem_natInsert r a b).mp hb with rfl | hb
        · omega
        · exact hc.1 b hb

theorem natInserts_sorted {l : List Nat} (h : natSorted l = true) (ws : List Nat) : natSorted (ws.foldl natInsert l) = true := by
  induction ws generalizing l with
  | nil => exact h
  | cons w r ih => exact ih (natInsert_sorted h w)

theorem natFilter_sorted {l : List Nat} (h : natSorted l = true) (f : Nat → Bool) : natSorted (l.filter f) = true := by
  induction l with
  | nil => rfl
  | cons k r ih =>
    have hc := natSorted_cons.mp h
    rw [List.filter_cons]
    split
    · exact natSorted_cons.mpr ⟨fun b hb => hc.1 b (List.mem_filter.mp hb).1, ih hc.2⟩
    · exact ih hc.2

end Sys2Proof.Machine
end

