-- ==== Sys2Proof/Laws/State.lean ====
section
/-!
SUPPORT. What each update of the state leaves as it was, one lemma per field per update, and what it changes.
-/

namespace Sys2Proof.Machine

/-! ## A tile set -/

@[simp] theorem State.setTile_tiles (s : State) (t : Nat) (x : Tile) : (s.setTile t x).tiles = assocSet s.tiles t x := rfl
@[simp] theorem State.setTile_rows (s : State) (t : Nat) (x : Tile) : (s.setTile t x).rows = s.rows := rfl
@[simp] theorem State.setTile_mem (s : State) (t : Nat) (x : Tile) : (s.setTile t x).mem = s.mem := rfl
@[simp] theorem State.setTile_full (s : State) (t : Nat) (x : Tile) : (s.setTile t x).full = s.full := rfl
@[simp] theorem State.setTile_flight (s : State) (t : Nat) (x : Tile) : (s.setTile t x).flight = s.flight := rfl
@[simp] theorem State.setTile_nextId (s : State) (t : Nat) (x : Tile) : (s.setTile t x).nextId = s.nextId := rfl
@[simp] theorem State.setTile_freeCount (s : State) (t : Nat) (x : Tile) : (s.setTile t x).freeCount = s.freeCount := rfl
@[simp] theorem State.setTile_watches (s : State) (t : Nat) (x : Tile) : (s.setTile t x).watches = s.watches := rfl
@[simp] theorem State.setTile_redWords (s : State) (t : Nat) (x : Tile) : (s.setTile t x).redWords = s.redWords := rfl
@[simp] theorem State.setTile_walks (s : State) (t : Nat) (x : Tile) : (s.setTile t x).walks = s.walks := rfl
@[simp] theorem State.setTile_lags (s : State) (t : Nat) (x : Tile) : (s.setTile t x).lags = s.lags := rfl
@[simp] theorem State.setTile_lagOn (s : State) (t : Nat) (x : Tile) : (s.setTile t x).lagOn = s.lagOn := rfl
@[simp] theorem State.setTile_engineTile (s : State) (t : Nat) (x : Tile) : (s.setTile t x).engineTile = s.engineTile := rfl
@[simp] theorem State.setTile_badWords (s : State) (t : Nat) (x : Tile) : (s.setTile t x).badWords = s.badWords := rfl
@[simp] theorem State.setTile_weakWords (s : State) (t : Nat) (x : Tile) : (s.setTile t x).weakWords = s.weakWords := rfl
@[simp] theorem State.setTile_fusedRows (s : State) (t : Nat) (x : Tile) : (s.setTile t x).fusedRows = s.fusedRows := rfl
@[simp] theorem State.setTile_fusedCols (s : State) (t : Nat) (x : Tile) : (s.setTile t x).fusedCols = s.fusedCols := rfl
@[simp] theorem State.setTile_devno (s : State) (t : Nat) (x : Tile) : (s.setTile t x).devno = s.devno := rfl
@[simp] theorem State.setTile_protlo (s : State) (t : Nat) (x : Tile) : (s.setTile t x).protlo = s.protlo := rfl
@[simp] theorem State.setTile_prothi (s : State) (t : Nat) (x : Tile) : (s.setTile t x).prothi = s.prothi := rfl
@[simp] theorem State.setTile_members (s : State) (t : Nat) (x : Tile) : (s.setTile t x).members = s.members := rfl
@[simp] theorem State.setTile_cells (s : State) (t : Nat) (x : Tile) : (s.setTile t x).cells = s.cells := rfl
@[simp] theorem State.setTile_sheets (s : State) (t : Nat) (x : Tile) : (s.setTile t x).sheets = s.sheets := rfl
@[simp] theorem State.setTile_cellWaits (s : State) (t : Nat) (x : Tile) : (s.setTile t x).cellWaits = s.cellWaits := rfl
@[simp] theorem State.setTile_cmdRings (s : State) (t : Nat) (x : Tile) : (s.setTile t x).cmdRings = s.cmdRings := rfl
@[simp] theorem State.setTile_commands (s : State) (t : Nat) (x : Tile) : (s.setTile t x).commands = s.commands := rfl
@[simp] theorem State.setTile_roundRings (s : State) (t : Nat) (x : Tile) : (s.setTile t x).roundRings = s.roundRings := rfl
@[simp] theorem State.setTile_copyWaits (s : State) (t : Nat) (x : Tile) : (s.setTile t x).copyWaits = s.copyWaits := rfl
@[simp] theorem State.setTile_launches (s : State) (t : Nat) (x : Tile) : (s.setTile t x).launches = s.launches := rfl
@[simp] theorem State.setTile_images (s : State) (t : Nat) (x : Tile) : (s.setTile t x).images = s.images := rfl
@[simp] theorem State.setTile_waveReqs (s : State) (t : Nat) (x : Tile) : (s.setTile t x).waveReqs = s.waveReqs := rfl
@[simp] theorem State.setTile_waves (s : State) (t : Nat) (x : Tile) : (s.setTile t x).waves = s.waves := rfl
@[simp] theorem State.setTile_transit (s : State) (t : Nat) (x : Tile) : (s.setTile t x).transit = s.transit := rfl
@[simp] theorem State.setTile_turnouts (s : State) (t : Nat) (x : Tile) : (s.setTile t x).turnouts = s.turnouts := rfl
@[simp] theorem State.setTile_packets (s : State) (t : Nat) (x : Tile) : (s.setTile t x).packets = s.packets := rfl
@[simp] theorem State.setTile_rnodes (s : State) (t : Nat) (x : Tile) : (s.setTile t x).rnodes = s.rnodes := rfl
@[simp] theorem State.setTile_rgroups (s : State) (t : Nat) (x : Tile) : (s.setTile t x).rgroups = s.rgroups := rfl
@[simp] theorem State.setTile_sendQueues (s : State) (t : Nat) (x : Tile) : (s.setTile t x).sendQueues = s.sendQueues := rfl
@[simp] theorem State.setTile_netOut (s : State) (t : Nat) (x : Tile) : (s.setTile t x).netOut = s.netOut := rfl
@[simp] theorem State.setTile_roots (s : State) (t : Nat) (x : Tile) : (s.setTile t x).roots = s.roots := rfl
@[simp] theorem State.setTile_svcQueues (s : State) (t : Nat) (x : Tile) : (s.setTile t x).svcQueues = s.svcQueues := rfl
@[simp] theorem State.setTile_intkReqs (s : State) (t : Nat) (x : Tile) : (s.setTile t x).intkReqs = s.intkReqs := rfl
@[simp] theorem State.setTile_outfalls (s : State) (t : Nat) (x : Tile) : (s.setTile t x).outfalls = s.outfalls := rfl
@[simp] theorem State.setTile_spills (s : State) (t : Nat) (x : Tile) : (s.setTile t x).spills = s.spills := rfl
@[simp] theorem State.setTile_evicted (s : State) (t : Nat) (x : Tile) : (s.setTile t x).evicted = s.evicted := rfl
@[simp] theorem State.setTile_homeBanks (s : State) (t : Nat) (x : Tile) : (s.setTile t x).homeBanks = s.homeBanks := rfl
@[simp] theorem State.setTile_portBanks (s : State) (t : Nat) (x : Tile) : (s.setTile t x).portBanks = s.portBanks := rfl
@[simp] theorem State.setTile_ctl (s : State) (t : Nat) (x : Tile) : (s.setTile t x).ctl = s.ctl := rfl
@[simp] theorem State.setTile_staging (s : State) (t : Nat) (x : Tile) : (s.setTile t x).staging = s.staging := rfl
@[simp] theorem State.setTile_fwImage (s : State) (t : Nat) (x : Tile) : (s.setTile t x).fwImage = s.fwImage := rfl
@[simp] theorem State.setTile_codeStore (s : State) (t : Nat) (x : Tile) : (s.setTile t x).codeStore = s.codeStore := rfl
@[simp] theorem State.setTile_secret (s : State) (t : Nat) (x : Tile) : (s.setTile t x).secret = s.secret := rfl
@[simp] theorem State.setTile_rollbackMin (s : State) (t : Nat) (x : Tile) : (s.setTile t x).rollbackMin = s.rollbackMin := rfl
@[simp] theorem State.setTile_keyDigest (s : State) (t : Nat) (x : Tile) : (s.setTile t x).keyDigest = s.keyDigest := rfl
@[simp] theorem State.setTile_key (s : State) (t : Nat) (x : Tile) : (s.setTile t x).key = s.key := rfl
@[simp] theorem State.setTile_checkpoints (s : State) (t : Nat) (x : Tile) : (s.setTile t x).checkpoints = s.checkpoints := rfl
@[simp] theorem State.setTile_heldWrites (s : State) (t : Nat) (x : Tile) : (s.setTile t x).heldWrites = s.heldWrites := rfl
@[simp] theorem State.setTile_uet (s : State) (t : Nat) (x : Tile) : (s.setTile t x).uet = s.uet := rfl
@[simp] theorem State.setTile_debugger (s : State) (t : Nat) (x : Tile) : (s.setTile t x).debugger = s.debugger := rfl
@[simp] theorem State.setTile_hostSaw (s : State) (t : Nat) (x : Tile) : (s.setTile t x).hostSaw = s.hostSaw := rfl
@[simp] theorem State.setTile_agenda (s : State) (t : Nat) (x : Tile) : (s.setTile t x).agenda = s.agenda := rfl
@[simp] theorem State.setTile_focus (s : State) (t : Nat) (x : Tile) : (s.setTile t x).focus = s.focus := rfl
@[simp] theorem State.setTile_cur (s : State) (t : Nat) (x : Tile) : (s.setTile t x).cur = s.cur := rfl

/-! ## A tile changed -/

@[simp] theorem State.modTile_tiles (s : State) (t : Nat) (f : Tile → Tile) : (s.modTile t f).tiles = assocSet s.tiles t (f (s.tile t)) := rfl
@[simp] theorem State.modTile_rows (s : State) (t : Nat) (f : Tile → Tile) : (s.modTile t f).rows = s.rows := rfl
@[simp] theorem State.modTile_mem (s : State) (t : Nat) (f : Tile → Tile) : (s.modTile t f).mem = s.mem := rfl
@[simp] theorem State.modTile_full (s : State) (t : Nat) (f : Tile → Tile) : (s.modTile t f).full = s.full := rfl
@[simp] theorem State.modTile_flight (s : State) (t : Nat) (f : Tile → Tile) : (s.modTile t f).flight = s.flight := rfl
@[simp] theorem State.modTile_nextId (s : State) (t : Nat) (f : Tile → Tile) : (s.modTile t f).nextId = s.nextId := rfl
@[simp] theorem State.modTile_freeCount (s : State) (t : Nat) (f : Tile → Tile) : (s.modTile t f).freeCount = s.freeCount := rfl
@[simp] theorem State.modTile_watches (s : State) (t : Nat) (f : Tile → Tile) : (s.modTile t f).watches = s.watches := rfl
@[simp] theorem State.modTile_redWords (s : State) (t : Nat) (f : Tile → Tile) : (s.modTile t f).redWords = s.redWords := rfl
@[simp] theorem State.modTile_walks (s : State) (t : Nat) (f : Tile → Tile) : (s.modTile t f).walks = s.walks := rfl
@[simp] theorem State.modTile_lags (s : State) (t : Nat) (f : Tile → Tile) : (s.modTile t f).lags = s.lags := rfl
@[simp] theorem State.modTile_lagOn (s : State) (t : Nat) (f : Tile → Tile) : (s.modTile t f).lagOn = s.lagOn := rfl
@[simp] theorem State.modTile_engineTile (s : State) (t : Nat) (f : Tile → Tile) : (s.modTile t f).engineTile = s.engineTile := rfl
@[simp] theorem State.modTile_badWords (s : State) (t : Nat) (f : Tile → Tile) : (s.modTile t f).badWords = s.badWords := rfl
@[simp] theorem State.modTile_weakWords (s : State) (t : Nat) (f : Tile → Tile) : (s.modTile t f).weakWords = s.weakWords := rfl
@[simp] theorem State.modTile_fusedRows (s : State) (t : Nat) (f : Tile → Tile) : (s.modTile t f).fusedRows = s.fusedRows := rfl
@[simp] theorem State.modTile_fusedCols (s : State) (t : Nat) (f : Tile → Tile) : (s.modTile t f).fusedCols = s.fusedCols := rfl
@[simp] theorem State.modTile_devno (s : State) (t : Nat) (f : Tile → Tile) : (s.modTile t f).devno = s.devno := rfl
@[simp] theorem State.modTile_protlo (s : State) (t : Nat) (f : Tile → Tile) : (s.modTile t f).protlo = s.protlo := rfl
@[simp] theorem State.modTile_prothi (s : State) (t : Nat) (f : Tile → Tile) : (s.modTile t f).prothi = s.prothi := rfl
@[simp] theorem State.modTile_members (s : State) (t : Nat) (f : Tile → Tile) : (s.modTile t f).members = s.members := rfl
@[simp] theorem State.modTile_cells (s : State) (t : Nat) (f : Tile → Tile) : (s.modTile t f).cells = s.cells := rfl
@[simp] theorem State.modTile_sheets (s : State) (t : Nat) (f : Tile → Tile) : (s.modTile t f).sheets = s.sheets := rfl
@[simp] theorem State.modTile_cellWaits (s : State) (t : Nat) (f : Tile → Tile) : (s.modTile t f).cellWaits = s.cellWaits := rfl
@[simp] theorem State.modTile_cmdRings (s : State) (t : Nat) (f : Tile → Tile) : (s.modTile t f).cmdRings = s.cmdRings := rfl
@[simp] theorem State.modTile_commands (s : State) (t : Nat) (f : Tile → Tile) : (s.modTile t f).commands = s.commands := rfl
@[simp] theorem State.modTile_roundRings (s : State) (t : Nat) (f : Tile → Tile) : (s.modTile t f).roundRings = s.roundRings := rfl
@[simp] theorem State.modTile_copyWaits (s : State) (t : Nat) (f : Tile → Tile) : (s.modTile t f).copyWaits = s.copyWaits := rfl
@[simp] theorem State.modTile_launches (s : State) (t : Nat) (f : Tile → Tile) : (s.modTile t f).launches = s.launches := rfl
@[simp] theorem State.modTile_images (s : State) (t : Nat) (f : Tile → Tile) : (s.modTile t f).images = s.images := rfl
@[simp] theorem State.modTile_waveReqs (s : State) (t : Nat) (f : Tile → Tile) : (s.modTile t f).waveReqs = s.waveReqs := rfl
@[simp] theorem State.modTile_waves (s : State) (t : Nat) (f : Tile → Tile) : (s.modTile t f).waves = s.waves := rfl
@[simp] theorem State.modTile_transit (s : State) (t : Nat) (f : Tile → Tile) : (s.modTile t f).transit = s.transit := rfl
@[simp] theorem State.modTile_turnouts (s : State) (t : Nat) (f : Tile → Tile) : (s.modTile t f).turnouts = s.turnouts := rfl
@[simp] theorem State.modTile_packets (s : State) (t : Nat) (f : Tile → Tile) : (s.modTile t f).packets = s.packets := rfl
@[simp] theorem State.modTile_rnodes (s : State) (t : Nat) (f : Tile → Tile) : (s.modTile t f).rnodes = s.rnodes := rfl
@[simp] theorem State.modTile_rgroups (s : State) (t : Nat) (f : Tile → Tile) : (s.modTile t f).rgroups = s.rgroups := rfl
@[simp] theorem State.modTile_sendQueues (s : State) (t : Nat) (f : Tile → Tile) : (s.modTile t f).sendQueues = s.sendQueues := rfl
@[simp] theorem State.modTile_netOut (s : State) (t : Nat) (f : Tile → Tile) : (s.modTile t f).netOut = s.netOut := rfl
@[simp] theorem State.modTile_roots (s : State) (t : Nat) (f : Tile → Tile) : (s.modTile t f).roots = s.roots := rfl
@[simp] theorem State.modTile_svcQueues (s : State) (t : Nat) (f : Tile → Tile) : (s.modTile t f).svcQueues = s.svcQueues := rfl
@[simp] theorem State.modTile_intkReqs (s : State) (t : Nat) (f : Tile → Tile) : (s.modTile t f).intkReqs = s.intkReqs := rfl
@[simp] theorem State.modTile_outfalls (s : State) (t : Nat) (f : Tile → Tile) : (s.modTile t f).outfalls = s.outfalls := rfl
@[simp] theorem State.modTile_spills (s : State) (t : Nat) (f : Tile → Tile) : (s.modTile t f).spills = s.spills := rfl
@[simp] theorem State.modTile_evicted (s : State) (t : Nat) (f : Tile → Tile) : (s.modTile t f).evicted = s.evicted := rfl
@[simp] theorem State.modTile_homeBanks (s : State) (t : Nat) (f : Tile → Tile) : (s.modTile t f).homeBanks = s.homeBanks := rfl
@[simp] theorem State.modTile_portBanks (s : State) (t : Nat) (f : Tile → Tile) : (s.modTile t f).portBanks = s.portBanks := rfl
@[simp] theorem State.modTile_ctl (s : State) (t : Nat) (f : Tile → Tile) : (s.modTile t f).ctl = s.ctl := rfl
@[simp] theorem State.modTile_staging (s : State) (t : Nat) (f : Tile → Tile) : (s.modTile t f).staging = s.staging := rfl
@[simp] theorem State.modTile_fwImage (s : State) (t : Nat) (f : Tile → Tile) : (s.modTile t f).fwImage = s.fwImage := rfl
@[simp] theorem State.modTile_codeStore (s : State) (t : Nat) (f : Tile → Tile) : (s.modTile t f).codeStore = s.codeStore := rfl
@[simp] theorem State.modTile_secret (s : State) (t : Nat) (f : Tile → Tile) : (s.modTile t f).secret = s.secret := rfl
@[simp] theorem State.modTile_rollbackMin (s : State) (t : Nat) (f : Tile → Tile) : (s.modTile t f).rollbackMin = s.rollbackMin := rfl
@[simp] theorem State.modTile_keyDigest (s : State) (t : Nat) (f : Tile → Tile) : (s.modTile t f).keyDigest = s.keyDigest := rfl
@[simp] theorem State.modTile_key (s : State) (t : Nat) (f : Tile → Tile) : (s.modTile t f).key = s.key := rfl
@[simp] theorem State.modTile_checkpoints (s : State) (t : Nat) (f : Tile → Tile) : (s.modTile t f).checkpoints = s.checkpoints := rfl
@[simp] theorem State.modTile_heldWrites (s : State) (t : Nat) (f : Tile → Tile) : (s.modTile t f).heldWrites = s.heldWrites := rfl
@[simp] theorem State.modTile_uet (s : State) (t : Nat) (f : Tile → Tile) : (s.modTile t f).uet = s.uet := rfl
@[simp] theorem State.modTile_debugger (s : State) (t : Nat) (f : Tile → Tile) : (s.modTile t f).debugger = s.debugger := rfl
@[simp] theorem State.modTile_hostSaw (s : State) (t : Nat) (f : Tile → Tile) : (s.modTile t f).hostSaw = s.hostSaw := rfl
@[simp] theorem State.modTile_agenda (s : State) (t : Nat) (f : Tile → Tile) : (s.modTile t f).agenda = s.agenda := rfl
@[simp] theorem State.modTile_focus (s : State) (t : Nat) (f : Tile → Tile) : (s.modTile t f).focus = s.focus := rfl
@[simp] theorem State.modTile_cur (s : State) (t : Nat) (f : Tile → Tile) : (s.modTile t f).cur = s.cur := rfl

/-! ## A strand set in its slot -/

@[simp] theorem State.setStrand_rows (s : State) (x : SlotId) (st : Strand) : (s.setStrand x st).rows = s.rows := rfl
@[simp] theorem State.setStrand_mem (s : State) (x : SlotId) (st : Strand) : (s.setStrand x st).mem = s.mem := rfl
@[simp] theorem State.setStrand_full (s : State) (x : SlotId) (st : Strand) : (s.setStrand x st).full = s.full := rfl
@[simp] theorem State.setStrand_flight (s : State) (x : SlotId) (st : Strand) : (s.setStrand x st).flight = s.flight := rfl
@[simp] theorem State.setStrand_nextId (s : State) (x : SlotId) (st : Strand) : (s.setStrand x st).nextId = s.nextId := rfl
@[simp] theorem State.setStrand_freeCount (s : State) (x : SlotId) (st : Strand) : (s.setStrand x st).freeCount = s.freeCount := rfl
@[simp] theorem State.setStrand_watches (s : State) (x : SlotId) (st : Strand) : (s.setStrand x st).watches = s.watches := rfl
@[simp] theorem State.setStrand_redWords (s : State) (x : SlotId) (st : Strand) : (s.setStrand x st).redWords = s.redWords := rfl
@[simp] theorem State.setStrand_walks (s : State) (x : SlotId) (st : Strand) : (s.setStrand x st).walks = s.walks := rfl
@[simp] theorem State.setStrand_lags (s : State) (x : SlotId) (st : Strand) : (s.setStrand x st).lags = s.lags := rfl
@[simp] theorem State.setStrand_lagOn (s : State) (x : SlotId) (st : Strand) : (s.setStrand x st).lagOn = s.lagOn := rfl
@[simp] theorem State.setStrand_engineTile (s : State) (x : SlotId) (st : Strand) : (s.setStrand x st).engineTile = s.engineTile := rfl
@[simp] theorem State.setStrand_badWords (s : State) (x : SlotId) (st : Strand) : (s.setStrand x st).badWords = s.badWords := rfl
@[simp] theorem State.setStrand_weakWords (s : State) (x : SlotId) (st : Strand) : (s.setStrand x st).weakWords = s.weakWords := rfl
@[simp] theorem State.setStrand_fusedRows (s : State) (x : SlotId) (st : Strand) : (s.setStrand x st).fusedRows = s.fusedRows := rfl
@[simp] theorem State.setStrand_fusedCols (s : State) (x : SlotId) (st : Strand) : (s.setStrand x st).fusedCols = s.fusedCols := rfl
@[simp] theorem State.setStrand_devno (s : State) (x : SlotId) (st : Strand) : (s.setStrand x st).devno = s.devno := rfl
@[simp] theorem State.setStrand_protlo (s : State) (x : SlotId) (st : Strand) : (s.setStrand x st).protlo = s.protlo := rfl
@[simp] theorem State.setStrand_prothi (s : State) (x : SlotId) (st : Strand) : (s.setStrand x st).prothi = s.prothi := rfl
@[simp] theorem State.setStrand_members (s : State) (x : SlotId) (st : Strand) : (s.setStrand x st).members = s.members := rfl
@[simp] theorem State.setStrand_cells (s : State) (x : SlotId) (st : Strand) : (s.setStrand x st).cells = s.cells := rfl
@[simp] theorem State.setStrand_sheets (s : State) (x : SlotId) (st : Strand) : (s.setStrand x st).sheets = s.sheets := rfl
@[simp] theorem State.setStrand_cellWaits (s : State) (x : SlotId) (st : Strand) : (s.setStrand x st).cellWaits = s.cellWaits := rfl
@[simp] theorem State.setStrand_cmdRings (s : State) (x : SlotId) (st : Strand) : (s.setStrand x st).cmdRings = s.cmdRings := rfl
@[simp] theorem State.setStrand_commands (s : State) (x : SlotId) (st : Strand) : (s.setStrand x st).commands = s.commands := rfl
@[simp] theorem State.setStrand_roundRings (s : State) (x : SlotId) (st : Strand) : (s.setStrand x st).roundRings = s.roundRings := rfl
@[simp] theorem State.setStrand_copyWaits (s : State) (x : SlotId) (st : Strand) : (s.setStrand x st).copyWaits = s.copyWaits := rfl
@[simp] theorem State.setStrand_launches (s : State) (x : SlotId) (st : Strand) : (s.setStrand x st).launches = s.launches := rfl
@[simp] theorem State.setStrand_images (s : State) (x : SlotId) (st : Strand) : (s.setStrand x st).images = s.images := rfl
@[simp] theorem State.setStrand_waveReqs (s : State) (x : SlotId) (st : Strand) : (s.setStrand x st).waveReqs = s.waveReqs := rfl
@[simp] theorem State.setStrand_waves (s : State) (x : SlotId) (st : Strand) : (s.setStrand x st).waves = s.waves := rfl
@[simp] theorem State.setStrand_transit (s : State) (x : SlotId) (st : Strand) : (s.setStrand x st).transit = s.transit := rfl
@[simp] theorem State.setStrand_turnouts (s : State) (x : SlotId) (st : Strand) : (s.setStrand x st).turnouts = s.turnouts := rfl
@[simp] theorem State.setStrand_packets (s : State) (x : SlotId) (st : Strand) : (s.setStrand x st).packets = s.packets := rfl
@[simp] theorem State.setStrand_rnodes (s : State) (x : SlotId) (st : Strand) : (s.setStrand x st).rnodes = s.rnodes := rfl
@[simp] theorem State.setStrand_rgroups (s : State) (x : SlotId) (st : Strand) : (s.setStrand x st).rgroups = s.rgroups := rfl
@[simp] theorem State.setStrand_sendQueues (s : State) (x : SlotId) (st : Strand) : (s.setStrand x st).sendQueues = s.sendQueues := rfl
@[simp] theorem State.setStrand_netOut (s : State) (x : SlotId) (st : Strand) : (s.setStrand x st).netOut = s.netOut := rfl
@[simp] theorem State.setStrand_roots (s : State) (x : SlotId) (st : Strand) : (s.setStrand x st).roots = s.roots := rfl
@[simp] theorem State.setStrand_svcQueues (s : State) (x : SlotId) (st : Strand) : (s.setStrand x st).svcQueues = s.svcQueues := rfl
@[simp] theorem State.setStrand_intkReqs (s : State) (x : SlotId) (st : Strand) : (s.setStrand x st).intkReqs = s.intkReqs := rfl
@[simp] theorem State.setStrand_outfalls (s : State) (x : SlotId) (st : Strand) : (s.setStrand x st).outfalls = s.outfalls := rfl
@[simp] theorem State.setStrand_spills (s : State) (x : SlotId) (st : Strand) : (s.setStrand x st).spills = s.spills := rfl
@[simp] theorem State.setStrand_evicted (s : State) (x : SlotId) (st : Strand) : (s.setStrand x st).evicted = s.evicted := rfl
@[simp] theorem State.setStrand_homeBanks (s : State) (x : SlotId) (st : Strand) : (s.setStrand x st).homeBanks = s.homeBanks := rfl
@[simp] theorem State.setStrand_portBanks (s : State) (x : SlotId) (st : Strand) : (s.setStrand x st).portBanks = s.portBanks := rfl
@[simp] theorem State.setStrand_ctl (s : State) (x : SlotId) (st : Strand) : (s.setStrand x st).ctl = s.ctl := rfl
@[simp] theorem State.setStrand_staging (s : State) (x : SlotId) (st : Strand) : (s.setStrand x st).staging = s.staging := rfl
@[simp] theorem State.setStrand_fwImage (s : State) (x : SlotId) (st : Strand) : (s.setStrand x st).fwImage = s.fwImage := rfl
@[simp] theorem State.setStrand_codeStore (s : State) (x : SlotId) (st : Strand) : (s.setStrand x st).codeStore = s.codeStore := rfl
@[simp] theorem State.setStrand_secret (s : State) (x : SlotId) (st : Strand) : (s.setStrand x st).secret = s.secret := rfl
@[simp] theorem State.setStrand_rollbackMin (s : State) (x : SlotId) (st : Strand) : (s.setStrand x st).rollbackMin = s.rollbackMin := rfl
@[simp] theorem State.setStrand_keyDigest (s : State) (x : SlotId) (st : Strand) : (s.setStrand x st).keyDigest = s.keyDigest := rfl
@[simp] theorem State.setStrand_key (s : State) (x : SlotId) (st : Strand) : (s.setStrand x st).key = s.key := rfl
@[simp] theorem State.setStrand_checkpoints (s : State) (x : SlotId) (st : Strand) : (s.setStrand x st).checkpoints = s.checkpoints := rfl
@[simp] theorem State.setStrand_heldWrites (s : State) (x : SlotId) (st : Strand) : (s.setStrand x st).heldWrites = s.heldWrites := rfl
@[simp] theorem State.setStrand_uet (s : State) (x : SlotId) (st : Strand) : (s.setStrand x st).uet = s.uet := rfl
@[simp] theorem State.setStrand_debugger (s : State) (x : SlotId) (st : Strand) : (s.setStrand x st).debugger = s.debugger := rfl
@[simp] theorem State.setStrand_hostSaw (s : State) (x : SlotId) (st : Strand) : (s.setStrand x st).hostSaw = s.hostSaw := rfl
@[simp] theorem State.setStrand_agenda (s : State) (x : SlotId) (st : Strand) : (s.setStrand x st).agenda = s.agenda := rfl
@[simp] theorem State.setStrand_focus (s : State) (x : SlotId) (st : Strand) : (s.setStrand x st).focus = s.focus := rfl
@[simp] theorem State.setStrand_cur (s : State) (x : SlotId) (st : Strand) : (s.setStrand x st).cur = s.cur := rfl

/-! ## A slot emptied -/

@[simp] theorem State.dropStrand_rows (s : State) (x : SlotId) : (s.dropStrand x).rows = s.rows := rfl
@[simp] theorem State.dropStrand_mem (s : State) (x : SlotId) : (s.dropStrand x).mem = s.mem := rfl
@[simp] theorem State.dropStrand_full (s : State) (x : SlotId) : (s.dropStrand x).full = s.full := rfl
@[simp] theorem State.dropStrand_flight (s : State) (x : SlotId) : (s.dropStrand x).flight = s.flight := rfl
@[simp] theorem State.dropStrand_nextId (s : State) (x : SlotId) : (s.dropStrand x).nextId = s.nextId := rfl
@[simp] theorem State.dropStrand_freeCount (s : State) (x : SlotId) : (s.dropStrand x).freeCount = s.freeCount := rfl
@[simp] theorem State.dropStrand_watches (s : State) (x : SlotId) : (s.dropStrand x).watches = s.watches := rfl
@[simp] theorem State.dropStrand_redWords (s : State) (x : SlotId) : (s.dropStrand x).redWords = s.redWords := rfl
@[simp] theorem State.dropStrand_walks (s : State) (x : SlotId) : (s.dropStrand x).walks = s.walks := rfl
@[simp] theorem State.dropStrand_lags (s : State) (x : SlotId) : (s.dropStrand x).lags = s.lags := rfl
@[simp] theorem State.dropStrand_lagOn (s : State) (x : SlotId) : (s.dropStrand x).lagOn = s.lagOn := rfl
@[simp] theorem State.dropStrand_engineTile (s : State) (x : SlotId) : (s.dropStrand x).engineTile = s.engineTile := rfl
@[simp] theorem State.dropStrand_badWords (s : State) (x : SlotId) : (s.dropStrand x).badWords = s.badWords := rfl
@[simp] theorem State.dropStrand_weakWords (s : State) (x : SlotId) : (s.dropStrand x).weakWords = s.weakWords := rfl
@[simp] theorem State.dropStrand_fusedRows (s : State) (x : SlotId) : (s.dropStrand x).fusedRows = s.fusedRows := rfl
@[simp] theorem State.dropStrand_fusedCols (s : State) (x : SlotId) : (s.dropStrand x).fusedCols = s.fusedCols := rfl
@[simp] theorem State.dropStrand_devno (s : State) (x : SlotId) : (s.dropStrand x).devno = s.devno := rfl
@[simp] theorem State.dropStrand_protlo (s : State) (x : SlotId) : (s.dropStrand x).protlo = s.protlo := rfl
@[simp] theorem State.dropStrand_prothi (s : State) (x : SlotId) : (s.dropStrand x).prothi = s.prothi := rfl
@[simp] theorem State.dropStrand_members (s : State) (x : SlotId) : (s.dropStrand x).members = s.members := rfl
@[simp] theorem State.dropStrand_cells (s : State) (x : SlotId) : (s.dropStrand x).cells = s.cells := rfl
@[simp] theorem State.dropStrand_sheets (s : State) (x : SlotId) : (s.dropStrand x).sheets = s.sheets := rfl
@[simp] theorem State.dropStrand_cellWaits (s : State) (x : SlotId) : (s.dropStrand x).cellWaits = s.cellWaits := rfl
@[simp] theorem State.dropStrand_cmdRings (s : State) (x : SlotId) : (s.dropStrand x).cmdRings = s.cmdRings := rfl
@[simp] theorem State.dropStrand_commands (s : State) (x : SlotId) : (s.dropStrand x).commands = s.commands := rfl
@[simp] theorem State.dropStrand_roundRings (s : State) (x : SlotId) : (s.dropStrand x).roundRings = s.roundRings := rfl
@[simp] theorem State.dropStrand_copyWaits (s : State) (x : SlotId) : (s.dropStrand x).copyWaits = s.copyWaits := rfl
@[simp] theorem State.dropStrand_launches (s : State) (x : SlotId) : (s.dropStrand x).launches = s.launches := rfl
@[simp] theorem State.dropStrand_images (s : State) (x : SlotId) : (s.dropStrand x).images = s.images := rfl
@[simp] theorem State.dropStrand_waveReqs (s : State) (x : SlotId) : (s.dropStrand x).waveReqs = s.waveReqs := rfl
@[simp] theorem State.dropStrand_waves (s : State) (x : SlotId) : (s.dropStrand x).waves = s.waves := rfl
@[simp] theorem State.dropStrand_transit (s : State) (x : SlotId) : (s.dropStrand x).transit = s.transit := rfl
@[simp] theorem State.dropStrand_turnouts (s : State) (x : SlotId) : (s.dropStrand x).turnouts = s.turnouts := rfl
@[simp] theorem State.dropStrand_packets (s : State) (x : SlotId) : (s.dropStrand x).packets = s.packets := rfl
@[simp] theorem State.dropStrand_rnodes (s : State) (x : SlotId) : (s.dropStrand x).rnodes = s.rnodes := rfl
@[simp] theorem State.dropStrand_rgroups (s : State) (x : SlotId) : (s.dropStrand x).rgroups = s.rgroups := rfl
@[simp] theorem State.dropStrand_sendQueues (s : State) (x : SlotId) : (s.dropStrand x).sendQueues = s.sendQueues := rfl
@[simp] theorem State.dropStrand_netOut (s : State) (x : SlotId) : (s.dropStrand x).netOut = s.netOut := rfl
@[simp] theorem State.dropStrand_roots (s : State) (x : SlotId) : (s.dropStrand x).roots = s.roots := rfl
@[simp] theorem State.dropStrand_svcQueues (s : State) (x : SlotId) : (s.dropStrand x).svcQueues = s.svcQueues := rfl
@[simp] theorem State.dropStrand_intkReqs (s : State) (x : SlotId) : (s.dropStrand x).intkReqs = s.intkReqs := rfl
@[simp] theorem State.dropStrand_outfalls (s : State) (x : SlotId) : (s.dropStrand x).outfalls = s.outfalls := rfl
@[simp] theorem State.dropStrand_spills (s : State) (x : SlotId) : (s.dropStrand x).spills = s.spills := rfl
@[simp] theorem State.dropStrand_evicted (s : State) (x : SlotId) : (s.dropStrand x).evicted = s.evicted := rfl
@[simp] theorem State.dropStrand_homeBanks (s : State) (x : SlotId) : (s.dropStrand x).homeBanks = s.homeBanks := rfl
@[simp] theorem State.dropStrand_portBanks (s : State) (x : SlotId) : (s.dropStrand x).portBanks = s.portBanks := rfl
@[simp] theorem State.dropStrand_ctl (s : State) (x : SlotId) : (s.dropStrand x).ctl = s.ctl := rfl
@[simp] theorem State.dropStrand_staging (s : State) (x : SlotId) : (s.dropStrand x).staging = s.staging := rfl
@[simp] theorem State.dropStrand_fwImage (s : State) (x : SlotId) : (s.dropStrand x).fwImage = s.fwImage := rfl
@[simp] theorem State.dropStrand_codeStore (s : State) (x : SlotId) : (s.dropStrand x).codeStore = s.codeStore := rfl
@[simp] theorem State.dropStrand_secret (s : State) (x : SlotId) : (s.dropStrand x).secret = s.secret := rfl
@[simp] theorem State.dropStrand_rollbackMin (s : State) (x : SlotId) : (s.dropStrand x).rollbackMin = s.rollbackMin := rfl
@[simp] theorem State.dropStrand_keyDigest (s : State) (x : SlotId) : (s.dropStrand x).keyDigest = s.keyDigest := rfl
@[simp] theorem State.dropStrand_key (s : State) (x : SlotId) : (s.dropStrand x).key = s.key := rfl
@[simp] theorem State.dropStrand_checkpoints (s : State) (x : SlotId) : (s.dropStrand x).checkpoints = s.checkpoints := rfl
@[simp] theorem State.dropStrand_heldWrites (s : State) (x : SlotId) : (s.dropStrand x).heldWrites = s.heldWrites := rfl
@[simp] theorem State.dropStrand_uet (s : State) (x : SlotId) : (s.dropStrand x).uet = s.uet := rfl
@[simp] theorem State.dropStrand_debugger (s : State) (x : SlotId) : (s.dropStrand x).debugger = s.debugger := rfl
@[simp] theorem State.dropStrand_hostSaw (s : State) (x : SlotId) : (s.dropStrand x).hostSaw = s.hostSaw := rfl
@[simp] theorem State.dropStrand_agenda (s : State) (x : SlotId) : (s.dropStrand x).agenda = s.agenda := rfl
@[simp] theorem State.dropStrand_focus (s : State) (x : SlotId) : (s.dropStrand x).focus = s.focus := rfl
@[simp] theorem State.dropStrand_cur (s : State) (x : SlotId) : (s.dropStrand x).cur = s.cur := rfl

/-! ## The executing strand replaced -/

@[simp] theorem State.put_rows (s : State) (st : Strand) : (s.put st).rows = s.rows := rfl
@[simp] theorem State.put_mem (s : State) (st : Strand) : (s.put st).mem = s.mem := rfl
@[simp] theorem State.put_full (s : State) (st : Strand) : (s.put st).full = s.full := rfl
@[simp] theorem State.put_flight (s : State) (st : Strand) : (s.put st).flight = s.flight := rfl
@[simp] theorem State.put_nextId (s : State) (st : Strand) : (s.put st).nextId = s.nextId := rfl
@[simp] theorem State.put_freeCount (s : State) (st : Strand) : (s.put st).freeCount = s.freeCount := rfl
@[simp] theorem State.put_watches (s : State) (st : Strand) : (s.put st).watches = s.watches := rfl
@[simp] theorem State.put_redWords (s : State) (st : Strand) : (s.put st).redWords = s.redWords := rfl
@[simp] theorem State.put_walks (s : State) (st : Strand) : (s.put st).walks = s.walks := rfl
@[simp] theorem State.put_lags (s : State) (st : Strand) : (s.put st).lags = s.lags := rfl
@[simp] theorem State.put_lagOn (s : State) (st : Strand) : (s.put st).lagOn = s.lagOn := rfl
@[simp] theorem State.put_engineTile (s : State) (st : Strand) : (s.put st).engineTile = s.engineTile := rfl
@[simp] theorem State.put_badWords (s : State) (st : Strand) : (s.put st).badWords = s.badWords := rfl
@[simp] theorem State.put_weakWords (s : State) (st : Strand) : (s.put st).weakWords = s.weakWords := rfl
@[simp] theorem State.put_fusedRows (s : State) (st : Strand) : (s.put st).fusedRows = s.fusedRows := rfl
@[simp] theorem State.put_fusedCols (s : State) (st : Strand) : (s.put st).fusedCols = s.fusedCols := rfl
@[simp] theorem State.put_devno (s : State) (st : Strand) : (s.put st).devno = s.devno := rfl
@[simp] theorem State.put_protlo (s : State) (st : Strand) : (s.put st).protlo = s.protlo := rfl
@[simp] theorem State.put_prothi (s : State) (st : Strand) : (s.put st).prothi = s.prothi := rfl
@[simp] theorem State.put_members (s : State) (st : Strand) : (s.put st).members = s.members := rfl
@[simp] theorem State.put_cells (s : State) (st : Strand) : (s.put st).cells = s.cells := rfl
@[simp] theorem State.put_sheets (s : State) (st : Strand) : (s.put st).sheets = s.sheets := rfl
@[simp] theorem State.put_cellWaits (s : State) (st : Strand) : (s.put st).cellWaits = s.cellWaits := rfl
@[simp] theorem State.put_cmdRings (s : State) (st : Strand) : (s.put st).cmdRings = s.cmdRings := rfl
@[simp] theorem State.put_commands (s : State) (st : Strand) : (s.put st).commands = s.commands := rfl
@[simp] theorem State.put_roundRings (s : State) (st : Strand) : (s.put st).roundRings = s.roundRings := rfl
@[simp] theorem State.put_copyWaits (s : State) (st : Strand) : (s.put st).copyWaits = s.copyWaits := rfl
@[simp] theorem State.put_launches (s : State) (st : Strand) : (s.put st).launches = s.launches := rfl
@[simp] theorem State.put_images (s : State) (st : Strand) : (s.put st).images = s.images := rfl
@[simp] theorem State.put_waveReqs (s : State) (st : Strand) : (s.put st).waveReqs = s.waveReqs := rfl
@[simp] theorem State.put_waves (s : State) (st : Strand) : (s.put st).waves = s.waves := rfl
@[simp] theorem State.put_transit (s : State) (st : Strand) : (s.put st).transit = s.transit := rfl
@[simp] theorem State.put_turnouts (s : State) (st : Strand) : (s.put st).turnouts = s.turnouts := rfl
@[simp] theorem State.put_packets (s : State) (st : Strand) : (s.put st).packets = s.packets := rfl
@[simp] theorem State.put_rnodes (s : State) (st : Strand) : (s.put st).rnodes = s.rnodes := rfl
@[simp] theorem State.put_rgroups (s : State) (st : Strand) : (s.put st).rgroups = s.rgroups := rfl
@[simp] theorem State.put_sendQueues (s : State) (st : Strand) : (s.put st).sendQueues = s.sendQueues := rfl
@[simp] theorem State.put_netOut (s : State) (st : Strand) : (s.put st).netOut = s.netOut := rfl
@[simp] theorem State.put_roots (s : State) (st : Strand) : (s.put st).roots = s.roots := rfl
@[simp] theorem State.put_svcQueues (s : State) (st : Strand) : (s.put st).svcQueues = s.svcQueues := rfl
@[simp] theorem State.put_intkReqs (s : State) (st : Strand) : (s.put st).intkReqs = s.intkReqs := rfl
@[simp] theorem State.put_outfalls (s : State) (st : Strand) : (s.put st).outfalls = s.outfalls := rfl
@[simp] theorem State.put_spills (s : State) (st : Strand) : (s.put st).spills = s.spills := rfl
@[simp] theorem State.put_evicted (s : State) (st : Strand) : (s.put st).evicted = s.evicted := rfl
@[simp] theorem State.put_homeBanks (s : State) (st : Strand) : (s.put st).homeBanks = s.homeBanks := rfl
@[simp] theorem State.put_portBanks (s : State) (st : Strand) : (s.put st).portBanks = s.portBanks := rfl
@[simp] theorem State.put_ctl (s : State) (st : Strand) : (s.put st).ctl = s.ctl := rfl
@[simp] theorem State.put_staging (s : State) (st : Strand) : (s.put st).staging = s.staging := rfl
@[simp] theorem State.put_fwImage (s : State) (st : Strand) : (s.put st).fwImage = s.fwImage := rfl
@[simp] theorem State.put_codeStore (s : State) (st : Strand) : (s.put st).codeStore = s.codeStore := rfl
@[simp] theorem State.put_secret (s : State) (st : Strand) : (s.put st).secret = s.secret := rfl
@[simp] theorem State.put_rollbackMin (s : State) (st : Strand) : (s.put st).rollbackMin = s.rollbackMin := rfl
@[simp] theorem State.put_keyDigest (s : State) (st : Strand) : (s.put st).keyDigest = s.keyDigest := rfl
@[simp] theorem State.put_key (s : State) (st : Strand) : (s.put st).key = s.key := rfl
@[simp] theorem State.put_checkpoints (s : State) (st : Strand) : (s.put st).checkpoints = s.checkpoints := rfl
@[simp] theorem State.put_heldWrites (s : State) (st : Strand) : (s.put st).heldWrites = s.heldWrites := rfl
@[simp] theorem State.put_uet (s : State) (st : Strand) : (s.put st).uet = s.uet := rfl
@[simp] theorem State.put_debugger (s : State) (st : Strand) : (s.put st).debugger = s.debugger := rfl
@[simp] theorem State.put_hostSaw (s : State) (st : Strand) : (s.put st).hostSaw = s.hostSaw := rfl
@[simp] theorem State.put_agenda (s : State) (st : Strand) : (s.put st).agenda = s.agenda := rfl
@[simp] theorem State.put_focus (s : State) (st : Strand) : (s.put st).focus = s.focus := rfl
@[simp] theorem State.put_cur (s : State) (st : Strand) : (s.put st).cur = s.cur := rfl

/-! ## A row changed -/

@[simp] theorem State.modRow_tiles (s : State) (r : Nat) (f : Row → Row) : (s.modRow r f).tiles = s.tiles := rfl
@[simp] theorem State.modRow_rows (s : State) (r : Nat) (f : Row → Row) : (s.modRow r f).rows = assocSet s.rows r (f (s.rowAt r)) := rfl
@[simp] theorem State.modRow_mem (s : State) (r : Nat) (f : Row → Row) : (s.modRow r f).mem = s.mem := rfl
@[simp] theorem State.modRow_full (s : State) (r : Nat) (f : Row → Row) : (s.modRow r f).full = s.full := rfl
@[simp] theorem State.modRow_flight (s : State) (r : Nat) (f : Row → Row) : (s.modRow r f).flight = s.flight := rfl
@[simp] theorem State.modRow_nextId (s : State) (r : Nat) (f : Row → Row) : (s.modRow r f).nextId = s.nextId := rfl
@[simp] theorem State.modRow_freeCount (s : State) (r : Nat) (f : Row → Row) : (s.modRow r f).freeCount = s.freeCount := rfl
@[simp] theorem State.modRow_watches (s : State) (r : Nat) (f : Row → Row) : (s.modRow r f).watches = s.watches := rfl
@[simp] theorem State.modRow_redWords (s : State) (r : Nat) (f : Row → Row) : (s.modRow r f).redWords = s.redWords := rfl
@[simp] theorem State.modRow_walks (s : State) (r : Nat) (f : Row → Row) : (s.modRow r f).walks = s.walks := rfl
@[simp] theorem State.modRow_lags (s : State) (r : Nat) (f : Row → Row) : (s.modRow r f).lags = s.lags := rfl
@[simp] theorem State.modRow_lagOn (s : State) (r : Nat) (f : Row → Row) : (s.modRow r f).lagOn = s.lagOn := rfl
@[simp] theorem State.modRow_engineTile (s : State) (r : Nat) (f : Row → Row) : (s.modRow r f).engineTile = s.engineTile := rfl
@[simp] theorem State.modRow_badWords (s : State) (r : Nat) (f : Row → Row) : (s.modRow r f).badWords = s.badWords := rfl
@[simp] theorem State.modRow_weakWords (s : State) (r : Nat) (f : Row → Row) : (s.modRow r f).weakWords = s.weakWords := rfl
@[simp] theorem State.modRow_fusedRows (s : State) (r : Nat) (f : Row → Row) : (s.modRow r f).fusedRows = s.fusedRows := rfl
@[simp] theorem State.modRow_fusedCols (s : State) (r : Nat) (f : Row → Row) : (s.modRow r f).fusedCols = s.fusedCols := rfl
@[simp] theorem State.modRow_devno (s : State) (r : Nat) (f : Row → Row) : (s.modRow r f).devno = s.devno := rfl
@[simp] theorem State.modRow_protlo (s : State) (r : Nat) (f : Row → Row) : (s.modRow r f).protlo = s.protlo := rfl
@[simp] theorem State.modRow_prothi (s : State) (r : Nat) (f : Row → Row) : (s.modRow r f).prothi = s.prothi := rfl
@[simp] theorem State.modRow_members (s : State) (r : Nat) (f : Row → Row) : (s.modRow r f).members = s.members := rfl
@[simp] theorem State.modRow_cells (s : State) (r : Nat) (f : Row → Row) : (s.modRow r f).cells = s.cells := rfl
@[simp] theorem State.modRow_sheets (s : State) (r : Nat) (f : Row → Row) : (s.modRow r f).sheets = s.sheets := rfl
@[simp] theorem State.modRow_cellWaits (s : State) (r : Nat) (f : Row → Row) : (s.modRow r f).cellWaits = s.cellWaits := rfl
@[simp] theorem State.modRow_cmdRings (s : State) (r : Nat) (f : Row → Row) : (s.modRow r f).cmdRings = s.cmdRings := rfl
@[simp] theorem State.modRow_commands (s : State) (r : Nat) (f : Row → Row) : (s.modRow r f).commands = s.commands := rfl
@[simp] theorem State.modRow_roundRings (s : State) (r : Nat) (f : Row → Row) : (s.modRow r f).roundRings = s.roundRings := rfl
@[simp] theorem State.modRow_copyWaits (s : State) (r : Nat) (f : Row → Row) : (s.modRow r f).copyWaits = s.copyWaits := rfl
@[simp] theorem State.modRow_launches (s : State) (r : Nat) (f : Row → Row) : (s.modRow r f).launches = s.launches := rfl
@[simp] theorem State.modRow_images (s : State) (r : Nat) (f : Row → Row) : (s.modRow r f).images = s.images := rfl
@[simp] theorem State.modRow_waveReqs (s : State) (r : Nat) (f : Row → Row) : (s.modRow r f).waveReqs = s.waveReqs := rfl
@[simp] theorem State.modRow_waves (s : State) (r : Nat) (f : Row → Row) : (s.modRow r f).waves = s.waves := rfl
@[simp] theorem State.modRow_transit (s : State) (r : Nat) (f : Row → Row) : (s.modRow r f).transit = s.transit := rfl
@[simp] theorem State.modRow_turnouts (s : State) (r : Nat) (f : Row → Row) : (s.modRow r f).turnouts = s.turnouts := rfl
@[simp] theorem State.modRow_packets (s : State) (r : Nat) (f : Row → Row) : (s.modRow r f).packets = s.packets := rfl
@[simp] theorem State.modRow_rnodes (s : State) (r : Nat) (f : Row → Row) : (s.modRow r f).rnodes = s.rnodes := rfl
@[simp] theorem State.modRow_rgroups (s : State) (r : Nat) (f : Row → Row) : (s.modRow r f).rgroups = s.rgroups := rfl
@[simp] theorem State.modRow_sendQueues (s : State) (r : Nat) (f : Row → Row) : (s.modRow r f).sendQueues = s.sendQueues := rfl
@[simp] theorem State.modRow_netOut (s : State) (r : Nat) (f : Row → Row) : (s.modRow r f).netOut = s.netOut := rfl
@[simp] theorem State.modRow_roots (s : State) (r : Nat) (f : Row → Row) : (s.modRow r f).roots = s.roots := rfl
@[simp] theorem State.modRow_svcQueues (s : State) (r : Nat) (f : Row → Row) : (s.modRow r f).svcQueues = s.svcQueues := rfl
@[simp] theorem State.modRow_intkReqs (s : State) (r : Nat) (f : Row → Row) : (s.modRow r f).intkReqs = s.intkReqs := rfl
@[simp] theorem State.modRow_outfalls (s : State) (r : Nat) (f : Row → Row) : (s.modRow r f).outfalls = s.outfalls := rfl
@[simp] theorem State.modRow_spills (s : State) (r : Nat) (f : Row → Row) : (s.modRow r f).spills = s.spills := rfl
@[simp] theorem State.modRow_evicted (s : State) (r : Nat) (f : Row → Row) : (s.modRow r f).evicted = s.evicted := rfl
@[simp] theorem State.modRow_homeBanks (s : State) (r : Nat) (f : Row → Row) : (s.modRow r f).homeBanks = s.homeBanks := rfl
@[simp] theorem State.modRow_portBanks (s : State) (r : Nat) (f : Row → Row) : (s.modRow r f).portBanks = s.portBanks := rfl
@[simp] theorem State.modRow_ctl (s : State) (r : Nat) (f : Row → Row) : (s.modRow r f).ctl = s.ctl := rfl
@[simp] theorem State.modRow_staging (s : State) (r : Nat) (f : Row → Row) : (s.modRow r f).staging = s.staging := rfl
@[simp] theorem State.modRow_fwImage (s : State) (r : Nat) (f : Row → Row) : (s.modRow r f).fwImage = s.fwImage := rfl
@[simp] theorem State.modRow_codeStore (s : State) (r : Nat) (f : Row → Row) : (s.modRow r f).codeStore = s.codeStore := rfl
@[simp] theorem State.modRow_secret (s : State) (r : Nat) (f : Row → Row) : (s.modRow r f).secret = s.secret := rfl
@[simp] theorem State.modRow_rollbackMin (s : State) (r : Nat) (f : Row → Row) : (s.modRow r f).rollbackMin = s.rollbackMin := rfl
@[simp] theorem State.modRow_keyDigest (s : State) (r : Nat) (f : Row → Row) : (s.modRow r f).keyDigest = s.keyDigest := rfl
@[simp] theorem State.modRow_key (s : State) (r : Nat) (f : Row → Row) : (s.modRow r f).key = s.key := rfl
@[simp] theorem State.modRow_checkpoints (s : State) (r : Nat) (f : Row → Row) : (s.modRow r f).checkpoints = s.checkpoints := rfl
@[simp] theorem State.modRow_heldWrites (s : State) (r : Nat) (f : Row → Row) : (s.modRow r f).heldWrites = s.heldWrites := rfl
@[simp] theorem State.modRow_uet (s : State) (r : Nat) (f : Row → Row) : (s.modRow r f).uet = s.uet := rfl
@[simp] theorem State.modRow_debugger (s : State) (r : Nat) (f : Row → Row) : (s.modRow r f).debugger = s.debugger := rfl
@[simp] theorem State.modRow_hostSaw (s : State) (r : Nat) (f : Row → Row) : (s.modRow r f).hostSaw = s.hostSaw := rfl
@[simp] theorem State.modRow_agenda (s : State) (r : Nat) (f : Row → Row) : (s.modRow r f).agenda = s.agenda := rfl
@[simp] theorem State.modRow_focus (s : State) (r : Nat) (f : Row → Row) : (s.modRow r f).focus = s.focus := rfl
@[simp] theorem State.modRow_cur (s : State) (r : Nat) (f : Row → Row) : (s.modRow r f).cur = s.cur := rfl

/-! ## Bytes put into memory -/

@[simp] theorem State.putBytes_tiles (s : State) (a : Nat) (bs : List Byte) : (s.putBytes a bs).tiles = s.tiles := rfl
@[simp] theorem State.putBytes_rows (s : State) (a : Nat) (bs : List Byte) : (s.putBytes a bs).rows = s.rows := rfl
@[simp] theorem State.putBytes_mem (s : State) (a : Nat) (bs : List Byte) : (s.putBytes a bs).mem = memSetBytes s.mem a bs := rfl
@[simp] theorem State.putBytes_full (s : State) (a : Nat) (bs : List Byte) : (s.putBytes a bs).full = (wordsOf a bs.length).foldl natInsert s.full := rfl
@[simp] theorem State.putBytes_flight (s : State) (a : Nat) (bs : List Byte) : (s.putBytes a bs).flight = s.flight := rfl
@[simp] theorem State.putBytes_nextId (s : State) (a : Nat) (bs : List Byte) : (s.putBytes a bs).nextId = s.nextId := rfl
@[simp] theorem State.putBytes_freeCount (s : State) (a : Nat) (bs : List Byte) : (s.putBytes a bs).freeCount = s.freeCount := rfl
@[simp] theorem State.putBytes_watches (s : State) (a : Nat) (bs : List Byte) : (s.putBytes a bs).watches = s.watches := rfl
@[simp] theorem State.putBytes_redWords (s : State) (a : Nat) (bs : List Byte) : (s.putBytes a bs).redWords = s.redWords := rfl
@[simp] theorem State.putBytes_walks (s : State) (a : Nat) (bs : List Byte) : (s.putBytes a bs).walks = s.walks := rfl
@[simp] theorem State.putBytes_lags (s : State) (a : Nat) (bs : List Byte) : (s.putBytes a bs).lags = s.lags := rfl
@[simp] theorem State.putBytes_lagOn (s : State) (a : Nat) (bs : List Byte) : (s.putBytes a bs).lagOn = s.lagOn := rfl
@[simp] theorem State.putBytes_engineTile (s : State) (a : Nat) (bs : List Byte) : (s.putBytes a bs).engineTile = s.engineTile := rfl
@[simp] theorem State.putBytes_badWords (s : State) (a : Nat) (bs : List Byte) :
    (s.putBytes a bs).badWords = s.badWords.filter fun w => !coversWord a bs.length w := rfl
@[simp] theorem State.putBytes_weakWords (s : State) (a : Nat) (bs : List Byte) :
    (s.putBytes a bs).weakWords = s.weakWords.filter fun w => !coversWord a bs.length w := rfl
@[simp] theorem State.putBytes_fusedRows (s : State) (a : Nat) (bs : List Byte) : (s.putBytes a bs).fusedRows = s.fusedRows := rfl
@[simp] theorem State.putBytes_fusedCols (s : State) (a : Nat) (bs : List Byte) : (s.putBytes a bs).fusedCols = s.fusedCols := rfl
@[simp] theorem State.putBytes_devno (s : State) (a : Nat) (bs : List Byte) : (s.putBytes a bs).devno = s.devno := rfl
@[simp] theorem State.putBytes_protlo (s : State) (a : Nat) (bs : List Byte) : (s.putBytes a bs).protlo = s.protlo := rfl
@[simp] theorem State.putBytes_prothi (s : State) (a : Nat) (bs : List Byte) : (s.putBytes a bs).prothi = s.prothi := rfl
@[simp] theorem State.putBytes_members (s : State) (a : Nat) (bs : List Byte) : (s.putBytes a bs).members = s.members := rfl
@[simp] theorem State.putBytes_cells (s : State) (a : Nat) (bs : List Byte) : (s.putBytes a bs).cells = s.cells := rfl
@[simp] theorem State.putBytes_sheets (s : State) (a : Nat) (bs : List Byte) : (s.putBytes a bs).sheets = s.sheets := rfl
@[simp] theorem State.putBytes_cellWaits (s : State) (a : Nat) (bs : List Byte) : (s.putBytes a bs).cellWaits = s.cellWaits := rfl
@[simp] theorem State.putBytes_cmdRings (s : State) (a : Nat) (bs : List Byte) : (s.putBytes a bs).cmdRings = s.cmdRings := rfl
@[simp] theorem State.putBytes_commands (s : State) (a : Nat) (bs : List Byte) : (s.putBytes a bs).commands = s.commands := rfl
@[simp] theorem State.putBytes_roundRings (s : State) (a : Nat) (bs : List Byte) : (s.putBytes a bs).roundRings = s.roundRings := rfl
@[simp] theorem State.putBytes_copyWaits (s : State) (a : Nat) (bs : List Byte) : (s.putBytes a bs).copyWaits = s.copyWaits := rfl
@[simp] theorem State.putBytes_launches (s : State) (a : Nat) (bs : List Byte) : (s.putBytes a bs).launches = s.launches := rfl
@[simp] theorem State.putBytes_images (s : State) (a : Nat) (bs : List Byte) : (s.putBytes a bs).images = s.images := rfl
@[simp] theorem State.putBytes_waveReqs (s : State) (a : Nat) (bs : List Byte) : (s.putBytes a bs).waveReqs = s.waveReqs := rfl
@[simp] theorem State.putBytes_waves (s : State) (a : Nat) (bs : List Byte) : (s.putBytes a bs).waves = s.waves := rfl
@[simp] theorem State.putBytes_transit (s : State) (a : Nat) (bs : List Byte) : (s.putBytes a bs).transit = s.transit := rfl
@[simp] theorem State.putBytes_turnouts (s : State) (a : Nat) (bs : List Byte) : (s.putBytes a bs).turnouts = s.turnouts := rfl
@[simp] theorem State.putBytes_packets (s : State) (a : Nat) (bs : List Byte) : (s.putBytes a bs).packets = s.packets := rfl
@[simp] theorem State.putBytes_rnodes (s : State) (a : Nat) (bs : List Byte) : (s.putBytes a bs).rnodes = s.rnodes := rfl
@[simp] theorem State.putBytes_rgroups (s : State) (a : Nat) (bs : List Byte) : (s.putBytes a bs).rgroups = s.rgroups := rfl
@[simp] theorem State.putBytes_sendQueues (s : State) (a : Nat) (bs : List Byte) : (s.putBytes a bs).sendQueues = s.sendQueues := rfl
@[simp] theorem State.putBytes_netOut (s : State) (a : Nat) (bs : List Byte) : (s.putBytes a bs).netOut = s.netOut := rfl
@[simp] theorem State.putBytes_roots (s : State) (a : Nat) (bs : List Byte) : (s.putBytes a bs).roots = s.roots := rfl
@[simp] theorem State.putBytes_svcQueues (s : State) (a : Nat) (bs : List Byte) : (s.putBytes a bs).svcQueues = s.svcQueues := rfl
@[simp] theorem State.putBytes_intkReqs (s : State) (a : Nat) (bs : List Byte) : (s.putBytes a bs).intkReqs = s.intkReqs := rfl
@[simp] theorem State.putBytes_outfalls (s : State) (a : Nat) (bs : List Byte) : (s.putBytes a bs).outfalls = s.outfalls := rfl
@[simp] theorem State.putBytes_spills (s : State) (a : Nat) (bs : List Byte) : (s.putBytes a bs).spills = s.spills := rfl
@[simp] theorem State.putBytes_evicted (s : State) (a : Nat) (bs : List Byte) : (s.putBytes a bs).evicted = s.evicted := rfl
@[simp] theorem State.putBytes_homeBanks (s : State) (a : Nat) (bs : List Byte) : (s.putBytes a bs).homeBanks = s.homeBanks := rfl
@[simp] theorem State.putBytes_portBanks (s : State) (a : Nat) (bs : List Byte) : (s.putBytes a bs).portBanks = s.portBanks := rfl
@[simp] theorem State.putBytes_ctl (s : State) (a : Nat) (bs : List Byte) : (s.putBytes a bs).ctl = s.ctl := rfl
@[simp] theorem State.putBytes_staging (s : State) (a : Nat) (bs : List Byte) : (s.putBytes a bs).staging = s.staging := rfl
@[simp] theorem State.putBytes_fwImage (s : State) (a : Nat) (bs : List Byte) : (s.putBytes a bs).fwImage = s.fwImage := rfl
@[simp] theorem State.putBytes_codeStore (s : State) (a : Nat) (bs : List Byte) : (s.putBytes a bs).codeStore = s.codeStore := rfl
@[simp] theorem State.putBytes_secret (s : State) (a : Nat) (bs : List Byte) : (s.putBytes a bs).secret = s.secret := rfl
@[simp] theorem State.putBytes_rollbackMin (s : State) (a : Nat) (bs : List Byte) : (s.putBytes a bs).rollbackMin = s.rollbackMin := rfl
@[simp] theorem State.putBytes_keyDigest (s : State) (a : Nat) (bs : List Byte) : (s.putBytes a bs).keyDigest = s.keyDigest := rfl
@[simp] theorem State.putBytes_key (s : State) (a : Nat) (bs : List Byte) : (s.putBytes a bs).key = s.key := rfl
@[simp] theorem State.putBytes_checkpoints (s : State) (a : Nat) (bs : List Byte) : (s.putBytes a bs).checkpoints = s.checkpoints := rfl
@[simp] theorem State.putBytes_heldWrites (s : State) (a : Nat) (bs : List Byte) : (s.putBytes a bs).heldWrites = s.heldWrites := rfl
@[simp] theorem State.putBytes_uet (s : State) (a : Nat) (bs : List Byte) : (s.putBytes a bs).uet = s.uet := rfl
@[simp] theorem State.putBytes_debugger (s : State) (a : Nat) (bs : List Byte) : (s.putBytes a bs).debugger = s.debugger := rfl
@[simp] theorem State.putBytes_hostSaw (s : State) (a : Nat) (bs : List Byte) : (s.putBytes a bs).hostSaw = s.hostSaw := rfl
@[simp] theorem State.putBytes_agenda (s : State) (a : Nat) (bs : List Byte) : (s.putBytes a bs).agenda = s.agenda := rfl
@[simp] theorem State.putBytes_focus (s : State) (a : Nat) (bs : List Byte) : (s.putBytes a bs).focus = s.focus := rfl
@[simp] theorem State.putBytes_cur (s : State) (a : Nat) (bs : List Byte) : (s.putBytes a bs).cur = s.cur := rfl

/-! ## Registers of a strand changed -/

@[simp] theorem Strand.modRegs_regs (st : Strand) (f : Regs → Regs) : (st.modRegs f).regs = f st.regs := rfl
@[simp] theorem Strand.modRegs_sup (st : Strand) (f : Regs → Regs) : (st.modRegs f).sup = st.sup := rfl
@[simp] theorem Strand.modRegs_det (st : Strand) (f : Regs → Regs) : (st.modRegs f).det = st.det := rfl
@[simp] theorem Strand.modRegs_ie (st : Strand) (f : Regs → Regs) : (st.modRegs f).ie = st.ie := rfl
@[simp] theorem Strand.modRegs_tvec (st : Strand) (f : Regs → Regs) : (st.modRegs f).tvec = st.tvec := rfl
@[simp] theorem Strand.modRegs_sepc (st : Strand) (f : Regs → Regs) : (st.modRegs f).sepc = st.sepc := rfl
@[simp] theorem Strand.modRegs_scause (st : Strand) (f : Regs → Regs) : (st.modRegs f).scause = st.scause := rfl
@[simp] theorem Strand.modRegs_sdetail (st : Strand) (f : Regs → Regs) : (st.modRegs f).sdetail = st.sdetail := rfl
@[simp] theorem Strand.modRegs_sskipn (st : Strand) (f : Regs → Regs) : (st.modRegs f).sskipn = st.sskipn := rfl
@[simp] theorem Strand.modRegs_sid (st : Strand) (f : Regs → Regs) : (st.modRegs f).sid = st.sid := rfl
@[simp] theorem Strand.modRegs_uid (st : Strand) (f : Regs → Regs) : (st.modRegs f).uid = st.uid := rfl
@[simp] theorem Strand.modRegs_nregs (st : Strand) (f : Regs → Regs) : (st.modRegs f).nregs = st.nregs := rfl
@[simp] theorem Strand.modRegs_nvregs (st : Strand) (f : Regs → Regs) : (st.modRegs f).nvregs = st.nvregs := rfl
@[simp] theorem Strand.modRegs_nbars (st : Strand) (f : Regs → Regs) : (st.modRegs f).nbars = st.nbars := rfl
@[simp] theorem Strand.modRegs_nlocks (st : Strand) (f : Regs → Regs) : (st.modRegs f).nlocks = st.nlocks := rfl
@[simp] theorem Strand.modRegs_stackBot (st : Strand) (f : Regs → Regs) : (st.modRegs f).stackBot = st.stackBot := rfl
@[simp] theorem Strand.modRegs_stackTop (st : Strand) (f : Regs → Regs) : (st.modRegs f).stackTop = st.stackTop := rfl
@[simp] theorem Strand.modRegs_lid (st : Strand) (f : Regs → Regs) : (st.modRegs f).lid = st.lid := rfl
@[simp] theorem Strand.modRegs_wave (st : Strand) (f : Regs → Regs) : (st.modRegs f).wave = st.wave := rfl
@[simp] theorem Strand.modRegs_run (st : Strand) (f : Regs → Regs) : (st.modRegs f).run = st.run := rfl
@[simp] theorem Strand.modRegs_mark (st : Strand) (f : Regs → Regs) : (st.modRegs f).mark = st.mark := rfl
@[simp] theorem Strand.modRegs_tepc (st : Strand) (f : Regs → Regs) : (st.modRegs f).tepc = st.tepc := rfl
@[simp] theorem Strand.modRegs_tcause (st : Strand) (f : Regs → Regs) : (st.modRegs f).tcause = st.tcause := rfl
@[simp] theorem Strand.modRegs_tdetail (st : Strand) (f : Regs → Regs) : (st.modRegs f).tdetail = st.tdetail := rfl
@[simp] theorem Strand.modRegs_longs (st : Strand) (f : Regs → Regs) : (st.modRegs f).longs = st.longs := rfl
@[simp] theorem Strand.modRegs_asyncs (st : Strand) (f : Regs → Regs) : (st.modRegs f).asyncs = st.asyncs := rfl
@[simp] theorem Strand.modRegs_preReq (st : Strand) (f : Regs → Regs) : (st.modRegs f).preReq = st.preReq := rfl
@[simp] theorem Strand.modRegs_yielded (st : Strand) (f : Regs → Regs) : (st.modRegs f).yielded = st.yielded := rfl
@[simp] theorem Strand.modRegs_rsv (st : Strand) (f : Regs → Regs) : (st.modRegs f).rsv = st.rsv := rfl
@[simp] theorem Strand.modRegs_tx (st : Strand) (f : Regs → Regs) : (st.modRegs f).tx = st.tx := rfl
@[simp] theorem Strand.modRegs_abortReq (st : Strand) (f : Regs → Regs) : (st.modRegs f).abortReq = st.abortReq := rfl
@[simp] theorem Strand.modRegs_wakeReq (st : Strand) (f : Regs → Regs) : (st.modRegs f).wakeReq = st.wakeReq := rfl
@[simp] theorem Strand.modRegs_redo (st : Strand) (f : Regs → Regs) : (st.modRegs f).redo = st.redo := rfl
@[simp] theorem Strand.modRegs_upset (st : Strand) (f : Regs → Regs) : (st.modRegs f).upset = st.upset := rfl
@[simp] theorem Strand.modRegs_lane (st : Strand) (f : Regs → Regs) : (st.modRegs f).lane = st.lane := rfl
@[simp] theorem Strand.modRegs_committed (st : Strand) (f : Regs → Regs) : (st.modRegs f).committed = st.committed := rfl
@[simp] theorem Strand.modRegs_chunk (st : Strand) (f : Regs → Regs) : (st.modRegs f).chunk = st.chunk := rfl

end Sys2Proof.Machine
end

