-- ==== Sys2Proof/Laws/Issue.lean ====
section
/-!
SUPPORT. What the shared operations on strands do: a slot read after it is set, the frame in which every instruction word runs, and how
an instruction's effect ends.
-/

namespace Sys2Proof.Machine

/-! ## Tiles and slots -/

@[simp] theorem State.tile_setTile (s : State) (t : Nat) (x : Tile) : (s.setTile t x).tile t = x := by
  simp [State.tile]

theorem State.tile_setTile_other (s : State) {t j : Nat} (x : Tile) (h : t ≠ j) : (s.setTile t x).tile j = s.tile j := by
  simp [State.tile, assocGet_assocSet_other _ _ h]

@[simp] theorem State.tile_modTile (s : State) (t : Nat) (f : Tile → Tile) : (s.modTile t f).tile t = f (s.tile t) := by
  simp [State.modTile]

theorem State.tile_modTile_other (s : State) {t j : Nat} (f : Tile → Tile) (h : t ≠ j) : (s.modTile t f).tile j = s.tile j :=
  State.tile_setTile_other s _ h

@[simp] theorem State.strand?_setStrand (s : State) (x : SlotId) (st : Strand) : (s.setStrand x st).strand? x = some st := by
  simp [State.strand?, State.setStrand]

/-- Another slot holds what it held. -/
theorem State.strand?_setStrand_other (s : State) {x y : SlotId} (st : Strand) (h : x.tile ≠ y.tile ∨ x.member ≠ y.member) :
    (s.setStrand x st).strand? y = s.strand? y := by
  unfold State.strand? State.setStrand
  by_cases ht : x.tile = y.tile
  · rw [← ht, State.tile_modTile, assocGet_assocSet_other _ _ (h.resolve_left (· ht))]
  · rw [State.tile_modTile_other _ _ ht]

@[simp] theorem State.setStrand_setStrand (s : State) (x : SlotId) (st st' : Strand) :
    (s.setStrand x st).setStrand x st' = s.setStrand x st' := by
  simp [State.setStrand, State.modTile, State.setTile, State.tile]

theorem State.modStrand_of_strand {s : State} {x : SlotId} {st : Strand} (h : s.strand? x = some st) (f : Strand → Strand) :
    s.modStrand x f = s.setStrand x (f st) := by simp [State.modStrand, h]

@[simp] theorem State.modStrand_setStrand (s : State) (x : SlotId) (st : Strand) (f : Strand → Strand) :
    (s.setStrand x st).modStrand x f = s.setStrand x (f st) := by simp [State.modStrand]

@[simp] theorem State.strand?_put (s : State) (st : Strand) : (s.put st).strand? s.cur = some st := by simp [State.put]

/-! ## The frame of an instruction word -/

/-- A word that is clear comes to its own effect. -/
theorem State.issue_clear {s : State} {st : Strand} {u : Uses} (h : s.Clear st u) (m : Bool) (body : Strand → Act) :
    s.issue m u body = .next (s.finish s.cur m (body st)) := by
  have hp : (if st.sup then none else u.priv) = none := by
    rcases h.mode with h | h
    · simp [h]
    · rw [h]; exact ite_self _
  have ho : (u.aborts && st.inTx) = false := by
    cases ha : u.aborts
    · rfl
    · rw [h.outside ha]; rfl
  have hq : (u.access && st.acquiring) = false := by
    cases ha : u.access
    · rfl
    · rw [h.order ha]; rfl
  have hc : st.checked s s.cur u body = body st := by
    simp only [Strand.checked, hp, h.declared, h.settled, h.parity, ho, hq, h.chunk, Bool.false_eq_true, if_false]
  simp only [State.issue, h.here, hc]

/-- A word always answers a next state when a strand stands in its slot. -/
theorem State.issue_next {s : State} {st : Strand} (h : s.strand? s.cur = some st) (m : Bool) (u : Uses) (body : Strand → Act) :
    s.issue m u body = .next (s.finish s.cur m (st.checked s s.cur u body)) := by simp only [State.issue, h]

/-! ## How an effect ends -/

/-- Completion in a state in which the strand has become st. -/
theorem State.finish_ok {s t : State} {x : SlotId} {st : Strand} (h : t.strand? x = some st) (m : Bool) :
    s.finish x m (.ok t) = t.setStrand x (st.after m (st.regs.pc + 4)) := by
  simp only [State.finish, State.modStrand_of_strand h, Strand.after]

theorem State.finish_jump {s t : State} {x : SlotId} {st : Strand} (h : t.strand? x = some st) (m : Bool) (p : Word) :
    s.finish x m (.jump t p) = t.setStrand x (st.after m p) := by
  simp only [State.finish, State.modStrand_of_strand h, Strand.after]

@[simp] theorem State.finish_put (s : State) (m : Bool) (st : Strand) : s.finish s.cur m (.ok (s.put st)) = s.completes m st := by
  rw [State.finish_ok (State.strand?_put s st)]
  simp [State.put, State.completes]

@[simp] theorem State.finish_put_jump (s : State) (m : Bool) (st : Strand) (p : Word) :
    s.finish s.cur m (.jump (s.put st) p) = s.jumps m st p := by
  rw [State.finish_jump (State.strand?_put s st)]
  simp [State.put, State.jumps]

theorem State.finish_same {s : State} {st : Strand} (h : s.strand? s.cur = some st) (m : Bool) :
    s.finish s.cur m (.ok s) = s.completes m st := by
  rw [State.finish_ok h, State.completes]

theorem State.finish_same_jump {s : State} {st : Strand} (h : s.strand? s.cur = some st) (m : Bool) (p : Word) :
    s.finish s.cur m (.jump s p) = s.jumps m st p := by
  rw [State.finish_jump h, State.jumps]

/-- A hold other than a miss changes the strand alone. -/
theorem State.finish_hold {s t : State} {x : SlotId} {st : Strand} (h : t.strand? x = some st) (m : Bool) {w : Hold}
    (hw : ∀ va k, w ≠ .walk va k) : s.finish x m (.hold t w) = t.setStrand x { st with run := .held w, mark := m } := by
  simp only [State.finish, State.holdAt, State.modStrand_of_strand h]

/-- A miss also asks for a walk, and leaves tiles as a plain hold does. -/
theorem State.finish_walk {s t : State} {x : SlotId} {st : Strand} (h : t.strand? x = some st) (m : Bool) (va : Nat) (k : AccKind) :
    s.finish x m (.hold t (.walk va k))
      = (t.setStrand x { st with run := .held (.walk va k), mark := m }).noteMiss x va k := by
  simp only [State.finish, State.holdAt, State.modStrand_of_strand h]

/-- A strand that is no deterministic lane takes its fault at once. -/
theorem State.faultTurn_plain {s : State} {x : SlotId} {st : Strand} (h : s.strand? x = some st) (hc : st.chunk = none) (c : Nat) (d p : Word) :
    s.faultTurn x c d p = s.takeFault x false c d p := by
  simp only [State.faultTurn, h, hc]

theorem State.finish_fault {s : State} {x : SlotId} {st : Strand} (h : s.strand? x = some st) (hc : st.chunk = none) (m : Bool) (c : Nat)
    (d : Word) : s.finish x m (.fault c d) = s.takeFault x false c d (faultPc c st.regs.pc) := by
  simp only [State.finish, h, State.faultTurn_plain h hc]

/-- An instruction whose whole effect is a short scalar result, when it is clear. -/
theorem State.alu_clear {s : State} {st : Strand} {u : Uses} (h : s.Clear st u) (m : Bool) (d : Spec) (f : Strand → Word) :
    s.alu m u d f = .next (s.completes m (st.putS d (f st))) := by
  rw [State.alu, State.issue_clear h, State.finish_put]

/-- Completing a word leaves every slot but its own. -/
theorem State.completes_other (s : State) (m : Bool) (st : Strand) {y : SlotId}
    (h : s.cur.tile ≠ y.tile ∨ s.cur.member ≠ y.member) : (s.completes m st).strand? y = s.strand? y :=
  State.strand?_setStrand_other s _ h

@[simp] theorem State.completes_mem (s : State) (m : Bool) (st : Strand) : (s.completes m st).mem = s.mem := rfl
@[simp] theorem State.completes_full (s : State) (m : Bool) (st : Strand) : (s.completes m st).full = s.full := rfl
@[simp] theorem State.completes_strand (s : State) (m : Bool) (st : Strand) :
    (s.completes m st).strand? s.cur = some (st.after m (st.regs.pc + 4)) := State.strand?_setStrand s _ _

/-! ## Registers -/

@[simp] theorem Strand.rs_z (st : Strand) : st.rs 41 = 0 := rfl
@[simp] theorem Strand.rv_zv (st : Strand) : st.rv 41 = 0 := rfl
@[simp] theorem Strand.putS_z (st : Strand) (v : Word) : st.putS 41 v = st := rfl
@[simp] theorem Strand.putV_zv (st : Strand) (v : V128) : st.putV 41 v = st := rfl

end Sys2Proof.Machine
end

