-- ==== Sys2Proof/Laws/PerInstr.lean ====
section
/-!
SUPPORT. A fact of every step's syntax, one lemma per constructor: it is a word with an encoding (spec/01 R28), or a step of another
agent (spec/95) that has neither an encoding nor an operand condition.
-/

namespace Sys2Proof.Laws.Encoded

/-- A word has an encoding at every operand; a step without one has no operand that could be ill-formed. -/
def Statement (i : Instr) : Prop := (∃ w, encode i = some w) ∨ (encode i = none ∧ i.conds = [])

theorem add a b c d : Statement (.add a b c d) := .inl ⟨_, rfl⟩
theorem sub a b c d : Statement (.sub a b c d) := .inl ⟨_, rfl⟩
theorem and a b c d : Statement (.and a b c d) := .inl ⟨_, rfl⟩
theorem or a b c d : Statement (.or a b c d) := .inl ⟨_, rfl⟩
theorem xor a b c d : Statement (.xor a b c d) := .inl ⟨_, rfl⟩
theorem shl a b c d : Statement (.shl a b c d) := .inl ⟨_, rfl⟩
theorem shr a b c d : Statement (.shr a b c d) := .inl ⟨_, rfl⟩
theorem sha a b c d : Statement (.sha a b c d) := .inl ⟨_, rfl⟩
theorem min a b c d : Statement (.min a b c d) := .inl ⟨_, rfl⟩
theorem max a b c d : Statement (.max a b c d) := .inl ⟨_, rfl⟩
theorem minn a b c d : Statement (.minn a b c d) := .inl ⟨_, rfl⟩
theorem maxn a b c d : Statement (.maxn a b c d) := .inl ⟨_, rfl⟩
theorem sel a b c d : Statement (.sel a b c d) := .inl ⟨_, rfl⟩
theorem clz a b c : Statement (.clz a b c) := .inl ⟨_, rfl⟩
theorem popc a b c : Statement (.popc a b c) := .inl ⟨_, rfl⟩
theorem mul a b c d : Statement (.mul a b c d) := .inl ⟨_, rfl⟩
theorem mulh a b c d : Statement (.mulh a b c d) := .inl ⟨_, rfl⟩
theorem mulhn a b c d : Statement (.mulhn a b c d) := .inl ⟨_, rfl⟩
theorem div a b c d : Statement (.div a b c d) := .inl ⟨_, rfl⟩
theorem divn a b c d : Statement (.divn a b c d) := .inl ⟨_, rfl⟩
theorem rem a b c d : Statement (.rem a b c d) := .inl ⟨_, rfl⟩
theorem remn a b c d : Statement (.remn a b c d) := .inl ⟨_, rfl⟩
theorem addi a b c d : Statement (.addi a b c d) := .inl ⟨_, rfl⟩
theorem andi a b c d : Statement (.andi a b c d) := .inl ⟨_, rfl⟩
theorem ori a b c d : Statement (.ori a b c d) := .inl ⟨_, rfl⟩
theorem xori a b c d : Statement (.xori a b c d) := .inl ⟨_, rfl⟩
theorem shli a b c d : Statement (.shli a b c d) := .inl ⟨_, rfl⟩
theorem shri a b c d : Statement (.shri a b c d) := .inl ⟨_, rfl⟩
theorem shai a b c d : Statement (.shai a b c d) := .inl ⟨_, rfl⟩
theorem lih a b c : Statement (.lih a b c) := .inl ⟨_, rfl⟩
theorem addpc a b c : Statement (.addpc a b c) := .inl ⟨_, rfl⟩
theorem bext a b c d e : Statement (.bext a b c d e) := .inl ⟨_, rfl⟩
theorem bins a b c d e : Statement (.bins a b c d e) := .inl ⟨_, rfl⟩
theorem cmp a b c d e : Statement (.cmp a b c d e) := .inl ⟨_, rfl⟩
theorem cmpi a b c d e : Statement (.cmpi a b c d e) := .inl ⟨_, rfl⟩
theorem set a b c d e : Statement (.set a b c d e) := .inl ⟨_, rfl⟩
theorem seti a b c d e : Statement (.seti a b c d e) := .inl ⟨_, rfl⟩
theorem br a b c d : Statement (.br a b c d) := .inl ⟨_, rfl⟩
theorem j a b : Statement (.j a b) := .inl ⟨_, rfl⟩
theorem call a b c : Statement (.call a b c) := .inl ⟨_, rfl⟩
theorem calli a b c d : Statement (.calli a b c d) := .inl ⟨_, rfl⟩
theorem enter a b : Statement (.enter a b) := .inl ⟨_, rfl⟩
theorem leave a b : Statement (.leave a b) := .inl ⟨_, rfl⟩
theorem fadd a b c d e : Statement (.fadd a b c d e) := .inl ⟨_, rfl⟩
theorem fsub a b c d e : Statement (.fsub a b c d e) := .inl ⟨_, rfl⟩
theorem fmul a b c d e : Statement (.fmul a b c d e) := .inl ⟨_, rfl⟩
theorem fdiv a b c d e : Statement (.fdiv a b c d e) := .inl ⟨_, rfl⟩
theorem fmin a b c d e : Statement (.fmin a b c d e) := .inl ⟨_, rfl⟩
theorem fmax a b c d e : Statement (.fmax a b c d e) := .inl ⟨_, rfl⟩
theorem fsqrt a b c d : Statement (.fsqrt a b c d) := .inl ⟨_, rfl⟩
theorem fclass a b c d : Statement (.fclass a b c d) := .inl ⟨_, rfl⟩
theorem fmv a b c d : Statement (.fmv a b c d) := .inl ⟨_, rfl⟩
theorem ffma a b c d e : Statement (.ffma a b c d e) := .inl ⟨_, rfl⟩
theorem fcvt a b c d e : Statement (.fcvt a b c d e) := .inl ⟨_, rfl⟩
theorem fcmp a b c d e f : Statement (.fcmp a b c d e f) := .inl ⟨_, rfl⟩
theorem tsum a b c d : Statement (.tsum a b c d) := .inl ⟨_, rfl⟩
theorem lds a b c d e : Statement (.lds a b c d e) := .inl ⟨_, rfl⟩
theorem sts a b c d e : Statement (.sts a b c d e) := .inl ⟨_, rfl⟩
theorem ldg a b c d e : Statement (.ldg a b c d e) := .inl ⟨_, rfl⟩
theorem stg a b c d e : Statement (.stg a b c d e) := .inl ⟨_, rfl⟩
theorem ldsv a b c d : Statement (.ldsv a b c d) := .inl ⟨_, rfl⟩
theorem stsv a b c d : Statement (.stsv a b c d) := .inl ⟨_, rfl⟩
theorem ldgv a b c d : Statement (.ldgv a b c d) := .inl ⟨_, rfl⟩
theorem stgv a b c d : Statement (.stgv a b c d) := .inl ⟨_, rfl⟩
theorem ldc a b c d : Statement (.ldc a b c d) := .inl ⟨_, rfl⟩
theorem stp a b c d : Statement (.stp a b c d) := .inl ⟨_, rfl⟩
theorem ldx a b c : Statement (.ldx a b c) := .inl ⟨_, rfl⟩
theorem stx a b c d : Statement (.stx a b c d) := .inl ⟨_, rfl⟩
theorem fence a b c d : Statement (.fence a b c d) := .inl ⟨_, rfl⟩
theorem fencex a b c d : Statement (.fencex a b c d) := .inl ⟨_, rfl⟩
theorem atomAdd a b c d e : Statement (.atomAdd a b c d e) := .inl ⟨_, rfl⟩
theorem atomAnd a b c d e : Statement (.atomAnd a b c d e) := .inl ⟨_, rfl⟩
theorem atomOr a b c d e : Statement (.atomOr a b c d e) := .inl ⟨_, rfl⟩
theorem atomXor a b c d e : Statement (.atomXor a b c d e) := .inl ⟨_, rfl⟩
theorem atomMin a b c d e : Statement (.atomMin a b c d e) := .inl ⟨_, rfl⟩
theorem atomMax a b c d e : Statement (.atomMax a b c d e) := .inl ⟨_, rfl⟩
theorem atomMinn a b c d e : Statement (.atomMinn a b c d e) := .inl ⟨_, rfl⟩
theorem atomMaxn a b c d e : Statement (.atomMaxn a b c d e) := .inl ⟨_, rfl⟩
theorem atomSwap a b c d e : Statement (.atomSwap a b c d e) := .inl ⟨_, rfl⟩
theorem atomCas a b c d e : Statement (.atomCas a b c d e) := .inl ⟨_, rfl⟩
theorem atomFaddF64 a b c d e : Statement (.atomFaddF64 a b c d e) := .inl ⟨_, rfl⟩
theorem atomFaddF32 a b c d e : Statement (.atomFaddF32 a b c d e) := .inl ⟨_, rfl⟩
theorem atomnAdd a b c d : Statement (.atomnAdd a b c d) := .inl ⟨_, rfl⟩
theorem atomnAnd a b c d : Statement (.atomnAnd a b c d) := .inl ⟨_, rfl⟩
theorem atomnOr a b c d : Statement (.atomnOr a b c d) := .inl ⟨_, rfl⟩
theorem atomnXor a b c d : Statement (.atomnXor a b c d) := .inl ⟨_, rfl⟩
theorem atomnMin a b c d : Statement (.atomnMin a b c d) := .inl ⟨_, rfl⟩
theorem atomnMax a b c d : Statement (.atomnMax a b c d) := .inl ⟨_, rfl⟩
theorem atomnMinn a b c d : Statement (.atomnMinn a b c d) := .inl ⟨_, rfl⟩
theorem atomnMaxn a b c d : Statement (.atomnMaxn a b c d) := .inl ⟨_, rfl⟩
theorem atomnFaddF64 a b c d : Statement (.atomnFaddF64 a b c d) := .inl ⟨_, rfl⟩
theorem atomnFaddF32 a b c d : Statement (.atomnFaddF32 a b c d) := .inl ⟨_, rfl⟩
theorem redpReg a b c : Statement (.redpReg a b c) := .inl ⟨_, rfl⟩
theorem redpRel a b : Statement (.redpRel a b) := .inl ⟨_, rfl⟩
theorem txb a b : Statement (.txb a b) := .inl ⟨_, rfl⟩
theorem txe a : Statement (.txe a) := .inl ⟨_, rfl⟩
theorem txa a b : Statement (.txa a b) := .inl ⟨_, rfl⟩
theorem retry a : Statement (.retry a) := .inl ⟨_, rfl⟩
theorem txst a b : Statement (.txst a b) := .inl ⟨_, rfl⟩
theorem oth a b : Statement (.oth a b) := .inl ⟨_, rfl⟩
theorem sempost a b c : Statement (.sempost a b c) := .inl ⟨_, rfl⟩
theorem semtry a b c : Statement (.semtry a b c) := .inl ⟨_, rfl⟩
theorem cpset a b c d : Statement (.cpset a b c d) := .inl ⟨_, rfl⟩
theorem cpseti a b c d : Statement (.cpseti a b c d) := .inl ⟨_, rfl⟩
theorem cpget a b c d : Statement (.cpget a b c d) := .inl ⟨_, rfl⟩
theorem cplaunch a b c : Statement (.cplaunch a b c) := .inl ⟨_, rfl⟩
theorem cpstat a b c : Statement (.cpstat a b c) := .inl ⟨_, rfl⟩
theorem cpstop a b : Statement (.cpstop a b) := .inl ⟨_, rfl⟩
theorem lkcfg a b c : Statement (.lkcfg a b c) := .inl ⟨_, rfl⟩
theorem lkadv a b : Statement (.lkadv a b) := .inl ⟨_, rfl⟩
theorem lkpos a b c : Statement (.lkpos a b c) := .inl ⟨_, rfl⟩
theorem lkjoin a b c : Statement (.lkjoin a b c) := .inl ⟨_, rfl⟩
theorem vadd a b c d e f : Statement (.vadd a b c d e f) := .inl ⟨_, rfl⟩
theorem vsub a b c d e f : Statement (.vsub a b c d e f) := .inl ⟨_, rfl⟩
theorem vmul a b c d e f : Statement (.vmul a b c d e f) := .inl ⟨_, rfl⟩
theorem vfma a b c d e f : Statement (.vfma a b c d e f) := .inl ⟨_, rfl⟩
theorem vfms a b c d e f : Statement (.vfms a b c d e f) := .inl ⟨_, rfl⟩
theorem vfnma a b c d e f : Statement (.vfnma a b c d e f) := .inl ⟨_, rfl⟩
theorem vdiv a b c d e f : Statement (.vdiv a b c d e f) := .inl ⟨_, rfl⟩
theorem vsqrt a b c d e : Statement (.vsqrt a b c d e) := .inl ⟨_, rfl⟩
theorem vabs a b c d e : Statement (.vabs a b c d e) := .inl ⟨_, rfl⟩
theorem vneg a b c d e : Statement (.vneg a b c d e) := .inl ⟨_, rfl⟩
theorem vrcp a b c d e : Statement (.vrcp a b c d e) := .inl ⟨_, rfl⟩
theorem vrsq a b c d e : Statement (.vrsq a b c d e) := .inl ⟨_, rfl⟩
theorem vexp2 a b c d e : Statement (.vexp2 a b c d e) := .inl ⟨_, rfl⟩
theorem vmin a b c d e : Statement (.vmin a b c d e) := .inl ⟨_, rfl⟩
theorem vmax a b c d e : Statement (.vmax a b c d e) := .inl ⟨_, rfl⟩
theorem vcmp a b c d e f : Statement (.vcmp a b c d e f) := .inl ⟨_, rfl⟩
theorem vsel a b c d e : Statement (.vsel a b c d e) := .inl ⟨_, rfl⟩
theorem vredAdd a b c d : Statement (.vredAdd a b c d) := .inl ⟨_, rfl⟩
theorem vredMin a b c d : Statement (.vredMin a b c d) := .inl ⟨_, rfl⟩
theorem vredMax a b c d : Statement (.vredMax a b c d) := .inl ⟨_, rfl⟩
theorem vtsum a b c : Statement (.vtsum a b c) := .inl ⟨_, rfl⟩
theorem vcvt a b c d e f : Statement (.vcvt a b c d e f) := .inl ⟨_, rfl⟩
theorem vperm a b c d : Statement (.vperm a b c d) := .inl ⟨_, rfl⟩
theorem vshufZlo a b c d : Statement (.vshufZlo a b c d) := .inl ⟨_, rfl⟩
theorem vshufZhi a b c d : Statement (.vshufZhi a b c d) := .inl ⟨_, rfl⟩
theorem vshufEven a b c d : Statement (.vshufEven a b c d) := .inl ⟨_, rfl⟩
theorem vshufOdd a b c d : Statement (.vshufOdd a b c d) := .inl ⟨_, rfl⟩
theorem vbcast a b c d : Statement (.vbcast a b c d) := .inl ⟨_, rfl⟩
theorem vmov a b c d : Statement (.vmov a b c d) := .inl ⟨_, rfl⟩
theorem vext a b c d e : Statement (.vext a b c d e) := .inl ⟨_, rfl⟩
theorem vextHigh a b c d e : Statement (.vextHigh a b c d e) := .inl ⟨_, rfl⟩
theorem viadd a b c d e : Statement (.viadd a b c d e) := .inl ⟨_, rfl⟩
theorem visub a b c d e : Statement (.visub a b c d e) := .inl ⟨_, rfl⟩
theorem vimul a b c d e : Statement (.vimul a b c d e) := .inl ⟨_, rfl⟩
theorem vand a b c d : Statement (.vand a b c d) := .inl ⟨_, rfl⟩
theorem vor a b c d : Statement (.vor a b c d) := .inl ⟨_, rfl⟩
theorem vxor a b c d : Statement (.vxor a b c d) := .inl ⟨_, rfl⟩
theorem vshl a b c d e : Statement (.vshl a b c d e) := .inl ⟨_, rfl⟩
theorem vshr a b c d e : Statement (.vshr a b c d e) := .inl ⟨_, rfl⟩
theorem plane a b c d e : Statement (.plane a b c d e) := .inl ⟨_, rfl⟩
theorem unplane a b c d e : Statement (.unplane a b c d e) := .inl ⟨_, rfl⟩
theorem p2enc a b c d : Statement (.p2enc a b c d) := .inl ⟨_, rfl⟩
theorem p2dec a b c d : Statement (.p2dec a b c d) := .inl ⟨_, rfl⟩
theorem bscale a b c d e : Statement (.bscale a b c d e) := .inl ⟨_, rfl⟩
theorem srnd a b c d : Statement (.srnd a b c d) := .inl ⟨_, rfl⟩
theorem mptrOpa a b c : Statement (.mptrOpa a b c) := .inl ⟨_, rfl⟩
theorem mptrOpb a b c : Statement (.mptrOpb a b c) := .inl ⟨_, rfl⟩
theorem msclOpa a b c : Statement (.msclOpa a b c) := .inl ⟨_, rfl⟩
theorem msclOpb a b c : Statement (.msclOpb a b c) := .inl ⟨_, rfl⟩
theorem mspar a b c : Statement (.mspar a b c) := .inl ⟨_, rfl⟩
theorem mgang a b : Statement (.mgang a b) := .inl ⟨_, rfl⟩
theorem mmul a : Statement (.mmul a) := .inl ⟨_, rfl⟩
theorem mzero a b : Statement (.mzero a b) := .inl ⟨_, rfl⟩
theorem mwr a b c : Statement (.mwr a b c) := .inl ⟨_, rfl⟩
theorem mrdhi a b c : Statement (.mrdhi a b c) := .inl ⟨_, rfl⟩
theorem mrdlo a b c : Statement (.mrdlo a b c) := .inl ⟨_, rfl⟩
theorem mrds a b c : Statement (.mrds a b c) := .inl ⟨_, rfl⟩
theorem cbind a b c : Statement (.cbind a b c) := .inl ⟨_, rfl⟩
theorem cunbind a b : Statement (.cunbind a b) := .inl ⟨_, rfl⟩
theorem cwopen a b c : Statement (.cwopen a b c) := .inl ⟨_, rfl⟩
theorem ccommit a b c d : Statement (.ccommit a b c d) := .inl ⟨_, rfl⟩
theorem cdone a b : Statement (.cdone a b) := .inl ⟨_, rfl⟩
theorem cpin a b c : Statement (.cpin a b c) := .inl ⟨_, rfl⟩
theorem cunpin a b c : Statement (.cunpin a b c) := .inl ⟨_, rfl⟩
theorem cgen a b c : Statement (.cgen a b c) := .inl ⟨_, rfl⟩
theorem cstat a b c : Statement (.cstat a b c) := .inl ⟨_, rfl⟩
theorem fork a b : Statement (.fork a b) := .inl ⟨_, rfl⟩
theorem join a b : Statement (.join a b) := .inl ⟨_, rfl⟩
theorem mig a b c d : Statement (.mig a b c d) := .inl ⟨_, rfl⟩
theorem gang a b : Statement (.gang a b) := .inl ⟨_, rfl⟩
theorem barTile a b : Statement (.barTile a b) := .inl ⟨_, rfl⟩
theorem barRow a b : Statement (.barRow a b) := .inl ⟨_, rfl⟩
theorem exit a : Statement (.exit a) := .inl ⟨_, rfl⟩
theorem yield a : Statement (.yield a) := .inl ⟨_, rfl⟩
theorem nred a b c d : Statement (.nred a b c d) := .inl ⟨_, rfl⟩
theorem nsend a b c : Statement (.nsend a b c) := .inl ⟨_, rfl⟩
theorem intk a b c : Statement (.intk a b c) := .inl ⟨_, rfl⟩
theorem outf a b c : Statement (.outf a b c) := .inl ⟨_, rfl⟩
theorem rndcLo a b c d : Statement (.rndcLo a b c d) := .inl ⟨_, rfl⟩
theorem rndcHi a b c d : Statement (.rndcHi a b c d) := .inl ⟨_, rfl⟩
theorem trap a b : Statement (.trap a b) := .inl ⟨_, rfl⟩
theorem sret a : Statement (.sret a) := .inl ⟨_, rfl⟩
theorem sysr a b c : Statement (.sysr a b c) := .inl ⟨_, rfl⟩
theorem sysw a b c : Statement (.sysw a b c) := .inl ⟨_, rfl⟩
theorem tlbinvPage a b : Statement (.tlbinvPage a b) := .inl ⟨_, rfl⟩
theorem tlbinvAsid a b : Statement (.tlbinvAsid a b) := .inl ⟨_, rfl⟩
theorem tlbinvAll a : Statement (.tlbinvAll a) := .inl ⟨_, rfl⟩
theorem selftest a b c : Statement (.selftest a b c) := .inl ⟨_, rfl⟩
theorem brk a b : Statement (.brk a b) := .inl ⟨_, rfl⟩
theorem annulledWord : Statement (.annulledWord) := .inr ⟨rfl, rfl⟩
theorem longResultReturn a : Statement (.longResultReturn a) := .inr ⟨rfl, rfl⟩
theorem translationWalk a : Statement (.translationWalk a) := .inr ⟨rfl, rfl⟩
theorem globalAccessPerformed a b c : Statement (.globalAccessPerformed a b c) := .inr ⟨rfl, rfl⟩
theorem storeBufferDrain a : Statement (.storeBufferDrain a) := .inr ⟨rfl, rfl⟩
theorem homeAtomic a b c : Statement (.homeAtomic a b c) := .inr ⟨rfl, rfl⟩
theorem fullEmptyRetest a b c : Statement (.fullEmptyRetest a b c) := .inr ⟨rfl, rfl⟩
theorem patrolScrub a b : Statement (.patrolScrub a b) := .inr ⟨rfl, rfl⟩
theorem tileWindowAccess a b : Statement (.tileWindowAccess a b) := .inr ⟨rfl, rfl⟩
theorem transferStart a b : Statement (.transferStart a b) := .inr ⟨rfl, rfl⟩
theorem copyElement a b c d e : Statement (.copyElement a b c d e) := .inr ⟨rfl, rfl⟩
theorem transferComplete a b : Statement (.transferComplete a b) := .inr ⟨rfl, rfl⟩
theorem sendPacketAccept a b : Statement (.sendPacketAccept a b) := .inr ⟨rfl, rfl⟩
theorem cpctlResume a b : Statement (.cpctlResume a b) := .inr ⟨rfl, rfl⟩
theorem cpctlCancel a b : Statement (.cpctlCancel a b) := .inr ⟨rfl, rfl⟩
theorem asyncDelivery : Statement (.asyncDelivery) := .inr ⟨rfl, rfl⟩
theorem preemption a : Statement (.preemption a) := .inr ⟨rfl, rfl⟩
theorem spill a b : Statement (.spill a b) := .inr ⟨rfl, rfl⟩
theorem restore a b : Statement (.restore a b) := .inr ⟨rfl, rfl⟩
theorem restoreDeadline a b : Statement (.restoreDeadline a b) := .inr ⟨rfl, rfl⟩
theorem launchEvict a b : Statement (.launchEvict a b) := .inr ⟨rfl, rfl⟩
theorem wavePlace a b : Statement (.wavePlace a b) := .inr ⟨rfl, rfl⟩
theorem dequeTake a b : Statement (.dequeTake a b) := .inr ⟨rfl, rfl⟩
theorem dequeOverflowMove a : Statement (.dequeOverflowMove a) := .inr ⟨rfl, rfl⟩
theorem continuationArrive a : Statement (.continuationArrive a) := .inr ⟨rfl, rfl⟩
theorem loadExchange a b c : Statement (.loadExchange a b c) := .inr ⟨rfl, rfl⟩
theorem classWindow a : Statement (.classWindow a) := .inr ⟨rfl, rfl⟩
theorem eventTake a : Statement (.eventTake a) := .inr ⟨rfl, rfl⟩
theorem seventRead a : Statement (.seventRead a) := .inr ⟨rfl, rfl⟩
theorem trunResume a b : Statement (.trunResume a b) := .inr ⟨rfl, rfl⟩
theorem trunEndLaunch a b : Statement (.trunEndLaunch a b) := .inr ⟨rfl, rfl⟩
theorem supervisorMemoryError a b c : Statement (.supervisorMemoryError a b c) := .inr ⟨rfl, rfl⟩
theorem mcstatusClear a b : Statement (.mcstatusClear a b) := .inr ⟨rfl, rfl⟩
theorem mccountClear a : Statement (.mccountClear a) := .inr ⟨rfl, rfl⟩
theorem fatalError a b c d : Statement (.fatalError a b c d) := .inr ⟨rfl, rfl⟩
theorem linkResend a b c d : Statement (.linkResend a b c d) := .inr ⟨rfl, rfl⟩
theorem selftestComplete a b : Statement (.selftestComplete a b) := .inr ⟨rfl, rfl⟩
theorem txConflict a : Statement (.txConflict a) := .inr ⟨rfl, rfl⟩
theorem txWake a : Statement (.txWake a) := .inr ⟨rfl, rfl⟩
theorem editAccept a : Statement (.editAccept a) := .inr ⟨rfl, rfl⟩
theorem publicationStep a : Statement (.publicationStep a) := .inr ⟨rfl, rfl⟩
theorem taskRelease a b : Statement (.taskRelease a b) := .inr ⟨rfl, rfl⟩
theorem formulaPublish a : Statement (.formulaPublish a) := .inr ⟨rfl, rfl⟩
theorem routerPacketArrive a : Statement (.routerPacketArrive a) := .inr ⟨rfl, rfl⟩
theorem routerTimeout a b c : Statement (.routerTimeout a b c) := .inr ⟨rfl, rfl⟩
theorem nsendDeliver a : Statement (.nsendDeliver a) := .inr ⟨rfl, rfl⟩
theorem matrixOpStart a : Statement (.matrixOpStart a) := .inr ⟨rfl, rfl⟩
theorem matrixBlockApply a b : Statement (.matrixBlockApply a b) := .inr ⟨rfl, rfl⟩
theorem ringReserve a : Statement (.ringReserve a) := .inr ⟨rfl, rfl⟩
theorem ringCommit a b : Statement (.ringCommit a b) := .inr ⟨rfl, rfl⟩
theorem rcfgWrite a b : Statement (.rcfgWrite a b) := .inr ⟨rfl, rfl⟩
theorem rerrClear a : Statement (.rerrClear a) := .inr ⟨rfl, rfl⟩
theorem launch a : Statement (.launch a) := .inr ⟨rfl, rfl⟩
theorem commit a : Statement (.commit a) := .inr ⟨rfl, rfl⟩
theorem bind a : Statement (.bind a) := .inr ⟨rfl, rfl⟩
theorem sheetnew a : Statement (.sheetnew a) := .inr ⟨rfl, rfl⟩
theorem cellnew a : Statement (.cellnew a) := .inr ⟨rfl, rfl⟩
theorem sheetend a : Statement (.sheetend a) := .inr ⟨rfl, rfl⟩
theorem sheetDestroy a : Statement (.sheetDestroy a) := .inr ⟨rfl, rfl⟩
theorem launchend a : Statement (.launchend a) := .inr ⟨rfl, rfl⟩
theorem fwopSelftest a : Statement (.fwopSelftest a) := .inr ⟨rfl, rfl⟩
theorem turnarm a : Statement (.turnarm a) := .inr ⟨rfl, rfl⟩
theorem copy a : Statement (.copy a) := .inr ⟨rfl, rfl⟩
theorem reduce a : Statement (.reduce a) := .inr ⟨rfl, rfl⟩
theorem nop a : Statement (.nop a) := .inr ⟨rfl, rfl⟩
theorem completionWord a : Statement (.completionWord a) := .inr ⟨rfl, rfl⟩
theorem launchComplete a : Statement (.launchComplete a) := .inr ⟨rfl, rfl⟩
theorem turnoutCount a b : Statement (.turnoutCount a b) := .inr ⟨rfl, rfl⟩
theorem turnoutInsert a : Statement (.turnoutInsert a) := .inr ⟨rfl, rfl⟩
theorem turnoutDisarm a : Statement (.turnoutDisarm a) := .inr ⟨rfl, rfl⟩
theorem chunkCommit a : Statement (.chunkCommit a) := .inr ⟨rfl, rfl⟩
theorem sqMessageArrive a b c : Statement (.sqMessageArrive a b c) := .inr ⟨rfl, rfl⟩
theorem intake a : Statement (.intake a) := .inr ⟨rfl, rfl⟩
theorem outfallVersion a : Statement (.outfallVersion a) := .inr ⟨rfl, rfl⟩
theorem reset : Statement (.reset) := .inr ⟨rfl, rfl⟩
theorem bootgo : Statement (.bootgo) := .inr ⟨rfl, rfl⟩
theorem lcreq a : Statement (.lcreq a) := .inr ⟨rfl, rfl⟩
theorem attgo : Statement (.attgo) := .inr ⟨rfl, rfl⟩
theorem reportComplete : Statement (.reportComplete) := .inr ⟨rfl, rfl⟩
theorem ckctlGo a : Statement (.ckctlGo a) := .inr ⟨rfl, rfl⟩
theorem ckctlRestore a : Statement (.ckctlRestore a) := .inr ⟨rfl, rfl⟩
theorem checkpointComplete a b : Statement (.checkpointComplete a b) := .inr ⟨rfl, rfl⟩
theorem deviceRegisterWrite a b : Statement (.deviceRegisterWrite a b) := .inr ⟨rfl, rfl⟩
theorem remoteTimeout a : Statement (.remoteTimeout a) := .inr ⟨rfl, rfl⟩
theorem peerReset a : Statement (.peerReset a) := .inr ⟨rfl, rfl⟩
theorem uetConnect a b : Statement (.uetConnect a b) := .inr ⟨rfl, rfl⟩
theorem wakeWithNoWrite a : Statement (.wakeWithNoWrite a) := .inr ⟨rfl, rfl⟩
theorem hostDebuggerResume a : Statement (.hostDebuggerResume a) := .inr ⟨rfl, rfl⟩

end Sys2Proof.Laws.Encoded
end

