-- ==== Sys2Proof/Laws/Words.lean ====
section
/-!
SUPPORT. Every instruction word runs in the one frame State.issue, with the uses that Safety.lean lists for it.
-/

namespace Sys2Proof.Machine

/-- A word's step is its checks, in the one order, then an effect of its own. -/
theorem exec_issues (i : Instr) (h : i.isWord = true) :
    ∃ (m : Bool) (body : State → Strand → Act), ∀ s, exec i s = s.issue m (wordUses i) (body s) := by
  cases i <;> first
    | exact ⟨_, _, fun s => rfl⟩
    | exact absurd h Bool.false_ne_true

end Sys2Proof.Machine
end

