-- ==== Sys2Proof/Laws/Writes.lean ====
section
/-!
SUPPORT. What a write to memory, and the wakes, lost reads and ended reservations that come with it, can change; and the same of an abort and of a
fault: tables of tiles, spilled strands, watches and accesses in flight alone, beside the bytes written.
-/

namespace Sys2Proof.Machine

/-! ## States that differ in their tiles, spilled strands, watches and accesses in flight alone -/

/-- t is s but for its tiles, its spilled strands, its watches and its accesses in flight. -/
def State.Near (s t : State) : Prop := t = { s with tiles := t.tiles, spills := t.spills, watches := t.watches, flight := t.flight }

theorem State.Near.rfl' (s : State) : s.Near s := rfl

theorem State.Near.trans {s t u : State} (h : s.Near t) (k : t.Near u) : s.Near u := by
  unfold State.Near at *
  rw [k, h]

theorem State.near_setTile (s : State) (n : Nat) (x : Tile) : s.Near (s.setTile n x) := rfl
theorem State.near_modTile (s : State) (n : Nat) (f : Tile → Tile) : s.Near (s.modTile n f) := rfl
theorem State.near_setStrand (s : State) (x : SlotId) (st : Strand) : s.Near (s.setStrand x st) := rfl
theorem State.near_dropWeir (s : State) (x : SlotId) : s.Near (s.dropWeir x) := rfl

theorem State.near_modStrand (s : State) (x : SlotId) (f : Strand → Strand) : s.Near (s.modStrand x f) := by
  unfold State.modStrand
  split <;> rfl

theorem State.near_dropRsv (s : State) (x : SlotId) : s.Near (s.dropRsv x) := by
  have h := s.near_modStrand x fun st => { st with rsv := none }
  unfold State.Near State.dropRsv State.endRsv at *
  rw [h]

/-- What is near at every step of a fold is near at its end. -/
theorem State.near_foldl {α : Type} (f : State → α → State) (hf : ∀ (s : State) (a : α), s.Near (f s a)) (l : List α) (s : State) :
    s.Near (l.foldl f s) := by
  induction l generalizing s with
  | nil => rfl
  | cons a r ih => exact (hf s a).trans (ih _)

theorem State.near_wakeAt (s : State) (x : SlotId) (addr : Word) : s.Near (s.wakeAt x addr) := by
  refine State.near_foldl _ (fun s y => ?_) _ s
  dsimp only
  split
  · split
    · exact s.near_modStrand y _
    · exact (s.near_modStrand y _).trans (State.near_dropWeir _ y)
  · exact s.near_modStrand y _

theorem State.near_notifyLine (s : State) (w : Option SlotId) (l : Loc) : s.Near (s.notifyLine w l) := by
  refine State.Near.trans (t := { s with
    tiles := s.tiles.map fun p => (p.1, p.2.hitLine p.1 w (s.laneOf w) l)
    spills := s.spills.map fun p => if p.strand.isLane (s.laneOf w) then { p with strand := p.strand.hitChunk false l } else p
    watches := s.watches.filter fun w => !(w.kind = 1 && w.line = l) }) rfl ?_
  exact State.near_foldl _ (fun _ p => State.near_foldl _ (fun _ _ => State.near_wakeAt _ _ _) _ _) _ _

/-- A write's notice changes tiles and watches alone. -/
theorem State.near_notify (s : State) (w : Option SlotId) (l : Loc) (n : Nat) : s.Near (s.notify w l n) :=
  State.near_foldl _ (fun s l => s.near_notifyLine w l) _ s

theorem State.Near.mem {s t : State} (h : s.Near t) : t.mem = s.mem := by rw [h]
theorem State.Near.full {s t : State} (h : s.Near t) : t.full = s.full := by rw [h]
theorem State.Near.cells {s t : State} (h : s.Near t) : t.cells = s.cells := by rw [h]
theorem State.Near.sheets {s t : State} (h : s.Near t) : t.sheets = s.sheets := by rw [h]
theorem State.Near.checkpoints {s t : State} (h : s.Near t) : t.checkpoints = s.checkpoints := by rw [h]

/-! ## Bytes written -/

/-- What a write notes of what other classes may miss is in the table of lags alone. -/
theorem State.lagWrite_eq (s : State) (cls op a n : Nat) (sh : List (Nat × Nat)) : s.lagWrite cls op a n sh = { s with lags := (s.lagWrite cls op a n sh).lags } := by
  unfold State.lagWrite
  split <;> rfl

theorem State.lagWrite_mem (s : State) (cls op a n : Nat) (sh : List (Nat × Nat)) : (s.lagWrite cls op a n sh).mem = s.mem := by rw [State.lagWrite_eq]
theorem State.lagWrite_full (s : State) (cls op a n : Nat) (sh : List (Nat × Nat)) : (s.lagWrite cls op a n sh).full = s.full := by rw [State.lagWrite_eq]
theorem State.lagWrite_checkpoints (s : State) (cls op a n : Nat) (sh : List (Nat × Nat)) : (s.lagWrite cls op a n sh).checkpoints = s.checkpoints := by
  rw [State.lagWrite_eq]
theorem State.lagWrite_strand (s : State) (cls op a n : Nat) (sh : List (Nat × Nat)) (x : SlotId) : (s.lagWrite cls op a n sh).strand? x = s.strand? x := by
  rw [State.lagWrite_eq]; rfl

/-- A store's memory: the bytes at their place. -/
@[simp] theorem State.store_mem (s : State) (w : Option SlotId) (a : Nat) (bs : List Byte) (cls op : Nat) (sh : List (Nat × Nat)) :
    (s.store w a bs cls op sh).mem = memSetBytes s.mem a bs :=
  (State.near_notify _ _ _ _).mem.trans (by rw [State.putBytes_mem, State.lagWrite_mem])

/-- A store's words are full, and every other word is as it was. -/
theorem State.store_full (s : State) (w : Option SlotId) (a : Nat) (bs : List Byte) (cls op : Nat) (sh : List (Nat × Nat)) :
    (s.store w a bs cls op sh).full = (wordsOf a bs.length).foldl natInsert s.full :=
  (State.near_notify _ _ _ _).full.trans (by rw [State.putBytes_full, State.lagWrite_full])

theorem State.store_checkpoints (s : State) (w : Option SlotId) (a : Nat) (bs : List Byte) (cls op : Nat) (sh : List (Nat × Nat)) :
    (s.store w a bs cls op sh).checkpoints = s.checkpoints :=
  (State.near_notify _ _ _ _).checkpoints.trans (by rw [State.putBytes_checkpoints, State.lagWrite_checkpoints])

@[simp] theorem State.emptyWord_mem (s : State) (w : Option SlotId) (k : Nat) : (s.emptyWord w k).mem = s.mem :=
  (State.near_notify _ _ _ _).mem

theorem State.emptyWord_full (s : State) (w : Option SlotId) (k : Nat) : (s.emptyWord w k).full = s.full.filter (· != k) :=
  (State.near_notify _ _ _ _).full

theorem mem_foldl_natInsert (ws : List Nat) (l : List Nat) (b : Nat) : b ∈ ws.foldl natInsert l ↔ b ∈ l ∨ b ∈ ws := by
  induction ws generalizing l with
  | nil => simp
  | cons a r ih => rw [List.foldl_cons, ih, mem_natInsert, List.mem_cons]; tauto

theorem mem_wordsOf (a n w : Nat) : w ∈ wordsOf a n ↔ a / 8 ≤ w ∧ w < (a + n + 7) / 8 := by
  unfold wordsOf
  simp only [List.mem_map, List.mem_range]
  constructor
  · rintro ⟨i, hi, rfl⟩; omega
  · intro h; exact ⟨w - a / 8, by omega, by omega⟩

/-- Which words are full after a store. -/
theorem State.mem_store_full (s : State) (w : Option SlotId) (a : Nat) (bs : List Byte) (cls op : Nat) (sh : List (Nat × Nat)) (k : Nat) :
    k ∈ (s.store w a bs cls op sh).full ↔ k ∈ s.full ∨ (a / 8 ≤ k ∧ k < (a + bs.length + 7) / 8) := by
  rw [State.store_full, mem_foldl_natInsert, mem_wordsOf]

/-- A store, and a word emptied, keep the canonical form of memory. -/
theorem State.store_MemOk {s : State} (h : s.MemOk) (w : Option SlotId) (a : Nat) (bs : List Byte) (cls op : Nat) (sh : List (Nat × Nat)) :
    (s.store w a bs cls op sh).MemOk :=
  ⟨by rw [State.store_mem]; exact memSetBytes_wf h.1 a bs,
    by rw [State.store_full]; exact natInserts_sorted h.2.1 _,
    by rw [State.store_checkpoints]; exact h.2.2⟩

theorem State.emptyWord_MemOk {s : State} (h : s.MemOk) (w : Option SlotId) (k : Nat) : (s.emptyWord w k).MemOk :=
  ⟨by rw [State.emptyWord_mem]; exact h.1,
    by rw [State.emptyWord_full]; exact natFilter_sorted h.2.1 _,
    by rw [State.emptyWord, (State.near_notify _ _ _ _).checkpoints]; exact h.2.2⟩

theorem State.Near.MemOk {s t : State} (n : s.Near t) (h : s.MemOk) : t.MemOk :=
  ⟨by rw [n.mem]; exact h.1, by rw [n.full]; exact h.2.1, by rw [n.checkpoints]; exact h.2.2⟩

/-! ## A strand that a write leaves as it is -/

/-- The strand is not asleep, nor held or pre-empted so that a wake reaches it, and keeps no chunk: no write changes it. -/
def Strand.Calm (st : Strand) : Prop := (∀ a, st.wake a = st) ∧ st.chunk = none

/-- A strand that may issue, with no chunk, is calm. -/
theorem Strand.calm_of_ready {st : Strand} (h : st.run = .ready) (hc : st.chunk = none) : st.Calm :=
  ⟨fun a => by unfold Strand.wake; rw [h], hc⟩

theorem State.strand_dropWeir (s : State) (x y : SlotId) : (s.dropWeir x).strand? y = s.strand? y := by
  unfold State.strand? State.dropWeir
  by_cases h : x.tile = y.tile
  · rw [← h, State.tile_modTile]
  · rw [State.tile_modTile_other _ _ h]

theorem State.strand_modStrand_other (s : State) {x y : SlotId} (f : Strand → Strand) (h : x.tile ≠ y.tile ∨ x.member ≠ y.member) :
    (s.modStrand x f).strand? y = s.strand? y := by
  unfold State.modStrand
  split
  · exact s.strand?_setStrand_other _ h
  · rfl

/-- A slot is found by its tile and its member number. -/
theorem State.strand_congr (s : State) {x y : SlotId} (ht : x.tile = y.tile) (hm : x.member = y.member) : s.strand? x = s.strand? y := by
  unfold State.strand?
  rw [ht, hm]

theorem State.strand_modStrand_calm {s : State} {x : SlotId} {st : Strand} (h : s.strand? x = some st) (y : SlotId) {f : Strand → Strand}
    (hf : f st = st) : (s.modStrand y f).strand? x = some st := by
  by_cases ht : y.tile = x.tile ∧ y.member = x.member
  · have hy := (s.strand_congr ht.1 ht.2).trans h
    rw [State.modStrand_of_strand hy, hf, ← State.strand_congr _ ht.1 ht.2, State.strand?_setStrand]
  · rw [State.strand_modStrand_other _ _ (by omega), h]

/-- What keeps a slot at every step of a fold keeps it to its end. -/
theorem State.strand_foldl {α : Type} {x : SlotId} {st : Strand} (f : State → α → State)
    (hf : ∀ (s : State) (a : α), s.strand? x = some st → (f s a).strand? x = some st) (l : List α) (s : State) (h : s.strand? x = some st) :
    (l.foldl f s).strand? x = some st := by
  induction l generalizing s with
  | nil => exact h
  | cons a r ih => exact ih _ (hf s a h)

theorem State.strand_wakeAt {s : State} {x : SlotId} {st : Strand} (h : s.strand? x = some st) (hc : st.Calm) (y : SlotId) (addr : Word) :
    (s.wakeAt y addr).strand? x = some st := by
  refine State.strand_foldl _ (fun s z hs => ?_) _ s h
  have hm := State.strand_modStrand_calm (f := fun st => st.wake addr) hs z (hc.1 addr)
  dsimp only
  split
  · split
    · exact hm
    · rw [State.strand_dropWeir]; exact hm
  · exact hm

theorem assocGet_map {α β : Type} (l : List (Nat × α)) (f : Nat → α → β) (j : Nat) :
    assocGet (l.map fun p => (p.1, f p.1 p.2)) j = (assocGet l j).map (f j) := by
  induction l with
  | nil => rfl
  | cons p r ih =>
    simp only [List.map_cons, assocGet]
    split
    · next h => rw [h]; rfl
    · exact ih

theorem Strand.hitChunk_none {st : Strand} (h : st.chunk = none) (b : Bool) (l : Loc) : st.hitChunk b l = st := by
  unfold Strand.hitChunk
  rw [h]
  cases st
  simp_all

theorem Strand.isLane_none {st : Strand} (h : st.chunk = none) (l : Option Nat) : st.isLane l = false := by
  unfold Strand.isLane
  rw [h]
  rfl

theorem State.strand_notifyLine {s : State} {x : SlotId} {st : Strand} (h : s.strand? x = some st) (hc : st.Calm) (w : Option SlotId)
    (l : Loc) : (s.notifyLine w l).strand? x = some st := by
  refine State.strand_foldl _ (fun s p hs => State.strand_foldl _ (fun s m hs => State.strand_wakeAt hs hc _ _) _ s hs) _ _ ?_
  show assocGet (((assocGet (s.tiles.map fun p => (p.1, p.2.hitLine p.1 w (s.laneOf w) l)) x.tile).getD Tile.initial).strands) x.member = some st
  rw [assocGet_map s.tiles fun n t => t.hitLine n w (s.laneOf w) l]
  unfold State.strand? State.tile at h
  cases ht : assocGet s.tiles x.tile with
  | none => rw [ht] at h; exact absurd h (by simp [Tile.initial])
  | some t =>
    rw [ht] at h
    simp only [Option.map_some, Option.getD_some] at h ⊢
    have hn := Strand.isLane_none hc.2 (s.laneOf w)
    unfold Tile.hitLine
    simp only
    rw [assocGet_map t.strands fun m q => if w != some (slotOf x.tile m) && q.isLane (s.laneOf w) then
      q.hitChunk (t.weir.any fun e => e.line = l && e.live && w != some (slotOf x.tile e.member) && e.member = m) l else q, h]
    simp only [Option.map_some, hn, Bool.and_false, Bool.false_eq_true, if_false]

/-- A write, or a word emptied, leaves a calm strand as it is. -/
theorem State.strand_notify {s : State} {x : SlotId} {st : Strand} (h : s.strand? x = some st) (hc : st.Calm) (w : Option SlotId) (l : Loc)
    (n : Nat) : (s.notify w l n).strand? x = some st :=
  State.strand_foldl _ (fun _ l hs => State.strand_notifyLine hs hc w l) _ s h

theorem State.strand_store {s : State} {x : SlotId} {st : Strand} (h : s.strand? x = some st) (hc : st.Calm) (w : Option SlotId) (a : Nat)
    (bs : List Byte) (cls op : Nat) (sh : List (Nat × Nat)) : (s.store w a bs cls op sh).strand? x = some st :=
  State.strand_notify (s := (s.lagWrite cls op a bs.length sh).putBytes a bs) ((State.lagWrite_strand _ _ _ _ _ _ _).trans h) hc _ _ _

theorem State.strand_emptyWord {s : State} {x : SlotId} {st : Strand} (h : s.strand? x = some st) (hc : st.Calm) (w : Option SlotId)
    (k : Nat) : (s.emptyWord w k).strand? x = some st :=
  State.strand_notify (s := { s with full := s.full.filter (· != k) }) h hc _ _ _

/-! ## Aborts and faults -/

/-- An abort keeps memory, its full words and its checkpoints. -/
theorem State.abortTx_keeps (s : State) (x : SlotId) (r : BitVec 8) (a : Word) :
    (s.abortTx x r a).mem = s.mem ∧ (s.abortTx x r a).full = s.full ∧ (s.abortTx x r a).checkpoints = s.checkpoints := by
  unfold State.abortTx
  split
  · exact ⟨rfl, rfl, rfl⟩
  · split
    · exact ⟨rfl, rfl, rfl⟩
    · split <;> exact ⟨rfl, rfl, rfl⟩

/-- A user strand's fault keeps them too. -/
theorem State.takeUser_keeps (s : State) (x : SlotId) (st : Strand) (b : Bool) (c : Nat) (d p : Word) :
    (s.takeUser x st b c d p).mem = s.mem ∧ (s.takeUser x st b c d p).full = s.full
      ∧ (s.takeUser x st b c d p).checkpoints = s.checkpoints := by
  have h := s.abortTx_keeps x 5 st.regs.pc
  have n : (s.abortTx x 5 st.regs.pc).Near (s.takeUser x st b c d p) :=
    (State.near_dropRsv _ x).trans ((State.near_modStrand _ x fun k => { k with
      run := .out
      tepc := st.tgt1.getD p
      tcause := BitVec.ofNat 64 (c % 256 + if b then 256 else 0)
      tdetail := d }).trans (State.near_modTile _ x.tile fun k => k.queueEvent ⟨eventEntry false c st.sid, d, none⟩))
  exact ⟨n.mem.trans h.1, n.full.trans h.2.1, n.checkpoints.trans h.2.2⟩

end Sys2Proof.Machine
end

