-- ==== Sys2Proof/Tests/Slice0.lean ====
section
/-!
SUPPORT. Tests of the model on fixed values. Expected values are from the spec's own examples and tables, or computed by hand from its
rules; each test names its source. The last part shows that the hypotheses of every statement can be met together.
-/

open Sys2Proof Sys2Proof.Machine

namespace Sys2Proof.Tests

/- The checks of this file run one after another: many at a time, each with the stack that check.sh gives a thread, want more memory than it
allows. -/
set_option Elab.async false

/-! ## Decoding

Each word is laid out from its row of spec/opcode_table.json (spec/01 Tables 1.6 to 1.19): the fixed bits, the marker in bit 31 and the
operands in the fields of the row's format, most with b = 6, a = 5, d = 4. The cores are those the row's table allows. -/

/-- On the cores of the list every word decodes to its instruction; on the others it is illegal with reason 3 (Table 1.20). -/
def reads (cores : List Core) (l : List (BitVec 32 × Instr)) : Bool :=
  l.all fun p => [Core.m, Core.c, Core.a].all fun k =>
    match decodeFor k p.1 with
    | .ok i => cores.contains k && i == p.2
    | .error n => !cores.contains k && n == 3

/-- A word and its instruction on some core. -/
def spells (k : Core) (w : BitVec 32) (i : Instr) : Bool :=
  match decodeFor k w with
  | .ok j => j == i
  | .error _ => false

/-- The reason for which a word is illegal on a core (Table 1.20). -/
def illegal (k : Core) (w : BitVec 32) : Option Nat :=
  match decodeFor k w with
  | .ok _ => none
  | .error n => some n

/-- Scalar integer (spec/06 R113 to R118). -/
theorem test_decode_integer : reads [.m, .c, .a] [
    (0x0030A201, .add false 4 5 6),
    (0x8230A201, .sub true 4 5 6),
    (0x0430A201, .and false 4 5 6),
    (0x8630A201, .or true 4 5 6),
    (0x0830A201, .xor false 4 5 6),
    (0x8A30A201, .shl true 4 5 6),
    (0x0C30A201, .shr false 4 5 6),
    (0x8E30A201, .sha true 4 5 6),
    (0x1030A201, .min false 4 5 6),
    (0x9230A201, .max true 4 5 6),
    (0x1430A201, .minn false 4 5 6),
    (0x9630A201, .maxn true 4 5 6),
    (0x1830A201, .sel false 4 5 6),
    (0x9B48A201, .clz true 4 5),
    (0x1D48A201, .popc false 4 5),
    (0x8030A202, .mul true 4 5 6)] = true := by decide

/-- Scalar integer (spec/06 R113 to R118). -/
theorem test_decode_integer2 : reads [.m, .c, .a] [
    (0x0230A202, .mulh false 4 5 6),
    (0x8430A202, .mulhn true 4 5 6),
    (0x0630A202, .div false 4 5 6),
    (0x8830A202, .divn true 4 5 6),
    (0x0A30A202, .rem false 4 5 6),
    (0x8C30A202, .remn true 4 5 6),
    (0x0238A203, .addi false 4 5 71),
    (0x8250A204, .andi true 4 5 74),
    (0x0268A205, .ori false 4 5 77),
    (0x8280A206, .xori true 4 5 80),
    (0x0018A207, .shli false 4 5 3),
    (0x8218A207, .shri true 4 5 3),
    (0x0418A207, .shai false 4 5 3),
    (0x800B8208, .lih true 4 92),
    (0x000BE209, .addpc false 4 95),
    (0x8A48A20A, .bext true 4 5 5 9)] = true := by decide

/-- Scalar integer (spec/06 R113 to R118). -/
theorem test_decode_integer3 : reads [.m, .c, .a] [
    (0x0A48A20B, .bins false 4 5 5 9)] = true := by decide

/-- Compare and control flow (spec/06 R126 to R130). -/
theorem test_decode_control : reads [.m, .c, .a] [
    (0xAC30A010, .cmp true 2 3 5 6),
    (0x2F58A010, .cmpi false 2 3 5 43),
    (0x8230A211, .set true 1 4 5 6),
    (0x1388A211, .seti false 1 4 5 49),
    (0x80741492, .br true 1 5 116),
    (0x000EF493, .j false 119),
    (0x800F4214, .call true 4 122),
    (0x03E8A215, .calli false 4 5 125),
    (0x80101496, .enter true 128),
    (0x00211497, .leave false 264)] = true := by decide

/-- Scalar floating point (spec/06 R119 to R125). -/
theorem test_decode_float : reads [.a] [
    (0x8230A218, .fadd true 1 4 5 6),
    (0x0A30A218, .fsub false 1 4 5 6),
    (0x9230A218, .fmul true 1 4 5 6),
    (0x1A30A218, .fdiv false 1 4 5 6),
    (0xA230A218, .fmin true 1 4 5 6),
    (0x2A30A218, .fmax false 1 4 5 6),
    (0xB348A218, .fsqrt true 1 4 5),
    (0x3B48A218, .fclass false 1 4 5),
    (0xC348A218, .fmv true 1 4 5),
    (0x0230A219, .ffma false 1 4 5 6),
    (0x9948A21A, .fcvt true 1 4 4 5),
    (0x1430A09B, .fcmp false 1 1 1 5 6),
    (0x8030A21C, .tsum true 4 5 6)] = true := by decide

/-- Loads, stores and fences (spec/03, spec/05, spec/10, spec/11). -/
theorem test_decode_memory : reads [.m, .c, .a] [
    (0x0068A220, .lds false 4 5 1 5),
    (0x8230B221, .sts true 6 5 12 4),
    (0x0068A222, .ldg false 4 5 1 5),
    (0x8230B223, .stg true 6 5 12 4),
    (0x0628A228, .ldc false 4 5 197),
    (0x8230B1A9, .stp true 6 5 99),
    (0x0148A22A, .ldx false 4 5),
    (0x8230A22A, .stx true 4 5 6),
    (0x0010612B, .fence false 2 3 2),
    (0x8210612B, .fencex true 2 3 2)] = true := by decide

/-- Loads, stores and fences (spec/03, spec/05, spec/10, spec/11). -/
theorem test_decode_memory2 : reads [.c, .a] [
    (0x05C8A224, .ldsv false 4 5 185),
    (0x8230B1A5, .stsv true 6 5 99),
    (0x05F8A226, .ldgv false 4 5 191),
    (0x8230B1A7, .stgv true 6 5 99)] = true := by decide

/-- Atomics, transactions and semaphores (spec/11). -/
theorem test_decode_atomics : reads [.m, .c, .a] [
    (0x2030A22C, .atomAdd false 1 4 5 6),
    (0xA230A22C, .atomAnd true 1 4 5 6),
    (0x2430A22C, .atomOr false 1 4 5 6),
    (0xA630A22C, .atomXor true 1 4 5 6),
    (0x2830A22C, .atomMin false 1 4 5 6),
    (0xAA30A22C, .atomMax true 1 4 5 6),
    (0x2C30A22C, .atomMinn false 1 4 5 6),
    (0xAE30A22C, .atomMaxn true 1 4 5 6),
    (0x3030A22C, .atomSwap false 1 4 5 6),
    (0xB230A22C, .atomCas true 1 4 5 6),
    (0x3430A22C, .atomFaddF64 false 1 4 5 6),
    (0xB630A22C, .atomFaddF32 true 1 4 5 6),
    (0x4030B4AD, .atomnAdd false 1 5 6),
    (0xC230B4AD, .atomnAnd true 1 5 6),
    (0x4430B4AD, .atomnOr false 1 5 6),
    (0xC630B4AD, .atomnXor true 1 5 6)] = true := by decide

/-- Atomics, transactions and semaphores (spec/11). -/
theorem test_decode_atomics2 : reads [.m, .c, .a] [
    (0x4830B4AD, .atomnMin false 1 5 6),
    (0xCA30B4AD, .atomnMax true 1 5 6),
    (0x4C30B4AD, .atomnMinn false 1 5 6),
    (0xCE30B4AD, .atomnMaxn true 1 5 6),
    (0x5430B4AD, .atomnFaddF64 false 1 5 6),
    (0xD630B4AD, .atomnFaddF32 true 1 5 6),
    (0x0348B4AE, .redpReg false 1 5),
    (0x8948B4AE, .redpRel true 5),
    (0x0023F4AF, .txb false 287),
    (0x814D34B0, .txe true),
    (0x0348B4B0, .txa false 5),
    (0x854D34B0, .retry true),
    (0x074D2230, .txst false 4),
    (0x8025D4B1, .oth true 302),
    (0x0018B4B2, .sempost false 3 5),
    (0x821D2232, .semtry true 4 3)] = true := by decide

/-- Block transfer and lock rings (spec/04, spec/05). -/
theorem test_decode_transfer : reads [.m] [
    (0x0608B4B4, .cpset false 1 3 5),
    (0x89D060B5, .cpseti true 1 3 314),
    (0x060D2236, .cpget false 4 1 3),
    (0x800D2237, .cplaunch true 4 1),
    (0x020D2237, .cpstat false 4 1),
    (0x840D34B7, .cpstop true 1)] = true := by decide

/-- Block transfer and lock rings (spec/04, spec/05). -/
theorem test_decode_transfer2 : reads [.m, .c, .a] [
    (0x0008B4B8, .lkcfg false 1 5),
    (0x820D34B8, .lkadv true 1),
    (0x040D2238, .lkpos false 4 1),
    (0x8608B4B8, .lkjoin true 1 5)] = true := by decide

/-- Vector floating point (spec/08). -/
theorem test_decode_vectorFloat : reads [.a] [
    (0x2230A23C, .vadd false 1 1 4 5 6),
    (0xA230A23D, .vsub true 1 1 4 5 6),
    (0x2230A23E, .vmul false 1 1 4 5 6),
    (0xA230A23F, .vfma true 1 1 4 5 6),
    (0x2230A240, .vfms false 1 1 4 5 6),
    (0xA230A241, .vfnma true 1 1 4 5 6),
    (0x2230A242, .vdiv false 1 1 4 5 6),
    (0xA200A243, .vsqrt true 1 1 4 5),
    (0x2208A243, .vabs false 1 1 4 5),
    (0xA210A243, .vneg true 1 1 4 5),
    (0x2218A243, .vrcp false 1 1 4 5),
    (0xA220A243, .vrsq true 1 1 4 5),
    (0x2228A243, .vexp2 false 1 1 4 5),
    (0x8230A244, .vmin true 1 4 5 6),
    (0x0230A245, .vmax false 1 4 5 6),
    (0x8200A248, .vredAdd true 1 4 5)] = true := by decide

/-- Vector floating point (spec/08). -/
theorem test_decode_vectorFloat2 : reads [.a] [
    (0x0208A248, .vredMin false 1 4 5),
    (0x8210A248, .vredMax true 1 4 5),
    (0x0218A248, .vtsum false 4 5)] = true := by decide

/-- Vector floating point (spec/08). -/
theorem test_decode_vectorFloat3 : reads [.c, .a] [
    (0xA230A246, .vcmp true 1 1 4 5 6),
    (0x0230A247, .vsel false 1 4 5 6)] = true := by decide

/-- Vector conversion, permutation and integer (spec/08). -/
theorem test_decode_vectorMoves : reads [.c, .a] [
    (0x8290A249, .vcvt true 2 1 1 4 5),
    (0x0030A24A, .vperm false 4 5 6),
    (0x8230A24A, .vshufZlo true 4 5 6),
    (0x0430A24A, .vshufZhi false 4 5 6),
    (0x8630A24A, .vshufEven true 4 5 6),
    (0x0830A24A, .vshufOdd false 4 5 6),
    (0x8348A24B, .vbcast true 1 4 5),
    (0x2348A24B, .vmov false 1 4 5),
    (0xC238A24B, .vext true 1 4 5 7),
    (0x6838A24B, .vextHigh false 4 4 5 7),
    (0x9230A24C, .viadd true 1 4 5 6),
    (0x3230A24C, .visub false 1 4 5 6),
    (0xD230A24C, .vimul true 1 4 5 6),
    (0x0030A24D, .vand false 4 5 6),
    (0x8230A24D, .vor true 4 5 6),
    (0x0430A24D, .vxor false 4 5 6)] = true := by decide

/-- Vector conversion, permutation and integer (spec/08). -/
theorem test_decode_vectorMoves2 : reads [.c, .a] [
    (0x9230A24E, .vshl true 1 4 5 6),
    (0x3230A24E, .vshr false 1 4 5 6)] = true := by decide

/-- Conversion unit (spec/08). -/
theorem test_decode_conversion : reads [.c] [
    (0x8E310A50, .plane true 7 20 8 6),
    (0x0E328451, .unplane false 7 8 20 6),
    (0x8348A252, .p2enc true 1 4 5),
    (0x0348A253, .p2dec false 1 4 5),
    (0x8230A254, .bscale true 1 4 5 6),
    (0x0348A255, .srnd false 1 4 5)] = true := by decide

/-- Matrix (spec/09). -/
theorem test_decode_matrix : reads [.a] [
    (0x8030B4D8, .mptrOpa true 5 6),
    (0x0230B4D8, .mptrOpb false 5 6),
    (0x8030B4D9, .msclOpa true 5 6),
    (0x0230B4D9, .msclOpb false 5 6),
    (0x8030B4DA, .mspar true 5 6),
    (0x000D34DB, .mgang false 1),
    (0x814D34DC, .mmul true),
    (0x0148B4DD, .mzero false 5),
    (0x8230B4DD, .mwr true 5 6),
    (0x0148A25E, .mrdhi false 4 5),
    (0x8348A25E, .mrdlo true 4 5),
    (0x0548A25E, .mrds false 4 5)] = true := by decide

/-- Cells (spec/13). -/
theorem test_decode_cells : reads [.m] [
    (0x8030B4E0, .cbind true 5 6),
    (0x0148B4E1, .cunbind false 5),
    (0x8148A262, .cwopen true 4 5),
    (0x0030A263, .ccommit false 4 5 6)] = true := by decide

/-- Cells (spec/13). -/
theorem test_decode_cells2 : reads [.m, .c, .a] [
    (0x8148B4E4, .cdone true 5),
    (0x0148A265, .cpin false 4 5),
    (0x8230B4E5, .cunpin true 5 6),
    (0x0148A266, .cgen false 4 5),
    (0x8148A267, .cstat true 4 5)] = true := by decide

/-- Execution (spec/12). -/
theorem test_decode_execution : reads [.m, .c, .a] [
    (0x004374E8, .fork false 539),
    (0x8148B4E9, .join true 5),
    (0x0088B4EA, .mig false 1 1 5),
    (0x8148B4EB, .gang true 5),
    (0x000D34EC, .barTile false 1),
    (0x820D34EC, .barRow true 1),
    (0x014D34ED, .exit false),
    (0x814D34EE, .yield true)] = true := by decide

/-- Network and serving (spec/11, spec/16). -/
theorem test_decode_network : reads [.m] [
    (0x0230B4F0, .nred false 1 5 6),
    (0x8030B4F1, .nsend true 5 6),
    (0x0148A272, .intk false 4 5),
    (0x8148A273, .outf true 4 5)] = true := by decide

/-- Network and serving (spec/11, spec/16). -/
theorem test_decode_network2 : reads [.m, .c, .a] [
    (0x0030A274, .rndcLo false 4 5 6),
    (0x8230A274, .rndcHi true 4 5 6)] = true := by decide

/-- System (spec/15). -/
theorem test_decode_system : reads [.m, .c, .a] [
    (0x0048B4F8, .trap false 581),
    (0x04AD227A, .sysr false 4 149),
    (0x84A0B4FB, .sysw true 148 5),
    (0x004BB4FE, .brk false 605)] = true := by decide

/-- System (spec/15). -/
theorem test_decode_system2 : reads [.m] [
    (0x814D34F9, .sret true),
    (0x0148B4FC, .tlbinvPage false 5),
    (0x8348B4FC, .tlbinvAsid true 5),
    (0x054D34FC, .tlbinvAll false),
    (0x8148A27D, .selftest true 4 5)] = true := by decide

/-- Words printed in spec/01 with their assembly: `add s3, s4, o2`; the examples of cmpi.lt, ldg and br; `set.lt`; `cmpi.ne.k1`;
`addi`; `ffma.f32`; `fcvt.f32.bf16`; `lds.n16`. -/
theorem test_printed_words :
    spells .a 0x01108181 (.add false 3 4 34) ∧ spells .a 0x2BE8A010 (.cmpi false 2 2 5 61) ∧ spells .a 0x812043A2 (.ldg true 7 2 4 4)
      ∧ spells .a 0x7FFA2492 (.br false 1 9 0x7FFA) ∧ spells .a 0x04288191 (.set false 2 3 4 5)
      ∧ spells .a 0x16008010 (.cmpi false 1 1 4 0) ∧ spells .a 0x04004103 (.addi false 2 2 128)
      ∧ spells .a 0x02288319 (.ffma false 1 6 4 5) ∧ spells .a 0x1748831A (.fcvt false 1 3 6 4)
      ∧ spells .a 0x0018C220 (.lds false 4 6 0 3) := by decide

/-- Words printed in spec/01, spec/11, spec/15 and spec/16 with their assembly: fences, `txe`, the network, serving and system words. -/
theorem test_printed_system_words :
    spells .a 0x0010612B (.fence false 2 3 2) ∧ spells .a 0x000860AB (.fence false 1 3 1) ∧ spells .a 0x014D34B0 (.txe false)
      ∧ spells .a 0x0030A274 (.rndcLo false 4 5 6) ∧ spells .a 0x0230A274 (.rndcHi false 4 5 6)
      ∧ spells .m 0x022894F0 (.nred false 1 4 5) ∧ spells .m 0x814883F2 (.intk true 7 4) ∧ spells .m 0x814923F3 (.outf true 7 9)
      ∧ spells .m 0x000054F8 (.trap false 2) ∧ spells .m 0x000014FE (.brk false 0) ∧ spells .m 0x014D34F9 (.sret false)
      ∧ spells .m 0x04AD20FA (.sysr false 1 0x095) ∧ spells .m 0x04A034FB (.sysw false 0x094 1)
      ∧ spells .m 0x014894FC (.tlbinvPage false 4) ∧ spells .m 0x054D34FC (.tlbinvAll false)
      ∧ spells .m 0x014882FD (.selftest false 5 4) := by decide

/-- The two illegal words that spec/01 works through after Table 1.20, and words that break one rule each: a reserved major opcode, an
LFSR access on an M-core (reason 6), condition code 110, a reserved register. -/
theorem test_illegal_words :
    illegal .a 0x0110819D = some 1 ∧ illegal .a 0x1A108181 = some 6 ∧ illegal .c 0x7F = some 1
      ∧ illegal .a (0x04288191 ||| 0x0C000000) = some 4 ∧ illegal .a (0x01108181 ||| 0x00078000) = some 7 := by decide

/-! ## Ill-formed operands

One term for each distinct check of WellFormed.lean, which the check refuses, beside its nearest legal neighbour where one exists. -/

/-- Registers: pc and sid are no destinations (R18), 44 to 63 name nothing, 42 and 43 are no vector registers (Table 1.2). -/
theorem test_registers_refused :
    (Instr.add false 42 1 1).wellFormed = false ∧ (Instr.add false 41 43 1).wellFormed = true
      ∧ (Instr.add false 1 44 1).wellFormed = false ∧ (Instr.add false 1 1 63).wellFormed = false
      ∧ (Instr.lih false 43 0).wellFormed = false ∧ (Instr.vand false 36 1 1).wellFormed = false
      ∧ (Instr.vand false 40 35 41).wellFormed = true ∧ (Instr.vbcast false 1 42 1).wellFormed = false
      ∧ (Instr.redpRel false 44).wellFormed = false ∧ (Instr.txst false 42).wellFormed = false := by decide

/-- Codes: condition 6, type codes 6 and 7, the pairs of fcvt, sizes of loads and stores, fence sets, reduction set 3 (Tables 1.3 to 1.5,
spec/05, spec/11). -/
theorem test_codes_refused :
    (Instr.cmp false 6 0 1 1).wellFormed = false ∧ (Instr.br false 7 1 0).wellFormed = false
      ∧ (Instr.vbcast false 6 1 1).wellFormed = false ∧ (Instr.vcmp false 0 7 1 1 1).wellFormed = false
      ∧ (Instr.fcvt false 1 1 1 1).wellFormed = false ∧ (Instr.fcvt false 4 5 1 1).wellFormed = false
      ∧ (Instr.fcvt false 6 1 1 1).wellFormed = false ∧ (Instr.lds false 1 1 0 7).wellFormed = false
      ∧ (Instr.ldg false 1 1 0 6).wellFormed = true ∧ (Instr.sts false 1 1 0 1).wellFormed = false
      ∧ (Instr.stg false 1 1 0 6).wellFormed = true ∧ (Instr.fence false 0 1 1).wellFormed = false
      ∧ (Instr.fence false 1 5 1).wellFormed = false ∧ (Instr.fence false 1 1 32).wellFormed = false
      ∧ (Instr.fencex false 32 1 0).wellFormed = false ∧ (Instr.redpReg false 3 1).wellFormed = false
      ∧ (Instr.nred false 2 1 1).wellFormed = false ∧ (Instr.vcvt false 1 1 0 1 1).wellFormed = false
      ∧ (Instr.bscale false 6 1 1 1).wellFormed = false ∧ (Instr.srnd false 0 1 1).wellFormed = false
      ∧ (Instr.vextHigh false 1 1 1 0).wellFormed = false := by decide

/-- Immediates: bit fields past bit 63, frames that are no multiple of 8, fields of a channel from 42, plane counts from 25, groups out of
place, elements past the register, numbers that Table 15.1 does not list. -/
theorem test_immediates_refused :
    (Instr.bext false 1 1 1 63).wellFormed = false ∧ (Instr.bins false 1 1 0 63).wellFormed = true
      ∧ (Instr.enter false 4).wellFormed = false ∧ (Instr.leave false 12).wellFormed = false
      ∧ (Instr.cpset false 0 42 1).wellFormed = false ∧ (Instr.cpseti false 0 42 1).wellFormed = false
      ∧ (Instr.cpget false 1 0 42).wellFormed = false ∧ (Instr.plane false 24 8 4 1).wellFormed = false
      ∧ (Instr.plane false 7 8 5 1).wellFormed = false ∧ (Instr.plane false 8 31 4 1).wellFormed = false
      ∧ (Instr.unplane false 23 28 29 1).wellFormed = true ∧ (Instr.vext false 0 1 1 16).wellFormed = false
      ∧ (Instr.vext false 0 1 1 15).wellFormed = true ∧ (Instr.sysr false 1 0x013).wellFormed = false
      ∧ (Instr.sysw false 0x0B5 1).wellFormed = false := by decide

/-! ## Small states -/

/-- One leaf that maps the first virtual page, readable, writable and executable for a user, to the second 64 KiB of HBM. -/
def leaf : Leaf := ⟨0, 0, 0x00FFF0000001003F, 0⟩

/-- A device in which one strand stands, in slot 0 of tile 0's A-core, with that leaf in its tile's buffer. -/
def lone (st : Strand) : State :=
  { State.reset with tiles := [(0, { Tile.initial with strands := [(16, st)], tlb := [leaf] })], cur := ⟨0, .a, 0⟩ }

/-- A strand whose s1, s2, s3 hold the given words. -/
def holding (a b c : Word) : Strand :=
  { Strand.initial with
    regs := { Regs.initial with s := ((Vector.replicate 32 0).setIfInBounds 1 a).setIfInBounds 2 b |>.setIfInBounds 3 c } }

/-- What a scalar register of the executing strand holds after one instruction. -/
def result (i : Instr) (s : State) (d : Spec) : Option Word :=
  match exec i s with
  | .next t => (t.strand? s.cur).map fun st => st.rs d
  | _ => none

/-- The executing strand after one instruction. -/
def after (i : Instr) (s : State) : Option Strand :=
  match exec i s with
  | .next t => t.strand? s.cur
  | _ => none

/-- An instruction is clear of every stop when its strand declares every register, has nothing in flight and no transaction or chunk. -/
theorem clear_of {s : State} {st : Strand} {u : Uses} (h : s.strand? s.cur = some st) (hn : st.nregs = 32) (hv : st.nvregs = 32)
    (hl : st.longs = []) (ht : st.tx = none) (hc : st.chunk = none) (hp : st.sup = true ∨ u.priv = none)
    (hu : st.upset = none := by rfl) : s.Clear st u where
  here := h
  mode := hp
  declared := by
    unfold Strand.undeclared
    have : (u.fields.filterMap fun f =>
      if decide (f.2.2.toNat < 32) && decide ((if f.2.1 then st.nvregs else st.nregs) ≤ f.2.2.toNat)
      then some (f.1, f.2.2.toNat, false) else none) = [] := by
      rw [List.filterMap_eq_nil_iff]
      intro f _
      rw [hn, hv]
      simp
    rw [this]; rfl
  settled := by
    have o : ∀ v x, st.outstanding v x = false := by intro v x; simp [Strand.outstanding, hl]
    simp [Strand.marker, o]
    cases u.dst <;> simp [leastRole]
  outside := by intro _; simp [Strand.inTx, Strand.depth, ht]
  chunk := by simp [Strand.chunkStop, hc]
  order := by intro _; simp [Strand.acquiring, hl]
  parity := by simp [Strand.spoilt, hu]

/-- Such a strand, alone on its device, is clear for every word that is not privileged. -/
theorem lone_clear (st : Strand) (u : Uses) (hn : st.nregs = 32) (hv : st.nvregs = 32) (hl : st.longs = []) (ht : st.tx = none)
    (hc : st.chunk = none) (hp : u.priv = none) (hu : st.upset = none := by rfl) : (lone st).Clear st u :=
  clear_of rfl hn hv hl ht hc (.inr hp) hu

/-- Where no word has an error, no reduction word stands and no path lags, every place is as it reads. -/
theorem sound_of {s : State} {a n : Nat} (hb : s.badWords = [] := by rfl) (hw : s.weakWords = [] := by rfl) (hr : s.redWords = [] := by rfl)
    (hl : s.lags = [] := by rfl) : sound s a n :=
  ⟨fun w _ => by simp [hb, hw], fun r h => by simp [hr] at h, fun k h => by simp [hl] at h⟩

/-- A strand with every register declared, nothing in flight, and all registers 0. -/
theorem plain_clear (u : Uses) (hp : u.priv = none) : (lone Strand.initial).Clear Strand.initial u :=
  lone_clear _ u rfl rfl rfl rfl rfl hp

/-! ## Results

Hand computed from the rules named, or taken from the spec's examples. -/

/-- R113, R114: -1 + 7 wraps; -1 - 7; an arithmetic shift by 7; shifts by 64 and more give 0. -/
theorem test_integer :
    let s := lone (holding 0xFFFFFFFFFFFFFFFF 7 64)
    result (.add false 4 1 2) s 4 = some 6 ∧ result (.sub false 4 2 1) s 40 = some 8 ∧ result (.shl false 4 2 3) s 4 = some 0
      ∧ result (.sha false 4 1 3) s 4 = some 0xFFFFFFFFFFFFFFFF ∧ result (.min false 4 1 2) s 4 = some 0xFFFFFFFFFFFFFFFF
      ∧ result (.minn false 4 1 2) s 4 = some 7 ∧ result (.clz false 4 2) s 4 = some 61 ∧ result (.popc false 4 1) s 4 = some 64 := by decide +kernel

/-- R115, Table 6.4: the most negative number by -1, division by 0, the signs of remainders, the upper halves. -/
theorem test_divide :
    let s := lone (holding 0x8000000000000000 0xFFFFFFFFFFFFFFFF 7)
    result (.div false 4 1 2) s 4 = some 0x8000000000000000 ∧ result (.rem false 4 1 2) s 4 = some 0
      ∧ result (.div false 4 3 41) s 4 = some 0xFFFFFFFFFFFFFFFF ∧ result (.remn false 4 3 41) s 4 = some 7
      ∧ result (.rem false 4 1 3) s 4 = some 0xFFFFFFFFFFFFFFFF ∧ result (.mulh false 4 2 3) s 4 = some 0xFFFFFFFFFFFFFFFF
      ∧ result (.mulhn false 4 2 3) s 4 = some 6 := by decide

/-- R116 to R118: immediates are sign-extended; lih shifts by 12; bins and bext at the top of the register. -/
theorem test_immediates :
    let s := lone (holding 0x8000000000000001 5 0)
    result (.addi false 4 2 0xFFB) s 4 = some 0 ∧ result (.andi false 4 1 0xFFF) s 4 = some 0x8000000000000001
      ∧ result (.lih false 4 0x20000) s 4 = some 0xFFFFFFFFE0000000 ∧ result (.shai false 4 1 63) s 4 = some 0xFFFFFFFFFFFFFFFF
      ∧ result (.bext false 4 1 63 0) s 4 = some 1 ∧ result (.bins false 1 2 60 3) s 1 = some 0x5000000000000001 := by decide

/-- R126 to R129: a false compare with SK = 3 annuls three words; set writes 1; a taken branch goes back 24 bytes from 64; a call saves the
next address; R129: a misaligned calli is an alignment fault (code 7). -/
theorem test_control :
    let st := { holding 1 2 2 with regs := { (holding 1 2 2).regs with pc := 64 } }
    let s := lone st
    (after (.cmp false 0 3 1 2) s).map (·.regs.skipn) = some 3 ∧ (after (.cmp false 0 3 2 3) s).map (·.regs.skipn) = some 0
      ∧ result (.set false 2 4 1 2) s 4 = some 1 ∧ (after (.br false 1 1 0x7FFA) s).map (·.regs.pc) = some 40
      ∧ result (.call false 5 2) s 5 = some 68 ∧ (after (.call false 5 2) s).map (·.regs.pc) = some 72
      ∧ (after (.calli false 5 1 1) s).map (fun (k : Strand) => (k.tcause, k.tdetail)) = some (7, 2) := by decide

/-- R130: enter below SLIM is a stack-limit fault (code 5) whose detail word is what sp would be. -/
theorem test_enter :
    let st := { Strand.initial with regs := { (Strand.initial.regs.setS 31 0x108) with slim := 0x100 } }
    result (.enter false 8) (lone st) 31 = some 0x100 ∧ result (.leave false 8) (lone st) 31 = some 0x110
      ∧ (after (.enter false 16) (lone st)).map (fun (k : Strand) => (k.tcause, k.tdetail)) = some (5, 0xF8) := by decide

/-- R119 to R125, R134: 1.5 + 1.5 = 3 in binary64; 1 / 3 rounds down in binary32 to nearest and raises inexact; sqrt(-1) is the quiet NaN and raises
NV; -1.5 truncates to -1. -/
theorem test_scalar_float :
    let s := lone (holding 0x3FF8000000000000 0x3F800000 0x40400000)
    let t := lone (holding 0xBFF8000000000000 0xBF800000 0)
    result (.fadd false 0 4 1 1) s 4 = some 0x4008000000000000 ∧ result (.fdiv false 1 4 2 3) s 4 = some 0x3EAAAAAB
      ∧ (after (.fdiv false 1 4 2 3) s).map (·.regs.fctl) = some 0x1000
      ∧ result (.fsqrt false 1 4 2) t 4 = some 0x7FC00000 ∧ (after (.fsqrt false 1 4 2) t).map (·.regs.fctl) = some 0x100
      ∧ result (.fcvt false 4 0 4 1) t 4 = some 0xFFFFFFFFFFFFFFFF ∧ result (.tsum false 4 2 3) s 4 = some 0x40800000 := by decide

/-- R148, Table 8.2: 1 + 1 in each binary32 element; each LFSR stays as it was outside mode RS (R136). -/
theorem test_vector_add :
    let st := { Strand.initial with regs := { Regs.initial with v := (Vector.replicate 32 0).setIfInBounds 1 0x3F8000003F800000 } }
    (after (.vadd false 0 1 2 1 1) (lone st)).map (fun k => (k.rv 2, k.rv 40, k.regs.lfsr)) =
      some (0x4000000040000000, 0x4000000040000000, Regs.initial.lfsr) := by decide +kernel

/-- R154, R156: byte sums wrap in each element; a broadcast fills all sixteen doublewords; extraction sign-extends. -/
theorem test_vector_integer :
    let st := { holding 0xFF 0 0 with regs := { (holding 0xFF 0 0).regs with v := (Vector.replicate 32 0).setIfInBounds 1 0x80FF } }
    (after (.viadd false 0 2 1 1) (lone st)).map (·.rv 2) = some 0x00FE ∧ result (.vext false 8 4 1 1) (lone st) 4 = some 0xFFFFFFFFFFFFFF80
      ∧ (after (.vbcast false 12 2 1) (lone st)).map (fun k => V128.elem (k.rv 2) 1 127) = some 0xFF := by decide +kernel

/-- R305, R309: a trap leaves the rotation with the next word's address and its own code. -/
theorem test_trap :
    (after (.trap false 2) (lone Strand.initial)).map (fun (k : Strand) => (k.run, k.tepc, k.tcause, k.tdetail)) =
      some (.out, 4, 0x20, 2) := by decide

/-- R40, R86, R90: a store to the launch's region is read back; one past it is a pad-bounds fault (code 6). -/
theorem test_scratchpad :
    let st := { holding 0x100 0x1122334455667788 0x108 with regs := { (holding 0x100 0x1122334455667788 0x108).regs with padlo := 0x100, padhi := 0x107 } }
    ((match exec (.sts false 2 1 0 6) (lone st) with
      | .next t => result (.lds false 4 1 1 2) t 4
      | _ => none) = some 0x5566)
      ∧ (after (.lds false 4 3 0 1) (lone st)).map (·.tcause) = some 6 := by decide

/-- R61, R65, R108: a global store waits in its core's buffer and writes nothing yet; when it drains, its byte is in memory. -/
theorem test_global_store :
    let st := holding 8 0xAB 0
    (match exec (.stg false 2 1 0 0) (lone st) with
      | .next t => (match exec (.storeBufferDrain 0) t with
        | .next u => some (t.mem, u.mem, u.full)
        | _ => none)
      | _ => none) = some ([], [(0x10008, 0xAB)], [0x2001]) := by decide

/-! ## The hypotheses of the statements can be met

One theorem for each statement that has hypotheses: a state and operands that meet all of a clause's hypotheses together, at a boundary of
their range. -/

/-- i and w with the hypotheses of DecodeOfEncode, at the highest registers; and a decoded word for EncodeOfDecode. -/
theorem witness_DecodeOfEncode :
    encode (.add true 41 43 43) = some 0x815D7481 ∧ (Instr.add true 41 43 43).wellFormed = true
      ∧ opLegal (fOp 0x815D7481) .m = true ∧ lfsrOnM 0x815D7481 .m = false ∧ decodeFor .m 0x815D7481 = .ok (.add true 41 43 43) := by decide

theorem witness_EncodeOfDecode : decodeFor .a 0x01108181 = .ok (.add false 3 4 34) := by decide

theorem witness_IntegerResults :
    (lone Strand.initial).Clear Strand.initial (useAB 31 0 43)
      ∧ (lone Strand.initial).Clear Strand.initial { useAB 41 31 32 with readsQ := true }
      ∧ (lone Strand.initial).Clear Strand.initial (useA 40 43) :=
  ⟨plain_clear _ rfl, plain_clear _ rfl, plain_clear _ rfl⟩

theorem witness_MultiplyDivide : (lone Strand.initial).Clear Strand.initial (useAB 41 31 41) := plain_clear _ rfl

theorem witness_ImmediateResults :
    (lone Strand.initial).Clear Strand.initial (useA 41 42) ∧ (lone Strand.initial).Clear Strand.initial (useD 31)
      ∧ (lone Strand.initial).Clear Strand.initial { srcs := [(0, false, 31), (2, false, 0)], dst := some (false, 0) }
      ∧ (63 : BitVec 6).toNat + (0 : BitVec 6).toNat + 1 ≤ 64 :=
  ⟨plain_clear _ rfl, plain_clear _ rfl, plain_clear _ rfl, by decide⟩

theorem witness_Comparisons :
    (5 : BitVec 3).toNat ≤ 5
      ∧ (lone Strand.initial).Clear Strand.initial { srcs := [(0, false, 31), (1, false, 40)], writesQ := (0 : BitVec 2) = 0 }
      ∧ (lone Strand.initial).Clear Strand.initial { srcs := [(0, false, 31)], writesQ := (3 : BitVec 2) = 0 }
      ∧ (lone Strand.initial).Clear Strand.initial (useAB 41 31 0) ∧ (lone Strand.initial).Clear Strand.initial (useA 41 31) :=
  ⟨by decide, plain_clear _ rfl, plain_clear _ rfl, plain_clear _ rfl, plain_clear _ rfl⟩

theorem witness_BranchesAndCalls :
    (lone Strand.initial).Clear Strand.initial { srcs := [(0, false, 43)] } ∧ (5 : BitVec 3).toNat ≤ 5
      ∧ (lone Strand.initial).Clear Strand.initial {} ∧ (lone Strand.initial).Clear Strand.initial (useD 41)
      ∧ (lone Strand.initial).Clear Strand.initial (useA 31 31) :=
  ⟨plain_clear _ rfl, by decide, plain_clear _ rfl, plain_clear _ rfl, plain_clear _ rfl⟩

/-- sp at 0 and SLIM at 0: the frame of 0 bytes is the last that fits. -/
theorem witness_StackFrames : (lone Strand.initial).Clear Strand.initial { sp := true } := plain_clear _ rfl

theorem witness_ScalarFloat :
    (lone Strand.initial).Clear Strand.initial (useAB 31 0 41) ∧ (lone Strand.initial).Clear Strand.initial (useA 31 41)
      ∧ (lone Strand.initial).Clear Strand.initial (useABD 31 0 41) :=
  ⟨plain_clear _ rfl, plain_clear _ rfl, plain_clear _ rfl⟩

theorem witness_ConvertCompareTwosum :
    (lone Strand.initial).Clear Strand.initial (useA 31 41) ∧ fcvtPairOk 5 3 = true ∧ fcvtPairOk 0 4 = true
      ∧ (lone Strand.initial).Clear Strand.initial { srcs := [(0, false, 31), (1, false, 0)], writesQ := (0 : BitVec 2) = 0 }
      ∧ (lone Strand.initial).Clear Strand.initial (useAB 41 31 0) :=
  ⟨plain_clear _ rfl, by decide, by decide, plain_clear _ rfl, plain_clear _ rfl⟩

/-- The largest number of E4M3, and the largest bits of binary64, which are a NaN. -/
theorem witness_WriteOfRead :
    0xFE < 2 * Fmt.e4m3.signBit ∧ (Fmt.e4m3.read 0xFE).isNan = false ∧ (Fmt.f64.read 0xFFFFFFFFFFFFFFFF).isNan = true
      ∧ (Fmt.f32.read 0x7F800001).isSig = true := by decide +kernel

/-! ### Checks and faults -/

/-- Four registers declared: s3 is the last and s4 the first beyond; s3, then q, waits for a long result; the parity of q, and of v31, is wrong. -/
theorem witness_RegisterChecks :
    let st := { Strand.initial with nregs := 4 }
    let w := { Strand.initial with longs := [⟨0, ⟨false, 3⟩, false⟩] }
    let u := { Strand.initial with upset := some (false, 40) }
    let v := { Strand.initial with upset := some (true, 31) }
    ((lone st).strand? (lone st).cur = some st ∧ (Instr.add false 4 3 2).isWord = true ∧ (wordUses (.add false 4 3 2)).priv = none
        ∧ (3, false, 4) ∈ namedBy (.add false 4 3 2) ∧ missing st (3, false, 4) ∧ ¬ missing st (0, false, 3))
      ∧ ((lone w).strand? (lone w).cur = some w ∧ (∀ f ∈ namedBy (.add false 31 3 2), ¬ missing w f) ∧ awaitedBy w (.add false 31 3 2) (0, 3, false))
      ∧ ((lone u).strand? (lone u).cur = some u ∧ readBy (.add false 31 40 2) false 40 ∧ u.longs = [])
      ∧ ((lone v).strand? (lone v).cur = some v ∧ readBy (.vmov false 0 5 31) true 31 ∧ v.longs = []) := by
  refine ⟨⟨rfl, rfl, rfl, ?_, ?_, ?_⟩, ⟨rfl, ?_, .inl ⟨(0, false, 3), ?_, ?_, rfl⟩⟩, ⟨rfl, ⟨.inr rfl, .inl ⟨(0, false, 40), ?_, rfl⟩⟩, rfl⟩, rfl,
    ⟨.inl ?_, .inl ⟨(0, true, 31), ?_, rfl⟩⟩, rfl⟩ <;>
    simp [namedBy, missing, awaits, wordUses, useAB, vuseA, Strand.initial]

/-- The marker faults of sel, cmp and cmpi with q outstanding, and of bins and br with s3 outstanding; and a word of each illegal form of the
scalar statements, at the first value that is one. -/
theorem witness_scalar_markers :
    let w := { Strand.initial with longs := [⟨0, ⟨false, 3⟩, false⟩] }
    let q := { Strand.initial with longs := [⟨0, ⟨false, 40⟩, false⟩] }
    ((lone w).strand? (lone w).cur = some w ∧ declaredS w 3 ∧ waitsFor w 3 ∧ ¬ waitsFor w 2)
      ∧ ((lone q).strand? (lone q).cur = some q ∧ declaredS q 31 ∧ ¬ waitsFor q 31 ∧ waitsFor q 40) := by
  refine ⟨⟨rfl, ?_, ?_, ?_⟩, rfl, ?_, ?_, ?_⟩ <;> simp [declaredS, waitsFor, Strand.initial]

theorem witness_scalar_illegal :
    decodeFor .m 0x1E000001 = .error 2 ∧ decodeFor .c 0x1A000001 = .error 6 ∧ decodeFor .m 0x0E000002 = .error 2
      ∧ decodeFor .a 0x06000007 = .error 2 ∧ decodeFor .m 0x7E08000A = .error 6 ∧ decodeFor .m 0x7E08000B = .error 6
      ∧ decodeFor .m 0x00000090 = .error 2 ∧ decodeFor .c 0x60000010 = .error 4 ∧ decodeFor .a 0x20000011 = .error 2
      ∧ decodeFor .m 0x0C000011 = .error 4 ∧ decodeFor .m 0x00000312 = .error 4 ∧ decodeFor .m 0x00000013 = .error 6 := by decide

/-- 0x40 is the first register that a user may not read. -/
theorem witness_PrivilegeFaults :
    (lone Strand.initial).strand? (lone Strand.initial).cur = some Strand.initial ∧ Strand.initial.sup = false
      ∧ 0x40 ≤ (0x40 : BitVec 12).toNat := ⟨rfl, rfl, by decide⟩

/-- A user with an empty event queue; one whose queue is full; a supervisor with interrupts on, and off. -/
theorem witness_TakingAFault :
    let st := Strand.initial
    let full : State := { lone st with tiles := [(0, { (lone st).tile 0 with events := List.replicate 64 ⟨0, 0, none⟩ })] }
    let sup := { Strand.initial with sup := true, ie := true }
    let off := { Strand.initial with sup := true }
    ((lone st).strand? (lone st).cur = some st ∧ st.sup = false ∧ st.longs = [] ∧ (lone st).stpPending (lone st).cur = false ∧ st.tx = none
        ∧ 255 < 256 ∧ ((lone st).tile 0).events.length < 64 ∧ ((lone st).tile 0).waiting = [])
      ∧ (full.strand? ⟨0, .a, 0⟩ = some st ∧ full.stpPending ⟨0, .a, 0⟩ = false ∧ ¬ (full.tile 0).events.length < 64)
      ∧ ((lone sup).strand? (lone sup).cur = some sup ∧ sup.sup = true ∧ sup.longs = [] ∧ (lone sup).stpPending (lone sup).cur = false ∧ sup.tx = none
        ∧ sup.ie = true)
      ∧ ((lone off).strand? (lone off).cur = some off ∧ off.sup = true ∧ off.ie = false)
      ∧ (let l := { st with chunk := some ⟨Regs.initial, none, 1, [], [], true, false⟩ }
         (lone l).strand? ⟨0, .a, 0⟩ = some l ∧ l.chunk.isSome = true) := by
  decide +kernel

/-- A strand out of the rotation for a cause, with SLIM one byte above its reservation; and a tile 0 on which TSEL selects it. -/
def outFor (c : Word) : Strand := { Strand.initial with run := .out, sid := 16, tcause := c, regs := { Regs.initial with slim := 1 } }
def selecting (st : Strand) (debugger : Bool) : State :=
  { State.reset with
    tiles := [(0, { Tile.initial with strands := [(16, st)], tsel := 0x8000000000000010 })]
    debugger := debugger
    ctl := { Ctl.initial with lcs := 2 } }

/-- A supervisor with SEPC at the last word of the address space; a selected strand that has left the rotation, for a stack-limit fault one byte
above its reservation, a trap, a break, and a fault that ends its launch, with a debugger and without. -/
theorem witness_TrapsAndReturns :
    let sup := { Strand.initial with sup := true, sepc := 0xFFFFFFFFFFFFFFFC }
    (lone Strand.initial).Clear Strand.initial {}
      ∧ ((lone sup).Clear sup { priv := wordDetail (.sret true), aborts := true } ∧ sup.sepc.toNat % 4 = 0)
      ∧ (16 : Word) &&& 0x3FFFFFFFFF = 0x8000000000000010 &&& 0x3FFFFFFFFF ∧ (16 : Word).getLsbD 63 = false
      ∧ (0x8000000000000010 : Word).getLsbD 63 = true
      ∧ ([5, 0x20, 0x21, 8] : List Word).all (fun c => [false, true].all fun b => decide ((selecting (outFor c) b).selected 0 = some (⟨0, .a, 0⟩, outFor c)
        ∧ (outFor c).tepc.toNat % 4 = 0 ∧ (outFor c).stackBot < (outFor c).regs.slim.toNat ∧ (selecting (outFor c) b).debugger = b)) = true := by
  exact ⟨plain_clear _ rfl, ⟨clear_of rfl rfl rfl rfl rfl rfl (.inl rfl), by decide⟩, by decide, by decide, by decide, by decide +kernel⟩
/-! ### Memory and atomics -/

/-- A strand with a region from 0x100 to 0x107 and no stack, and three of whose scalar registers hold addresses. -/
def padded (a b c : Word) : Strand := { holding a b c with regs := { (holding a b c).regs with padlo := 0x100, padhi := 0x107 } }

/-- An open ring: 2 stages of 256 bytes from 0x200, distance 1, of which member 16 is the producer. -/
def openRing : Ring := ⟨true, 0x0000010208000200, 0, 0, 0x10000, 0, 0, 0, [(16, 0)]⟩

/-- A launch that has one lock ring, and the strand that declares it. -/
def withRing (r : Ring) (st : Strand) : State :=
  { lone st with
    tiles := [(0, { (lone st).tile 0 with
      rings := (Vector.replicate 8 Ring.initial).setIfInBounds 0 r
      ringsAt := (Vector.replicate 8 Ring.initial).setIfInBounds 0 r
      resid := [⟨0, 0x100, 0x1000, [0], [16], [], 0, 0, 0⟩] })] }

/-- The last byte of the region and the first beyond; two bytes that leave the region or the stack; the edges of the scratchpad and of the ring space; a ring that may be used, to
the last byte of its stage, and one that is not there. -/
theorem witness_ScratchpadAddress :
    let st := padded 0 0 0
    let u := { st with nlocks := 1 }
    (st.regs.padlo.toNat ≤ 0x107 ∧ 0x107 + 1 ≤ st.regs.padlo.toNat + st.padLen)
      ∧ (¬ (st.regs.padlo.toNat ≤ 0x108 ∧ 0x108 < st.regs.padlo.toNat + st.padLen) ∧ ¬ (st.stackBot ≤ 0x108 ∧ 0x108 < st.stackTop))
      ∧ (st.regs.padlo.toNat + st.padLen < 0x107 + 2 ∧ ¬ (st.stackBot ≤ 0x107 ∧ 0x107 < st.stackTop))
      ∧ (let k := { st with stackBot := 0x400, stackTop := 0x500 }
         k.stackBot ≤ 0x4FF ∧ 0x4FF < k.stackTop ∧ k.stackTop < 0x4FF + 2 ∧ ¬ (k.regs.padlo.toNat ≤ 0x4FF ∧ 0x4FF < k.regs.padlo.toNat + k.padLen))
      ∧ (2 ^ 20 ≤ 0x100000 ∧ 0x100000 < 2 ^ 23) ∧ 2 ^ 24 ≤ 0x1000000 ∧ (2 ^ 23 ≤ 0xFFFFFF ∧ 0xFFFFFF < 2 ^ 24)
      ∧ (withRing openRing u).ringCheckAt ⟨0, .a, 0⟩ u 0 = .ok openRing ∧ openRing.slog2 = 8
      ∧ (withRing openRing u).ringCheckAt ⟨0, .a, 0⟩ u 1 = .error 0x20 := by decide +kernel

/-- The last aligned doubleword of the region, at offset 0, sound, and with an error that can be corrected, and one that cannot; a whole vector in a
region of 128 bytes, sound, and with its last word bad. -/
theorem witness_ScratchpadLoads :
    let st := padded 0x100 0 0
    let big := { st with regs := { st.regs with padhi := 0x17F } }
    let A := (lone st).padBase 0 + 0x100
    ((lone st).Clear st (useLoad false 41 1 false) ∧ st.inTx = false ∧ st.chunk = none
        ∧ (st.rs 1 + BitVec.ofInt 64 ((0 : BitVec 9).toInt * 8)).toNat % 8 = 0 ∧ (lone st).padAddr (lone st).cur st 0x100 8 = .ok 0x100
        ∧ sound (lone st) A 8)
      ∧ (let w : State := { lone st with weakWords := [A / 8] }
         let b : State := { lone st with badWords := [A / 8] }
         (∀ u ∈ [useLoad false 41 1 false], w.Clear st u ∧ b.Clear st u) ∧ A % 8 = 0 ∧ A / 8 ∈ w.weakWords ∧ A / 8 ∉ w.badWords
           ∧ w.redWords = [] ∧ w.lags = [] ∧ A / 8 ∈ b.badWords ∧ w.padAddr w.cur st 0x100 8 = .ok 0x100 ∧ b.padAddr b.cur st 0x100 8 = .ok 0x100)
      ∧ ((lone big).Clear big (useLoad true 31 1 false) ∧ (big.rs 1).toNat % 128 = 0
        ∧ (lone big).padAddr (lone big).cur big 0x100 128 = .ok 0x100 ∧ sound (lone big) A 128
        ∧ A / 8 + 15 ∈ wordsOf A 128 ∧ ∀ k ∈ wordsOf A 128, k < A / 8 + 15 → k ∉ [A / 8 + 15]) := by
  refine ⟨⟨lone_clear _ _ rfl rfl rfl rfl rfl rfl, by decide +kernel, rfl, by decide +kernel, by decide +kernel, sound_of⟩,
    ⟨fun u hu => ?_, by decide +kernel, by decide +kernel, by decide +kernel, rfl, rfl, by decide +kernel, by decide +kernel, by decide +kernel⟩,
    lone_clear _ _ rfl rfl rfl rfl rfl rfl, by decide +kernel, by decide +kernel, sound_of, by decide +kernel, by decide +kernel⟩
  rw [List.mem_singleton.mp hu]
  exact ⟨clear_of rfl rfl rfl rfl rfl rfl (.inr rfl), clear_of rfl rfl rfl rfl rfl rfl (.inr rfl)⟩

/-- The last byte of the region, sound, and in a word with an error; the whole word, with an error; a whole vector. -/
theorem witness_ScratchpadStores :
    let st := padded 0x107 0 0
    let big := { padded 0x100 0 0 with regs := { (padded 0x100 0 0).regs with padhi := 0x17F } }
    ((lone st).Clear st (useStore false 43 1) ∧ st.inTx = false ∧ st.chunk = none ∧ st.run = .ready
        ∧ (st.rs 1).toNat % 1 = 0 ∧ (lone st).padAddr (lone st).cur st 0x107 1 = .ok 0x107
        ∧ (lone st).region ((lone st).padBase 0 + 0x107) = .pad 0 0x107 ∧ sound (lone st) ((lone st).padBase 0 + 0x107) 1)
      ∧ (let A := (lone big).padBase 0 + 0x100
         let b : State := { lone big with badWords := [A / 8] }
         b.Clear big (useStore false 43 1) ∧ A / 8 ∈ b.badWords ∧ A % 8 = 0 ∧ b.redWords = [] ∧ b.padAddr b.cur big 0x100 8 = .ok 0x100
           ∧ b.region A = .pad 0 0x100 ∧ b.padAddr b.cur big 0x100 1 = .ok 0x100)
      ∧ ((lone big).Clear big (useStore true 31 1) ∧ (big.rs 1).toNat % 128 = 0
        ∧ (lone big).padAddr (lone big).cur big 0x100 128 = .ok 0x100 ∧ (lone big).redWords = []) :=
  ⟨⟨lone_clear _ _ rfl rfl rfl rfl rfl rfl, by decide +kernel, rfl, rfl, by decide +kernel, by decide +kernel, by decide +kernel, sound_of⟩,
    ⟨clear_of rfl rfl rfl rfl rfl rfl (.inr rfl), by decide +kernel, by decide +kernel, rfl, by decide +kernel, by decide +kernel, by decide +kernel⟩,
    lone_clear _ _ rfl rfl rfl rfl rfl rfl, by decide +kernel, by decide +kernel, rfl⟩

/-- An address one byte past a boundary, for each size. -/
theorem witness_AlignmentFaults :
    let st := holding 0x101 0 0
    (∀ u ∈ [useLoad false 31 1 false, useLoad false 31 1 true, useStore false 31 1, useLoad true 31 1 false, useLoad true 31 1 true,
        useStore true 31 1, { useLoad false 31 1 true with aborts := true }], (lone st).Clear st u)
      ∧ st.chunk = none ∧ (st.rs 1 + BitVec.ofInt 64 ((255 : BitVec 9).toInt * 2)).toNat % 2 ≠ 0 ∧ (st.rs 1).toNat % 8 ≠ 0
      ∧ (st.rs 1 + BitVec.ofInt 64 ((0x800 : BitVec 12).toInt * 128)).toNat % 128 ≠ 0 := by
  refine ⟨fun u hu => lone_clear _ _ rfl rfl rfl rfl rfl ?_, rfl, by decide +kernel, by decide +kernel, by decide +kernel⟩
  simp only [List.mem_cons, List.not_mem_nil, or_false] at hu
  rcases hu with rfl | rfl | rfl | rfl | rfl | rfl | rfl <;> rfl

/-- The record and atomic forms with one source, two and three; a record misaligned in its second operand; the launch's declared cells. -/
theorem witness_AlignmentFaults_records :
    let st := holding 0x101 0x101 0
    (∀ u ∈ [{ srcs := [(0, false, 1)], access := true, aborts := true }, { srcs := [(0, false, 1), (1, false, 2)], access := true, aborts := true },
        { srcs := [(0, false, 1), (1, false, 2)], dst := some (false, 31), long := true, access := true, aborts := true },
        ({ srcs := [(0, false, 1), (1, false, 2), (2, false, 31)], dst := some (false, 31), long := true, access := true, aborts := true } : Uses)],
        (lone st).Clear st u)
      ∧ st.run = .ready ∧ (st.rs 1).toNat % 8 ≠ 0 ∧ (st.rs 1).toNat % 4 ≠ 0 ∧ ((holding 0x80 0x101 0).rs 1).toNat % 128 = 0
      ∧ ((holding 0x80 0x101 0).rs 2).toNat % 8 ≠ 0 ∧ (st.rs 2).toNat % 64 ≠ 0 := by
  refine ⟨fun u hu => lone_clear _ _ rfl rfl rfl rfl rfl ?_, rfl, by decide +kernel, by decide +kernel, by decide +kernel, by decide +kernel,
    by decide +kernel⟩
  simp only [List.mem_cons, List.not_mem_nil, or_false] at hu
  rcases hu with rfl | rfl | rfl | rfl <;> rfl

/-- A store in the buffer of slot 0's core, with a number of its own. -/
def pending (id : Nat) (op : FlightOp) (l : Loc) : Access :=
  ⟨id, ⟨0, .a, 0⟩, 0, 0, 0, op, l, none, 1, false, false, [], none, false, false, 0, some leaf⟩

/-- A leaf that maps virtual page 1 to the page of ring 0's registers, for a user. -/
def portLeaf : Leaf := ⟨0x10000, 0, 0x00FFF2000000003F, 0⟩

/-- Addresses in the mapped page; RESV of ring 0; a store buffer with one place left, and a full one. -/
theorem witness_GlobalAccessesIssue :
    let st := holding 0x80 0 0
    let s := lone st
    let k := fun (n : Nat) => ({ s with flight := (List.range n).map fun i => pending i (.store [0]) ⟨thisDev, 0x10000⟩ } : State)
    (∀ u ∈ [useLoad false 41 1 true, useLoad true 31 1 true, useStore false 31 1, useStore true 31 1], ∀ f, ({ s with flight := f } : State).Clear st u)
      ∧ st.inTx = false ∧ st.chunk = none ∧ (st.rs 1).toNat % 128 = 0
      ∧ (∀ a ∈ [AccKind.read, .write, .rw], s.translate s.cur.tile st.regs.ptroot st.sup 0x80 a = .at_ ⟨thisDev, 0x10080⟩ leaf)
      ∧ s.resvAt ⟨thisDev, 0x10080⟩ = none
      ∧ (let k : Strand := holding 0x10008 0 0
         let q : State := { lone k with tiles := [(0, { (lone k).tile 0 with tlb := [portLeaf] })] }
         q.Clear k (useLoad false 41 1 true)
           ∧ q.translate q.cur.tile k.regs.ptroot k.sup (k.rs 1) .read = .at_ ⟨thisDev, 0x20000000008⟩ portLeaf
           ∧ q.resvAt ⟨thisDev, 0x20000000008⟩ = some 0)
      ∧ ((k 15).bufferUsed s.cur < 16 ∧ (k 14).bufferUsed s.cur + 2 ≤ 16 ∧ 16 ≤ (k 16).bufferUsed s.cur) := by
  refine ⟨fun u hu f => clear_of rfl rfl rfl rfl rfl rfl (.inr ?_), by decide +kernel, rfl, by decide +kernel, by decide +kernel,
    by decide +kernel, ⟨clear_of rfl rfl rfl rfl rfl rfl (.inr rfl), by decide +kernel, by decide +kernel⟩, by decide +kernel⟩
  simp only [List.mem_cons, List.not_mem_nil, or_false] at hu
  rcases hu with rfl | rfl | rfl | rfl <;> rfl

theorem witness_AtomicsIssue :
    let st := holding 0x104 0x108 0
    let s := lone st
    (∀ c : AtomOp, s.Clear st { srcs := [(0, false, 2), (1, false, 31)] ++ (if c = AtomOp.cas then [(2, false, 31)] else []),
                                dst := some (false, 31), long := true, access := true, aborts := true })
      ∧ s.Clear st { srcs := [(0, false, 2), (1, false, 31)], access := true, aborts := true }
      ∧ s.Clear st { useLoad false 31 2 true with aborts := true }
      ∧ s.Clear st { srcs := [(0, false, 2), (1, false, 31)], dst := some (false, 41), long := true, access := true, aborts := true }
      ∧ st.chunk = none ∧ (st.rs 1).toNat % 4 = 0 ∧ (st.rs 2).toNat % 8 = 0
      ∧ s.translate s.cur.tile st.regs.ptroot st.sup (st.rs 1) .rw = .at_ ⟨thisDev, 0x10104⟩ leaf
      ∧ s.translate s.cur.tile st.regs.ptroot st.sup (st.rs 2) .rw = .at_ ⟨thisDev, 0x10108⟩ leaf :=
  ⟨fun _ => lone_clear _ _ rfl rfl rfl rfl rfl rfl, lone_clear _ _ rfl rfl rfl rfl rfl rfl, lone_clear _ _ rfl rfl rfl rfl rfl rfl,
    lone_clear _ _ rfl rfl rfl rfl rfl rfl, rfl, by decide +kernel, by decide +kernel, by decide +kernel, by decide +kernel⟩

/-- A request that is sent, to a home where nothing stands before it; and one whose home has answered 0, and 0x41. -/
theorem witness_ReductionWords :
    let st := holding 0x108 0 0
    let s := lone st
    let h := { st with run := .held (.home 5) }
    let e := { pending 5 .redpRel ⟨thisDev, 0x10108⟩ with done := true }
    let t : State := { lone h with flight := [e] }
    let f := { pending 5 .redpRel ⟨thisDev, 0x10108⟩ with done := true, value := 0x41 }
    (s.Clear st { srcs := [(0, false, 1)], access := true, aborts := true } ∧ st.run = .ready ∧ st.chunk = none ∧ (st.rs 1).toNat % 8 = 0
        ∧ s.translate s.cur.tile st.regs.ptroot st.sup (st.rs 1) .rw = .at_ ⟨thisDev, 0x10108⟩ leaf ∧ s.region 0x10108 = .hbm
        ∧ sound s 0x10108 8 ∧ s.flight = [] ∧ s.spills = [] ∧ s.redWords = [] ∧ ∀ l ∈ st.longs, l.id ≠ s.nextId)
      ∧ (({ lone h with flight := [f] } : State).Clear h { srcs := [(0, false, 1)], access := true, aborts := true }
        ∧ ([f].find? fun k => k.id = 5) = some f ∧ f.done = true ∧ f.value ≠ 0 ∧ h.longs = [] ∧ (lone h).spills = [])
      ∧ (t.Clear h { srcs := [(0, false, 1)], access := true, aborts := true } ∧ h.run = .held (.home 5)
        ∧ (t.flight.find? fun k => k.id = 5) = some e ∧ e.done = true ∧ e.value = 0 ∧ (∀ l ∈ h.longs, l.id ≠ e.id)
        ∧ ∀ k ∈ t.spills, ∀ l ∈ k.strand.longs, l.id ≠ e.id) :=
  ⟨⟨lone_clear _ _ rfl rfl rfl rfl rfl rfl, rfl, rfl, by decide +kernel, by decide +kernel, by decide +kernel, sound_of, rfl, rfl, rfl,
      fun _ h => absurd h List.not_mem_nil⟩,
    ⟨clear_of rfl rfl rfl rfl rfl rfl (.inr rfl), by decide +kernel, by decide +kernel, by decide +kernel, rfl, rfl⟩,
    clear_of rfl rfl rfl rfl rfl rfl (.inr rfl), rfl, by decide +kernel, by decide +kernel, by decide +kernel, fun _ h => absurd h List.not_mem_nil,
    fun _ h => absurd h List.not_mem_nil⟩

/-- No access in flight; a store that the fence of gs at device scope still waits for; and a copy's write, of a transfer that has ended, which the
strand path may miss, before a fencex of copy and strand at device scope. -/
theorem witness_Fences :
    let st := Strand.initial
    let a := pending 0 (.store [0]) ⟨thisDev, 0x10000⟩
    let t : State := { lone st with flight := [a] }
    (lone st).Clear st { aborts := true } ∧ (lone st).flight = [] ∧ t.Clear st { aborts := true }
      ∧ (a ∈ t.flight ∧ a.done = false ∧ a.op.isResult = false ∧ t.covers t.cur.tile 3 a.loc = true
        ∧ ((decide (a.who = t.cur) && t.present a) && (2 : BitVec 6).getLsbD a.kind) = true
        ∧ ((1 : BitVec 6).getLsbD 0 && ((decide (a.who = t.cur) && t.present a) || (a.op.writes && sameCore a.who t.cur))) = true)
      ∧ (let k : Lag := ⟨pathStrand, pathCopy, 0, [(0x10000, 1)], []⟩
         let u : State := { lone st with lags := [k] }
         u.Clear st { aborts := true } ∧ u.flight = [] ∧ k ∈ u.lags ∧ (2 : BitVec 6).getLsbD k.writer = true ∧ (1 : BitVec 6).getLsbD k.reader = true
           ∧ 4 ≤ (4 : BitVec 3).toNat ∧ u.opEnded k = true) :=
  ⟨plain_clear _ rfl, rfl, clear_of rfl rfl rfl rfl rfl rfl (.inr rfl), by decide +kernel, clear_of rfl rfl rfl rfl rfl rfl (.inr rfl),
    by decide +kernel⟩

/-! ### Steps, reset, boot -/

/-- lone with the tile's rotation at a position of the cycle, and the agenda given. -/
def turned (st : Strand) (phase : Nat) (cycle : Word) (l : List Choice) : State :=
  { lone st with
    tiles := [(0, { (lone st).tile 0 with phase := phase, cycle := cycle })]
    mem := [(0x10000, 0x81), (0x10001, 0x81), (0x10002, 0x10), (0x10003, 0x01)]
    codeStore := [(0, 0x014D34F9)]
    agenda := l }

/-- A user whose turn the agenda chooses, in its own turn; the same in the turn that slot 1 lends it, by default; a word that does not
decode; and a supervisor, in slot 0 of the M-core. -/
theorem witness_StepRunsDecoded :
    let x : SlotId := ⟨0, .a, 0⟩
    let st := Strand.initial
    let s := turned st 4 0 [.turn 0]
    let b := turned st 5 1 []
    let sup := { Strand.initial with sup := true }
    let m : State := { turned sup 0 0 [] with tiles := [(0, { Tile.initial with strands := [(0, sup)] })] }
    ((s.agenda = .turn x.tile :: [] ∧ (s.tile 0).phase % 2 = 0 ∧ (s.tile 0).owner 0 = x)
        ∧ (b.agenda = [] ∧ b.focus = 0 ∧ (b.tile 0).phase % 2 = 1 ∧ sibling ((b.tile 0).owner 0) = x ∧ st.det = false)
        ∧ s.ctl.ckpt = none ∧ s.strand? x = some st ∧ b.strand? x = some st ∧ st.run = .ready ∧ st.preReq = false ∧ st.asyncs = []
        ∧ st.tx = none ∧ s.waveSleeps x = false ∧ b.waveSleeps x = false ∧ st.regs.skipn = 0
        ∧ s.translate 0 st.regs.ptroot false st.regs.pc .fetch = .at_ ⟨thisDev, 0x10000⟩ leaf
        ∧ BitVec.ofNat 32 (bytesToNat (s.readBytes 0x10000 4)) = 0x01108181)
      ∧ (s.tile 0).ibuf = []
      ∧ (let k : TextWord := ⟨Core.a.num, 0, 0x10000, 0x0110819D⟩
         let t : State := { s with tiles := [(0, { s.tile 0 with ibuf := [k] })] }
         ((t.tile 0).ibuf.find? fun e => e.core = Core.a.num && e.lid = st.lid && e.addr = 0x10000) = some k ∧ t.strand? x = some st)
      ∧ (let k := { st with redo := some ((2 : BitVec 8), (0 : Word), (0 : Word)) }
         (turned k 4 0 [.turn 0]).strand? x = some k ∧ k.run = .ready ∧ (turned k 4 0 [.turn 0]).waveSleeps x = false)
      ∧ decodeFor .a 0x01108181 = .ok (.add false 3 4 34)
      ∧ ((m.tile 0).owner 0 = ⟨0, .m, 0⟩ ∧ m.strand? ⟨0, .m, 0⟩ = some sup ∧ sup.run = .ready ∧ sup.ie = false ∧ sup.asyncs = []
        ∧ m.waveSleeps ⟨0, .m, 0⟩ = false ∧ assocGet m.codeStore sup.regs.pc.toNat = some 0x014D34F9) := by
  decide +kernel

/-- The same with a word that does not decode: four bytes of 0. -/
theorem witness_StepRunsDecoded_illegal :
    let s : State := { turned Strand.initial 4 0 [.turn 0] with mem := [] }
    BitVec.ofNat 32 (bytesToNat (s.readBytes 0x10000 4)) = 0 ∧ decodeFor .a 0 = .error 1 := by decide +kernel

theorem witness_StepKeepsMemory :
    (turned Strand.initial 4 0 [.turn 0]).MemOk ∧ ∃ t, step (turned Strand.initial 4 0 [.turn 0]) = .next t :=
  ⟨⟨by decide, by decide, fun _ h => absurd h (by simp [turned, lone, State.reset])⟩, _, rfl⟩

/-- An image of 256 bytes that its digest and its signature allow, under a key made for it: the two multipliers of the check are 1. -/
def bootImage : List Byte :=
  [0x4E, 0x47, 0x46, 0x4B, 1] ++ List.replicate 11 0
    ++ beBytes 48 0xed02f0669f17ff0404573fbb284cb4527af309d4949900b5dc46b2b72bc2aac121a988824f46fda05e233478327f15c4
    ++ List.replicate 96 0
    ++ beBytes 48 0xed02f0669f17ff0404573fbb284cb4527af309d4949900b5dc46b2b72bc2aac121a988824f46fda05e233478327f15c4 ++ beBytes 48 0xed02f0669f17ff0404573fbb284cb4527af309d4949900b5dc46b2b72bc2aac121a988824f46fda05e233478327f15c4
def bootKey : List Byte := beBytes 97
  0x4d8a7afed2ba1d37c692a6457423edd560e52c44da5d12bc982602b0f172a99f09c7f669c5d58e5ffe0917f81394b5431b4fe9eccfb373e3aaf5611bd9c4666ffd4667bce7b0fa4bb804cb2d230dd0c844ab5968087373d3e72217acdcf5ee4f8

/-- The device that has it in BAR4, with the fuses of its key and the highest device number. -/
def staged : State :=
  { State.reset with
    ctl := { Ctl.initial with fwlen := 256, devnoset := 3071 }
    staging := bootImage.zipIdx.map fun p => (p.2, p.1)
    key := bootKey
    keyDigest := 0x3a2240e0efee3dcbdb8dc936163d5600d67fb36dd5fa91a2ac83490e3ea0b78beb59e9111ae2e7f279e8b721c139bffd }

/-- The six checks of a boot, in order. -/
def bootChecks (s : State) : List (BitVec 8 × Bool) :=
  let n := s.ctl.fwlen.toNat
  let digest := sha384 (s.staged 0 16 ++ s.staged 64 (n - 160))
  [(6, s.ctl.lcs != 3), (1, decide (256 ≤ n) && decide (n ≤ 2 ^ 26) && s.staged 0 8 == [0x4E, 0x47, 0x46, 0x4B, 1, 0, 0, 0]),
    (2, digest == s.staged 16 48),
    (3, ecdsaVerify digest s.key (s.staged (n - 96) 96) && beNat (sha384 s.key) == s.keyDigest.toNat),
    (4, decide (s.rollbackMin.toNat ≤ bytesToNat (s.staged 8 4))), (5, decide (s.ctl.devnoset.toNat < 3072))]

/-- The first 32 bits of SHA-384 of "abc" (FIPS 180-4). -/
theorem test_sha384 : (sha384 [0x61, 0x62, 0x63]).take 4 = [0xCB, 0x00, 0x75, 0x3F] := by decide +kernel

/-- A device that waits for BOOTGO: its empty image fails check 1, a part whose life-cycle state is 3 fails check 6 before it, device number 3072
fails check 5, a byte changed in the signed part check 2, and another key check 3. -/
theorem witness_BootAndLifeCycle :
    State.reset.ctl.ready = false ∧ ((bootChecks State.reset).find? fun c => !c.2) = some (1, false)
      ∧ ((bootChecks { State.reset with ctl := { Ctl.initial with lcs := 3 } }).find? fun c => !c.2) = some (6, false)
      ∧ ((bootChecks { staged with ctl := { staged.ctl with devnoset := 3072 } }).find? fun c => !c.2) = some (5, false)
      ∧ ((bootChecks { staged with staging := assocSet staged.staging 159 1 }).find? fun c => !c.2) = some (2, false)
      ∧ ((bootChecks { staged with key := [] }).find? fun c => !c.2) = some (3, false) := by decide +kernel

/-- All six checks pass. -/
theorem witness_BootAndLifeCycle_passes : staged.ctl.ready = false ∧ ((bootChecks staged).find? fun c => !c.2) = none := by decide +kernel

theorem witness_HostRegisters :
    State.reset.ctl.nonce.length = 48 ∧ 7 < 8 ∧ 5 < 6
      ∧ ({ State.reset with agenda := [.hostRegRead 0x5F8] } : State).agenda = .hostRegRead (0x400 + 8 * 63) :: [] := by decide +kernel

/-- READY with no checkpoint running; one that runs on a quiet device, where slot 0 of the A-core has the turn, while a peer's store waits and
another comes; a restore of what stands in tier 0, and of what does not stand in tier 1. -/
theorem witness_Checkpoints :
    let r : State := { State.reset with ctl := { Ctl.initial with ready := true } }
    let c : State := { (turned Strand.initial 4 0 [.peerWrite 8 [1]]) with ctl := { r.ctl with ckpt := some (false, true) } }
    let q : State := { r with ctl := { r.ctl with ckpt := some (false, true) }, heldWrites := [⟨8, .store [1]⟩] }
    let b : State := { r with ctl := { r.ctl with ckpt := some (true, false) }, checkpoints := [((0, 0), r.saved)] }
    let n : State := { b with ctl := { r.ctl with ckpt := some (true, true) } }
    (r.ctl.ready = true ∧ r.ctl.ckpt = none) ∧ (c.ctl.ckpt.isSome = true ∧ (c.turnSlot 0).core ≠ .m ∧ c.agenda = .peerWrite 8 [1] :: [])
      ∧ (q.ctl.ckpt = some (false, true) ∧ q.quiet = true ∧ q.heldWrites = [⟨8, .store [1]⟩] ∧ q.region 8 = .hbm ∧ q.redWords = [])
      ∧ (b.ctl.ckpt = some (true, false) ∧ (b.checkpoints.find? fun k => k.1 = (0, 0)).isSome = true ∧ b.heldWrites = [])
      ∧ (n.ctl.ckpt = some (true, true) ∧ (n.checkpoints.find? fun k => k.1 = (1, 0)) = none) := by
  decide +kernel

/-! ### Accesses at their homes -/

/-- The only access in flight on a device with one strand. -/
def flying (st : Strand) (a : Access) : State := { lone st with flight := [a] }

/-- An access to the last doubleword of HBM, with a register to answer to. -/
def access (op : FlightOp) (dest : Option Dest) : Access := { pending 3 op ⟨thisDev, 0xFFFFFFFFF8⟩ with dest := dest, kind := 0 }

theorem performable {s : State} {a : Access} {n : Nat} (h1 : s.flight.find? (fun e => e.id = a.id) = some a) (h2 : s.readyNow a = true)
    (h3 : s.hasRoom a = true) (h4 : a.inTx = false ∧ a.overlay = [] ∧ a.ovFull = none) (h5 : a.loc.dev = thisDev) (h6 : s.badWords = [])
    (h7 : s.spills = []) (h8 : s.weakWords = [] := by rfl) : Performable s a n :=
  ⟨h1, h2, h3, h4, h5, fun w _ => by simp [h6, h8], fun _ h => absurd (h7 ▸ h) List.not_mem_nil⟩

theorem flying_performable (op : FlightOp) (dest : Option Dest) (n : Nat)
    (h2 : (flying Strand.initial (access op dest)).readyNow (access op dest) = true)
    (h3 : (flying Strand.initial (access op dest)).hasRoom (access op dest) = true) :
    Performable (flying Strand.initial (access op dest)) (access op dest) n :=
  performable (by simp [flying, access, pending]) h2 h3 ⟨rfl, rfl, rfl⟩ rfl rfl rfl

theorem unmarked_of {s : State} {a : Access} {st : Strand} (h : s.strand? a.who = some st) (hl : st.longs = []) : unmarked s a := by
  intro k hk
  rw [h] at hk
  cases hk
  simp [hl]

/-- A store of eight bytes at the end of HBM, and one of a byte at the end of tile 0's scratchpad window. -/
theorem witness_StoresPerform :
    let a := access (.store [1, 2, 3, 4, 5, 6, 7, 8]) none
    let s := flying Strand.initial a
    let b := { access (.store [9]) none with loc := ⟨thisDev, 0x100000FFFFF⟩ }
    let t := flying Strand.initial b
    (Performable s a 8 ∧ sound s a.loc.addr 8 ∧ unmarked s a ∧ a.op = .store [1, 2, 3, 4, 5, 6, 7, 8] ∧ a.dest = none ∧ s.region a.loc.addr = .hbm)
      ∧ (Performable t b 1 ∧ sound t b.loc.addr 1 ∧ unmarked t b ∧ t.region b.loc.addr = .pad 0 0xFFFFF ∧ (t.tile 0).testing = false) :=
  ⟨⟨flying_performable _ _ 8 (by decide +kernel) (by decide +kernel), sound_of, unmarked_of rfl rfl, rfl, rfl, by decide +kernel⟩,
    performable (by decide +kernel) (by decide +kernel) (by decide +kernel) ⟨rfl, rfl, rfl⟩ rfl rfl rfl, sound_of, unmarked_of rfl rfl,
    by decide +kernel, rfl⟩

/-- A load of eight bytes, with s31 and with z as its destination, and of a reduction word with one slot; and a result that has come back to s31. -/
theorem witness_LoadsPerform :
    let a := access (.load (2 ^ 3) true) (some ⟨false, 31⟩)
    let s := flying Strand.initial a
    let st := { Strand.initial with longs := [⟨3, ⟨false, 31⟩, false⟩] }
    let b := { a with done := true, value := 7 }
    let t := flying st b
    let z := access (.load (2 ^ 3) true) (some ⟨false, 41⟩)
    let u := access (.load 8 false) (some ⟨false, 31⟩)
    let r : RedWord := ⟨0xFFFFFFFFF8, 2, [(0, 1)], 0⟩
    let x : State := { flying Strand.initial u with redWords := [r] }
    (Performable s a 8 ∧ sound s a.loc.addr 8 ∧ s.region a.loc.addr = .hbm ∧ (31 : Spec) ≠ 41)
      ∧ (Performable (flying Strand.initial z) z 8 ∧ sound (flying Strand.initial z) z.loc.addr 8 ∧ unmarked (flying Strand.initial z) z)
      ∧ (Performable x u 8 ∧ x.region u.loc.addr = .hbm ∧ x.flight = [u] ∧ x.lags = [] ∧ x.redWords = [r] ∧ r.addr = u.loc.addr ∧ r.slots ≠ []
        ∧ r.ty = 2)
      ∧ (t.flight.find? (fun e => e.id = b.id) = some b ∧ b.done = true ∧ b.dest = some ⟨false, 31⟩ ∧ b.op ≠ .wrongBit
        ∧ (∀ u, b.op ≠ .loadV u) ∧ t.strand? b.who = some st ∧ (∃ l ∈ st.longs, l.id = b.id)
        ∧ ∀ p ∈ t.spills, ∀ l ∈ p.strand.longs, l.id ≠ b.id) :=
  ⟨⟨flying_performable _ _ 8 (by decide +kernel) (by decide +kernel), sound_of, by decide +kernel, by decide⟩,
    ⟨flying_performable _ _ 8 (by decide +kernel) (by decide +kernel), sound_of, unmarked_of rfl rfl⟩,
    ⟨performable (by decide +kernel) (by decide +kernel) (by decide +kernel) ⟨rfl, rfl, rfl⟩ rfl rfl rfl, by decide +kernel, rfl, rfl, rfl, rfl,
      by decide, rfl⟩,
    by decide +kernel, rfl, rfl, nofun, nofun, rfl, ⟨_, List.mem_cons_self, rfl⟩, fun _ h => absurd h List.not_mem_nil⟩

/-- Each operation that answers; stx with its reservation standing and with none; operations that answer nothing, one of them of a reduction
word's own operation. -/
theorem witness_AtomicsPerform :
    let d : Option Dest := some ⟨false, 0⟩
    let w : Watch := ⟨thisDev, 1, ⟨thisDev, 0xFFFFFFFFC0⟩, 0, 16, 7, 2⟩
    let a := access (.stx 5) d
    let r : State := { flying Strand.initial a with watches := [w] }
    (∀ op ∈ [FlightOp.atom .cas 1 0, .atom .fadd32 1 0, .atom .swap 1 0, .ldx, .stx 5],
        Performable (flying Strand.initial (access op d)) (access op d) 8)
      ∧ (∀ op ∈ [FlightOp.atomn .add 1, .atomn .fadd32 1, .redpReg 2, .redpRel, .joinDec],
        Performable (flying Strand.initial (access op none)) (access op none) 8
          ∧ unmarked (flying Strand.initial (access op none)) (access op none)
          ∧ ∀ e ∈ (flying Strand.initial (access op none)).redWords, e.addr ≠ (access op none).loc.addr)
      ∧ (flying Strand.initial a).region a.loc.addr = .hbm ∧ (0 : Spec) ≠ 41 ∧ (flying Strand.initial a).watches.length < 4096
      ∧ (∀ k ∈ (flying Strand.initial a).watches, k.kind ≠ 1)
      ∧ (Performable r a 8 ∧ r.present a = true
        ∧ (r.watches.find? fun k => k.dev = thisDev && k.kind = 1 && k.tile = a.who.tile && k.member = a.who.member && decide (k.ctx < a.id)) = some w
        ∧ w.line = a.loc.line ∧ w.word = a.loc.addr % 64 / 8)
      ∧ sound (flying Strand.initial a) a.loc.addr 8
      ∧ (let n := access (.atomn .fadd32 1) none
         let q : State := { flying Strand.initial n with redWords := [⟨0xFFFFFFFFF8, 1, [], 0⟩] }
         Performable q n 8 ∧ q.region n.loc.addr = .hbm ∧ n.dest = none ∧ unmarked q n) := by
  refine ⟨?_, ?_, by decide +kernel, by decide, by decide, fun _ h => absurd h List.not_mem_nil,
    ⟨performable (by decide +kernel) (by decide +kernel) (by decide +kernel) ⟨rfl, rfl, rfl⟩ rfl rfl rfl, by decide +kernel, by decide +kernel⟩,
    sound_of,
    performable (by decide +kernel) (by decide +kernel) (by decide +kernel) ⟨rfl, rfl, rfl⟩ rfl rfl rfl, by decide +kernel, rfl, unmarked_of rfl rfl⟩
  · intro op h
    simp only [List.mem_cons, List.not_mem_nil, or_false] at h
    rcases h with rfl | rfl | rfl | rfl | rfl <;> exact flying_performable _ _ 8 (by decide +kernel) (by decide +kernel)
  · intro op h
    simp only [List.mem_cons, List.not_mem_nil, or_false] at h
    rcases h with rfl | rfl | rfl | rfl | rfl <;>
      exact ⟨flying_performable _ _ 8 (by decide +kernel) (by decide +kernel), unmarked_of rfl rfl, fun _ h => absurd h List.not_mem_nil⟩

/-- A home with 64 reduction words takes no other; each lies past the access. -/
theorem witness_AtomicsPerform_full :
    let a := { access (.redpReg 0) none with loc := ⟨thisDev, 0⟩ }
    let s : State := { flying Strand.initial a with redWords := (List.range 64).map fun i => ⟨0x10040 * (i + 1), 0, [], 0⟩ }
    64 ≤ (s.redWords.filter fun r => s.homeKey ⟨thisDev, r.addr⟩ = s.homeKey a.loc).length
      ∧ ∀ r ∈ s.redWords, r.slots = [] ∨ r.addr + 8 ≤ a.loc.addr ∨ a.loc.addr + 8 ≤ r.addr := by decide +kernel

/-- A full word and an empty one, for each of the two; and one behind another that waits there. -/
theorem witness_FullEmptyWords :
    let c := access .ldc (some ⟨false, 40⟩)
    let p := access (.stp 1) none
    let full := fun (a : Access) => ({ flying Strand.initial a with full := [0x1FFFFFFFFF] } : State)
    (∀ a ∈ [c, p], Performable (flying Strand.initial a) a 8 ∧ Performable (full a) a 8
        ∧ (flying Strand.initial a).region a.loc.addr = .hbm ∧ a.loc.addr % 8 = 0 ∧ unmarked (flying Strand.initial a) a)
      ∧ c.loc.addr / 8 ∈ (full c).full ∧ c.loc.addr / 8 ∉ (flying Strand.initial c).full ∧ c.dest = some ⟨false, 40⟩ ∧ (40 : Spec) ≠ 41
      ∧ p.dest = none ∧ (∀ a : Access, sound (flying Strand.initial a) a.loc.addr 8) ∧ (flying Strand.initial c).watches = []
      ∧ (let e : Watch := ⟨thisDev, 2, ⟨thisDev, 0xFFFFFFFFC0⟩, 0, 17, 7, 1⟩
         let q : State := { full c with watches := [e] }
         Performable q c 8 ∧ e.line = c.loc.line ∧ e.word = c.loc.addr / 8 % 8 ∧ ¬ (e.dev = thisDev ∧ e.ctx = c.id)) := by
  refine ⟨?_, by decide +kernel, by decide +kernel, rfl, by decide, rfl, fun _ => sound_of, rfl,
    performable (by decide +kernel) (by decide +kernel) (by decide +kernel) ⟨rfl, rfl, rfl⟩ rfl rfl rfl, by decide +kernel, by decide +kernel,
    by decide +kernel⟩
  intro a h
  simp only [List.mem_cons, List.not_mem_nil, or_false] at h
  rcases h with rfl | rfl <;>
    exact ⟨flying_performable _ _ 8 (by decide +kernel) (by decide +kernel),
      performable (by decide +kernel) (by decide +kernel) (by decide +kernel) ⟨rfl, rfl, rfl⟩ rfl rfl rfl, by decide +kernel,
      by decide +kernel, unmarked_of rfl rfl⟩

/-! ### Transactions, semaphores, lock rings -/

/-- The level of a transaction opened at 0 with its target at 64. -/
def level0 : TxLevel := ⟨64, none, 0, 0⟩

/-- A strand in a transaction of the given levels. -/
def inside (ls : List TxLevel) (tag : Nat) : Strand := { Strand.initial with tx := some ⟨0, ls, tag, [], none⟩ }

/-- lone with entries in the tile's weir table. -/
def watched (st : Strand) (l : List Weir) : State :=
  { lone st with tiles := [(0, { (lone st).tile 0 with weir := l })] }

/-- A transaction's strand is clear for a word that may run inside one. -/
theorem inside_clear {s : State} {st : Strand} {u : Uses} (h : s.strand? s.cur = some st) (hn : st.nregs = 32) (hv : st.nvregs = 32)
    (hl : st.longs = []) (hc : st.chunk = none) (hp : u.priv = none) (ha : u.aborts = false) (hu : st.upset = none := by rfl) :
    s.Clear st u :=
  let k := clear_of (s := { s with tiles := (s.setStrand s.cur { st with tx := none }).tiles }) (st := { st with tx := none }) (u := u)
    (State.strand?_setStrand s s.cur _) hn hv hl rfl hc (.inr hp) hu
  ⟨h, .inr hp, k.declared, k.settled, fun h => by simp [ha] at h, by simp [Strand.chunkStop, hc], k.order, k.parity⟩

def read0 (hit sleep : Bool) : Weir := ⟨false, 16, sleep, hit, true, ⟨thisDev, 0x10000⟩⟩

/-- Outside; at depth 1 with an alternative and with none, asleep-to-be with its line unwritten; at depth 3, which may open one level more, and
at depth 4, which may not; tag 255 is the last. -/
theorem witness_TransactionWords :
    let one := inside [{ level0 with next := some 8 }] 255
    let rest := inside [level0] 1
    let three := inside [level0, level0, level0] 255
    let four := inside [level0, level0, level0, level0] 3
    ((lone Strand.initial).Clear Strand.initial {} ∧ Strand.initial.tx = none)
      ∧ (∀ st ∈ [one, rest, three, four], ∀ l, (watched st l).Clear st {} ∧ (watched st l).Clear st { srcs := [(0, false, 31)] }
        ∧ (watched st l).Clear st (useD 41) ∧ st.chunk = none ∧ st.run = .ready)
      ∧ (∃ x, three.tx = some x ∧ x.levels = level0 :: [level0, level0] ∧ [level0, level0].length < 3 ∧ x.nextTag < 256)
      ∧ (∃ x, four.tx = some x ∧ x.levels = level0 :: [level0, level0, level0] ∧ x.levels.getLast? = some level0 ∧ 3 ≤ 3)
      ∧ (∃ x, rest.tx = some x ∧ (∀ k ∈ x.levels, k.next = none))
      ∧ ((∃ e ∈ ((watched rest [read0 false false]).tile 0).weir, e.member = 16)
        ∧ ∀ e ∈ ((watched rest [read0 false false]).tile 0).weir, e.member = 16 → e.hit = false) := by
  refine ⟨⟨plain_clear _ rfl, rfl⟩, ?_, ⟨_, rfl, rfl, by decide, by decide⟩, ⟨_, rfl, rfl, rfl, by decide⟩, ⟨_, rfl, ?_⟩, ?_, ?_⟩
  · intro st h l
    simp only [List.mem_cons, List.not_mem_nil, or_false] at h
    rcases h with rfl | rfl | rfl | rfl <;>
      exact ⟨inside_clear rfl rfl rfl rfl rfl rfl rfl, inside_clear rfl rfl rfl rfl rfl rfl rfl, inside_clear rfl rfl rfl rfl rfl rfl rfl,
        rfl, rfl⟩
  · simp [level0]
  · exact ⟨_, List.mem_cons_self, rfl⟩
  · simp [watched, State.tile, assocGet, read0]

/-- A retry whose alternative is the outer level's, and a transaction that has used its 256 tags. -/
theorem witness_TransactionWords_outer :
    let out := inside [level0, { level0 with next := some 8 }] 1
    let full := inside [level0] 256
    (∀ l, (watched out l).Clear out {} ∧ (watched full l).Clear full {}) ∧ out.run = .ready ∧ out.chunk = none
      ∧ (∃ x, out.tx = some x ∧ x.levels = [level0] ++ { level0 with next := some 8 } :: [] ∧ (∀ y ∈ [level0], y.next = none))
      ∧ ∃ x, full.tx = some x ∧ x.levels = level0 :: [] ∧ x.levels.getLast? = some level0 ∧ 256 ≤ x.nextTag ∧ ([] : List TxLevel).length < 3 :=
  ⟨fun _ => ⟨inside_clear rfl rfl rfl rfl rfl rfl rfl, inside_clear rfl rfl rfl rfl rfl rfl rfl⟩, rfl, rfl, ⟨_, rfl, rfl, by simp [level0]⟩,
    _, rfl, rfl, rfl, by decide, by decide⟩

/-- A transaction whose write set has room, and one with 32 lines of another tag, which has none; a read set with 63 lines, and with 64; and a load
of RESV. -/
theorem witness_TransactionAccesses :
    let st := { holding 0x80 0 0 with tx := some ⟨0, [level0], 1, [], none⟩ }
    let s := watched st []
    let lines := fun (n : Nat) => (List.range n).map fun i => (⟨⟨thisDev, 64 * i⟩, 1, []⟩ : WEntry)
    let reads := fun (n : Nat) => (List.range n).map fun i => { read0 false false with line := ⟨thisDev, 64 * i⟩ }
    let k := { holding 0x10008 0 0 with tx := some ⟨0, [level0], 1, [], none⟩ }
    let q : State := { lone k with tiles := [(0, { (lone k).tile 0 with tlb := [portLeaf] })] }
    (∀ l, (watched st l).Clear st (useStore false 31 1) ∧ (watched st l).Clear st (useLoad false 41 1 true)) ∧ st.run = .ready ∧ st.chunk = none
      ∧ (st.rs 1).toNat % 8 = 0
      ∧ (∀ a ∈ [AccKind.read, .write], s.translate s.cur.tile st.regs.ptroot st.sup 0x80 a = .at_ ⟨thisDev, 0x10080⟩ leaf)
      ∧ (addEntry [] 0 ⟨thisDev, 0x10080⟩ [.store 0 [1] (some leaf)]).isSome = true
      ∧ (∃ n, addEntry (lines n) 0 ⟨thisDev, 0x10080⟩ [.store 0 [1] (some leaf)] = none)
      ∧ s.resvAt ⟨thisDev, 0x10080⟩ = none
      ∧ (((watched st (reads 63)).tile 0).weir.filter fun e => e.member = 16).length < 64
      ∧ 64 ≤ (((watched st (reads 64)).tile 0).weir.filter fun e => e.member = 16).length
      ∧ (∀ e ∈ reads 64, e.line ≠ ⟨thisDev, 0x10080⟩)
      ∧ (q.Clear k (useLoad false 41 1 true) ∧ q.translate 0 k.regs.ptroot k.sup (k.rs 1) .read = .at_ ⟨thisDev, 0x20000000008⟩ portLeaf
        ∧ q.resvAt ⟨thisDev, 0x20000000008⟩ = some 0) :=
  ⟨fun _ => ⟨inside_clear rfl rfl rfl rfl rfl rfl rfl, inside_clear rfl rfl rfl rfl rfl rfl rfl⟩, rfl, rfl, by decide +kernel, by decide +kernel,
    by decide +kernel, ⟨200, by decide +kernel⟩, by decide +kernel, by decide +kernel, by decide +kernel, by decide +kernel,
    inside_clear rfl rfl rfl rfl rfl rfl rfl, by decide +kernel, by decide +kernel⟩

/-- The outermost level with one byte to write, and no line, or one that has been written. -/
theorem witness_TransactionCommit :
    let e : WEntry := ⟨⟨thisDev, 0x10000⟩, 0, [.store 63 [5] (some leaf)]⟩
    let st := { Strand.initial with tx := some ⟨0, [level0], 1, [e], none⟩ }
    (∀ l, (watched st l).Clear st {}) ∧ st.run = .ready ∧ st.chunk = none ∧ st.abortReq = none
      ∧ (((watched st [read0 false false]).tile 0).weir.filter fun e => e.member = 16) = [read0 false false]
      ∧ (((watched st [read0 true false]).tile 0).weir.filter fun e => e.member = 16) = [read0 true false]
      ∧ (watched st [read0 false false]).commitWaits ⟨0, .a, 0⟩ = false ∧ (watched st []).redWords = []
      ∧ (watched st []).region (e.line.addr + 63) = .hbm ∧ e.line.dev = thisDev :=
  ⟨fun _ => inside_clear rfl rfl rfl rfl rfl rfl rfl, rfl, rfl, rfl, by decide, by decide, by decide +kernel, rfl, by decide +kernel,
    rfl⟩

/-- A request to abort; a lost line; a fault, of a user and of a supervisor; and a sleeper with a written line. -/
theorem witness_TransactionEnds :
    let st := inside [level0] 1
    let r := { st with abortReq := some (4, 0) }
    let p := { st with sup := true, ie := true }
    let z := { Strand.initial with run := .asleep, tx := some ⟨0, [], 1, [], none⟩ }
    ((lone r).strand? ⟨0, .a, 0⟩ = some r ∧ r.wave = none ∧ r.abortReq = some (4, 0))
      ∧ ((watched st [read0 true false]).strand? ⟨0, .a, 0⟩ = some st ∧ st.abortReq = none ∧ st.sup = false ∧ st.longs = []
        ∧ (((watched st [read0 true false]).tile 0).weir.filter fun e => e.member = 16) = [read0 true false]
        ∧ (watched st [read0 true false]).stpPending ⟨0, .a, 0⟩ = false)
      ∧ ((lone p).strand? ⟨0, .a, 0⟩ = some p ∧ p.sup = true ∧ p.ie = true ∧ p.longs = [] ∧ (lone p).stpPending ⟨0, .a, 0⟩ = false)
      ∧ ((watched z [read0 true true]).strand? ⟨0, .a, 0⟩ = some z ∧ z.run = .asleep ∧ z.wave = none
        ∧ read0 true true ∈ (((watched z [read0 true true]).tile 0).weir.filter fun e => e.member = 16)) := by
  decide +kernel

/-- With nothing to wait for, and with a store to the tile's own control region that has not been performed. -/
theorem witness_Semaphores :
    let st := Strand.initial
    let s : State := { lone st with flight := [pending 0 (.store [1]) ⟨thisDev, 0x10000000000⟩] }
    (lone st).Clear st { srcs := [(0, false, 43)] } ∧ (lone st).tileWaits ⟨0, .a, 0⟩ = false
      ∧ s.Clear st { srcs := [(0, false, 43)] } ∧ s.tileWaits ⟨0, .a, 0⟩ = true ∧ (lone st).Clear st (useD 41) ∧ 0 < 1536 :=
  ⟨plain_clear _ rfl, by decide +kernel, clear_of rfl rfl rfl rfl rfl rfl (.inr rfl), by decide +kernel, plain_clear _ rfl, by decide⟩

/-- The strand of withRing, with s1 to s3 as given and a region of 4096 bytes from 0x100. -/
def ringer (a : Word) : Strand :=
  { holding a 1 2 with
    regs := { (holding a 1 2).regs with padlo := 0x100, padhi := 0x10FF }
    nlocks := 1 }

/-- A ring without members and a descriptor of 2 stages of 256 bytes at 0x200, and one of zeros; an open ring of which member 16 produces, as the
only strand of its slot and beside a spilled one; one at which it has arrived; one that it has not joined; and a ring that is not declared. -/
theorem witness_LockRings :
    let st := ringer 0x100
    let empty := Ring.initial
    let c : State := { withRing empty st with mem := [(0x10000000101, 2), (0x10000000103, 8), (0x10000000104, 2), (0x10000000105, 1)] }
    let idle := { openRing with pmem := 0, owners := [] }
    let two := { openRing with owners := [(16, 0), (16, 7)] }
    let came := { openRing with parr := 0x10000 }
    (∀ r, (withRing r st).Clear st { srcs := [(0, false, 3)], access := true, aborts := true } ∧ (withRing r st).Clear st { aborts := true }
        ∧ (withRing r st).Clear st { srcs := [(0, false, 3)], aborts := true } ∧ (withRing r st).Clear st (useD 41))
      ∧ (∀ r ∈ [empty, openRing, idle, two, came], (withRing r st).physRing ⟨0, .a, 0⟩ st 0 = some 0 ∧ ((withRing r st).tile 0).rings[0]? = some r)
      ∧ (st.tx = none ∧ st.chunk = none ∧ st.run = .ready)
      ∧ ((st.rs 1).toNat % 8 = 0 ∧ c.padAddr ⟨0, .a, 0⟩ st (st.rs 1) 8 = .ok 0x100
        ∧ BitVec.ofNat 64 (bytesToNat (c.readBytes (c.padBase 0 + 0x100) 8)) = (0x0000010208000200 : Word)
        ∧ openRing.nstg = 2 ∧ openRing.dist = 1 ∧ openRing.slog2 = 8 ∧ openRing.base = 0x200
        ∧ 0x200 + 2 * 2 ^ 8 ≤ st.regs.padlo.toNat + st.padLen)
      ∧ sound c (c.padBase 0 + 0x100) 8 ∧ (withRing empty st).padAddr ⟨0, .a, 0⟩ st (st.rs 1) 8 = .ok 0x100
      ∧ sound (withRing empty st) ((withRing empty st).padBase 0 + 0x100) 8 ∧ st.nlocks ≤ (1 : BitVec 3).toNat ∧ 2 < (st.rs 1).toNat
      ∧ (openRing.isOpen 16 0 = true ∧ (openRing.pmem &&& ((1 : BitVec 24) <<< 16)) ≠ 0 ∧ openRing.owners.contains (16, 0) = true)
      ∧ (came.isOpen 16 0 = false ∧ (two.owners.filter fun o => o != (16, 0)) = [(16, 7)] ∧ (openRing.owners.filter fun o => o != (16, 0)) = [])
      ∧ (idle.cfg = true ∧ idle.pmem &&& ((1 : BitVec 24) <<< 16) = 0 ∧ st.rs 41 = 0 ∧ st.rs 2 = 1 ∧ st.rs 3 = 2) := by
  refine ⟨fun _ => ⟨clear_of rfl rfl rfl rfl rfl rfl (.inr rfl), clear_of rfl rfl rfl rfl rfl rfl (.inr rfl),
    clear_of rfl rfl rfl rfl rfl rfl (.inr rfl), clear_of rfl rfl rfl rfl rfl rfl (.inr rfl)⟩, by decide +kernel, ⟨rfl, rfl, rfl⟩,
    by decide +kernel, sound_of, by decide +kernel, sound_of, by decide +kernel, by decide +kernel, by decide +kernel, by decide +kernel,
    by decide +kernel⟩

/-! ### Block transfer -/

/-- A shadow set of two fields' indices and values over zeros. -/
def fieldsOf (l : List (Nat × Word)) : Fields := l.foldl (fun f p => f.setIfInBounds p.1 p.2) (Vector.replicate 42 0)

/-- A strand with one shadow set in every channel. -/
def shadowed (f : Fields) : Strand := { Strand.initial with regs := { Regs.initial with shadow := Vector.replicate 4 f } }

/-- A transfer of slot 0 with the given fields, at element x. -/
def transfer (f : Fields) (src dst kindS kindD x : Nat) (started : Bool) : Transfer :=
  ⟨0, ⟨0, .a, 0⟩, 0, 0, 0, 0, false, f, kindS, src, kindD, dst, x, started, false, [], [], [], false, none⟩

/-- A channel 3 with a queue, halted or not. -/
def channel (q : List Transfer) (halted : Bool) : State :=
  { lone Strand.initial with
    tiles := [(0, { (lone Strand.initial).tile 0 with
      chans := (Vector.replicate 4 Chan.initial).setIfInBounds 3 ⟨1, 0, q, halted, 0, 0, 0, []⟩ })] }

def oneByte : Fields := fieldsOf [(2, 1), (3, 1), (4, 1)]

/-- Field 41 is the last; a copy of one byte passes every check; ESIZE 0 and NDIM 13 do not; a queue of seven and one of eight. -/
theorem witness_ChannelWords :
    let st := shadowed oneByte
    let q := fun (n : Nat) => ({ channel (List.replicate n (transfer oneByte 0 0 0 0 0 false)) false with
      tiles := [(0, { (channel (List.replicate n (transfer oneByte 0 0 0 0 0 false)) false).tile 0 with strands := [(16, st)] })] } : State)
    (41 : BitVec 6).toNat < 42
      ∧ (∀ n, (q n).Clear st { srcs := [(0, false, 31)] } ∧ (q n).Clear st {} ∧ (q n).Clear st (useD 41)
        ∧ (q n).Clear st { useD 41 with aborts := true } ∧ (q n).Clear st { aborts := true })
      ∧ st.chunk = none ∧ st.run = .ready ∧ st.tx = none ∧ st.det = false
      ∧ ((q 7).launchCheck ⟨0, .a, 0⟩ st oneByte (outsideUnion ((q 7).declaredPad ⟨0, .a, 0⟩ st)) = none
        ∧ ((q 7).chan 0 3).queue.length < 8 ∧ 8 ≤ ((q 8).chan 0 3).queue.length)
      ∧ (Fields.at_ oneByte 0 < 2 ^ 60 ∧ Fields.at_ (fieldsOf [(3, 1)]) 2 ∉ [1, 2, 4, 8, 16, 32, 64]
        ∧ Fields.at_ (fieldsOf [(2, 64), (3, 13)]) 2 ∈ [1, 2, 4, 8, 16, 32, 64] ∧ 12 < Fields.at_ (fieldsOf [(2, 64), (3, 13)]) 3) := by
  refine ⟨by decide, fun n => ⟨clear_of rfl rfl rfl rfl rfl rfl (.inr rfl), clear_of rfl rfl rfl rfl rfl rfl (.inr rfl),
    clear_of rfl rfl rfl rfl rfl rfl (.inr rfl), clear_of rfl rfl rfl rfl rfl rfl (.inr rfl),
    clear_of rfl rfl rfl rfl rfl rfl (.inr rfl)⟩, rfl, rfl, rfl, rfl, by decide +kernel, by decide +kernel⟩

/-- A transfer to be taken up; an element within the scratchpad to move, sound and with a bad source word; a first packet for an open queue, and
for one that is not there; a later packet; a transfer that is done; a halted channel. Channel 3 of tile 1535 is the last. -/
theorem witness_TransferSteps :
    let f := fieldsOf [(2, 64), (3, 1), (4, 1)]
    let n := fieldsOf [(2, 64), (3, 1), (4, 4), (41, 256)]
    let a := transfer f 0 64 8 8 0 false
    let b := { a with started := true }
    let p := { transfer n 0 5 8 12 4 true with packet := List.replicate 256 1 }
    let e := { a with started := true, x := 1 }
    (0 < 1536 ∧ 3 < 4 ∧ ((channel [a] false).chan 0 3).queue = a :: [] ∧ ((channel [a] false).chan 0 3).halted = false
        ∧ a.cancelled = false ∧ a.started = false)
      ∧ (b.started = true ∧ b.srcKind = 8 ∧ b.dstKind = 8 ∧ Fields.lineEn f = false ∧ b.x < Fields.total f ∧ (channel [b] false).redWords = []
        ∧ (channel [b] false).lags = [] ∧ (channel [b] false).weakWords = [] ∧ (channel [b] false).badWords = []
        ∧ (channel [b] false).padBase 0 / 8 + 7 ∈ wordsOf ((channel [b] false).padBase 0 + (b.addr false 0).toNat % 2 ^ 20) (Fields.esize f))
      ∧ (p.dstKind = 12 ∧ Fields.total n ≠ 0 ∧ p.packet ≠ [] ∧ p.packet.length = Fields.payload n
        ∧ BitVec.ofNat 16 p.dst ∈ ({ channel [p] false with sendQueues := [5] } : State).sendQueues
        ∧ BitVec.ofNat 16 p.dst ∉ (channel [p] false).sendQueues ∧ p.offered = false ∧ { p with offered := true }.offered = true)
      ∧ (e.dstKind ≠ 12 ∧ Fields.total f ≤ e.x) ∧ ((channel [a] true).chan 0 3).halted = true := by decide +kernel

/-- A leaf that maps the second virtual page to device 5, a member of the domain. -/
def farLeaf : Leaf := ⟨0x10000, 0, 0x0000500000000000 + 0x3F, 0⟩

/-- A channel whose device has that member and both leaves. -/
def linked (q : List Transfer) (line : List HeldRow) : State :=
  let s := channel q false
  let x := s.tile 0
  { s with
    members := [5]
    tiles := [(0, { x with tlb := [leaf, farLeaf], chans := x.chans.setIfInBounds 3 ⟨1, 0, q, false, 0, 0, 0, line⟩ })] }

/-- A scratchpad element into HBM, and one from HBM to device 5 and back; an address past the address space on either side; a packet that takes an
element; a line buffer that holds the row and one that holds none. -/
theorem witness_TransferSteps_forms :
    let f := fieldsOf [(2, 64), (3, 1), (4, 1)]
    let n := fieldsOf [(2, 64), (3, 1), (4, 4), (41, 256)]
    let l := fieldsOf [(2, 64), (3, 1), (4, 2), (40, 0x101)]
    let a := transfer f 0 0x1000 8 0 0 true
    let b := transfer f 0x1000 0x10000 0 0 0 true
    let c := transfer f 0x10000 0x1000 0 0 0 true
    let d := transfer f (2 ^ 56) (2 ^ 56) 0 0 0 true
    let p := transfer n 0 5 8 12 0 true
    let r := transfer l 0 0x1000 8 8 0 true
    let row : HeldRow := ⟨0, 8, thisDev * 2 ^ 44 + 0x10000000000, List.replicate 128 7⟩
    (∀ t ∈ [a, b, c, d], (linked [t] []).sideServed 0 t false = true ∧ (linked [t] []).sideServed 0 t true = true)
      ∧ ((linked [a] []).sideLoc 0 a 8 (a.addr false 0) .read).1 = .ok ⟨thisDev, 0x10000000000⟩
      ∧ (linked [a] []).region 0x10000000000 = .pad 0 0
      ∧ (((linked [a] []).countWork 0 0 0 0).sideLoc 0 a 0 (a.addr true 0) .write).1 = .ok ⟨thisDev, 0x11000⟩ ∧ (linked [a] []).region 0x11000 = .hbm
      ∧ ((linked [b] []).sideLoc 0 b 0 (b.addr false 0) .read).1 = .ok ⟨thisDev, 0x11000⟩
      ∧ (((linked [b] []).countWork 0 0 0 1).sideLoc 0 b 0 (b.addr true 0) .write).1 = .ok ⟨5, 0⟩
      ∧ ((linked [c] []).sideLoc 0 c 0 (c.addr false 0) .read).1 = .ok ⟨5, 0⟩ ∧ 5 ≠ thisDev
      ∧ ((linked [d] []).sideLoc 0 d 0 (d.addr false 0) .read).1 = .error 0x33
      ∧ (((linked [d] []).countWork 0 0 0 0).sideLoc 0 d 0 (d.addr true 0) .write).1 = .error 0x33
      ∧ (p.dstKind = 12 ∧ p.packet.length + Fields.esize n ≤ Fields.payload n ∧ p.x < Fields.total n)
      ∧ (Fields.lineEn l = true ∧ 0 < Fields.esize l ∧ r.x < Fields.total l
        ∧ ((linked [r] [row]).sideLoc 0 r 8 (r.addr false 0) .read).1 = .ok ⟨thisDev, 0x10000000000⟩
        ∧ ((linked [r] [row]).chan 0 3).heldRow 0 8 (thisDev * 2 ^ 44 + 0x10000000000) (Fields.count l 0 * Fields.esize l) = some row
        ∧ ((linked [r] []).chan 0 3).heldRow 0 8 (thisDev * 2 ^ 44 + 0x10000000000) (Fields.count l 0 * Fields.esize l) = none)
      ∧ ((wordsOf 0x10000000000 (Fields.esize f)).find? fun w => [0x10000000000 / 8 + 7].contains w) = some (0x10000000000 / 8 + 7) := by
  decide +kernel

/-! ### Vectors and conversion -/

theorem witness_VectorFloat :
    (lone Strand.initial).Clear Strand.initial (vuseAB 31 0 35) ∧ (lone Strand.initial).Clear Strand.initial (vuseABD 41 31 40)
      ∧ (lone Strand.initial).Clear Strand.initial (vuseA 40 41) :=
  ⟨plain_clear _ rfl, plain_clear _ rfl, plain_clear _ rfl⟩

theorem witness_VectorCompareReduce :
    (lone Strand.initial).Clear Strand.initial (vuseAB 31 0 35)
      ∧ (lone Strand.initial).Clear Strand.initial { vuseAB 31 0 41 with readsQv := true }
      ∧ (lone Strand.initial).Clear Strand.initial (useRed 41 31) ∧ (lone Strand.initial).Clear Strand.initial (vuseA 31 0) :=
  ⟨plain_clear _ rfl, plain_clear _ rfl, plain_clear _ rfl, plain_clear _ rfl⟩

theorem witness_VectorIntegerAndMoves :
    (lone Strand.initial).Clear Strand.initial (vuseAB 31 0 35)
      ∧ (lone Strand.initial).Clear Strand.initial { srcs := [(0, false, 43)], dst := some (true, 31) }
      ∧ (lone Strand.initial).Clear Strand.initial (vuseA 31 0)
      ∧ (lone Strand.initial).Clear Strand.initial { srcs := [(0, true, 31)], dst := some (false, 41) } :=
  ⟨plain_clear _ rfl, plain_clear _ rfl, plain_clear _ rfl, plain_clear _ rfl⟩

/-- 24 planes in three registers up to v31, from the last group of four; the scale byte at the end of the region. -/
theorem witness_ConversionUnit :
    let st := padded 0x107 0 0
    sound (lone st) ((lone st).padBase 0 + 0x107) 1 ∧ (lone st).region ((lone st).padBase 0 + 0x107) = .pad 0 0x107
      ∧ (lone st).Clear st (useGroups 29 3 28 4 1) ∧ (lone st).Clear st (useGroups 28 4 29 3 1) ∧ st.tx = none ∧ st.chunk = none ∧ st.run = .ready
      ∧ (lone st).padAddr ⟨0, .a, 0⟩ st (st.rs 1) 1 = .ok 0x107
      ∧ (lone st).Clear st (vuseA 41 31) ∧ (lone st).Clear st (vuseAB 31 0 35) :=
  ⟨sound_of, by decide +kernel, lone_clear _ _ rfl rfl rfl rfl rfl rfl, lone_clear _ _ rfl rfl rfl rfl rfl rfl, rfl, rfl, rfl, by decide +kernel,
    lone_clear _ _ rfl rfl rfl rfl rfl rfl, lone_clear _ _ rfl rfl rfl rfl rfl rfl⟩

/-! ### The matrix engine -/

/-- A strand with a region of 192 KiB from 0, and s1 given. -/
def matrixStrand (a : Word) : Strand := { holding a 0 0 with regs := { (holding a 0 0).regs with padlo := 0, padhi := 0x2FFFF } }

/-- Records of two operands of one row of K = 128 elements in one plane (Table 9.1), at 0 and at 64. -/
def twoRecs : Vector Rec 5 := ((Vector.replicate 5 Rec.initial).setIfInBounds 0 ⟨0, 0x800001⟩).setIfInBounds 1 ⟨64, 0x800001⟩

/-- lone with the given engine. -/
def engined (st : Strand) (e : Matrix) : State := { lone st with tiles := [(0, { (lone st).tile 0 with mat := e })] }

def mine : Matrix := { Matrix.initial with owner := some 0 }

/-- A free store, the strand's own, another's, and one with a wrong word in each half of row 191; 192 rows from 0 and one row too many; row 191 of the lower half and row 192; records that pass,
with no, one and two operations in the engine, and records of zeros. -/
theorem witness_MatrixWords :
    let st := matrixStrand 0xC000
    let op : MatOp := ⟨twoRecs, []⟩
    let ready := { mine with recs := twoRecs }
    (∀ e a, (engined (matrixStrand a) e).Clear (matrixStrand a) { useAB0 1 31 with aborts := true }
        ∧ (engined (matrixStrand a) e).Clear (matrixStrand a) { srcs := [(0, false, 1)], aborts := true }
        ∧ (engined (matrixStrand a) e).Clear (matrixStrand a) { srcs := [(0, false, 1), (1, true, 31)], aborts := true }
        ∧ (engined (matrixStrand a) e).Clear (matrixStrand a) { srcs := [(0, false, 1)], dst := some (true, 31), long := true, aborts := true }
        ∧ (engined (matrixStrand a) e).Clear (matrixStrand a) { aborts := true })
      ∧ ((engined st Matrix.initial).tile 0).mat.owner = none ∧ ((engined st mine).tile 0).mat.owner = some st.uid
      ∧ ((engined st { mine with owner := some 17 }).tile 0).mat.owner = some 17 ∧ 17 ≠ st.uid ∧ mine.opsLeft = 0
      ∧ ((st.rs 1).toNat < 2 ^ 16 ∧ (st.rs 1).toNat % 256 + (st.rs 1).toNat / 256 % 256 = 192)
      ∧ 192 < ((matrixStrand 0xC001).rs 1).toNat % 256 + ((matrixStrand 0xC001).rs 1).toNat / 256 % 256
      ∧ (((matrixStrand 0x1BF).rs 1).toNat < 2 ^ 9 ∧ ((matrixStrand 0x1BF).rs 1).toNat % 256 ≤ 191)
      ∧ (((matrixStrand 191).rs 1).toNat ≤ 191 ∧ 191 < ((matrixStrand 192).rs 1).toNat ∧ (31 : Spec) ≠ 41)
      ∧ (let bad := { mine with badPairs := [(191 * 32, false), (191 * 32 + 31, true)] }
         bad.owner = some st.uid ∧ (∃ p ∈ bad.badPairs, p.1 / 32 = 191 ∧ p.2 = false) ∧ (∃ p ∈ bad.badPairs, p.1 / 32 = 191 ∧ p.2 = true)
           ∧ ∀ p ∈ bad.badPairs, p.1 / 32 ≠ 190)
      ∧ (matCheck mine.recs false = some (4, 0) ∧ (engined st ready).matSnapshot ⟨0, .a, 0⟩ st twoRecs false = .ok op
        ∧ ready.pending = none ∧ { ready with pending := some op }.running = none
        ∧ { ready with pending := some op, running := some op }.running.isSome = true) :=
  ⟨fun _ _ => ⟨clear_of rfl rfl rfl rfl rfl rfl (.inr rfl), clear_of rfl rfl rfl rfl rfl rfl (.inr rfl),
    clear_of rfl rfl rfl rfl rfl rfl (.inr rfl), clear_of rfl rfl rfl rfl rfl rfl (.inr rfl),
    clear_of rfl rfl rfl rfl rfl rfl (.inr rfl)⟩, by decide +kernel⟩

/-- A member of row wave 4. -/
def ganger : Strand := { matrixStrand 0 with wave := some 4, nbars := 1 }

/-- Its wave, of one member, which received the row's barrier 2. -/
def gangWave : Wave := ⟨4, 0, true, [⟨0, .a, 0⟩], [2], false⟩

/-- Barrier 2 of row 0 with the given members. -/
def gangRow (mem : BitVec 24) : Row := { Row.initial with bars := Row.initial.bars.setIfInBounds 2 ⟨0, mem, 0, some 4, 0⟩ }

def gangState (mem : BitVec 24) : State :=
  { engined ganger { mine with recs := twoRecs } with waves := [gangWave], rows := [(0, gangRow mem)] }

/-- The operation of twoRecs. -/
def oneBlock : MatOp := ⟨twoRecs, []⟩

/-- An engine that runs it. -/
def running : State := engined ganger { mine with recs := twoRecs, running := some oneBlock }

/-- What holds of gangState for either membership. -/
def gangReady (mem : BitVec 24) : Bool :=
  decide (((gangState mem).tile 0).mat.owner = some ganger.uid)
    && decide ((gangState mem).waves.find? (fun v => v.num = 4) = some gangWave)
    && decide ((gangState mem).matSnapshot ⟨0, .a, 0⟩ ganger twoRecs true = .ok oneBlock)
    && decide (((gangState mem).tile 0).mat.pending = none) && !(gangState mem).barWaits 1
    && decide (((gangState mem).rowAt ((gangState mem).tileRow 0)).bars[2]? = some ⟨0, mem, 0, some 4, 0⟩)

/-- A row wave of one member that arrives last at its barrier, and one that waits for another column; a strand of no wave; an operation that
starts, and one whose only block is applied. -/
theorem witness_MatrixSteps :
    (∀ mem, (gangState mem).Clear ganger { aborts := true })
      ∧ gangReady 1 = true ∧ gangReady 3 = true
      ∧ (ganger.chunk = none ∧ ganger.wave = some 4 ∧ gangWave.row = true ∧ (0 : BitVec 3).toNat < ganger.nbars ∧ gangWave.bars[0]? = some 2
        ∧ (∀ y ∈ gangWave.members, y.core = .a) ∧ (gangState 3).spills = [])
      ∧ ((0 : BitVec 24) ||| 1 <<< (gangState 3).tileCol 0 ≠ 3 ∧ (1 : BitVec 24) = 1 <<< (gangState 1).tileCol 0
        ∧ gangWave.members = [⟨0, .a, 0⟩]
        ∧ 1 ≤ dRows (oneBlock.recs.getD 0 Rec.initial).desc ∧ dRows (oneBlock.recs.getD 0 Rec.initial).desc ≤ 192)
      ∧ (let lonely := { ganger with wave := none }
         (engined lonely { mine with recs := twoRecs }).Clear lonely { aborts := true } ∧ lonely.wave = none ∧ (0 : BitVec 3).toNat < lonely.nbars
           ∧ ((engined lonely { mine with recs := twoRecs }).tile 0).mat.owner = some lonely.uid)
      ∧ (gangWave.num = 4 ∧ (⟨0, .a, 0⟩ : SlotId) ∈ gangWave.members ∧ mine.snap = none)
      ∧ (((engined ganger { mine with pending := some oneBlock }).tile 0).mat.running = none
        ∧ ((engined ganger { mine with pending := some oneBlock }).tile 0).mat.pending = some oneBlock)
      ∧ ((running.tile 0).mat.running = some oneBlock ∧ oneBlock.gang = [] ∧ running.opCanRun 0 oneBlock = true
        ∧ running.badNibble [(0, oneBlock)] (running.tile 0).mat.mprog = none ∧ dRows (oneBlock.recs.getD 1 Rec.initial).desc ≤ 32
        ∧ running.badWords = [] ∧ running.weakWords = [] ∧ (running.tile 0).mat.badPairs = []) :=
  ⟨fun _ => clear_of rfl rfl rfl rfl rfl rfl (.inr rfl), by decide +kernel, by decide +kernel, by decide +kernel, by decide +kernel,
    ⟨clear_of rfl rfl rfl rfl rfl rfl (.inr rfl), by decide +kernel⟩, by decide +kernel, by decide +kernel, by decide +kernel⟩

/-! ### Cells -/

/-- A cell of sheet 1 that is an input. -/
def inputCell (n : Nat) : Cell := ⟨n, 0, true, false, false, 0, 1, 1, 0, 0, 0, 0, 0x1000, 0x2000, 64, 0, [], [], [], none⟩

/-- A formula at the start of the text, for a task on tile 0's A-core, of one precedent. -/
def formula (p : Nat) : Formula := ⟨2, 0, [p], 0, 0, 7, 2, 0x40⟩

def formulaCell (n p : Nat) : Cell := { inputCell n with input := false, rank := 1, formula := some (formula p) }

/-- A launch whose image declares cells 8 to 11 of sheet 1. -/
def cellLaunch : Launch :=
  { lid := 7, cmd := 0, prio := 0, det := false, cls := 1, asid := 0, ending := false, status := 1
    image := ⟨0, 0, 0, 0, 4096, ⟨false, 0, 1, 0, 1, 32, 32, 0, 0, 0, 0, 0, some (1, 8, 4)⟩, [], true, true⟩
    waves := 1, lanes := 0, taskLanes := 0, lanePos := 0, cellbase := 0 }

/-- A strand of that launch, with a cell's number in s1 and an address in s2. -/
def cellStrand (a b : Word) : Strand := { holding a b (2 ^ 32) with lid := 7 }

/-- The device with that launch, a strand of it, some cells, sheet 1, and memory. -/
def sheeted (st : Strand) (cells : List Cell) (sh : Sheet) (mem : List Host.Cell) : State :=
  { lone st with
    tiles := [(0, { (lone st).tile 0 with resid := [⟨7, 0, 0, [], [16], [], 0, 0, 0⟩] })]
    launches := [cellLaunch]
    cells := cells
    sheets := [sh]
    mem := mem }

def sheet1 : Sheet := ⟨1, 5, 5, [], [], [], none⟩

/-- Cells 8 and 11, the first and the last that are declared, and 7 and 12 outside; a record that binds; a cell to open, to pin, to unpin; a
finished task; an empty batch. -/
theorem witness_CellWords :
    let x := inputCell 11
    let f := formulaCell 8 11
    let st := cellStrand 11 0x40
    let t := { cellStrand 8 0x40 with regs := { (cellStrand 8 0x40).regs with cellgen := 0x8000000800000005 } }
    let record : List Host.Cell := [(0x10047, 0x80), (0x10048, 1), (0x10050, 8)]
    let s := fun (st : Strand) (x : Cell) => sheeted st [x] sheet1 record
    let pinned := { x with pin0 := 1 }
    (∀ a b y u, u.priv = none → (s (cellStrand a b) y).Clear (cellStrand a b) u) ∧ (∀ y u, u.priv = none → (s t y).Clear t u)
      ∧ (st.tx = none ∧ st.chunk = none ∧ st.run = .ready ∧ (s st x).declared st = some (1, 8, 4)
        ∧ (st.rs 1).toNat % 2 ^ 24 = 11 ∧ 11 < 8 + 4 ∧ (s st x).cell? 11 = some x ∧ (s t f).cell? 8 = some f ∧ (st.rs 2).toNat % 64 = 0)
      ∧ (formulaBad [0x8000000000000000, 1, 8, 0, 0, 0, 0, 0] = false ∧ 1 / 2 ^ 63 = 0
        ∧ (s st x).inText 7 0 = true ∧ (s st x).holdsKind 0 7 2 = true)
      ∧ (x.input = true ∧ x.opened = false ∧ (s st x).shadowHeld x = false)
      ∧ (x.state = 0 ∧ (s st x).taskGen st x = none ∧ { x with pin0 := 65534 }.pins x.cur < 65535)
      ∧ (t.regs.cellgen.toNat / 2 ^ 32 = 2 ^ 31 + f.num ∧ (s t f).releaseWaits = false)
      ∧ ((s st pinned).cellWaits = [] ∧ (s st pinned).sheet? pinned.sheet = some sheet1 ∧ sheet1.seeds = [] ∧ pinned.buf0 ≠ pinned.buf1
        ∧ pinned.buf false = (cellStrand 11 0x1000).rs 2 ∧ 0 < pinned.pins false
        ∧ (s (cellStrand 11 0x1000) pinned).translate 0 0 false ((cellStrand 11 0x1000).rs 2) .read = .at_ ⟨thisDev, 0x11000⟩ leaf)
      ∧ ((st.rs 3).toNat / 2 ^ 32 % 2 ^ 12 = 1 ∧ 0 ≤ 64)
      ∧ (((cellStrand 7 0).rs 1).toNat % 2 ^ 24 < 8 ∧ 8 + 4 ≤ ((cellStrand 12 0).rs 1).toNat % 2 ^ 24) :=
  ⟨fun _ _ _ _ h => clear_of rfl rfl rfl rfl rfl rfl (.inr h), fun _ _ h => clear_of rfl rfl rfl rfl rfl rfl (.inr h), by decide +kernel⟩

/-- A strand of no launch that declares cells; a sheet that is not the declared one; a misaligned record. -/
theorem witness_CellWords_undeclared :
    let st := cellStrand 11 0x41
    let s := sheeted st [inputCell 11] sheet1 []
    let t := sheeted { st with lid := 6 } [inputCell 11] sheet1 []
    let u := { holding (2 ^ 32) 0x41 0 with lid := 7 }
    s.declared st = some (1, 8, 4) ∧ t.declared { st with lid := 6 } = none ∧ (∀ v, v.priv = none → t.Clear { st with lid := 6 } v)
      ∧ (st.rs 1).toNat / 2 ^ 32 % 2 ^ 12 ≠ 1 ∧ (∀ v, v.priv = none → (sheeted u [] sheet1 []).Clear u v)
      ∧ (u.rs 1).toNat / 2 ^ 32 % 2 ^ 12 = 1 ∧ (u.rs 2).toNat % 8 ≠ 0 ∧ (st.rs 2).toNat % 64 ≠ 0 :=
  ⟨by decide +kernel, by decide +kernel, fun _ h => clear_of rfl rfl rfl rfl rfl rfl (.inr h), by decide +kernel,
    fun _ h => clear_of rfl rfl rfl rfl rfl rfl (.inr h), by decide +kernel, by decide +kernel, by decide +kernel⟩

/-- What a read of a record gives, when it gives a value and changes nothing. -/
def readBack {α : Type} (s : State) : Got α → Option α
  | .got v t => if t = s then some v else none
  | .stop _ => none

theorem readBack_some {α : Type} {s : State} {g : Got α} {v : α} (h : readBack s g = some v) : g = .got v s := by
  cases g with
  | got w t =>
    simp only [readBack] at h
    split at h
    · rename_i e; cases h; rw [e]
    · cases h
  | stop _ => cases h

/-- The device of witness_CellWords with the record of a formula at address 0x40, and with none. -/
def recorded : State := sheeted (cellStrand 11 0x40) [inputCell 11] sheet1 [(0x10047, 0x80), (0x10048, 1), (0x10050, 8)]

def unrecorded : State := sheeted (cellStrand 11 0x40) [] sheet1 []

/-- The formula record of witness_CellWords, and the batch of no cells, as their strand reads them; reading changes nothing. -/
theorem witness_CellWords_records :
    recorded.recordParts ⟨0, .a, 0⟩ (cellStrand 11 0x40) 0x40 8 8 = .got [0x8000000000000000, 1, 8, 0, 0, 0, 0, 0] recorded
      ∧ unrecorded.recordPart ⟨0, .a, 0⟩ (cellStrand 11 0x40) 0x40 8 = .got 0 unrecorded
      ∧ unrecorded.recordParts ⟨0, .a, 0⟩ (cellStrand 11 0x40) (0x40 + 8) 4 0 = .got [] unrecorded :=
  ⟨readBack_some (by decide +kernel), readBack_some (by decide +kernel), readBack_some (by decide +kernel)⟩

/-- An edit that waits for its strand's cell; a batch of one opened cell; a task whose precedent is fresh; a finished task. -/
theorem witness_SluiceSteps :
    let x := { inputCell 11 with opened := true }
    let f := formulaCell 8 11
    let q : Seed := ⟨5, 1, 8, formula 11, false, false, false⟩
    let done := { q with released := true, taken := true, finished := true }
    let st := { cellStrand 8 0x40 with run := .held (.edit 8) }
    let edit := { sheet1 with ops := [.edit none 8 0 (some ⟨⟨0, .a, 0⟩, 0, 7⟩) none none] }
    let bind := { sheet1 with ops := [.edit (some (formula 11)) 8 0 (some ⟨⟨0, .a, 0⟩, 0, 7⟩) none none] }
    let batch := { sheet1 with ops := [.commit [11] none none none] }
    let s := fun (sh : Sheet) => sheeted st [f, x] sh []
    ((s batch).lags = [] ∧ (done :: []) = [done] ∧ st.uid = 0 ∧ ((s sheet1).tile 0).fenced = false) ∧ ((∀ sh ∈ [edit, bind, batch, { sheet1 with seeds := [q] }, { sheet1 with seeds := [done] }], (s sh).sheet? 1 = some sh)
        ∧ (s edit).judgeEdit edit none 8 none = none ∧ (s bind).judgeEdit bind (some (formula 11)) 8 none = none
        ∧ (s edit).strand? ⟨0, .a, 0⟩ = some st ∧ st.run = .held (.edit 8) ∧ st.chunk = none
        ∧ ((s edit).cell? 8).map (·.input) = some false ∧ (∃ l ∈ (s bind).launches, l.lid = (formula 11).lid ∧ l.ending = false))
      ∧ ((s batch).batchBad batch [11] = none ∧ batch.edits = [] ∧ (s batch).outfalls = [] ∧ (s batch).cellWaits = []
        ∧ (s batch).cell? 11 = some x ∧ x.formula = none)
      ∧ (([q].find? fun q => (s { sheet1 with seeds := [q] }).releasable { sheet1 with seeds := [q] } q) = some q
        ∧ ((s sheet1).tile (q.form.home / 4)).deque.length < 64)
      ∧ (done.finished = true ∧ (s { sheet1 with seeds := [done] }).cell? done.cell = some f) := by
  decide +kernel

/-- A batch that a strand and a command wait for, with an unbind and a bind that take effect with it. -/
theorem witness_SluiceSteps_edits :
    let x := { inputCell 11 with opened := true }
    let edits : List Edit := [⟨8, none, 0⟩, ⟨9, some (formula 11), 0x40⟩]
    let sh := { sheet1 with ops := [.commit [11] (some ⟨⟨0, .a, 0⟩, 0, 7⟩) (some 3) (some 0)], edits := edits }
    let st := { cellStrand 8 0x40 with run := .held (.edit 3), longs := [⟨3, ⟨false, 4⟩, false⟩] }
    let a : Access := { pending 3 (.load 8 false) ⟨thisDev, 0⟩ with dest := some ⟨false, 4⟩ }
    let s : State := { sheeted st [formulaCell 8 11, x, inputCell 9] sh [] with flight := [a], commands := [⟨0, 63, 0, 2, none, none, 4096⟩] }
    s.sheet? 1 = some sh ∧ s.batchBad sh [11] = none ∧ s.shadowWaits 11 = false ∧ s.lags = [] ∧ s.cellWaits = []
      ∧ (sh.edits.map (·.cell)).Nodup ∧ (s.cells.map (·.num)).Nodup ∧ s.strand? ⟨0, .a, 0⟩ = some st ∧ st.uid = 0 ∧ st.chunk = none
      ∧ s.flight.find? (fun b => b.id = 3) = some a ∧ (4 : Spec) ≠ 41 := by
  decide +kernel

/-! ### Strands, waves, tasks -/

/-- lone with tile 0 changed. -/
def onTile (st : Strand) (f : Tile → Tile) : State := { lone st with tiles := [(0, f ((lone st).tile 0))] }

def task (hops : Nat) : Task := ⟨7, .a, 0x40, .forked (Vector.replicate 8 3) hops, 0⟩

/-- A member of tile wave 4, which declares a barrier, and of row wave 4. -/
def waver : Strand := { Strand.initial with wave := some 4, nbars := 1 }

def tileWave : Wave := ⟨4, 0, false, [⟨0, .a, 0⟩, ⟨0, .a, 1⟩], [2], false⟩

/-- Tile barrier 2 with slot 0 a member, alone or with slot 1. -/
def atBarrier (mem : BitVec 24) : State :=
  { onTile waver fun t => { t with tbar := t.tbar.setIfInBounds 2 ⟨0, mem, 0, some 4, 0⟩ } with waves := [tileWave] }

/-- Row barrier 2 of row 0 in the same way, by columns. -/
def atRowBarrier (mem : BitVec 24) : State :=
  { lone waver with rows := [(0, gangRow mem)], waves := [gangWave] }

/-- A device on which every slot of tile 0's A-core holds a strand, and a task waits. -/
def crowded : State :=
  onTile Strand.initial fun t =>
    { t with strands := (List.range 8).map fun i => (16 + i, Strand.initial), deque := [task 0] }

/-- A launch with a strand on tile 0 that holds a slot on tile 1. -/
def spread (st : Strand) : State :=
  { lone st with tiles := [(0, (lone st).tile 0), (1, { Tile.initial with resid := [⟨7, 0, 0, [], [16], [], 0, 0, 0⟩] })] }

/-- A counter's decrement answered with the old value. -/
def joined (old : V128) : Access := { pending 5 .joinDec ⟨thisDev, 0x10108⟩ with done := true, value := old }

/-- The last free place of a deque; a counter; the answers 1 and 2; continuations to an odd address and to tile 1; exit with nothing and with a
stp in flight; yield with and without other work; the last and the first of two at a tile barrier and at a row barrier. -/
theorem witness_StrandWords :
    (∀ u, u.priv = none → (onTile Strand.initial fun t => { t with deque := List.replicate 63 (task 0) }).Clear Strand.initial u)
      ∧ ((onTile Strand.initial fun t => { t with deque := List.replicate 63 (task 0) }).tile 0).deque.length < 64
      ∧ (lone Strand.initial).fenceWaits ⟨0, .a, 0⟩ (fun _ => true) true 3 = false
      ∧ ((lone (holding 0x108 0 0)).translate 0 0 false 0x108 .rw = .at_ ⟨thisDev, 0x10108⟩ leaf ∧ (0x108 : Word).toNat % 8 = 0)
      ∧ (({ lone { Strand.initial with run := .held (.home 5) } with flight := [joined 1] } : State).flight.find? (fun e => e.id = 5) = some (joined 1)
        ∧ (joined 1).done = true ∧ (joined 1).value.setWidth 64 = (1 : Word) ∧ (joined 2).value.setWidth 64 ≠ (1 : Word))
      ∧ ((lone Strand.initial).drains Strand.initial = false
        ∧ ({ lone Strand.initial with flight := [pending 0 (.stp 1) ⟨thisDev, 0x10000⟩] } : State).drains Strand.initial = true)
      ∧ ((1 : Word).toNat % 4 ≠ 0 ∧ (spread { holding 4 0 0 with lid := 7 }).tileAt 0 1 = some 1
        ∧ (spread { holding 4 0 0 with lid := 7 }).holdsKind 1 7 2 = true)
      ∧ ((lone Strand.initial).slotWanted 0 0 .a = false ∧ crowded.slotWanted 0 0 .a = true
        ∧ (crowded.strand? ⟨0, .a, 0⟩).map (·.run) = some .ready)
      ∧ (let k : Strand := { Strand.initial with run := .held (.joined 2) }
         (lone k).drains k = false ∧ (lone k).strand? ⟨0, .a, 0⟩ = some k) :=
  ⟨fun _ h => clear_of rfl rfl rfl rfl rfl rfl (.inr h), by decide +kernel, by decide +kernel, by decide +kernel, by decide +kernel,
    by decide +kernel, by decide +kernel, by decide +kernel, by decide +kernel⟩

/-- A barrier's conditions. -/
theorem witness_StrandWords_barriers :
    (∀ mem u, u.priv = none → (atBarrier mem).Clear waver u ∧ (atRowBarrier mem).Clear waver u)
      ∧ ((atBarrier 0x30000).barOf waver false 0 = some 2 ∧ (atBarrier 0x30000).barWaits 0 = false
        ∧ ((atBarrier 0x30000).tile 0).tbar[2]? = some ⟨0, 0x30000, 0, some 4, 0⟩ ∧ (1 : BitVec 24) <<< 16 ≠ 0x30000)
      ∧ ((atBarrier 0x10000).barOf waver false 0 = some 2 ∧ ((atBarrier 0x10000).tile 0).tbar[2]? = some ⟨0, 0x10000, 0, some 4, 0⟩
        ∧ (1 : BitVec 24) <<< 16 = 0x10000)
      ∧ ((atRowBarrier 3).barOf waver true 0 = some 2 ∧ (atRowBarrier 3).barWaits 1 = false
        ∧ ((atRowBarrier 3).rowAt ((atRowBarrier 3).tileRow 0)).bars[2]? = some ⟨0, 3, 0, some 4, 0⟩
        ∧ (atRowBarrier 3).waves.find? (fun v => v.num = 4) = some gangWave ∧ ⟨0, .a, 0⟩ ∈ gangWave.members
        ∧ (1 : BitVec 24) <<< (atRowBarrier 3).tileCol 0 ≠ 3 ∧ (1 : BitVec 24) <<< (atRowBarrier 1).tileCol 0 = 1) :=
  ⟨fun _ _ h => ⟨clear_of rfl rfl rfl rfl rfl rfl (.inr h), clear_of rfl rfl rfl rfl rfl rfl (.inr h)⟩, by decide +kernel, by decide +kernel,
    by decide +kernel⟩

/-- A wave record of one A-core strand at the start of the text. -/
def waveRecord : State := sheeted (cellStrand 0x40 0) [] sheet1 [(0x10048, 1)]

theorem witness_StrandWords_gang :
    waveRecord.Clear (cellStrand 0x40 0) { srcs := [(0, false, 1)], access := true, aborts := true }
      ∧ waveRecord.recordParts ⟨0, .a, 0⟩ (cellStrand 0x40 0) 0x40 8 10 = .got [0, 1, 0, 0, 0, 0, 0, 0, 0, 0] waveRecord
      ∧ waveRecord.waveBad (cellStrand 0x40 0) [0, 1, 0, 0, 0, 0, 0, 0, 0, 0] = false :=
  ⟨clear_of rfl rfl rfl rfl rfl rfl (.inr rfl), readBack_some (by decide +kernel), by decide +kernel⟩

/-- A request for a wave of one strand, and a place for it in slot 0 of tile 0's A-core with its stack at the end of the scratchpad. -/
def request : WaveReq := ⟨9, 7, 0x40, Vector.replicate 8 5, 0, false, 0, 0, 0, 1, none, (0, 131), none, 0⟩

def place : Placement := ⟨[⟨⟨0, .a, 0⟩, 0xFFFC0⟩], [⟨0, 0, [], []⟩], []⟩

def stackLaunch : Launch :=
  { cellLaunch with image := { cellLaunch.image with header := { cellLaunch.image.header with stackInit := 64, stackReserve := 64 } } }

/-- No strand anywhere; launch 7 waits for its wave. -/
def waiting : State := { State.reset with launches := [stackLaunch], waveReqs := [request] }

/-- Launch 7 holds slot 0 of tile 0's A-core, which is empty, and a task waits for it. -/
def idle (d : List Task) : State :=
  { waiting with
    waveReqs := []
    tiles := [(0, { Tile.initial with deque := d, resid := [⟨7, 0, 0, [], [16], [], 0, 0, 0⟩] }),
      (1, { Tile.initial with resid := [⟨7, 0, 0, [], [16], [], 0, 0, 0⟩] })] }

theorem witness_SchedulingSteps :
    (waiting.waveReqs.find? (fun r => r.num = request.num) = some request ∧ waiting.launch? request.lid = some stackLaunch
        ∧ waiting.placeOk request stackLaunch place = true ∧ request.argkind = 0)
      ∧ (((idle [task 0]).tile 0).resid = [⟨7, 0, 0, [], [16], [], 0, 0, 0⟩] ∧ (idle [task 0]).slotFree 7 ⟨0, .a, 0⟩ = true
        ∧ ((idle [task 0]).tile 0).nextTask 7 .a = some (task 0) ∧ (idle [task 0]).launch? 7 = some stackLaunch
        ∧ stackLaunch.ending = false ∧ padRange (0xFFFC0, 0xFFFC0 + 64) = true
        ∧ ((idle [task 0]).takenRanges 0 7).all (apart (0xFFFC0, 0xFFFC0 + 64)) = true)
      ∧ (((idle (List.replicate 64 (task 0))).tile 0).deque.length = 64
        ∧ ({ idle [] with transit := [(0, task 0)] } : State).transit[0]? = some (0, task 0)
        ∧ ((idle [] : State).tile 0).fenced = false)
      ∧ (0 ≠ 1 ∧ 1 ∈ (idle [task 3, task 0]).neighbours 0 ∧ ((idle [task 3, task 0]).tile 1).fenced = false
        ∧ ((idle [task 3, task 0]).tile 1).load .a + 2 ≤ ((idle [task 3, task 0]).tile 0).load .a
        ∧ (task 3).hops < 4 ∧ (idle [task 3, task 0]).holdsKind 1 7 2 = true
        ∧ (idle [task 3, task 0]).bestNeighbour 0 1 .a (task 3) = true) := by
  decide +kernel

def preempted : Strand := { Strand.initial with run := .preempted none }

/-- A member of wave 4 that has been spilled, and of wave 3 in whose slot it stood. -/
def spilledOne : Spilled := ⟨⟨0, .a, 0⟩, 0x40, { Strand.initial with wave := some 4, uid := 1 }, none⟩

def late : State :=
  { lone { Strand.initial with wave := some 3 } with
    waves := [⟨3, 0, false, [⟨0, .a, 0⟩], [], false⟩, ⟨4, 0, false, [⟨0, .a, 0⟩], [], true⟩]
    spills := [spilledOne] }

/-- A strand of launch 0, and a wave of eight A-core strands of launch 8, which has priority 1, waiting. -/
def wanting (st : Strand) : State :=
  { lone st with
    waveReqs := [{ request with lid := 8, na := 8, rows := (0, 0), origin := some 0 }]
    launches := [{ stackLaunch with lid := 8, prio := 1 }] }

/-- Requests to pre-empt, and their effect; a spill; a deadline that has passed. -/
theorem witness_PreemptionSteps :
    ((wanting Strand.initial).strand? ⟨0, .a, 0⟩ = some Strand.initial ∧ Strand.initial.sup = false ∧ Strand.initial.run = .ready
        ∧ Strand.initial.tx = none ∧ Strand.initial.preReq = false ∧ (wanting Strand.initial).ctl.ckpt = none ∧ (wanting Strand.initial).displaced ⟨0, .a, 0⟩ Strand.initial = true
        ∧ (wanting Strand.initial).waveOf ⟨0, .a, 0⟩ Strand.initial = [⟨0, .a, 0⟩]
        ∧ (lone { Strand.initial with preReq := true }).strand? ⟨0, .a, 0⟩ = some { Strand.initial with preReq := true })
      ∧ ((wanting preempted).strand? ⟨0, .a, 0⟩ = some preempted ∧ preempted.run = .preempted none ∧ preempted.longs = []
        ∧ (wanting preempted).waveOut preempted = true ∧ ((wanting preempted).tile 0).mat.owner ≠ some preempted.uid
        ∧ (wanting preempted).spills = [] ∧ (wanting preempted).spillDue ⟨0, .a, 0⟩ preempted = true
        ∧ (wanting preempted).areaFree 0x40 0x1B00 = true)
      ∧ (late.strand? ⟨0, .a, 0⟩ = some { Strand.initial with wave := some 3 } ∧ (∃ p ∈ late.spills, p.strand.wave = some 4 ∧ p.at_ = ⟨0, .a, 0⟩)
        ∧ (∀ u ∈ late.waves, u = ⟨3, 0, false, [⟨0, .a, 0⟩], [], false⟩ ∨ u.spilled = true)) := by
  decide +kernel

/-- A matrix owner that has left the rotation while its wave's slots are wanted. -/
theorem witness_PreemptionSteps_owner :
    let w := wanting preempted
    let t := w.tile 0
    let s : State := { w with tiles := [(0, { t with mat := { t.mat with owner := some preempted.uid } })] }
    s.strand? ⟨0, .a, 0⟩ = some preempted ∧ s.waveOut preempted = true ∧ s.spills = [] ∧ s.spillDue ⟨0, .a, 0⟩ preempted = true
      ∧ (s.tile 0).mat.owner = some preempted.uid ∧ s.areaFree 0x40 0xDC00 = true := by
  decide +kernel

/-- Wave 4, whose member in slot 0 has yielded to a task that waits. -/
def offered : State :=
  { State.reset with
    tiles := [(0, { Tile.initial with strands := [(16, { preempted with wave := some 4, yielded := true }), (17, waver)], deque := [task 3] })]
    waves := [tileWave] }

theorem witness_PreemptionSteps_yield :
    offered.strand? ⟨0, .a, 1⟩ = some waver ∧ waver.sup = false ∧ waver.run = .ready ∧ waver.tx = none ∧ waver.preReq = false
      ∧ offered.yieldedWave ⟨0, .a, 1⟩ waver = true := by decide +kernel

/-- The same from an M-core. -/
def spilledTwo : Spilled := ⟨⟨0, .m, 1⟩, 0x40, { holding 1 0 0 with wave := some 4, uid := 1 }, none⟩

/-- A strand that was spilled, the bytes of its block as they were saved or overwritten. -/
def gone (m : List Host.Cell) (ev : List Evicted) : State := { State.reset with spills := [spilledTwo], mem := m, evicted := ev }

/-- What was written to a block is read back from it. -/
theorem gone_block (bs : List Byte) : (gone (memSetBytes [] 0x40 bs) []).readBytes 0x40 bs.length = bs := memBytes_memSetBytes rfl 0x40 bs

/-- An eviction of the spilled strand's launch from tile 0. -/
def ousted : Evicted := ⟨0, ⟨0, 0, 64, [], [16], [], 0, 0, 0⟩, 0x4000, []⟩

/-- A return to the slot, from an untouched block and from an overwritten one, with the launch's place there or saved; and an eviction for launch
8, which finds no room for its stack. -/
theorem witness_PreemptionSteps_returns :
    ((∀ m ev, (gone m ev).strand? ⟨0, .m, 1⟩ = none ∧ ((gone m ev).tile 0).fenced = false ∧ ((gone m ev).tile 0).testing = false)
        ∧ (∀ m ev, (gone m ev).spills.find? (fun q => q.at_ = ⟨0, .m, 1⟩ && q.strand.uid = spilledTwo.strand.uid) = some spilledTwo)
        ∧ spilledTwo.mat = none)
      ∧ (gone (memSetBytes [] 0x40 spilledTwo.block) []).readBytes 0x40 spilledTwo.block.length = spilledTwo.block
      ∧ (gone [] []).readBytes 0x40 spilledTwo.block.length ≠ spilledTwo.block
      ∧ (ousted.tile = 0 ∧ ousted.res.lid = spilledTwo.strand.lid ∧ (gone [] [ousted]).canReturn ousted = true)
      ∧ (let r : Resident := ⟨7, 0, 0xFFFE0, [], [], [], 0, 0, 0⟩
         let s : State := { wanting Strand.initial with
           launches := [stackLaunch, { stackLaunch with lid := 8, prio := 1 }]
           tiles := [(0, { Tile.initial with resid := [r] })] }
         s.residOf 0 7 = some r ∧ (∀ p ∈ (s.tile 0).strands, p.2.lid ≠ 7) ∧ (∀ q ∈ s.tiles, ∀ c ∈ q.2.chans.toList, ∀ t ∈ c.queue, t.lid ≠ 7 ∧ s.writesInto q.1 0 r t = false)
           ∧ s.padWanted 0 7 = true ∧ ({ s with prothi := 0x400000 } : State).areaFree 0x40 r.savedSize = true) :=
  ⟨⟨fun _ _ => ⟨rfl, rfl, rfl⟩, fun _ _ => rfl, rfl⟩, gone_block _,
    fun h => absurd (congrArg (fun l : List Byte => l.getD 8 0) h) (by decide +kernel), by decide +kernel, by decide +kernel⟩

/-! ### The network -/

/-- A record of group 1 with destination tile 0 and the rectangle of that tile alone, or of tiles 0 and 1, its result at 0x80 and its status at 0x100. -/
def rec0 : Word := 0x0000000100010000
def rec1 (colHi : Nat) : Word := BitVec.ofNat 64 (colHi * 2 ^ 40 + 0x80 * 2 ^ 20 + 0x100)

/-- A sender with its payload at 0 and its record at 0x80, of a region of 256 bytes. -/
def sender : Strand := { holding 0 0x80 0 with regs := { (holding 0 0x80 0).regs with padhi := 0xFF } }

/-- Its device, with the record in its scratchpad; with a reserved bit set; with no time. -/
def sending (m : List Host.Cell) : State := { lone sender with mem := m }

def goodRecord : List Host.Cell := [(0x10000000082, 1), (0x10000000084, 1), (0x10000000089, 1), (0x1000000008B, 8)]
/-- The same with its destination at column 12, which is fused off. -/
def farRecord : List Host.Cell := [(0x10000000082, 1), (0x10000000084, 1), (0x10000000085, 0xC0), (0x10000000089, 1), (0x1000000008B, 8), (0x1000000008D, 0x0C)]
def badRecord : List Host.Cell := [(0x10000000080, 1)]

theorem witness_Network_words :
    (∀ l, (sending l).Clear sender { srcs := [(0, false, 1), (1, false, 2)], access := true, aborts := true })
      ∧ (∀ l, (sending l).Clear sender { useAB 41 1 2 with aborts := true })
      ∧ ((sender.rs 1).toNat % 128 = 0 ∧ (sender.rs 2).toNat % 8 = 0 ∧ (sending goodRecord).padAddr ⟨0, .a, 0⟩ sender (sender.rs 1) 128 = .ok 0
        ∧ (sending goodRecord).padAddr ⟨0, .a, 0⟩ sender (sender.rs 2) 16 = .ok 0x80)
      ∧ ((sending goodRecord).readWord ((sending goodRecord).padBase 0 + 0x80) = rec0
        ∧ (sending goodRecord).readWord ((sending goodRecord).padBase 0 + 0x88) = rec1 0
        ∧ (sending goodRecord).recordBad 0 false rec0 (rec1 0) = none ∧ (sending goodRecord).tileAt (recRow rec0) (recCol rec0) = some 0)
      ∧ (let w0 := (sending farRecord).readWord ((sending farRecord).padBase 0 + 0x80)
         let w1 := (sending farRecord).readWord ((sending farRecord).padBase 0 + 0x88)
         (sending farRecord).recordBad 0 false w0 w1 = none ∧ (sending farRecord).tileAt (recRow w0) (recCol w0) = none)
      ∧ (∀ l, sound (sending l) ((sending l).padBase 0 + 0x80) 16)
      ∧ (0x000000000000FFFF &&& 0x7F000F000000FFFF ≠ (0 : Word) ∧ (sending badRecord).recordBad 0 false 1 0 = some 0x50)
      ∧ (0 &&& 0x7F000F000000FFFF = (0 : Word) ∧ (sending []).recordBad 0 false 0 0 = some 0x51
        ∧ (sending []).recordBad 0 true 0x0000000000010000 0 = some 0x50 ∧ (sending []).recordBad 0 true 0 0 = none) :=
  ⟨fun _ => clear_of rfl rfl rfl rfl rfl rfl (.inr rfl), fun _ => clear_of rfl rfl rfl rfl rfl rfl (.inr rfl), by decide +kernel,
    by decide +kernel, by decide +kernel, fun _ => sound_of, by decide +kernel, by decide +kernel⟩

/-- A contribution at the router of a place. -/
def contribution (send : Bool) (w1 : Word) (src : Nat) (at_ : Nat × Nat) : Packet :=
  ⟨3, send, rec0, w1, 0, src, at_, 0, ⟨src, .a, 0⟩, 0, 0, 0, none, 0, none⟩

/-- A destination at column 2 for a chain of three tiles, whose middle router holds the low side's sum. -/
def rec0c : Word := 0x0000200100010000

def middle : RNode := ⟨0, 1, (0, 1), rec0c, rec1 2, 0, [(1, 0)]⟩

def middlePacket : Packet := { contribution false (rec1 2) 1 (0, 1) with rec0 := rec0c }

def routing (n : List RNode) (p : List Packet) (g : List RGroup) : State := { lone Strand.initial with rnodes := n, packets := p, rgroups := g }

/-- The group of the chain, of which the tiles of a list have sent and been kept. -/
def chain (sent : List Nat) (senders : List (Nat × Sender)) (failed : Option Word) : RGroup :=
  ⟨0, 1, 0, [0, 1, 2], sent, sent, senders, [], failed, false⟩

theorem witness_Network_routers :
    (let p := contribution false (rec1 0) 0 (0, 0)
     let s := routing [] [p] []
     s.packets.find? (fun q => q.idx = p.idx && !q.send) = some p ∧ p.input = 0 ∧ sound s (s.padBase p.src + p.pay) 128
        ∧ s.tileAt 0 0 = some 0 ∧ (s.tile 0).testing = false ∧ s.inputsOf p.rec0 p.rec1 p.place = [0]
        ∧ s.nextRouter p.rec0 p.rec1 p.place = none ∧ s.tileAt (recRow p.rec0) (recCol p.rec0) = some 0 ∧ s.rnodes = [] ∧ s.redWords = []
        ∧ s.region (s.padBase 0 + recData p.rec1) = .pad 0 0x80 ∧ s.region (s.padBase 0 + recStatus p.rec1) = .pad 0 0x100)
      ∧ (let s := routing [middle] [middlePacket] [chain [0] [] none]
         s.packets.find? (fun q => q.idx = middlePacket.idx && !q.send) = some middlePacket
        ∧ (∀ g ∈ s.rgroups, g.failed = none ∧ g.broken = false ∧ middlePacket.src ∉ g.came)
        ∧ s.rnodes.find? (fun n => n.die = s.tileDie middlePacket.src && n.group = recGroup middlePacket.rec0 && n.place = middlePacket.place)
          = some middle
        ∧ s.inputsOf rec0c (rec1 2) (0, 1) = [0, 1] ∧ s.nextRouter rec0c (rec1 2) (0, 1) = some ((0, 2), 1)
        ∧ s.tileAt 0 1 = some 1 ∧ (s.tile 1).testing = false) :=
  ⟨⟨by decide +kernel, by decide +kernel, sound_of, by decide +kernel⟩, by decide +kernel⟩

/-- A packet of tile 1 that comes after its group has failed, and one that comes twice; a time that has run out with tile 2's packet to come,
under a record whose destination, tile 2, has sent nothing, and under one whose destination, tile 0, has. -/
theorem witness_Network_failures :
    (let g := chain [0] [] (some 2)
     let s := routing [middle] [middlePacket] [g]
     s.rnodes.any (fun n => n.die = 0 && n.group = 1 && n.place = middlePacket.place) = true ∧ middlePacket.input = 0 ∧ middlePacket.cmd = none
        ∧ s.tileAt 0 1 = some 1 ∧ (s.tile 1).testing = false ∧ s.failedGroup? (s.tileDie 1) (recGroup middlePacket.rec0) 1 = some g)
      ∧ (let g := chain [0, 1] [] none
         let s := routing [middle] [middlePacket] [g]
         s.failedGroup? (s.tileDie 1) (recGroup middlePacket.rec0) 1 = none ∧ s.group? 0 1 = some g ∧ 1 ∈ g.came)
      ∧ (let g := chain [0] [(0, ⟨⟨0, .a, 0⟩, 0, 0, 0⟩)] none
         let s := routing [middle] [] [g]
         s.rnodes.find? (fun n => n.die = 0 && n.group = 1 && n.place = (1 / 16, 1 % 16)) = some middle ∧ s.group? 0 1 = some g
        ∧ g.cmds = [] ∧ s.packets = [] ∧ s.tileAt (recRow middle.rec0) (recCol middle.rec0) = some 2 ∧ s.redWords = []
        ∧ s.region (s.padBase 2 + recStatus middle.rec1) = .pad 2 0x100 ∧ (∃ k ∈ g.due, k ∉ g.sent) ∧ assocGet g.senders 2 = none)
      ∧ (let g := chain [0] [(0, ⟨⟨0, .a, 0⟩, 0, 0, 0⟩)] none
         let n := { middle with rec0 := rec0, rec1 := rec1 0 }
         let s := routing [n] [] [g]
         s.rnodes.find? (fun n => n.die = 0 && n.group = 1 && n.place = (1 / 16, 1 % 16)) = some n ∧ s.group? 0 1 = some g
        ∧ s.tileAt (recRow n.rec0) (recCol n.rec0) = some 0 ∧ s.region (s.padBase 0 + recStatus n.rec1) = .pad 0 0x100
        ∧ assocGet g.senders 0 = some ⟨⟨0, .a, 0⟩, 0, 0, 0⟩ ∧ s.strand? ⟨0, .a, 0⟩ = some Strand.initial ∧ Strand.initial.uid = 0) := by
  decide +kernel

/-- A send, and one behind an earlier send of its strand to the same tile. -/
theorem witness_Network_sends :
    let p := contribution true (rec1 0) 0 (0, 0)
    let q := { p with idx := 2 }
    let s := routing [] [p] []
    let t := routing [] [p, q] []
    (s.packets.find? (fun k => k.idx = p.idx && k.send) = some p ∧ s.tileAt 0 0 = some 0 ∧ s.redWords = [] ∧ (s.tile 0).testing = false
        ∧ sound s (s.padBase p.src + p.pay) 128 ∧ s.region (s.padBase 0 + recData p.rec1) = .pad 0 0x80
        ∧ s.region (s.padBase 0 + recStatus p.rec1) = .pad 0 0x100)
      ∧ (∀ k ∈ s.packets, k.send = true → k.uid = p.uid → k.place = p.place → p.idx ≤ k.idx)
      ∧ t.packets.find? (fun k => k.idx = p.idx && k.send) = some p
      ∧ ∃ k ∈ t.packets, k.send = true ∧ k.uid = p.uid ∧ k.place = p.place ∧ k.idx < p.idx :=
  ⟨⟨by decide +kernel, by decide +kernel, rfl, by decide +kernel, sound_of, by decide +kernel, by decide +kernel⟩, by decide +kernel,
    by decide +kernel, by decide +kernel⟩

/-! ### Serving -/

/-- Page tables at 0 whose one leaf maps the first GiB to itself, for a user. -/
def tables : List Host.Cell := [(0, 1), (1, 0x10), (0x1000, 0x3F), (0x1005, 0xF0), (0x1006, 0xFF)]

/-- A queue of handle 5 with its slots at 0x20000 and its doorbell at 0x20100. -/
def queue5 (nslot : Nat) (msgs : List (List Byte)) : SvcQueue := ⟨5, 0, 0, 9, 0x20100, 0x20000, 2, nslot, msgs⟩

/-- Cell 11 with its buffers past the protected range. -/
def replyCell : Cell := { inputCell 11 with buf0 := 0x10000, buf1 := 0x10040 }

/-- A device with the queue, the cell, and in the cell's header handle 5 and slot 0, and in the slot the cell. -/
def serving (q : SvcQueue) (o : List Outfall) : State :=
  { lone (holding 11 12 0) with
    mem := tables ++ [(0x10002, 5), (0x20008, 11)]
    cells := [replyCell, formulaCell 12 11]
    sheets := [sheet1]
    svcQueues := [q]
    outfalls := o
    sendQueues := [0] }

def attached (held : List Byte) : Outfall := ⟨11, 5, 0, 0, 0, false, [false], held⟩

/-- How the engines that serve it translate, and the device as a walk for two bytes of its cell leaves it. -/
def via : Via := ⟨0, 0, false⟩

def touched (s : State) : State := s.vaTouch via 0x10000 4 .read

/-- Walks of another address space in all the walkers of the die. -/
def busyWalkers : List Miss := (List.range 64).map fun i => ⟨0, 7, 0, 2 ^ 40 * i, .read, ⟨0, .a, 0⟩, 0, true, true⟩

/-- intk; outf of a cell that is not there, of a formula, of one attached, of one without its queue, past the queue's slots, and of one that attaches. -/
theorem witness_Serving_words :
    (∀ q o u, u.priv = none → (serving q o).Clear (holding 11 12 0) u)
      ∧ (31 : Spec) ≠ 41 ∧ (serving (queue5 1 []) []).cell? 13 = none ∧ (formulaCell 12 11).input = false
      ∧ (serving (queue5 1 []) []).cell? (((holding 11 12 0).rs 2).toNat % 2 ^ 24) = some (formulaCell 12 11)
      ∧ (serving (queue5 1 []) []).cell? (((holding 11 12 0).rs 1).toNat % 2 ^ 24) = some replyCell ∧ replyCell.input = true
      ∧ (serving (queue5 1 []) []).attachReaches (holding 11 12 0) 11 = true
      ∧ ({ serving (queue5 1 []) [] with walks := busyWalkers } : State).attachReaches (holding 11 12 0) 11 = false
      ∧ replyCell.pins replyCell.cur < 65535 ∧ { replyCell with pin0 := 65535 }.pins replyCell.cur = 65535
      ∧ (∃ o ∈ (serving (queue5 1 []) [attached []]).outfalls, o.cell = 11) ∧ (serving (queue5 1 []) []).outfalls = []
      ∧ (touched (serving (queue5 1 []) [])).vaNat via (replyCell.buf replyCell.cur).toNat 4 = 5 * 2 ^ 16 ∧ (serving (queue5 1 []) []).redWords = []
      ∧ (serving { queue5 1 [] with handle := 6 } []).svcQueue 5 0 = none ∧ (serving (queue5 1 []) []).svcQueue 5 0 = some (queue5 1 [])
      ∧ (queue5 0 []).nslot ≤ 0 ∧ 0 < (queue5 1 []).nslot
      ∧ (touched (serving (queue5 1 []) [])).vaNat via (0x20000 + 64 * 0 + 8) 8 % 2 ^ 24 = 11 :=
  ⟨fun _ _ _ h => clear_of rfl rfl rfl rfl rfl rfl (.inr h), by decide +kernel⟩

/-- A queue that is full, and one with one place left. -/
theorem witness_Serving_messages :
    (serving (queue5 1 [[], []]) []).svcQueue 5 0 = some (queue5 1 [[], []]) ∧ (queue5 1 [[], []]).depth ≤ (queue5 1 [[], []]).msgs.length
      ∧ (serving (queue5 1 [[]]) []).svcQueue 5 0 = some (queue5 1 [[]]) ∧ (queue5 1 [[]]).msgs.length < (queue5 1 [[]]).depth
      ∧ (serving (queue5 1 [[]]) []).vaLoc ⟨0, 0, false⟩ 0x20100 .rw = some ⟨thisDev, 0x20100⟩ ∧ (serving (queue5 1 [[]]) []).region 0x20100 = .hbm
      ∧ (serving (queue5 1 [[]]) []).engineTile = 0 ∧ (serving (queue5 1 [[]]) []).reaches ⟨0, 0, false⟩ 0x20100 8 .rw = true
      ∧ (serving (queue5 1 [[]]) []).redWords = [] := by decide +kernel

/-- A request with fifteen ids for a prompt of sixteen words. -/
def job15 : IntkJob := ⟨0, 11, 0, 0x20000, 0, 9, none, false, List.replicate 15 3⟩

def request3 : IntkReq := ⟨3, 5, 0, 0, false, none⟩

/-- Eight requests that engines have taken. -/
def engines8 : List IntkReq := List.replicate 8 { request3 with id := 4, job := some job15 }

def taking (q : SvcQueue) (r : IntkReq) : State := { serving q [] with intkReqs := [r] }

/-- That request taken; and requests with no queue, no message, and a slot that the queue does not have. -/
theorem witness_Serving_intake :
    (taking (queue5 1 []) request3).intkReqs[0]? = some request3 ∧ request3.job = none ∧ (taking (queue5 1 []) request3).intakeFree = true
      ∧ ({ taking (queue5 1 []) request3 with intkReqs := request3 :: engines8 } : State).intakeFree = false
      ∧ (taking (queue5 1 []) { request3 with handle := 6 }).svcQueue 6 0 = none
      ∧ (taking (queue5 1 []) request3).svcQueue 5 0 = some (queue5 1 []) ∧ (queue5 1 []).msgs = []
      ∧ ((taking (queue5 0 [[]]) request3).svcQueue 5 0 = some (queue5 0 [[]]) ∧ (queue5 0 [[]]).msgs = [] :: []
        ∧ (queue5 0 [[]]).nslot ≤ msgWord [] 0 % 2 ^ 16)
      ∧ ((taking (queue5 1 []) { request3 with job := some job15 }).cell? job15.cell = some replyCell ∧ replyCell.input = true
        ∧ replyCell.opened = false ∧ (taking (queue5 1 []) request3).shadowHeld replyCell = false
        ∧ (taking (queue5 1 []) request3).sheet? replyCell.sheet = some sheet1 ∧ sheet1.ops = [] ∧ sheet1.edits = []
        ∧ (taking (queue5 1 []) request3).cellWaits = [] ∧ (taking (queue5 1 []) request3).outfalls = []
        ∧ job15.msg = none ∧ (taking (queue5 1 []) request3).lags = []
        ∧ (taking (queue5 1 []) request3).reaches ⟨0, 0, false⟩ (replyCell.buf (!replyCell.cur)).toNat replyCell.bytes .write = true
        ∧ (taking (queue5 1 []) request3).reaches ⟨0, 0, false⟩ (0x20000 + 64 * 0) 64 .read = true
        ∧ sheet1.gen < 2 ^ 32 - 1 ∧ 1 + job15.ids.length ≤ replyCell.bytes / 4)
      ∧ { replyCell with opened := true }.opened = true := by decide +kernel

/-- A version of no ids, with the last ASCII byte held back. -/
theorem witness_Serving_outfall :
    (serving (queue5 1 []) [attached [0x7F]]).outfalls.find? (fun k => k.cell = 11) = some (attached [0x7F])
      ∧ (serving (queue5 1 []) [attached [0x7F]]).cell? 11 = some replyCell ∧ (attached [0x7F]).todo = false :: []
      ∧ (serving (queue5 1 []) [attached [0x7F]]).cellWaits = []
      ∧ (serving (queue5 1 []) [attached [0x7F]]).redWords = []
      ∧ (touched (serving (queue5 1 []) [attached [0x7F]])).vaNat via ((replyCell.buf false).toNat + 4) 4 = 0
      ∧ (let s := serving (queue5 1 []) [attached [0x7F]]
         s.reaches via (replyCell.buf false).toNat replyCell.bytes .read = true ∧ s.svcQueue 5 0 = some (queue5 1 [])
           ∧ s.reaches via 0x20000 64 .rw = true ∧ s.vaNat via (0x20000 + 8) 8 / 2 ^ 32 = 0 ∧ s.cell? 0 = none
           ∧ s.reaches via (s.vaNat via (0x20000 + 56) 8 % 2 ^ 56) 0 .read = true)
      ∧ ∀ x ∈ (attached [0x7F]).held, x.toNat < 0x80 := by decide +kernel

/-! ### Rings and commands -/

/-- Ring 63 with its slots at 0x40, eight of them, enabled. -/
def ring63 (tail : BitVec 32) (slots : List (BitVec 32 × List Word)) : CmdRing :=
  ⟨63, 0x8300000000000040, 0, tail, 0, 0, 0, slots, []⟩

def ringed (r : CmdRing) : State := { State.reset with cmdRings := [r] }

/-- A record that counts to 2 for ring 63, at 0 or at 1. -/
def counter (c : Word) : Turnout := ⟨0xCFC0000000000007, 0x200000000 + c, Vector.replicate 8 0⟩

/-- The record is the only one of its die with its tag, and counts for ring 63. -/
def counts (c : Word) : Bool :=
  decide ((counter c).thresh ≠ 0) && (counter c).armed && (counter c).v && decide ((counter c).ringNo = 63)
    && decide ([(1023, counter c)].filter (fun p => p.1 / 1024 = 0 && p.2.v && p.2.tag = 7) = [(1023, counter c)])

/-- The last free slot and a full ring; a ring that is off; tickets committed once and twice, and one never given; a record that counts and
one that fires. -/
theorem witness_RingsAndTurnouts :
    63 < 64
      ∧ ((ringed (ring63 7 [])).ring 63).on = true ∧ (((ringed (ring63 7 [])).ring 63).tail - ((ringed (ring63 7 [])).ring 63).head).toNat < 2 ^ 3
      ∧ ((ringed (ring63 7 [])).ring 63).lsize = 3
      ∧ 2 ^ 3 ≤ (((ringed (ring63 8 [])).ring 63).tail - ((ringed (ring63 8 [])).ring 63).head).toNat
      ∧ ((ringed { ring63 7 [] with rcfg := 0 }).ring 63).on = false
      ∧ ((6 : BitVec 32) - (ring63 7 []).head).toNat < ((ring63 7 []).tail - (ring63 7 []).head).toNat
      ∧ (∀ p ∈ (ring63 7 [(5, [])]).slots, p.1.toNat % 2 ^ 3 ≠ (6 : BitVec 32).toNat % 2 ^ 3)
      ∧ (¬ ∀ p ∈ (ring63 7 [(6, [])]).slots, p.1.toNat % 2 ^ 3 ≠ (6 : BitVec 32).toNat % 2 ^ 3)
      ∧ ((ring63 7 []).tail - (ring63 7 []).head).toNat ≤ ((7 : BitVec 32) - (ring63 7 []).head).toNat
      ∧ (ring63 7 []).rcfg.getLsbD 63 = true ∧ ({ ring63 7 [] with rcfg := 0 } : CmdRing).rcfg.getLsbD 63 = false
      ∧ counts 0 = true ∧ counts 1 = true ∧ (7 : BitVec 32) ≠ 0
      ∧ (counter 0).count + 1 < (counter 0).thresh ∧ (counter 1).count + 1 = (counter 1).thresh
      ∧ (ringed { ring63 7 [] with firings := [(1023, [])] }).cmdRings.findSome?
          (fun q => (q.firings.find? fun f => f.1 = 1023).map fun f => (q.num, f)) = some (63, (1023, [])) := by decide +kernel

/-- A device that runs, with page tables, whose ring 63 holds one command at its head, of a supervisor's ring or of a user's. -/
def commanding (w : List Word) (priv : Bool) : State :=
  { State.reset with
    ctl := { Ctl.initial with ready := true }
    mem := tables ++ [(0x10000, 3)]
    cmdRings := [{ ring63 1 [(0, w)] with rcfg := if priv then 0xC300000000000040 else 0x8300000000000040 }]
    cells := [replyCell, formulaCell 12 11]
    sheets := [sheet1]
    launches := [cellLaunch] }

/-- A command with its eight words. -/
def words (opc : Nat) (w1 w2 w3 w4 w5 w6 : Word) : List Word := [BitVec.ofNat 64 (opc * 2 ^ 56), w1, w2, w3, w4, w5, w6, 0]

/-- A command at the head of its ring with no place for its completion, on that device. -/
def canDispatch (s : State) (w : List Word) : Bool :=
  (s.ring 63).on && decide (((s.ring 63).slots.find? fun p => p.1 = (s.ring 63).head).map (·.2) = some w)
    && decide ((w.getD 0 0).toNat / 2 ^ 52 % 2 = 0) && s.ctl.ready && !s.ctl.fatal && decide (s.ctl.ckpt = none)
    && decide ((w.getD 1 0).toNat % 2 ^ 56 = 0) && s.ringTurn 63

theorem dispatchable_of {s : State} {w : List Word} (h : canDispatch s w = true) : Dispatchable s 63 (w.map fun x => x.toNat) none := by
  simp only [canDispatch, Bool.and_eq_true, decide_eq_true_eq, Bool.not_eq_true'] at h
  obtain ⟨⟨⟨⟨⟨⟨⟨h1, h2⟩, h3⟩, h4⟩, h5⟩, h6⟩, h7⟩, h8⟩ := h
  refine ⟨by decide, h1, ?_, .inl ?_, h8, ⟨h4, h5, h6⟩, .inl ⟨?_, rfl⟩⟩
  · cases e : (s.ring 63).slots.find? fun p => p.1 = (s.ring 63).head with
    | none => simp [e] at h2
    | some p =>
      simp only [e, Option.map_some, Option.some.injEq] at h2
      simp [h2]
  · cases w with
    | nil => rfl
    | cons a r => simpa using h3
  · cases w with
    | nil => rfl
    | cons a r =>
      cases r with
      | nil => rfl
      | cons b r => simpa using h7

/-- Each command at the head of ring 63 may be dispatched: NOP, unknown operations, each firmware operation, and the five of users. -/
theorem witness_dispatch :
    ∀ w ∈ [words 7 0 0 0 0 0 0, words 0 0 0 0 0 0 0, words 8 0 0 0 0 0 0, words 4 0 7 0 0 0 0, words 4 0 1 2 0 0 0, words 4 0 1 1 0 0 0,
        words 4 0 2 0x10000000D 64 0x10000 0x10040, words 4 0 3 1 0 0 0, words 4 0 3 2 0 0 0, words 4 0 4 7 0 0 0, words 4 0 4 8 0 0 0,
        words 4 0 5 1535 0 0 0, words 4 0 6 2047 0x10000 0 0, words 1 0 0x20000 0x10000 0 0x800000001 0, words 2 0 0x100000000 0x10008 0 0 0,
        words 3 0 12 0 7 0 0, words 5 0 0x305FF 0x10008 0 0 0, words 6 0 0xB05FF 0 0x80 0 0, [1, 0, 0, 0, 0, 0, 0, 0]],
      Dispatchable (commanding w true) 63 (w.map fun x => x.toNat) none ∧ Dispatchable (commanding w false) 63 (w.map fun x => x.toNat) none := by
  intro w h
  simp only [List.mem_cons, List.not_mem_nil, or_false] at h
  rcases h with rfl | rfl | rfl | rfl | rfl | rfl | rfl | rfl | rfl | rfl | rfl | rfl | rfl | rfl | rfl | rfl | rfl | rfl | rfl <;>
    exact ⟨dispatchable_of (by decide +kernel), dispatchable_of (by decide +kernel)⟩

/-- How a command of address space 0 translates. -/
def cvia : Via := ⟨0, 0, false⟩

/-- A device as the commands of a list of words find it, with the pages of a list of ranges in the translation buffers. -/
def served (s : State) (w : List Word) (rs : List (Nat × Nat × AccKind)) : State :=
  rs.foldl (fun s r => s.vaTouch cvia r.1 r.2.1 r.2.2) (dispatched s 63 (w.map fun x => x.toNat))

/-- A command with the place of its completion; and one whose COMPL is misaligned. -/
theorem witness_completion_place :
    (commanding (words 7 0x10000 0 0 0 0 0) false).spaceVia ((commanding [] false).ring 63).rasid = cvia
      ∧ (commanding (words 7 0x10000 0 0 0 0 0) false).viaLoc cvia 0x10000 .write = .ok ⟨thisDev, 0x10000⟩ ∧ (0x10000 : Nat) % 8 = 0
      ∧ (commanding (words 7 0x10000 0 0 0 0 0) false).viaWaits cvia 0x10000 8 = false
      ∧ (0x10001 : Nat) % 8 ≠ 0 := by decide +kernel

/-- Each firmware command's own conditions: the sheet is there or not, the launch is there or not, the last tile holds a launch or not, the last
record is armed or not, the cells and buffers. -/
theorem witness_FirmwareCommands :
    (let w := words 4 0 1 2 0 0 0
     let t := served (commanding w true) w []
     t.sheet? 1 = some sheet1 ∧ t.sheet? 2 = none ∧ sheet1.ending = none ∧ (t.ring 63).rcfg.getLsbD 62 = true)
      ∧ ((commanding (words 4 0 4 8 0 0 0) false).ring 63).rcfg.getLsbD 62 = false
      ∧ (∃ l ∈ (commanding [] true).launches, l.lid = 7) ∧ (∀ l ∈ (commanding [] true).launches, l.lid ≠ 8)
      ∧ (let w := words 4 0 5 1535 0 0 0
         let t := served (commanding w true) w []
         t.holdsLaunch 1535 = false ∧ (t.tile 1535).testing = false ∧ (t.tile 1535).fenced = false
        ∧ ({ commanding [] true with tiles := (idle []).tiles } : State).holdsLaunch 0 = true)
      ∧ (let w := words 4 0 6 2047 0x10000 0 0
         (served (commanding w true) w []).reaches cvia 0x10000 128 .read = true
        ∧ (served (commanding w true) w [(0x10000, 128, .read)]).cmdWords cvia 0x10000 8 16 = .ok (3 :: List.replicate 15 0)
        ∧ (served (commanding w true) w [(2 ^ 56, 128, .read)]).cmdWords cvia (2 ^ 56) 8 16 = .error 0x33
        ∧ ((commanding [] true).turnout 2047).armed = false ∧ (commanding [] true).redWords = []
        ∧ ({ commanding [] true with turnouts := [(2047, counter 0)] } : State).turnout 2047 = counter 0)
      ∧ (let w := words 4 0 2 0x10000000D 64 0x10000 0x10040
         let u := served (commanding w true) w []
         let t := served (commanding w true) w [(0x10000, 64, .write), (0x10040, 64, .write)]
         u.reaches cvia 0x10000 64 .write = true ∧ u.reaches cvia 0x10040 64 .write = true ∧ u.reaches cvia (2 ^ 56) 64 .write = true
        ∧ t.rangeBad cvia 0x10000 64 .write = none ∧ t.rangeBad cvia 0x10040 64 .write = none ∧ (t.sheet? 1).isSome = true ∧ t.cell? 13 = none
        ∧ (t.cell? 11).isSome = true ∧ 0x10000 % 64 = 0 ∧ 0x10040 % 64 = 0) := by decide +kernel

/-- An image that lies at 0x20000 and declares cells that are there. -/
def image0 : Image := { cellLaunch.image with addr := 0x20000, text := 0x20008, head := List.replicate 8 0, header := { cellLaunch.image.header with sheet := some (1, 11, 2) } }

def launching : State := { commanding (words 1 0 0x20000 0x10000 0 0x800000001 0) false with images := [image0] }

/-- A LAUNCH that is not formed, one whose number is taken, past 4095, or free, with an image that it may start and one that it cannot read; the
other four of users; and the ends of commands, launches and sheets. -/
theorem witness_CommandsAndCompletion :
    (let w := words 1 0 0x20000 0x10000 0 0x800000001 0
     let u := served launching w []
     let t := served launching w [(0x20000, 8, .read), (0x10000, 64, .read)]
     (¬ (0 ≠ 0 ∧ 0 ≤ 2 ^ 20)) ∧ (0x10000 % 8 = 0 ∧ 1 ≠ 0 ∧ 1 ≤ 2 ^ 20 ∧ ∀ j < 8, 0 / 2 ^ (2 * j) % 4 ≠ 3)
        ∧ 4095 < 4096 ∧ (∃ l ∈ t.launches, l.lid = 7) ∧ (∀ l ∈ t.launches, l.lid ≠ 8)
        ∧ u.spaceVia 0 = cvia ∧ headLen 0x20000 (some image0) = 8 ∧ u.reaches cvia 0x20000 8 .read = true ∧ u.reaches cvia 0x10000 64 .read = true
        ∧ t.cmdBytes cvia image0.addr.toNat image0.head.length = .ok image0.head ∧ t.headerAt cvia image0 = some image0.header
        ∧ (none : Option Image).bind (t.headerAt cvia) = none ∧ t.redWords = []
        ∧ t.headerCode cvia 0x20000 (some image0) = none ∧ t.headerCode cvia 0x100000000000000 none = some 0x33
        ∧ (t.headerCode cvia 0x20000 (some { image0 with readable := false })).isSome = true ∧ t.cmdWords cvia 0x10000 8 8 = .ok (3 :: List.replicate 7 0)
        ∧ t.images.find? (fun i => i.addr.toNat = 0x20000 && i.asid = 0) = some image0 ∧ image0.readable = true ∧ image0.proper = true
        ∧ t.canHold image0.header 0 0 = true ∧ t.cellsThere image0.header = true)
      ∧ (let w := words 2 0 0x100000000 0x10008 0 0 0
         let u := served (commanding w false) w []
         let t := served (commanding w false) w [(0x10008, 8, .read), (0x10010, 0, .read)]
         u.reaches cvia 0x10008 8 .read = true ∧ u.reaches cvia 0x10010 (4 * 0) .read = true ∧ 0x10008 % 8 = 0 ∧ t.cmdWords cvia 0x10008 8 1 = .ok [0] ∧ t.cmdWords cvia (0x10008 + 8) 4 0 = .ok [] ∧ t.sheet? (0x100000000 / 2 ^ 32 % 2 ^ 12) = some sheet1)
      ∧ (let s := commanding (words 3 0 12 0 7 0 0) false
         s.launch? 8 = none ∧ s.launch? 7 = some cellLaunch ∧ s.cell? 12 = some (formulaCell 12 11)
        ∧ (let b : State := { s with tiles := (idle []).tiles, mem := tables ++ [(0x10007, 0x80)] }
           let w := words 3 0 12 0x10000 7 0 0
           let t := served b w [(0x10000, 64, .read)]
           (served b w []).reaches cvia 0x10000 64 .read = true ∧ t.cmdWords cvia 0x10000 8 8 = .ok (2 ^ 63 :: List.replicate 7 0) ∧ formulaBad (2 ^ 63 :: List.replicate 7 0) = false
          ∧ b.homeTile 7 (2 ^ 63 / 2 ^ 62) = some 0 ∧ t.inText 7 0 = true))
      ∧ ((commanding (words 6 0 0xB05FF 0 0x80 0 0) false).recordBad 1535 false 0 0 = some 0x51
        ∧ outsideUnion ((idle []).unionOf 0 0) 0 127 = some 0 ∧ 0xB05FF % 2 ^ 11 = 1535 ∧ 0xB05FF / 2 ^ 16 % 2 ^ 4 = 11) := by decide +kernel

/-- Launch 7 with the whole of tile 0's first kilobyte, and a good record there for a REDUCE; a COPY of one byte with its image at 0x10000. -/
def reducing : State :=
  { commanding (words 6 0 0x10000 0 0x80 0 0) false with
    tiles := [(0, { Tile.initial with resid := [⟨7, 0, 0x400, [], [16], [], 0, 0, 0⟩] })]
    mem := tables ++ goodRecord }

def copying : State :=
  { commanding (words 5 0 0x30000 0x10000 0 0 0) false with mem := tables ++ [(0x10010, 1), (0x10018, 1), (0x10020, 1)] }

theorem witness_CommandsAndCompletion_reduce :
    (reducing.tile 0).fenced = false ∧ reducing.tileAt 0 0 = some 0 ∧ reducing.tileAt 0 12 = none ∧ outsideUnion (reducing.unionOf 0 0) 0 127 = none ∧ outsideUnion (reducing.unionOf 0 0) 0x80 (0x80 + 15) = none
      ∧ reducing.recordBad 0 false (reducing.readWord (reducing.padBase 0 + 0x80)) (reducing.readWord (reducing.padBase 0 + 0x80 + 8)) = none := by
  decide +kernel

theorem witness_CommandsAndCompletion_record : sound reducing (reducing.padBase 0 + 0x80) 16 := sound_of

def copyFields : Fields := Vector.ofFn fun i => BitVec.ofNat 64 (([0, 0, 1, 1, 1] ++ List.replicate 37 0).getD i.val 0) &&& shadowMask i.val

theorem witness_CommandsAndCompletion_copy :
    (let via : Via := ⟨0, copying.rootOf 0, true⟩
     let t := served copying (words 5 0 0x30000 0x10000 0 0 0) []
     t.reaches via 0x10000 336 .read = true ∧
     let t1 := (t.vaTouch via 0x10000 336 .read).modStrand (supSlot 0) fun st =>
       { st with regs := { st.regs with shadow := st.regs.shadow.setIfInBounds 3 copyFields } }
     t.cmdWords via 0x10000 8 42 = .ok ([0, 0, 1, 1, 1] ++ List.replicate 37 0) ∧ (copying.chan 0 3).queue.length < 8
      ∧ (∀ k ∈ copying.copyWaits, k.ring ≠ 63) ∧ copying.redWords = [] ∧ (copying.tile 0).fenced = false
      ∧ t1.launchCheck (supSlot 0) (t1.copyStrand ⟨copying.nextId, 63, 0, 3, 0, copyFields⟩) copyFields (outsideUnion (t1.unionOf 0 0)) = none)
      ∧ (served { copying with mem := [] } (words 5 0 0x30000 0x10000 0 0 0) []).cmdWords ⟨0, 0, true⟩ 0x10000 8 42 = .error 0x13 := by decide +kernel

/-- A LAUNCH that has its status, with a place for it and with none; one whose launch is over; a sheet that goes and one that a pin holds. -/
def ended (place : Option Loc) (result : Option Word) : Command := ⟨0, 63, 0, 1, place, result, 7⟩

theorem witness_CommandsAndCompletion_ends :
    (({ commanding [] true with commands := [ended none (some 1)] } : State).commands.find? (fun k => k.cid = 0) = some (ended none (some 1))
        ∧ (ended none (some 1)).result = some 1 ∧ (ended (some ⟨thisDev, 0x10000⟩) (some 1)).compl = some ⟨thisDev, 0x10000⟩
        ∧ (commanding [] true).region 0x10000 = .hbm ∧ (commanding [] true).redWords = [])
      ∧ (let s : State := { State.reset with launches := [cellLaunch], commands := [ended none none] }
         s.launch? 7 = some cellLaunch ∧ s.launchDone 7 = true ∧ (∃ c ∈ s.commands, c.cid = cellLaunch.cmd ∧ c.result = none) ∧ s.redWords = [])
      ∧ (let s : State := { State.reset with sheets := [{ sheet1 with ending := some 0 }], cells := [inputCell 8] }
         let p : State := { s with cells := [{ inputCell 8 with pin0 := 1 }] }
         s.sheet? 1 = some { sheet1 with ending := some 0 } ∧ sheet1.seeds = [] ∧ sheet1.ops = []
        ∧ (∀ c ∈ s.cells.filter (fun c => c.sheet = 1), c.pin0 = 0 ∧ c.pin1 = 0) ∧ s.cellWaits = []
        ∧ ∃ c ∈ p.cells.filter (fun c => c.sheet = 1), c.pin0 ≠ 0) := by decide +kernel

/-! ### The system -/

/-- A lane's chunk that has read a line, and its strand and device. -/
def laneChunk (hit : Bool) (w : List WEntry) : Chunk := ⟨Regs.initial, none, 1, [(⟨thisDev, 0x10000⟩, hit)], w, true, false⟩

def lane (run : Run) (c : Chunk) : Strand := { Strand.initial with lid := 7, det := true, run := run, chunk := some c }

def laned (run : Run) (c : Chunk) : State := { lone (lane run c) with launches := [{ cellLaunch with det := true, lanes := 1 }] }

/-- A supervisor, in slot 0 of the M-core of tile 0, on a device whose tile selects a user and a bank, with an event that waits. -/
def boss : Strand := { holding 0 0 0 with sup := true, ie := true }

def chosen (run : Run) (cause : Word := 0x21) : Strand := { Strand.initial with sid := 16, run := run, tcause := cause }

def bossed (run : Run) (sup : Strand) (cause : Word := 0x21) : State :=
  { State.reset with
    tiles := [(0, { Tile.initial with
      strands := [(0, sup), (16, chosen run cause)]
      events := [⟨0x8000000000000010, 5, none⟩]
      tsel := 0x8000000000000010
      tlb := [leaf] })]
    debugger := true
    ctl := { Ctl.initial with lcs := 2 }
    cur := ⟨0, .m, 0⟩ }

theorem boss_clear (run : Run) (h : Run) (u : Uses) (c : Word := 0x21) : (bossed run { boss with run := h } c).Clear { boss with run := h } u :=
  clear_of rfl rfl rfl rfl rfl rfl (.inl rfl)

/-- A user may read 0x012 and write 0x000; a supervisor every register; a strand is selected in each of its standings; the banks of MCSEL. -/
theorem witness_SystemRegisters :
    (lone Strand.initial).Clear Strand.initial { useD 41 with priv := none, aborts := false }
      ∧ userRefused (0x012#12).toNat false = false ∧ userRefused (0x000#12).toNat true = false ∧ Strand.initial.sup = false
      ∧ (∀ run u, (bossed run boss).Clear boss u) ∧ boss.sup = true
      ∧ (∀ run ∈ [Run.ready, .out, .parked, .held .again, .asleep, .preempted none], (bossed run boss).selected 0 = some (⟨0, .a, 0⟩, chosen run))
      ∧ ((bossed .out boss 5).selected 0 = some (⟨0, .a, 0⟩, chosen .out 5) ∧ (5 : Word) ≠ 0x21 ∧ (chosen .out 5).tepc.toNat % 4 = 0
        ∧ ({ chosen .out 5 with tepc := 2 } : Strand).tepc.toNat % 4 ≠ 0)
      ∧ ((bossed .out boss).tile 0).events = [⟨0x8000000000000010, 5, none⟩]
      ∧ ((0x10 : Word).getLsbD 63 = false ∧ (0x10 : Word).toNat % 2 ^ 38 = ((bossed .out boss).tile 0).tsel.toNat % 2 ^ 38)
      ∧ bankSel 0 ((bossed .out boss).tile 0).mcsel = some (.tile 0) ∧ boss.rs 1 = 0 ∧ ({ bossed .out boss with tiles := [] } : State).selected 0 = none :=
  ⟨plain_clear _ rfl, by decide, by decide, rfl, fun run u => boss_clear run .ready u, rfl, by decide +kernel, by decide +kernel,
    by decide +kernel, by decide +kernel, by decide +kernel, by decide +kernel⟩

/-- The supervisor's tile with an empty event queue, a bank that is not there, a slot whose selected strand was spilled, an entry of the weir
table, and channel 3 halted at the head of its queue. -/
def bossedRest : State :=
  let x := (bossed .out boss).tile 0
  let c : Chan := { Chan.initial with halted := true, queue := [transfer (Vector.replicate 42 0) 0 0 0 0 0 true] }
  { bossed .out boss with
    tiles := [(0, { x with
      strands := [(0, boss)]
      events := []
      mcsel := 0x801B
      weir := [⟨true, 16, true, false, true, ⟨thisDev, 0x40⟩⟩]
      chans := x.chans.setIfInBounds 3 c
      lastSpilled := [(16, 0x8000000000000010)] })] }

theorem witness_SystemRegisters_rest :
    (∀ u, bossedRest.Clear boss u) ∧ (bossedRest.tile 0).events = [] ∧ bankSel 0 (bossedRest.tile 0).mcsel = none
      ∧ bankSel 0 0xC000 = none ∧ bossedRest.selected 0 = none ∧ bossedRest.selSpilled 0 = true ∧ bossedRest.strand? (slotOf 0 16) = none
      ∧ (bossedRest.tile 0).weir[(bossedRest.tile 0).wsel.toNat]? = some ⟨true, 16, true, false, true, ⟨thisDev, 0x40⟩⟩
      ∧ bossedRest.lineAddr true ⟨thisDev, 0x40⟩ / 64 < 2 ^ 55 ∧ ((bossed .out boss).tile 0).weir[((bossed .out boss).tile 0).wsel.toNat]? = none
      ∧ (bossedRest.chan 0 3).halted = true ∧ (bossedRest.chan 0 3).queue.length = 1 ∧ (bossedRest.chan 0 2).halted = false :=
  ⟨fun _ => clear_of rfl rfl rfl rfl rfl rfl (.inl rfl), by decide +kernel⟩

/-- An event whose strand is gone with its launch, and one whose command has ended already. -/
theorem witness_SupervisorSteps_gone :
    let e : Event := ⟨0xC000000000000010, 5, some cellLaunch.cmd⟩
    let s : State := { bossed .out boss with launches := [cellLaunch], tiles := [(0, { Tile.initial with events := [e] })] }
    (s.tile 0).events = [e] ∧ e.entry.getLsbD 62 = true ∧ s.launches.find? (fun k => e.cmd = some k.cmd) = some cellLaunch
      ∧ (∀ k ∈ (bossed .out boss).launches, e.cmd ≠ some k.cmd) ∧ (0x8000000000000010 : Word).getLsbD 62 = false := by
  decide +kernel

/-- tlbinv with nothing in flight, with an access that used the leaf, and after it; selftest of a tile that holds a launch, of one that may be
tested, and after the test; an event; a strand to end and one to resume. -/
theorem witness_SupervisorSteps :
    (∀ run h u, (bossed run { boss with run := h }).Clear { boss with run := h } u)
      ∧ (bossed .out boss).flight = [] ∧ (bossed .out boss).heldLeaves = [] ∧ boss.run = .ready
      ∧ (lane .ready (laneChunk false [⟨⟨thisDev, 0x10000⟩, 0, [.store 63 [5] (some leaf)]⟩])).heldLeaves = [leaf]
      ∧ (let a := pending 0 (.store [0]) ⟨thisDev, 0x10000⟩
         a.done = false ∧ a.id < 1 ∧ a.trans = some leaf ∧ leaf ∈ ((bossed .out boss).tile 0).tlb
        ∧ decide (leaf.vbase ≤ (boss.rs 1).toNat ∧ (boss.rs 1).toNat < leaf.vbase + pageSize leaf.level
          ∧ (leaf.entry.getLsbD 6 = true ∨ leaf.asid = asidOf boss.regs.ptroot)) = true
        ∧ decide (leaf.asid = (boss.rs 1).setWidth 16 ∧ leaf.entry.getLsbD 6 = false) = true)
      ∧ ((boss.rs 1).toNat < 1024 ∧ 1024 ≤ (holding 1024 0 0 |>.rs 1).toNat ∧ (bossed .out boss).holdsLaunch 0 = false ∧ ((bossed .out boss).tile 0).testing = false
        ∧ (idle []).holdsLaunch 0 = true)
      ∧ ((bossed .out boss).strand? ⟨0, .m, 0⟩ = some boss ∧ boss.sup = true ∧ boss.ie = true ∧ ((bossed .out boss).tile 0).events ≠ [])
      ∧ ((bossed .out boss).selected 0 = some (⟨0, .a, 0⟩, chosen .out)
        ∧ (0x8000000000000010 : Word).toNat % 2 ^ 38 = ((bossed .out boss).tile 0).tsel.toNat % 2 ^ 38
        ∧ (0x8000000000000010 : Word).getLsbD 63 = true ∧ (chosen .out).tepc.toNat % 4 = 0
        ∧ (bossed .out boss 0x20).selected 0 = some (⟨0, .a, 0⟩, chosen .out 0x20)
        ∧ (bossed .out boss 5).selected 0 = some (⟨0, .a, 0⟩, chosen .out 5) ∧ (chosen .out 5).regs.slim.toNat ≤ (chosen .out 5).stackBot
        ∧ ({ chosen .out 5 with stackBot := 0 } : Strand).stackBot < ({ chosen .out 5 with regs := { Regs.initial with slim := 64 } } : Strand).regs.slim.toNat
        ∧ ¬ (({ bossed .out boss with debugger := false } : State).debugger = true))
      ∧ ((bossed .out boss).strand? ⟨0, .a, 0⟩ = some (chosen .out) ∧ (bossed .out boss).debugger = true ∧ (bossed .out boss).ctl.lcs = 2 ∧ (chosen .out).tcause = 0x21)
      ∧ bankSel 0 ((bossed .out boss).tile 0).mcsel = some (.tile 0) :=
  ⟨fun run h u => boss_clear run h u, rfl, rfl, rfl, rfl, by decide +kernel, by decide +kernel, by decide +kernel, by decide +kernel, by decide +kernel,
    by decide +kernel⟩

/-! ### Between instructions -/

/-- A walk for the fetch or access of slot 0's strand. -/
def walk : Miss := ⟨0, 0, 0, 0x20000, .read, ⟨0, .a, 0⟩, 0, true, true⟩

/-- A strand with a word to annul and a delivery; one that waits for a walk that ends, for one that fails, and with a request to pre-empt it; a
lane at a barrier, asleep, hit, and to be committed with nothing and with one byte. -/
theorem witness_MachineSteps :
    (let st := { Strand.initial with regs := { Regs.initial with skipn := 3 }, asyncs := [(14, 1)] }
     (lone st).strand? (lone st).cur = some st ∧ st.regs.skipn ≠ 0 ∧ st.chunkStop {} = false ∧ st.asyncs = (14, 1) :: [] ∧ 14 < 256)
      ∧ (let st := { Strand.initial with run := .held (.walk 0x20000 .read) }
         let s : State := { lone st with mem := tables, walks := [walk] }
         s.strand? ⟨0, .a, 0⟩ = some st ∧ st.uid = walk.uid ∧ walk.who = ⟨0, .a, 0⟩ ∧ s.walks = [walk] ∧ walk.walking = true
        ∧ walk.va < 2 ^ 56 ∧ s.walkFrom walk.ptroot 0x20000 = .ok ⟨0, 2, 0x00FFF0000000003F, 0⟩
        ∧ (lone st).walkFrom walk.ptroot 0x20000 = .error 0x13 ∧ (s.tile 0).tlb.length ≤ 64 ∧ st.preReq = false ∧ st.asyncs = [] ∧ st.tx = none)
      ∧ ({ Strand.initial with run := .held (.walk 0x20000 .read), preReq := true } : Strand).preReq = true
      ∧ ((laned (.held .chunk) (laneChunk true [])).laneSlot 7 0 = some ⟨0, .a, 0⟩
        ∧ (laned (.held (.bar false 0 false)) (laneChunk true [])).laneSlot 7 0 = some ⟨0, .a, 0⟩
        ∧ (laned .asleep (laneChunk true [])).laneSlot 7 0 = some ⟨0, .a, 0⟩
        ∧ (laned (.held .chunk) (laneChunk true [])).strand? ⟨0, .a, 0⟩ = some (lane (.held .chunk) (laneChunk true []))
        ∧ (lane (.held .chunk) (laneChunk true [])).longs = [] ∧ (∃ k ∈ (laneChunk true []).reads, k.2 = true)
        ∧ (∀ k ∈ (laneChunk false []).reads, k.2 = false) ∧ 0 < (laneChunk false []).count ∧ (laneChunk false []).ended = true
        ∧ (laneChunk false [⟨⟨thisDev, 0x10000⟩, 0, [.store 63 [5] none]⟩]).wset = [⟨⟨thisDev, 0x10000⟩, 0, [.store 63 [5] none]⟩]
        ∧ 63 + [(5 : Byte)].length ≤ 64 ∧ (0x10000 : Nat) % 64 = 0
        ∧ (laned (.held .chunk) (laneChunk true [])).region (0x10000 + 63) = .hbm ∧ (laned .asleep (laneChunk true [])).redWords = []
        ∧ (laned .asleep (laneChunk true [])).lags = [] ∧ (laned .asleep (laneChunk true [])).lagOn = []) := by decide +kernel

/-- A lane asleep that has no chunk. -/
theorem witness_MachineSteps_asleep :
    let st := { lane .asleep (laneChunk false []) with chunk := none }
    let s : State := { laned .asleep (laneChunk false []) with tiles := (lone st).tiles }
    s.launch? 7 = some { cellLaunch with det := true, lanes := 1 } ∧ s.laneSlot 7 0 = some ⟨0, .a, 0⟩ ∧ s.strand? ⟨0, .a, 0⟩ = some st := by
  decide +kernel

/-- A deterministic launch's lane whose ldc waits for an empty word, in its lane's place; a lane whose place has not come; a strand of no lane. -/
theorem witness_MachineSteps_lane :
    (let a := access .ldc (some ⟨false, 40⟩)
     let e : Watch := ⟨thisDev, 2, a.loc.line, 0, 17, 7, a.id⟩
     let st := lane (.held .chunk) { laneChunk false [] with solo := true }
     let at_ := fun (n : Nat) => ({ flying st a with
       watches := [e]
       launches := [{ cellLaunch with det := true, lanes := 2, lanePos := n }] } : State)
     (at_ 0).laneSlot 7 0 = some a.who ∧ (at_ 0).strand? a.who = some st ∧ st.run = .held .chunk ∧ a ∈ (at_ 0).flight ∧ a.uid = st.uid
      ∧ a.done = false ∧ (at_ 0).waitsAtHome a = true ∧ a.ovFull = none ∧ a.loc.dev = thisDev ∧ a.loc.addr / 8 ∉ (at_ 0).full
      ∧ ((at_ 1).launch? st.lid = some { cellLaunch with det := true, lanes := 2, lanePos := 1 } ∧ st.chunk ≠ none ∧ (1 : Nat) ≠ st.lane
        ∧ (at_ 1).readyNow a = true ∧ (at_ 1).hasRoom a = true)
      ∧ ((flying Strand.initial a).strand? a.who = some Strand.initial ∧ Strand.initial.chunk = none ∧ (flying Strand.initial a).spills = [])
      ∧ ∃ t, exec (.chunkCommit 7) (at_ 0) = .next t ∧ (t.launches.map (·.lanePos)) = [1]) := by
  refine ⟨by decide +kernel, by decide +kernel, rfl, List.mem_singleton.2 rfl, rfl, rfl, by decide +kernel, rfl, rfl, by decide +kernel,
    ⟨by decide +kernel, by decide, by decide, by decide +kernel, by decide +kernel⟩, ⟨rfl, rfl, rfl⟩, _, rfl, by decide +kernel⟩

/-- A bank that holds an error and one that holds none; words of HBM and of a scratchpad, with an error and with none; a tile whose mirror is there;
a tile under test, for a command; a link's four and five failures; a remote access; a device that is not this one. -/
theorem witness_MachineSteps_errors :
    (let b : Bank := { Bank.initial with v := true, cls := 2 }
     b.v = true ∧ (1 : BitVec 2).toNat ≤ b.cls.toNat ∧ b.cls.toNat < (3 : BitVec 2).toNat ∧ Bank.initial.v = false)
      ∧ (State.reset.region 0x10000 = .hbm
        ∧ (let s : State := { State.reset with badWords := [0x10000000000 / 8], weakWords := [0x10000000008 / 8] }
           s.region 0x10000000000 = .pad 0 0 ∧ 0x10000000000 / 8 ∈ s.badWords ∧ 0x10000000008 / 8 ∉ s.badWords ∧ 0x10000000008 / 8 ∈ s.weakWords
          ∧ s.region 0x10000000010 = .pad 0 16 ∧ 0x10000000010 / 8 ∉ s.badWords ∧ 0x10000000010 / 8 ∉ s.weakWords))
      ∧ ((bossed .out boss).strand? ⟨0, .m, 0⟩ = some boss ∧ ((bossed .out boss).tile 0).mirrorLost = false ∧ (bossed .out boss).launches = [])
      ∧ (let s : State := { State.reset with tiles := [(1535, { Tile.initial with testing := true, testCmd := some 0, testMask := 3 })] }
         (s.tile 1535).testing = true ∧ (s.tile 1535).testCmd = some 0 ∧ (1 : BitVec 10) &&& (s.tile 1535).testMask ≠ 0 ∧ s.heldWrites = [])
      ∧ (let a := { pending 3 (.load 8 false) ⟨5, 0x10000⟩ with dest := some ⟨false, 4⟩ }
         let s : State := { lone Strand.initial with flight := [a] }
         s.flight.find? (fun e => e.id = a.id) = some a ∧ a.loc.dev ≠ thisDev ∧ a.loc.dev < 2 ^ 12 ∧ a.done = false ∧ a.op.isResult = false
        ∧ (∀ u, a.op ≠ .loadV u) ∧ s.strand? a.who = some Strand.initial ∧ Strand.initial.uid = a.uid ∧ s.spills = [])
      ∧ (5 : BitVec 12).toNat ≠ thisDev := by
  refine ⟨by decide +kernel, by decide +kernel, by decide +kernel, by decide +kernel, ⟨by decide +kernel, by decide +kernel, by decide +kernel,
    by decide +kernel, by decide +kernel, ?_, by decide +kernel, by decide +kernel, by decide +kernel⟩, by decide +kernel⟩
  intro u h
  cases h

/-- An image that is reloaded. -/
theorem witness_MachineSteps_reload :
    digestOk bootImage = true ∧ staged.signedOk bootImage = true := by decide +kernel
end Sys2Proof.Tests
end

section
/-!
PROOF. What user mode may not do (R29, Table 15.1): the privilege check comes before every other check of a word (Table 1.21), so a word that
has a privilege detail word raises its fault whatever its registers hold, and its own effect is not reached.
-/

namespace Sys2Proof.Machine

/-! ## The privilege check -/

/-- Outside supervisor mode the frame of a word with a privilege detail word is that fault alone, whatever the word's own effect is. -/
theorem State.issue_privilege {s : State} {st : Strand} {u : Uses} {detail : Word} (here : s.strand? s.cur = some st)
    (user : st.sup = false) (hu : u.priv = some detail) (m : Bool) (body : Strand → Act) :
    s.issue m u body = .next (s.faultTurn s.cur 2 detail st.regs.pc) := by
  have refused : st.checked s s.cur u body = .fault 2 detail := by
    simp [Strand.checked, user, hu]
  rw [State.issue_next here, refused]
  simp [State.finish, here, faultPc]

theorem exec_privilege {s : State} {st : Strand} {i : Instr} {detail : Word} (here : s.strand? s.cur = some st) (user : st.sup = false)
    (word : i.isWord = true) (hu : (wordUses i).priv = some detail) :
    exec i s = .next (s.faultTurn s.cur 2 detail st.regs.pc) := by
  obtain ⟨m, body, runs⟩ := exec_issues i word
  rw [runs, State.issue_privilege here user hu]

/-! ## The detail word and the registers -/

theorem wordDetail_of_encode {i : Instr} {w : BitVec 32} (h : encode i = some w) : wordDetail i = some (w.setWidth 64) := by
  rw [wordDetail, h, Option.map_some]

/-- A word that only the supervisor may run gives itself as the detail word. -/
theorem exec_supervisorWord {s : State} {st : Strand} {i : Instr} {w : BitVec 32} (here : s.strand? s.cur = some st)
    (user : st.sup = false) (word : i.isWord = true) (own : (wordUses i).priv = wordDetail i) (enc : encode i = some w) :
    exec i s = .next (s.faultTurn s.cur 2 (w.setWidth 64) st.regs.pc) :=
  exec_privilege here user word (own.trans (wordDetail_of_encode enc))

theorem userRefused_of_le {num : Nat} (h : 0x40 ≤ num) (write : Bool) : userRefused num write = true := by
  rw [userRefused, if_neg h.not_gt]

/-- SLIM, PADLO and PADHI are read by user mode, and written by the supervisor alone. -/
theorem userRefused_write_limits {num : BitVec 12} (h : num = 1 ∨ num = 2 ∨ num = 3) : userRefused num.toNat true = true := by
  rcases h with rfl | rfl | rfl <;> rfl

theorem exec_sysr_refused {s : State} {st : Strand} {num : BitVec 12} (here : s.strand? s.cur = some st) (user : st.sup = false)
    (h : userRefused num.toNat false = true) (m : Bool) (d : Spec) :
    exec (.sysr m d num) s = .next (s.faultTurn s.cur 2 (num.setWidth 64) st.regs.pc) :=
  exec_privilege here user rfl (if_pos h)

theorem exec_sysw_refused {s : State} {st : Strand} {num : BitVec 12} (here : s.strand? s.cur = some st) (user : st.sup = false)
    (h : userRefused num.toNat true = true) (m : Bool) (a : Spec) :
    exec (.sysw m num a) s = .next (s.faultTurn s.cur 2 (num.setWidth 64) st.regs.pc) :=
  exec_privilege here user rfl (if_pos h)

/-! ## The statement -/

/-- Settles O14: each of the words has a privilege detail word, and the frame checks it first. -/
theorem privilegeFaults : Obligations.PrivilegeFaults := by
  intro s st m d a num here user fault
  refine ⟨?words, ?reads, ?writes⟩
  case words =>
    simp only [List.forall_mem_cons, List.not_mem_nil, false_implies, implies_true, and_true]
    refine ⟨?sret, ?page, ?asid, ?all, ?selftest⟩
    all_goals exact ⟨_, rfl, exec_supervisorWord here user rfl rfl rfl⟩
  case reads =>
    intro above
    exact exec_sysr_refused here user (userRefused_of_le above false) m d
  case writes =>
    rintro (above | limit)
    · exact exec_sysw_refused here user (userRefused_of_le above true) m a
    · exact exec_sysw_refused here user (userRefused_write_limits limit) m a

end Sys2Proof.Machine
end

section
/-!
PROOF. Illegal words (R30): which reason a word has whose major opcode every core may run. The reason of a word is the lowest among its
failed conditions, so it is enough that one of them fails and that none of the others has a lower one.
-/

namespace Sys2Proof

/-! ## The lowest reason of a word -/

theorem lowestReason_of_least {r : Nat} {cs : List (Bool × Nat)} (least : ∀ c ∈ cs, r ≤ c.2) :
    lowestReason ((false, r) :: cs) = some r := by
  simp only [lowestReason, List.foldl_cons, Bool.false_eq_true, if_false]
  induction cs with
  | nil => rfl
  | cons c cs ih =>
    obtain ⟨hc, hcs⟩ := List.forall_mem_cons.mp least
    rw [List.foldl_cons]
    simp only [Nat.min_eq_left hc, ite_self]
    exact ih hcs

/-- A word whose first condition fails, where no other has a lower reason. -/
theorem fin_of_least {pre cs : List (Bool × Nat)} {i : Instr} {holds : Bool} {r : Nat} (conds : pre ++ i.conds = (holds, r) :: cs)
    (failed : holds = false) (least : cs.all (fun c => decide (r ≤ c.2)) = true) : fin pre i = .error r := by
  rw [fin, conds, failed, lowestReason_of_least fun c hc => of_decide_eq_true (List.all_eq_true.mp least c hc)]

/-! ## Words of the major opcodes that every core may run -/

/-- The major opcodes below 0x18 are no core kind's own, and none of them names an LFSR. -/
theorem decodeFor_error_of_everyCore {w : BitVec 32} {r : Nat} (everyCore : (fOp w).toNat < 0x18) (h : decodeFields w = .error r)
    (k : Core) : decodeFor k w = .error r := by
  have legal : opLegal (fOp w) k = true := by
    simp only [opLegal]
    grind
  have noLfsr : lfsrOnM w k = false := by
    have not7A : fOp w ≠ 0x7A#7 := by bv_omega
    have not7B : fOp w ≠ 0x7B#7 := by bv_omega
    simp [lfsrOnM, not7A, not7B]
  simp [decodeFor, h, legal, noLfsr]

theorem field_toNat (w : BitVec 32) (lo n : Nat) : (w.extractLsb' lo n).toNat = w.toNat / 2 ^ lo % 2 ^ n := by
  rw [BitVec.extractLsb'_toNat, Nat.shiftRight_eq_div_pow]

theorem illegal_of_decodeFields {op r : Nat} {p : BitVec 32 → Prop} (everyCore : op < 0x18)
    (h : ∀ w : BitVec 32, (fOp w).toNat = op → p w → decodeFields w = .error r) : illegal op r p := by
  intro k w hop hp
  have opcode : (fOp w).toNat = op := by
    rw [fOp, field_toNat, pow_zero, Nat.div_one, hop]
  exact decodeFor_error_of_everyCore (opcode ▸ everyCore) (h w opcode hp) k

/-! ## The scalar forms -/

theorem illegal_integer_fn : illegal 0x01 2 (fun w => 15 ≤ w.toNat / 2 ^ 25 % 2 ^ 6) := by
  refine illegal_of_decodeFields (by decide) fun w opcode fn => ?_
  have above : 15 ≤ (fFn w).toNat := by rwa [fFn, field_toNat]
  simp only [decodeFields, opcode]
  split
  case h_16 => rfl
  all_goals omega

theorem illegal_count_b : illegal 0x01 6
    (fun w => (w.toNat / 2 ^ 25 % 2 ^ 6 = 13 ∨ w.toNat / 2 ^ 25 % 2 ^ 6 = 14) ∧ w.toNat / 2 ^ 19 % 2 ^ 6 ≠ 41) := by
  refine illegal_of_decodeFields (by decide) fun w opcode ⟨fn, b⟩ => ?_
  rw [← field_toNat] at fn b
  have named : (fB w == 41#6) = false := beq_eq_false_iff_ne.mpr fun h => b (congrArg BitVec.toNat h)
  rcases fn with clz | popc
  · simp only [decodeFields, opcode, fFn, clz]
    exact fin_of_least rfl named rfl
  · simp only [decodeFields, opcode, fFn, popc]
    exact fin_of_least rfl named rfl

theorem illegal_multiply_fn : illegal 0x02 2 (fun w => 7 ≤ w.toNat / 2 ^ 25 % 2 ^ 6) := by
  refine illegal_of_decodeFields (by decide) fun w opcode fn => ?_
  have above : 7 ≤ (fFn w).toNat := by rwa [fFn, field_toNat]
  simp only [decodeFields, opcode]
  split
  case h_8 => rfl
  all_goals omega

theorem illegal_shift_fn : illegal 0x07 2 (fun w => 3 ≤ w.toNat / 2 ^ 25 % 2 ^ 6) := by
  refine illegal_of_decodeFields (by decide) fun w opcode fn => ?_
  have above : 3 ≤ (fFn w).toNat := by rwa [fFn, field_toNat]
  simp only [decodeFields, opcode]
  split
  case h_4 => rfl
  all_goals omega

/-- The two halves of IMM12, which are the position and the length of a bit field, lie in the places of FN and B. -/
theorem field_passes_top {w : BitVec 32} (h : 64 < w.toNat / 2 ^ 25 % 2 ^ 6 + w.toNat / 2 ^ 19 % 2 ^ 6 + 1) :
    decide (((fImm12 w).extractLsb' 6 6).toNat + ((fImm12 w).extractLsb' 0 6).toNat + 1 ≤ 64) = false := by
  simp only [fImm12, BitVec.extractLsb'_toNat, Nat.shiftRight_eq_div_pow, decide_eq_false_iff_not]
  omega

theorem illegal_bext_range : illegal 0x0A 6 (fun w => 64 < w.toNat / 2 ^ 25 % 2 ^ 6 + w.toNat / 2 ^ 19 % 2 ^ 6 + 1) := by
  refine illegal_of_decodeFields (by decide) fun w opcode range => ?_
  simp only [decodeFields, opcode]
  exact fin_of_least rfl (field_passes_top range) rfl

theorem illegal_bins_range : illegal 0x0B 6 (fun w => 64 < w.toNat / 2 ^ 25 % 2 ^ 6 + w.toNat / 2 ^ 19 % 2 ^ 6 + 1) := by
  refine illegal_of_decodeFields (by decide) fun w opcode range => ?_
  simp only [decodeFields, opcode]
  exact fin_of_least rfl (field_passes_top range) rfl

theorem condOk_eq_false {c : BitVec 3} (h : 6 ≤ c.toNat) : condOk c = false := by
  rw [condOk, decide_eq_false_iff_not]
  omega

theorem illegal_compare_fn : illegal 0x10 2 (fun w => w.toNat / 2 ^ 7 % 2 ^ 6 ≠ 0) := by
  refine illegal_of_decodeFields (by decide) fun w opcode fn => ?_
  rw [← field_toNat] at fn
  have named : (fD w != 0#6) = true := bne_iff_ne.mpr fun h => fn (congrArg BitVec.toNat h)
  simp only [decodeFields, opcode, named, if_true]

theorem illegal_compare_cond : illegal 0x10 4 (fun w => w.toNat / 2 ^ 7 % 2 ^ 6 = 0 ∧ 6 ≤ w.toNat / 2 ^ 28 % 2 ^ 3) := by
  refine illegal_of_decodeFields (by decide) fun w opcode ⟨fn, cond⟩ => ?_
  rw [← field_toNat] at fn cond
  have named : (fD w != 0#6) = false := bne_eq_false_iff_eq.mpr (BitVec.eq_of_toNat_eq fn)
  have unused : condOk (kCond w) = false := condOk_eq_false cond
  simp only [decodeFields, opcode, named, Bool.false_eq_true, if_false]
  split
  case isTrue cmpi => exact fin_of_least rfl unused rfl
  case isFalse cmp => exact fin_of_least rfl unused rfl

/-- The two highest bits of FN. -/
theorem fn_high_toNat (w : BitVec 32) : ((fFn w).extractLsb' 4 2).toNat = w.toNat / 2 ^ 29 % 2 ^ 2 := by
  simp only [fFn, BitVec.extractLsb'_toNat, Nat.shiftRight_eq_div_pow]
  omega

/-- The three lowest bits of FN. -/
theorem fn_low_toNat (w : BitVec 32) : ((fFn w).extractLsb' 0 3).toNat = w.toNat / 2 ^ 25 % 2 ^ 3 := by
  simp only [fFn, BitVec.extractLsb'_toNat, Nat.shiftRight_eq_div_pow]
  omega

theorem illegal_set_fn : illegal 0x11 2 (fun w => w.toNat / 2 ^ 29 % 2 ^ 2 ≠ 0) := by
  refine illegal_of_decodeFields (by decide) fun w opcode fn => ?_
  rw [← fn_high_toNat] at fn
  have named : ((fFn w).extractLsb' 4 2 != 0#2) = true := bne_iff_ne.mpr fun h => fn (congrArg BitVec.toNat h)
  simp only [decodeFields, opcode, named, if_true]

theorem illegal_set_cond : illegal 0x11 4 (fun w => w.toNat / 2 ^ 29 % 2 ^ 2 = 0 ∧ 6 ≤ w.toNat / 2 ^ 25 % 2 ^ 3) := by
  refine illegal_of_decodeFields (by decide) fun w opcode ⟨fn, cond⟩ => ?_
  rw [← fn_high_toNat] at fn
  rw [← fn_low_toNat] at cond
  have named : ((fFn w).extractLsb' 4 2 != 0#2) = false := bne_eq_false_iff_eq.mpr (BitVec.eq_of_toNat_eq fn)
  have unused : condOk ((fFn w).extractLsb' 0 3) = false := condOk_eq_false cond
  simp only [decodeFields, opcode, named, Bool.false_eq_true, if_false]
  split
  case isTrue seti => exact fin_of_least rfl unused rfl
  case isFalse set => exact fin_of_least rfl unused rfl

theorem illegal_branch_cond : illegal 0x12 4 (fun w => 6 ≤ w.toNat / 2 ^ 7 % 2 ^ 3) := by
  refine illegal_of_decodeFields (by decide) fun w opcode cond => ?_
  rw [← field_toNat] at cond
  simp only [decodeFields, opcode]
  exact fin_of_least rfl (condOk_eq_false cond) rfl

theorem illegal_jump_d : illegal 0x13 6 (fun w => w.toNat / 2 ^ 7 % 2 ^ 6 ≠ 41) := by
  refine illegal_of_decodeFields (by decide) fun w opcode d => ?_
  rw [← field_toNat] at d
  have named : (fD w == 41#6) = false := beq_eq_false_iff_ne.mpr fun h => d (congrArg BitVec.toNat h)
  simp only [decodeFields, opcode]
  exact fin_of_least rfl named rfl

end Sys2Proof
end

section
/-!
PROOF. The marker faults of the scalar words (R110): which register a fault names once a word has passed the checks before it.
-/

namespace Sys2Proof.Machine

/-! ## The registers of a word -/

theorem Strand.outstanding_iff {st : Strand} {x : Spec} : st.outstanding false x = true ↔ waitsFor st x := by
  have dest (l : Long) : l.dest = ⟨false, x⟩ ↔ l.dest.vec = false ∧ l.dest.spec = x := by
    rcases l.dest with ⟨vec, spec⟩
    exact Dest.mk.injEq _ _ _ _ ▸ Iff.rfl
  simp [Strand.outstanding, waitsFor, dest]

theorem Strand.outstanding_of_waitsFor {st : Strand} {x : Spec} (h : waitsFor st x) : st.outstanding false x = true :=
  Strand.outstanding_iff.mpr h

theorem Strand.not_outstanding_of_not_waitsFor {st : Strand} {x : Spec} (h : ¬ waitsFor st x) : st.outstanding false x = false :=
  Bool.eq_false_iff.mpr fun awaited => h (Strand.outstanding_iff.mp awaited)

/-- A word of scalar registers that are all declared passes R20's check. -/
theorem Strand.undeclared_of_declaredS {st : Strand} {u : Uses} (h : ∀ f ∈ u.fields, f.2.1 = false ∧ declaredS st f.2.2) :
    st.undeclared u = none := by
  have noneBad : (u.fields.filterMap fun f =>
      if decide (f.2.2.toNat < 32) && decide ((if f.2.1 then st.nvregs else st.nregs) ≤ f.2.2.toNat)
      then some (f.1, f.2.2.toNat, false) else none) = [] := by
    refine List.filterMap_eq_nil_iff.mpr fun f hf => ?_
    obtain ⟨scalar, declared⟩ := h f hf
    have numbered : f.2.2.toNat < 32 → f.2.2.toNat < st.nregs := declared
    simpa [scalar] using numbered
  rw [Strand.undeclared, noneBad]
  rfl

/-! ## The frame -/

theorem State.finish_faultTurn {s : State} {st : Strand} (here : s.strand? s.cur = some st) (m : Bool) (c : Nat) (d : Word) :
    s.finish s.cur m (.fault c d) = s.faultTurn s.cur c d (faultPc c st.regs.pc) := by
  simp only [State.finish, here]

/-- A word that user mode may run, whose registers are declared, and one of whose registers awaits a long result. -/
theorem State.issue_marker {s : State} {st : Strand} {u : Uses} {detail : Word} (here : s.strand? s.cur = some st)
    (user : u.priv = none) (declared : ∀ f ∈ u.fields, f.2.1 = false ∧ declaredS st f.2.2) (marker : st.marker u = some detail)
    (m : Bool) (body : Strand → Act) : s.issue m u body = .next (s.faultTurn s.cur 3 detail st.regs.pc) := by
  have refused : st.checked s s.cur u body = .fault 3 detail := by
    simp only [Strand.checked, user, ite_self, Strand.undeclared_of_declaredS declared, marker]
  rw [State.issue_next here, refused, State.finish_faultTurn here]
  rfl

/-! ## The register that a fault names -/

/-- q is read in role 2, so it comes before a d that awaits a result too. -/
theorem Strand.marker_sel {st : Strand} {d a b : Spec} (ha : st.outstanding false a = false) (hb : st.outstanding false b = false)
    (hq : st.outstanding false 40#6 = true) :
    st.marker { useAB d a b with readsQ := true } = some (BitVec.ofNat 64 (0x400 + 0x200 + 40)) := by
  cases hd : st.outstanding false d <;>
  · simp only [Strand.marker, Uses.fields, useAB, ha, hb, hd, hq, List.map_nil, List.append_nil, List.nil_append, List.cons_append,
      List.filterMap_nil, List.filterMap_cons, BitVec.ofNat_eq_ofNat, Bool.false_eq_true, if_true, if_false, Bool.false_and, Bool.and_true]
    split <;> rfl

/-- bins reads its d, in role 2. -/
theorem Strand.marker_bins {st : Strand} {d a : Spec} (ha : st.outstanding false a = false) (hd : st.outstanding false d = true) :
    st.marker { srcs := [(0, false, a), (2, false, d)], dst := some (false, d) } = some (BitVec.ofNat 64 (0x200 + d.toNat)) := by
  simp only [Strand.marker, Uses.fields, ha, hd, List.map_nil, List.append_nil, List.nil_append, List.cons_append, List.filterMap_nil,
    List.filterMap_cons, Bool.false_eq_true, if_true, if_false, Bool.false_and]
  split <;> simp [leastRole, Nat.add_comm]

/-- A compare of settled registers writes q, in role 3. -/
theorem Strand.marker_compare {st : Strand} {srcs : List (Nat × Bool × Spec)} (settled : ∀ f ∈ srcs, st.outstanding f.2.1 f.2.2 = false)
    (hq : st.outstanding false 40#6 = true) :
    st.marker { srcs, writesQ := true } = some (BitVec.ofNat 64 (0x400 + 0x300 + 40)) := by
  have noneNamed : (srcs.filterMap fun f => if st.outstanding f.2.1 f.2.2 then some (f.1, f.2.2.toNat, false) else none) = [] := by
    simpa [List.filterMap_eq_nil_iff] using settled
  simp only [Strand.marker, Uses.fields, hq, noneNamed, List.map_nil, List.append_nil, List.nil_append, List.filterMap_nil,
    BitVec.ofNat_eq_ofNat, Bool.false_eq_true, if_true, if_false, Bool.false_and, Bool.and_true]
  rfl

theorem Strand.marker_source {st : Strand} {a : Spec} (ha : st.outstanding false a = true) :
    st.marker { srcs := [(0, false, a)] } = some (BitVec.ofNat 64 a.toNat) := by
  simp [Strand.marker, Uses.fields, ha, leastRole]

/-! ## The words -/

section
variable {s : State} {st : Strand} {d a b : Spec} (here : s.strand? s.cur = some st) (declaredA : declaredS st a)
include here declaredA

theorem exec_sel_marker (declaredB : declaredS st b) (declaredD : declaredS st d) (settledA : ¬ waitsFor st a) (settledB : ¬ waitsFor st b)
    (awaitedQ : waitsFor st 40) (m : Bool) :
    exec (.sel m d a b) s = .next (s.faultTurn s.cur 3 (BitVec.ofNat 64 (0x400 + 0x200 + 40)) st.regs.pc) := by
  refine State.issue_marker here rfl ?declared (Strand.marker_sel ?a ?b (Strand.outstanding_of_waitsFor awaitedQ)) m _
  case declared => simp [Uses.fields, useAB, declaredA, declaredB, declaredD]
  case a => exact Strand.not_outstanding_of_not_waitsFor settledA
  case b => exact Strand.not_outstanding_of_not_waitsFor settledB

theorem exec_bins_marker (declaredD : declaredS st d) (settledA : ¬ waitsFor st a) (awaitedD : waitsFor st d) (m : Bool) (pos len : BitVec 6) :
    exec (.bins m d a pos len) s = .next (s.faultTurn s.cur 3 (BitVec.ofNat 64 (0x200 + d.toNat)) st.regs.pc) := by
  refine State.issue_marker here rfl ?declared (Strand.marker_bins ?a (Strand.outstanding_of_waitsFor awaitedD)) m _
  case declared => simp [Uses.fields, declaredA, declaredD]
  case a => exact Strand.not_outstanding_of_not_waitsFor settledA

theorem exec_cmpi_marker (settledA : ¬ waitsFor st a) (awaitedQ : waitsFor st 40) (m : Bool) (c : BitVec 3) (imm : BitVec 6) :
    exec (.cmpi m c 0 a imm) s = .next (s.faultTurn s.cur 3 (BitVec.ofNat 64 (0x400 + 0x300 + 40)) st.regs.pc) := by
  refine State.issue_marker here rfl ?declared (Strand.marker_compare ?sources (Strand.outstanding_of_waitsFor awaitedQ)) m _
  case declared => simp [Uses.fields, declaredA]
  case sources => simp [Strand.not_outstanding_of_not_waitsFor settledA]

theorem exec_cmp_marker (declaredB : declaredS st b) (settledA : ¬ waitsFor st a) (settledB : ¬ waitsFor st b) (awaitedQ : waitsFor st 40)
    (m : Bool) (c : BitVec 3) :
    exec (.cmp m c 0 a b) s = .next (s.faultTurn s.cur 3 (BitVec.ofNat 64 (0x400 + 0x300 + 40)) st.regs.pc) := by
  refine State.issue_marker here rfl ?declared (Strand.marker_compare ?sources (Strand.outstanding_of_waitsFor awaitedQ)) m _
  case declared => simp [Uses.fields, declaredA, declaredB]
  case sources => simp [Strand.not_outstanding_of_not_waitsFor settledA, Strand.not_outstanding_of_not_waitsFor settledB]

theorem exec_br_marker (awaitedA : waitsFor st a) (m : Bool) (c : BitVec 3) (disp : BitVec 15) :
    exec (.br m c a disp) s = .next (s.faultTurn s.cur 3 (BitVec.ofNat 64 a.toNat) st.regs.pc) := by
  refine State.issue_marker here rfl ?declared (Strand.marker_source (Strand.outstanding_of_waitsFor awaitedA)) m _
  simp [Uses.fields, declaredA]

end

end Sys2Proof.Machine
end

section
/-!
PROOF. What the operations of the scalar words compute, as spec/06 words it: shifts as products and quotients by powers of two, signed and
unsigned results through the integers that the operands stand for, fields bit by bit, and the conditions of Table 1.3.
-/

namespace Sys2Proof.Machine

/-! ## Table 6.3 -/

theorem shl64_eq (a : Word) (n : Nat) : shl64 a n = BitVec.ofNat 64 (a.toNat * 2 ^ n) := by
  have product : a <<< n = BitVec.ofNat 64 (a.toNat * 2 ^ n) := by
    rw [← Nat.shiftLeft_eq]
    rfl
  unfold shl64
  split
  case isTrue past => exact (BitVec.shiftLeft_eq_zero past).symm.trans product
  case isFalse within => exact product

theorem shr64_eq (a : Word) (n : Nat) : shr64 a n = BitVec.ofNat 64 (a.toNat / 2 ^ n) := by
  have quotient : a >>> n = BitVec.ofNat 64 (a.toNat / 2 ^ n) := by
    refine BitVec.eq_of_toNat_eq ?_
    rw [BitVec.toNat_ushiftRight, Nat.shiftRight_eq_div_pow, BitVec.toNat_ofNat,
      Nat.mod_eq_of_lt ((Nat.div_le_self _ _).trans_lt a.isLt)]
  unfold shr64
  split
  case isTrue past => exact (BitVec.ushiftRight_eq_zero past).symm.trans quotient
  case isFalse within => exact quotient

/-- An arithmetic shift by the whole width or more leaves copies of the sign. -/
theorem sshiftRight_of_le (a : Word) {n : Nat} (past : 64 ≤ n) :
    a.sshiftRight n = if a.msb then 0xFFFFFFFFFFFFFFFF else 0 := by
  have ones : (0xFFFFFFFFFFFFFFFF : Word) = BitVec.allOnes 64 := rfl
  ext i hi
  rw [BitVec.getElem_sshiftRight, dif_neg (by omega), ones]
  cases a.msb
  · exact (BitVec.getElem_zero hi).symm
  · exact (BitVec.getElem_allOnes i hi).symm

theorem sha64_eq (a : Word) (n : Nat) : sha64 a n = BitVec.ofInt 64 (a.toInt / 2 ^ n) := by
  have quotient : a.sshiftRight n = BitVec.ofInt 64 (a.toInt / 2 ^ n) := by
    rw [BitVec.sshiftRight, Int.shiftRight_eq_div_pow]
    norm_cast
  unfold sha64
  split
  case isTrue past => rw [← quotient, sshiftRight_of_le a past]
  case isFalse within => exact quotient

theorem ite_slt (a b x y : Word) : (if b.slt a then y else x) = if a.toInt ≤ b.toInt then x else y := by
  simp only [BitVec.slt, decide_eq_true_eq, ← not_le, ite_not]

theorem ite_ult (a b x y : Word) : (if b.ult a then y else x) = if a.toNat ≤ b.toNat then x else y := by
  simp only [BitVec.ult, decide_eq_true_eq, ← not_le, ite_not]

/-- The highest one bit of a, if it has one, is bit 63 - n. -/
theorem clz64_spec (a : Word) :
    ∃ n : Nat, clz64 a = BitVec.ofNat 64 n ∧ n ≤ 64 ∧ a.toNat < 2 ^ (64 - n) ∧ (n < 64 → 2 ^ (63 - n) ≤ a.toNat) := by
  unfold clz64
  split
  case isTrue zero => exact ⟨64, rfl, le_rfl, by simp [zero], fun h => absurd h (lt_irrefl _)⟩
  case isFalse nonzero =>
    have positive : a.toNat ≠ 0 := fun h => nonzero (BitVec.eq_of_toNat_eq h)
    have top : Nat.log2 a.toNat < 64 := (Nat.log2_lt positive).mpr a.isLt
    refine ⟨63 - Nat.log2 a.toNat, rfl, by omega, ?_, fun _ => ?_⟩
    · rw [show 64 - (63 - Nat.log2 a.toNat) = Nat.log2 a.toNat + 1 by omega]
      exact Nat.lt_log2_self
    · rw [show 63 - (63 - Nat.log2 a.toNat) = Nat.log2 a.toNat by omega]
      exact Nat.log2_self_le positive

/-- Counting by a fold adds the number of hits to what was counted before. -/
theorem foldl_count (p : Nat → Bool) (l : List Nat) (n : Word) :
    l.foldl (fun n i => if p i then n + 1 else n) n = n + BitVec.ofNat 64 (l.filter p).length := by
  induction l generalizing n with
  | nil => exact (BitVec.add_zero n).symm
  | cons i l ih =>
    rw [List.foldl_cons, ih]
    cases hit : p i
    case false => rw [List.filter_cons_of_neg (by simp [hit]), if_neg Bool.false_ne_true]
    case true =>
      rw [List.filter_cons_of_pos hit, if_pos rfl, List.length_cons, BitVec.ofNat_add, BitVec.add_assoc, BitVec.add_comm 1]
      rfl

theorem popc64_eq (a : Word) : popc64 a = BitVec.ofNat 64 ((List.range 64).filter fun i => a.getLsbD i).length :=
  (foldl_count a.getLsbD _ 0).trans (BitVec.zero_add _)

theorem ite_bne_zero (q x y : Word) : (if q != 0 then x else y) = if q = 0 then y else x := by
  simp only [bne_iff_ne, ne_eq, ite_not]

/-! ## Table 6.4 -/

theorem mul_eq_ofInt (a b : Word) : a * b = BitVec.ofInt 64 (a.toInt * b.toInt) := by
  rw [BitVec.ofInt_mul, BitVec.ofInt_toInt, BitVec.ofInt_toInt]

theorem mulHigh_signed (a b : Word) : mulHigh a b true = BitVec.ofInt 64 (a.toInt * b.toInt / 2 ^ 64) := by
  have product : a.signExtend 128 * b.signExtend 128 = BitVec.ofInt 128 (a.toInt * b.toInt) := (BitVec.ofInt_mul ..).symm
  refine BitVec.eq_of_toNat_eq ?_
  simp only [mulHigh, if_true, product, BitVec.extractLsb'_toNat, BitVec.toNat_ofInt, Nat.shiftRight_eq_div_pow]
  generalize a.toInt * b.toInt = p
  omega

theorem mulHigh_unsigned (a b : Word) : mulHigh a b false = BitVec.ofNat 64 (a.toNat * b.toNat / 2 ^ 64) := by
  have product : a.setWidth 128 * b.setWidth 128 = BitVec.ofNat 128 (a.toNat * b.toNat) := by
    rw [BitVec.ofNat_mul, BitVec.ofNat_toNat, BitVec.ofNat_toNat]
  refine BitVec.eq_of_toNat_eq ?_
  simp only [mulHigh, Bool.false_eq_true, if_false, product, BitVec.extractLsb'_toNat, BitVec.toNat_ofNat, Nat.shiftRight_eq_div_pow]
  generalize a.toNat * b.toNat = p
  omega

/-- The quotient of the most negative number by -1 has no 64-bit form and wraps, on both sides. -/
theorem sdiv_eq_ofInt (a b : Word) : a.sdiv b = BitVec.ofInt 64 (a.toInt.tdiv b.toInt) := by
  refine BitVec.eq_of_toInt_eq ?_
  rw [BitVec.toInt_sdiv, BitVec.toInt_ofInt]

theorem srem_eq_ofInt (a b : Word) : a.srem b = BitVec.ofInt 64 (a.toInt.tmod b.toInt) := by
  rw [← BitVec.toInt_srem, BitVec.ofInt_toInt]

/-! ## Immediates and bit fields -/

theorem sext64_eq {n : Nat} (x : BitVec n) : sext64 x = BitVec.ofInt 64 x.toInt := rfl

theorem add_sext64 {n : Nat} (a : Word) (x : BitVec n) : a + sext64 x = BitVec.ofInt 64 (a.toInt + x.toInt) := by
  rw [BitVec.ofInt_add, BitVec.ofInt_toInt, sext64_eq]

theorem sext64_mul {n : Nat} (x : BitVec n) : sext64 x * 4096 = BitVec.ofInt 64 (x.toInt * 4096) := by
  rw [BitVec.ofInt_mul, sext64_eq]
  rfl

theorem dispTarget_eq {n : Nat} (pc : Word) (x : BitVec n) : dispTarget pc x = pc + BitVec.ofInt 64 (4 * x.toInt) := by
  rw [dispTarget, sext64_eq, BitVec.ofInt_mul]
  rfl

theorem getLsbD_insertField (old a : Word) {pos len : BitVec 6} {i : Nat} (word : i < 64) :
    (insertField old a pos len).getLsbD i =
      if pos.toNat ≤ i ∧ i < pos.toNat + len.toNat + 1 then a.getLsbD (i - pos.toNat) else old.getLsbD i := by
  simp only [insertField, BitVec.getLsbD_or, BitVec.getLsbD_and, BitVec.getLsbD_not, BitVec.getLsbD_ofNat, Nat.testBit_mul_two_pow,
    Nat.testBit_two_pow_sub_one, Nat.testBit_mod_two_pow, word, decide_true, Bool.true_and, BitVec.testBit_toNat]
  by_cases inside : pos.toNat ≤ i ∧ i < pos.toNat + len.toNat + 1
  · have offset : i - pos.toNat < len.toNat + 1 := by omega
    simp only [inside, offset, decide_true, true_and, if_true, Bool.true_and, Bool.not_true, Bool.and_false, Bool.false_or]
  · have outside : (decide (pos.toNat ≤ i) && decide (i - pos.toNat < len.toNat + 1)) = false := by
      rw [← Bool.decide_and, decide_eq_false_iff_not]
      omega
    rw [if_neg inside, ← Bool.and_assoc, outside, Bool.not_false, Bool.and_true, Bool.false_and, Bool.or_false]

/-! ## Table 1.3 -/

theorem intCond_eq {c : BitVec 3} (allowed : c.toNat ≤ 5) (a b : Word) : intCond c a b = condition c a b := by
  have code : c = 0 ∨ c = 1 ∨ c = 2 ∨ c = 3 ∨ c = 4 ∨ c = 5 := by decide +revert
  rcases code with rfl | rfl | rfl | rfl | rfl | rfl
  · exact beq_eq_decide a b
  · exact (congrArg not (beq_eq_decide a b)).trans (decide_not ..).symm
  · rfl
  · exact (decide_not ..).symm.trans (decide_eq_decide.mpr not_lt)
  · rfl
  · exact (decide_not ..).symm.trans (decide_eq_decide.mpr not_lt)

theorem ite_intCond {c : BitVec 3} (allowed : c.toNat ≤ 5) (a b x y : Word) :
    (if intCond c a b then x else y) = if condition c a b then x else y := by
  rw [intCond_eq allowed]

end Sys2Proof.Machine
end

section
/-!
PROOF. The statements on scalar integer instructions, comparisons, branches and calls (spec/06): a clear word comes to its own effect
(State.issue_clear), and that effect computes what the tables say.
-/

namespace Sys2Proof.Machine

/-! ## The effects -/

theorem State.issue_effect {s t : State} {st : Strand} {u : Uses} {m : Bool} {body : Strand → Act} (clear : s.Clear st u)
    (effect : s.finish s.cur m (body st) = t) : s.issue m u body = .next t := by
  rw [State.issue_clear clear, effect]

/-- A clear word whose whole effect is a short scalar result, with the result in the tables' words. -/
theorem State.alu_result {s : State} {st : Strand} {u : Uses} {f : Strand → Word} {v : Word} (clear : s.Clear st u) (m : Bool) (d : Spec)
    (value : f st = v) : s.alu m u d f = .next (s.completes m (st.putS d v)) := by
  rw [State.alu_clear clear, value]

/-- The strand after a compare: q holds the truth, or the next words are annulled. -/
theorem State.finish_compared (s : State) (st : Strand) (m : Bool) (k : BitVec 2) {h truth : Bool} (holds : h = truth) :
    s.finish s.cur m (s.compared st k h) = s.completes m
      (if k = 0 then { st with regs := { st.regs with q := if truth then 1 else 0 } }
       else if truth then st else { st with regs := { st.regs with skipn := k } }) := by
  rw [← holds, State.compared]
  split <;> exact State.finish_put ..

theorem exec_calli_clear {s : State} {st : Strand} {d a : Spec} (clear : s.Clear st (useA d a)) (m : Bool) (imm : BitVec 12) :
    exec (.calli m d a imm) s =
      .next (if (st.rs a + sext64 imm).toNat % 4 = 0 then s.jumps m (st.putS d (st.regs.pc + 4)) (st.rs a + sext64 imm)
        else s.faultTurn s.cur 7 (st.rs a + sext64 imm) st.regs.pc) := by
  refine State.issue_effect clear ?_
  simp only [bne_iff_ne, ne_eq, ite_not]
  split
  case isTrue aligned => exact State.finish_put_jump ..
  case isFalse misaligned => exact State.finish_faultTurn clear.here m 7 _

/-! ## The statements -/

/-- Settles O4: each result is its operation's value, clz by the highest one bit and popc by the fold that counts. -/
theorem integerResults : Obligations.IntegerResults := by
  refine ⟨?ab, fun s st m d a b => ⟨?sel, ?count, ?marker⟩, illegal_integer_fn, illegal_count_b⟩
  case ab =>
    intro s st m d a b clear A B
    refine ⟨?add, ?sub, ?and, ?or, ?xor, ?shl, ?shr, ?sha, ?min, ?max, ?minn, ?maxn⟩
    case add | sub | and | or | xor => exact State.alu_clear clear m d _
    case shl => exact State.alu_result clear m d (shl64_eq A _)
    case shr => exact State.alu_result clear m d (shr64_eq A _)
    case sha => exact State.alu_result clear m d (sha64_eq A _)
    case min => exact State.alu_result clear m d (ite_slt A B A B)
    case max => exact State.alu_result clear m d (ite_slt B A A B)
    case minn => exact State.alu_result clear m d (ite_ult A B A B)
    case maxn => exact State.alu_result clear m d (ite_ult B A A B)
  case sel => exact fun clear => State.alu_result clear m d (ite_bne_zero ..)
  case count =>
    intro clear
    obtain ⟨n, value, bounds⟩ := clz64_spec (st.rs a)
    exact ⟨⟨n, State.alu_result clear m d value, bounds⟩, State.alu_result clear m d (popc64_eq _)⟩
  case marker =>
    exact fun here declaredA declaredB declaredD settledA settledB awaitedQ =>
      exec_sel_marker here declaredA declaredB declaredD settledA settledB awaitedQ m

/-- Settles O5: products and quotients of words are those of the integers they stand for. -/
theorem multiplyDivide : Obligations.MultiplyDivide := by
  refine ⟨illegal_multiply_fn, ?_⟩
  intro s st m d a b clear A B
  have quotient {x y : Word} (x' : Word) (h : x = y) : (if B = 0 then x' else x) = if B = 0 then x' else y := by rw [h]
  refine ⟨?mul, ?mulh, ?mulhn, ?div, ?divn, ?rem, ?remn⟩
  case mul => exact State.alu_result clear m d (mul_eq_ofInt A B)
  case mulh => exact State.alu_result clear m d (mulHigh_signed A B)
  case mulhn => exact State.alu_result clear m d (mulHigh_unsigned A B)
  case div => exact State.alu_result clear m d (quotient _ (sdiv_eq_ofInt A B))
  case divn => exact State.alu_result clear m d (quotient _ BitVec.udiv_def)
  case rem => exact State.alu_result clear m d (quotient _ (srem_eq_ofInt A B))
  case remn => exact State.alu_result clear m d (quotient _ BitVec.umod_def)

/-- Settles O6: sign extension is the integer of the immediate, and bins is given bit by bit. -/
theorem immediateResults : Obligations.ImmediateResults := by
  refine ⟨illegal_shift_fn, illegal_bext_range, illegal_bins_range, ?marker, fun s st m d a => ⟨?immediate, ?constant, ?insert⟩⟩
  case marker =>
    exact fun s st m d a pos len here declaredA declaredD settledA awaitedD =>
      exec_bins_marker here declaredA declaredD settledA awaitedD m pos len
  case immediate =>
    intro clear imm sh pos len
    refine ⟨?addi, ?andi, ?ori, ?xori, ?shli, ?shri, ?shai, ?bext⟩
    case addi => exact State.alu_result clear m d (add_sext64 _ imm)
    case andi | ori | xori | bext => exact State.alu_clear clear m d _
    case shli => exact State.alu_result clear m d (shl64_eq ..)
    case shri => exact State.alu_result clear m d (shr64_eq ..)
    case shai => exact State.alu_result clear m d (sha64_eq ..)
  case constant =>
    exact fun clear imm => ⟨State.alu_result clear m d (sext64_mul imm), State.alu_result clear m d (dispTarget_eq _ imm)⟩
  case insert =>
    exact fun clear pos len _ => ⟨_, State.alu_clear clear m d _, fun i word => getLsbD_insertField _ _ word⟩

/-- Settles O7: the condition is that of Table 1.3, and a compare changes q or SKIPN alone. -/
theorem comparisons : Obligations.Comparisons := by
  refine ⟨illegal_compare_fn, illegal_compare_cond, illegal_set_fn, illegal_set_cond, ?marker, ?effect⟩
  case marker =>
    exact fun s st m c a b imm here declaredA settledA awaitedQ =>
      ⟨exec_cmpi_marker here declaredA settledA awaitedQ m c imm,
        fun declaredB settledB => exec_cmp_marker here declaredA declaredB settledA settledB awaitedQ m c⟩
  case effect =>
    intro s st m c k d a b imm allowed effect I
    refine ⟨fun clear => ?cmp, fun clear => ?cmpi, fun clear => ?set, fun clear => ?seti⟩
    case cmp => exact State.issue_effect clear (State.finish_compared s st m k (intCond_eq allowed ..))
    case cmpi => exact State.issue_effect clear (State.finish_compared s st m k (intCond_eq allowed ..))
    case set => exact State.alu_result clear m d (ite_intCond allowed ..)
    case seti => exact State.alu_result clear m d (ite_intCond allowed ..)

/-- Settles O8: each word jumps to its target or completes, and calli looks at its target before it writes the link. -/
theorem branchesAndCalls : Obligations.BranchesAndCalls := by
  refine ⟨illegal_branch_cond, illegal_jump_d, ?marker, fun s st m d a c d15 d18 imm => ⟨?br, ?j, ?call, ?calli⟩⟩
  case marker => exact fun s st m c a disp here declaredA awaitedA => exec_br_marker here declaredA awaitedA m c disp
  case br =>
    intro clear allowed
    refine State.issue_effect clear ?_
    rw [intCond_eq allowed, dispTarget_eq]
    split
    · exact State.finish_same_jump clear.here m _
    · exact State.finish_same clear.here m
  case j =>
    intro clear
    refine State.issue_effect clear ?_
    rw [dispTarget_eq, State.finish_same_jump clear.here]
  case call =>
    intro clear
    refine State.issue_effect clear ?_
    rw [dispTarget_eq, State.finish_put_jump]
  case calli => exact fun clear => exec_calli_clear clear m imm

end Sys2Proof.Machine
end

section
/-!
PROOF. Decoding inverts encoding (R14 to R28, R30).
-/

namespace Sys2Proof

/- Checked one after another, as the model's tests are: side by side the proofs of this text want more memory than check.sh allows. -/
set_option Elab.async false

/-! ## The fields of a word put together in a format of Table 1.1 -/

section
open BitVec (extractLsb'_append_eq_left extractLsb'_append_eq_right getLsbD_append)

variable (m : Bool) (fn b a d : BitVec 6) (op : BitVec 7) (imm : BitVec 12) (cond : BitVec 3) (sk : BitVec 2) (x : BitVec 1)
  (disp : BitVec 15) (imm18 : BitVec 18) (row : BitVec 8) (col : BitVec 4)

/-- A field that lies above the lowest part of a word. -/
theorem above {v w start len : Nat} {hi : BitVec v} {lo : BitVec w} (h : w ≤ start) :
    (hi ++ lo).extractLsb' start len = hi.extractLsb' (start - w) len := BitVec.extractLsb'_append_eq_of_le h

@[simp] theorem fOp_encA : fOp (encA m fn b a d op) = op := extractLsb'_append_eq_right
@[simp] theorem fM_encA : fM (encA m fn b a d op) = m := by
  rw [fM, encA, getLsbD_append, getLsbD_append, getLsbD_append, getLsbD_append, getLsbD_append]
  cases m <;> rfl
@[simp] theorem fFn_encA : fFn (encA m fn b a d op) = fn := by
  rw [fFn, encA, above (by decide), above (by decide), above (by decide), above (by decide)]
  exact extractLsb'_append_eq_right
@[simp] theorem fB_encA : fB (encA m fn b a d op) = b := by
  rw [fB, encA, above (by decide), above (by decide), above (by decide)]
  exact extractLsb'_append_eq_right
@[simp] theorem fA_encA : fA (encA m fn b a d op) = a := by
  rw [fA, encA, above (by decide), above (by decide)]
  exact extractLsb'_append_eq_right
@[simp] theorem fD_encA : fD (encA m fn b a d op) = d := by
  rw [fD, encA, above (by decide)]
  exact extractLsb'_append_eq_right

@[simp] theorem fOp_encI : fOp (encI m imm a d op) = op := extractLsb'_append_eq_right
@[simp] theorem fM_encI : fM (encI m imm a d op) = m := by
  rw [fM, encI, getLsbD_append, getLsbD_append, getLsbD_append, getLsbD_append]
  cases m <;> rfl
@[simp] theorem fImm12_encI : fImm12 (encI m imm a d op) = imm := by
  rw [fImm12, encI, above (by decide), above (by decide), above (by decide)]
  exact extractLsb'_append_eq_right
@[simp] theorem fA_encI : fA (encI m imm a d op) = a := by
  rw [fA, encI, above (by decide), above (by decide)]
  exact extractLsb'_append_eq_right
@[simp] theorem fD_encI : fD (encI m imm a d op) = d := by
  rw [fD, encI, above (by decide)]
  exact extractLsb'_append_eq_right

@[simp] theorem fOp_encS : fOp (encS m imm b a op) = op := extractLsb'_append_eq_right
@[simp] theorem fM_encS : fM (encS m imm b a op) = m := by
  rw [fM, encS, getLsbD_append, getLsbD_append, getLsbD_append, getLsbD_append, getLsbD_append]
  cases m <;> rfl
@[simp] theorem fB_encS : fB (encS m imm b a op) = b := by
  rw [fB, encS, above (by decide), above (by decide), above (by decide)]
  exact extractLsb'_append_eq_right
@[simp] theorem fA_encS : fA (encS m imm b a op) = a := by
  rw [fA, encS, above (by decide), above (by decide)]
  exact extractLsb'_append_eq_right

@[simp] theorem fOp_encK : fOp (encK m cond sk x b a fn op) = op := extractLsb'_append_eq_right
@[simp] theorem fM_encK : fM (encK m cond sk x b a fn op) = m := by
  rw [fM, encK, getLsbD_append, getLsbD_append, getLsbD_append, getLsbD_append, getLsbD_append, getLsbD_append, getLsbD_append]
  cases m <;> rfl
@[simp] theorem kCond_encK : kCond (encK m cond sk x b a fn op) = cond := by
  rw [kCond, encK, above (by decide), above (by decide), above (by decide), above (by decide), above (by decide), above (by decide)]
  exact extractLsb'_append_eq_right
@[simp] theorem kSk_encK : kSk (encK m cond sk x b a fn op) = sk := by
  rw [kSk, encK, above (by decide), above (by decide), above (by decide), above (by decide), above (by decide)]
  exact extractLsb'_append_eq_right
@[simp] theorem fB_encK : fB (encK m cond sk x b a fn op) = b := by
  rw [fB, encK, above (by decide), above (by decide), above (by decide)]
  exact extractLsb'_append_eq_right
@[simp] theorem fA_encK : fA (encK m cond sk x b a fn op) = a := by
  rw [fA, encK, above (by decide), above (by decide)]
  exact extractLsb'_append_eq_right
@[simp] theorem fD_encK : fD (encK m cond sk x b a fn op) = fn := by
  rw [fD, encK, above (by decide)]
  exact extractLsb'_append_eq_right

@[simp] theorem fOp_encB : fOp (encB m disp a cond op) = op := extractLsb'_append_eq_right
@[simp] theorem fM_encB : fM (encB m disp a cond op) = m := by
  rw [fM, encB, getLsbD_append, getLsbD_append, getLsbD_append, getLsbD_append]
  cases m <;> rfl
@[simp] theorem bDisp_encB : bDisp (encB m disp a cond op) = disp := by
  rw [bDisp, encB, above (by decide), above (by decide), above (by decide)]
  exact extractLsb'_append_eq_right
@[simp] theorem bA_encB : bA (encB m disp a cond op) = a := by
  rw [bA, encB, above (by decide), above (by decide)]
  exact extractLsb'_append_eq_right
@[simp] theorem bCond_encB : bCond (encB m disp a cond op) = cond := by
  rw [bCond, encB, above (by decide)]
  exact extractLsb'_append_eq_right

@[simp] theorem fOp_encJ : fOp (encJ m imm18 d op) = op := extractLsb'_append_eq_right
@[simp] theorem fM_encJ : fM (encJ m imm18 d op) = m := by
  rw [fM, encJ, getLsbD_append, getLsbD_append, getLsbD_append]
  cases m <;> rfl
@[simp] theorem fImm18_encJ : fImm18 (encJ m imm18 d op) = imm18 := by
  rw [fImm18, encJ, above (by decide), above (by decide)]
  exact extractLsb'_append_eq_right
@[simp] theorem fD_encJ : fD (encJ m imm18 d op) = d := by
  rw [fD, encJ, above (by decide)]
  exact extractLsb'_append_eq_right

@[simp] theorem fOp_encC : fOp (encC m row col a d op) = op := extractLsb'_append_eq_right
@[simp] theorem fM_encC : fM (encC m row col a d op) = m := by
  rw [fM, encC, getLsbD_append, getLsbD_append, getLsbD_append, getLsbD_append, getLsbD_append]
  cases m <;> rfl
@[simp] theorem cRow_encC : cRow (encC m row col a d op) = row := by
  rw [cRow, encC, above (by decide), above (by decide), above (by decide), above (by decide)]
  exact extractLsb'_append_eq_right
@[simp] theorem cCol_encC : cCol (encC m row col a d op) = col := by
  rw [cCol, encC, above (by decide), above (by decide), above (by decide)]
  exact extractLsb'_append_eq_right
@[simp] theorem fA_encC : fA (encC m row col a d op) = a := by
  rw [fA, encC, above (by decide), above (by decide)]
  exact extractLsb'_append_eq_right
@[simp] theorem fD_encC : fD (encC m row col a d op) = d := by
  rw [fD, encC, above (by decide)]
  exact extractLsb'_append_eq_right

@[simp] theorem fImmS_encS : fImmS (encS m imm b a op) = imm := by
  have high : (encS m imm b a op).extractLsb' 25 6 = imm.extractLsb' 6 6 := by
    rw [encS, above (by decide), above (by decide), above (by decide), above (by decide)]
    exact extractLsb'_append_eq_right
  have low : (encS m imm b a op).extractLsb' 7 6 = imm.extractLsb' 0 6 := by
    rw [encS, above (by decide)]
    exact extractLsb'_append_eq_right
  rw [fImmS, high, low]
  exact BitVec.extractLsb'_append_extractLsb'
@[simp] theorem kX_encK : kX (encK m cond sk x b a fn op) = (x == 1#1) := by
  rw [kX, BitVec.getLsbD_eq_extractLsb', encK, above (by decide), above (by decide), above (by decide), above (by decide)]
  exact congrArg (· == 1#1) extractLsb'_append_eq_right

end


/-! ## The parts of a field of six or twelve bits -/

section
open BitVec (extractLsb'_append_eq_left extractLsb'_append_eq_right)

variable (z : BitVec 1) (x y : BitVec 2) (u v : BitVec 3) (t : BitVec 4) (p : BitVec 5) (k l : BitVec 6) (off : BitVec 9)

@[simp] theorem parts_3_3 : (u ++ v : BitVec 6).extractLsb' 3 3 = u ∧ (u ++ v : BitVec 6).extractLsb' 0 3 = v :=
  ⟨extractLsb'_append_eq_left, extractLsb'_append_eq_right⟩
@[simp] theorem parts_2_4 : (x ++ t : BitVec 6).extractLsb' 4 2 = x ∧ (x ++ t : BitVec 6).extractLsb' 0 4 = t :=
  ⟨extractLsb'_append_eq_left, extractLsb'_append_eq_right⟩
@[simp] theorem parts_4_2 : (t ++ x : BitVec 6).extractLsb' 2 4 = t ∧ (t ++ x : BitVec 6).extractLsb' 0 2 = x :=
  ⟨extractLsb'_append_eq_left, extractLsb'_append_eq_right⟩
@[simp] theorem parts_5_1 : (p ++ z : BitVec 6).extractLsb' 1 5 = p ∧ (p ++ z : BitVec 6).extractLsb' 0 1 = z :=
  ⟨extractLsb'_append_eq_left, extractLsb'_append_eq_right⟩
@[simp] theorem parts_1_5 : (z ++ p : BitVec 6).extractLsb' 0 5 = p := extractLsb'_append_eq_right
@[simp] theorem parts_6_6 : (k ++ l : BitVec 12).extractLsb' 6 6 = k ∧ (k ++ l : BitVec 12).extractLsb' 0 6 = l :=
  ⟨extractLsb'_append_eq_left, extractLsb'_append_eq_right⟩
@[simp] theorem parts_9_3 : (off ++ u : BitVec 12).extractLsb' 3 9 = off ∧ (off ++ u : BitVec 12).extractLsb' 0 3 = u :=
  ⟨extractLsb'_append_eq_left, extractLsb'_append_eq_right⟩

@[simp] theorem parts_4_1_1 : (t ++ 0#1 ++ z : BitVec 6).extractLsb' 2 4 = t ∧ (t ++ 0#1 ++ z : BitVec 6).getLsbD 1 = false ∧
    (t ++ 0#1 ++ z : BitVec 6).extractLsb' 0 1 = z := by decide +revert
@[simp] theorem parts_1_1_4 : (z ++ 0#1 ++ t : BitVec 6).extractLsb' 5 1 = z ∧ (z ++ 0#1 ++ t : BitVec 6).getLsbD 4 = false ∧
    (z ++ 0#1 ++ t : BitVec 6).extractLsb' 0 4 = t := by decide +revert
@[simp] theorem parts_2_2_2 : (x ++ 0#2 ++ y : BitVec 6).extractLsb' 4 2 = x ∧ (x ++ 0#2 ++ y : BitVec 6).extractLsb' 2 2 = 0#2 ∧
    (x ++ 0#2 ++ y : BitVec 6).extractLsb' 0 2 = y := by decide +revert
@[simp] theorem parts_2_1_3 : (x ++ 1#1 ++ u : BitVec 6).extractLsb' 4 2 = x ∧ (x ++ 1#1 ++ u : BitVec 6).getLsbD 3 = true ∧
    (x ++ 1#1 ++ u : BitVec 6).extractLsb' 0 3 = u := by decide +revert

@[simp] theorem getLsbD_zero_append_5 : (0#1 ++ p : BitVec 6).getLsbD 5 = false ∧ (0#1 ++ p : BitVec 6).toNat < 32 := by decide +revert
@[simp] theorem toNat_zero_append_2 : (0#4 ++ x : BitVec 6).toNat < 4 := by decide +revert
@[simp] theorem toNat_zero_append_3 : (0#3 ++ u : BitVec 6).toNat < 8 := by decide +revert
@[simp] theorem extractLsb'_zero_append_2 : (0#4 ++ x : BitVec 6).extractLsb' 4 2 = 0#2 ∧ (0#4 ++ x : BitVec 6).extractLsb' 2 2 = 0#2 := by decide +revert
/-- FN of set and seti. -/
@[simp] theorem extractLsb'_append_3 : (0#3 ++ u : BitVec 6).extractLsb' 4 2 = 0#2 ∧ (0#3 ++ u : BitVec 6).getLsbD 3 = false ∧
  (1#3 ++ u : BitVec 6).extractLsb' 4 2 = 0#2 ∧ (1#3 ++ u : BitVec 6).getLsbD 3 = true := by decide +revert
end

theorem lowestReason_of_all {cs : List (Bool × Nat)} (h : cs.all (·.1) = true) : lowestReason cs = none := by
  induction cs with
  | nil => rfl
  | cons c cs ih =>
    rw [List.all_cons, Bool.and_eq_true] at h
    obtain ⟨hc, hcs⟩ := h
    rw [lowestReason, List.foldl_cons, if_pos hc]
    exact ih hcs

/-- A word all of whose conditions hold is its instruction. -/
theorem fin_ok {i : Instr} (wf : i.wellFormed = true) (pre : List (Bool × Nat)) (unused : pre.all (·.1) = true) : fin pre i = .ok i := by
  rw [fin, lowestReason_of_all]
  rw [List.all_append, unused]
  exact wf


/-! ## Encoding, then decoding: the groups of major opcodes of Tables 1.6 to 1.19 -/

section
variable {i : Instr} {w : BitVec 32} (enc : encode i = some w) (wf : i.wellFormed = true)
include enc wf

theorem decodeFields_of_encode_scalar (hi : (fOp w).toNat ≤ 0x17) : decodeFields w = .ok i := by
  cases i
  all_goals cases enc
  all_goals simp at hi
  all_goals simp [decodeFields, -BitVec.reduceAppend, -BitVec.getLsbD_eq_getElem]
  all_goals exact fin_ok wf _ (by rfl)

theorem decodeFields_of_encode_float (lo : 0x18 ≤ (fOp w).toNat) (hi : (fOp w).toNat ≤ 0x1f) : decodeFields w = .ok i := by
  cases i
  all_goals cases enc
  all_goals simp at lo hi
  all_goals simp [decodeFields, -BitVec.reduceAppend, -BitVec.getLsbD_eq_getElem]
  all_goals exact fin_ok wf _ (by rfl)

theorem decodeFields_of_encode_memory (lo : 0x20 ≤ (fOp w).toNat) (hi : (fOp w).toNat ≤ 0x2b) : decodeFields w = .ok i := by
  cases i
  all_goals cases enc
  all_goals simp at lo hi
  all_goals simp [decodeFields, -BitVec.reduceAppend, -BitVec.getLsbD_eq_getElem]
  all_goals exact fin_ok wf _ (by rfl)

theorem decodeFields_of_encode_atomic (lo : 0x2c ≤ (fOp w).toNat) (hi : (fOp w).toNat ≤ 0x2e) : decodeFields w = .ok i := by
  cases i
  all_goals cases enc
  all_goals simp at lo hi
  all_goals simp [decodeFields, -BitVec.reduceAppend, -BitVec.getLsbD_eq_getElem]
  all_goals exact fin_ok wf _ (by rfl)

theorem decodeFields_of_encode_transaction (lo : 0x2f ≤ (fOp w).toNat) (hi : (fOp w).toNat ≤ 0x33) : decodeFields w = .ok i := by
  cases i
  all_goals cases enc
  all_goals simp at lo hi
  all_goals simp [decodeFields, -BitVec.reduceAppend, -BitVec.getLsbD_eq_getElem]
  all_goals exact fin_ok wf _ (by rfl)

theorem decodeFields_of_encode_transfer (lo : 0x34 ≤ (fOp w).toNat) (hi : (fOp w).toNat ≤ 0x3b) : decodeFields w = .ok i := by
  cases i
  all_goals cases enc
  all_goals simp at lo hi
  all_goals simp [decodeFields, -BitVec.reduceAppend, -BitVec.getLsbD_eq_getElem]
  all_goals exact fin_ok wf _ (by rfl)

theorem decodeFields_of_encode_vectorFloat (lo : 0x3c ≤ (fOp w).toNat) (hi : (fOp w).toNat ≤ 0x45) : decodeFields w = .ok i := by
  cases i
  all_goals cases enc
  all_goals simp at lo hi
  all_goals simp [decodeFields, -BitVec.reduceAppend, -BitVec.getLsbD_eq_getElem]
  all_goals exact fin_ok wf _ (by rfl)

theorem decodeFields_of_encode_vectorCompare (lo : 0x46 ≤ (fOp w).toNat) (hi : (fOp w).toNat ≤ 0x48) : decodeFields w = .ok i := by
  cases i
  all_goals cases enc
  all_goals simp at lo hi
  all_goals simp [decodeFields, -BitVec.reduceAppend, -BitVec.getLsbD_eq_getElem]
  all_goals exact fin_ok wf _ (by rfl)

theorem decodeFields_of_encode_vectorMove (lo : 0x49 ≤ (fOp w).toNat) (hi : (fOp w).toNat ≤ 0x4b) : decodeFields w = .ok i := by
  cases i
  all_goals cases enc
  all_goals simp at lo hi
  all_goals simp [decodeFields, -BitVec.reduceAppend, -BitVec.getLsbD_eq_getElem]
  all_goals exact fin_ok wf _ (by rfl)

theorem decodeFields_of_encode_vectorInteger (lo : 0x4c ≤ (fOp w).toNat) (hi : (fOp w).toNat ≤ 0x4f) : decodeFields w = .ok i := by
  cases i
  all_goals cases enc
  all_goals simp at lo hi
  all_goals simp [decodeFields, -BitVec.reduceAppend, -BitVec.getLsbD_eq_getElem]
  all_goals exact fin_ok wf _ (by rfl)

theorem decodeFields_of_encode_conversion (lo : 0x50 ≤ (fOp w).toNat) (hi : (fOp w).toNat ≤ 0x57) : decodeFields w = .ok i := by
  cases i
  all_goals cases enc
  all_goals simp at lo hi
  all_goals simp [decodeFields, -BitVec.reduceAppend, -BitVec.getLsbD_eq_getElem]
  all_goals exact fin_ok wf _ (by rfl)

theorem decodeFields_of_encode_matrix (lo : 0x58 ≤ (fOp w).toNat) (hi : (fOp w).toNat ≤ 0x5f) : decodeFields w = .ok i := by
  cases i
  all_goals cases enc
  all_goals simp at lo hi
  all_goals simp [decodeFields, -BitVec.reduceAppend, -BitVec.getLsbD_eq_getElem]
  all_goals exact fin_ok wf _ (by rfl)

theorem decodeFields_of_encode_cell (lo : 0x60 ≤ (fOp w).toNat) (hi : (fOp w).toNat ≤ 0x67) : decodeFields w = .ok i := by
  cases i
  all_goals cases enc
  all_goals simp at lo hi
  all_goals simp [decodeFields, -BitVec.reduceAppend, -BitVec.getLsbD_eq_getElem]
  all_goals exact fin_ok wf _ (by rfl)

theorem decodeFields_of_encode_execution (lo : 0x68 ≤ (fOp w).toNat) (hi : (fOp w).toNat ≤ 0x6f) : decodeFields w = .ok i := by
  cases i
  all_goals cases enc
  all_goals simp at lo hi
  all_goals simp [decodeFields, -BitVec.reduceAppend, -BitVec.getLsbD_eq_getElem]
  all_goals exact fin_ok wf _ (by rfl)

theorem decodeFields_of_encode_network (lo : 0x70 ≤ (fOp w).toNat) (hi : (fOp w).toNat ≤ 0x77) : decodeFields w = .ok i := by
  cases i
  all_goals cases enc
  all_goals simp at lo hi
  all_goals simp [decodeFields, -BitVec.reduceAppend, -BitVec.getLsbD_eq_getElem]
  all_goals exact fin_ok wf _ (by rfl)

theorem decodeFields_of_encode_system (lo : 0x78 ≤ (fOp w).toNat) : decodeFields w = .ok i := by
  cases i
  all_goals cases enc
  all_goals simp at lo
  all_goals simp [decodeFields, -BitVec.reduceAppend, -BitVec.getLsbD_eq_getElem]
  all_goals exact fin_ok wf _ (by rfl)

theorem decodeFields_of_encode : decodeFields w = .ok i := by
  have ranges : (fOp w).toNat ≤ 0x17 ∨
      (0x18 ≤ (fOp w).toNat ∧ (fOp w).toNat ≤ 0x1f) ∨
      (0x20 ≤ (fOp w).toNat ∧ (fOp w).toNat ≤ 0x2b) ∨
      (0x2c ≤ (fOp w).toNat ∧ (fOp w).toNat ≤ 0x2e) ∨
      (0x2f ≤ (fOp w).toNat ∧ (fOp w).toNat ≤ 0x33) ∨
      (0x34 ≤ (fOp w).toNat ∧ (fOp w).toNat ≤ 0x3b) ∨
      (0x3c ≤ (fOp w).toNat ∧ (fOp w).toNat ≤ 0x45) ∨
      (0x46 ≤ (fOp w).toNat ∧ (fOp w).toNat ≤ 0x48) ∨
      (0x49 ≤ (fOp w).toNat ∧ (fOp w).toNat ≤ 0x4b) ∨
      (0x4c ≤ (fOp w).toNat ∧ (fOp w).toNat ≤ 0x4f) ∨
      (0x50 ≤ (fOp w).toNat ∧ (fOp w).toNat ≤ 0x57) ∨
      (0x58 ≤ (fOp w).toNat ∧ (fOp w).toNat ≤ 0x5f) ∨
      (0x60 ≤ (fOp w).toNat ∧ (fOp w).toNat ≤ 0x67) ∨
      (0x68 ≤ (fOp w).toNat ∧ (fOp w).toNat ≤ 0x6f) ∨
      (0x70 ≤ (fOp w).toNat ∧ (fOp w).toNat ≤ 0x77) ∨
      0x78 ≤ (fOp w).toNat := by
    omega
  rcases ranges with hi | ⟨lo, hi⟩ | ⟨lo, hi⟩ | ⟨lo, hi⟩ | ⟨lo, hi⟩ | ⟨lo, hi⟩ | ⟨lo, hi⟩ | ⟨lo, hi⟩ | ⟨lo, hi⟩ | ⟨lo, hi⟩ | ⟨lo, hi⟩ | ⟨lo, hi⟩ | ⟨lo, hi⟩ | ⟨lo, hi⟩ | ⟨lo, hi⟩ | lo
  · exact decodeFields_of_encode_scalar enc wf hi
  · exact decodeFields_of_encode_float enc wf lo hi
  · exact decodeFields_of_encode_memory enc wf lo hi
  · exact decodeFields_of_encode_atomic enc wf lo hi
  · exact decodeFields_of_encode_transaction enc wf lo hi
  · exact decodeFields_of_encode_transfer enc wf lo hi
  · exact decodeFields_of_encode_vectorFloat enc wf lo hi
  · exact decodeFields_of_encode_vectorCompare enc wf lo hi
  · exact decodeFields_of_encode_vectorMove enc wf lo hi
  · exact decodeFields_of_encode_vectorInteger enc wf lo hi
  · exact decodeFields_of_encode_conversion enc wf lo hi
  · exact decodeFields_of_encode_matrix enc wf lo hi
  · exact decodeFields_of_encode_cell enc wf lo hi
  · exact decodeFields_of_encode_execution enc wf lo hi
  · exact decodeFields_of_encode_network enc wf lo hi
  · exact decodeFields_of_encode_system enc wf lo

end

/-- Settles O1: the word's fields are the instruction's operands, so the decoder finds the same instruction, and a well-formed one passes. -/
theorem decodeOfEncode : Obligations.DecodeOfEncode := by
  intro k i w enc wf legal noLfsr
  rw [decodeFor, decodeFields_of_encode enc wf]
  simp [legal, noLfsr]

end Sys2Proof
end

section
/-!
PROOF. A word that decodes is the encoding of its instruction (R14 to R28): in every branch of the decoder, the fields of the word are those
that the encoder puts there.
-/

namespace Sys2Proof

set_option Elab.async false

/-! ## A word in a format is given by its fields -/

section
variable {w : BitVec 32} {m : Bool} {fn b a d : BitVec 6} {op : BitVec 7} {imm : BitVec 12} {cond : BitVec 3} {sk : BitVec 2} {x : BitVec 1}
  {disp : BitVec 15} {imm18 : BitVec 18} {row : BitVec 8} {col : BitVec 4}

/-- Two neighbouring parts of a word are one part of it. -/
theorem joined {v : BitVec 32} {lo lo' n n' : Nat} (next : lo' = lo + n) :
    v.extractLsb' lo' n' ++ v.extractLsb' lo n = v.extractLsb' lo (n' + n) := BitVec.extractLsb'_append_extractLsb'_eq_extractLsb' next

theorem ofBool_getLsbD (v : BitVec 32) (i : Nat) : BitVec.ofBool (v.getLsbD i) = v.extractLsb' i 1 := by
  rw [BitVec.getLsbD_eq_extractLsb']
  generalize v.extractLsb' i 1 = bit
  decide +revert

theorem encA_eq_iff : encA m fn b a d op = w ↔ fM w = m ∧ fFn w = fn ∧ fB w = b ∧ fA w = a ∧ fD w = d ∧ fOp w = op := by
  refine ⟨?_, ?_⟩
  · rintro rfl
    exact ⟨fM_encA .., fFn_encA .., fB_encA .., fA_encA .., fD_encA .., fOp_encA ..⟩
  · rintro ⟨rfl, rfl, rfl, rfl, rfl, rfl⟩
    rw [encA, fM, ofBool_getLsbD, fFn, fB, fA, fD, fOp, joined (by rfl), joined (by rfl), joined (by rfl), joined (by rfl), joined (by rfl)]
    exact BitVec.extractLsb'_eq_self

theorem encI_eq_iff : encI m imm a d op = w ↔ fM w = m ∧ fImm12 w = imm ∧ fA w = a ∧ fD w = d ∧ fOp w = op := by
  refine ⟨?_, ?_⟩
  · rintro rfl
    exact ⟨fM_encI .., fImm12_encI .., fA_encI .., fD_encI .., fOp_encI ..⟩
  · rintro ⟨rfl, rfl, rfl, rfl, rfl⟩
    rw [encI, fM, ofBool_getLsbD, fImm12, fA, fD, fOp, joined (by rfl), joined (by rfl), joined (by rfl), joined (by rfl)]
    exact BitVec.extractLsb'_eq_self

theorem encB_eq_iff : encB m disp a cond op = w ↔ fM w = m ∧ bDisp w = disp ∧ bA w = a ∧ bCond w = cond ∧ fOp w = op := by
  refine ⟨?_, ?_⟩
  · rintro rfl
    exact ⟨fM_encB .., bDisp_encB .., bA_encB .., bCond_encB .., fOp_encB ..⟩
  · rintro ⟨rfl, rfl, rfl, rfl, rfl⟩
    rw [encB, fM, ofBool_getLsbD, bDisp, bA, bCond, fOp, joined (by rfl), joined (by rfl), joined (by rfl), joined (by rfl)]
    exact BitVec.extractLsb'_eq_self

theorem encJ_eq_iff : encJ m imm18 d op = w ↔ fM w = m ∧ fImm18 w = imm18 ∧ fD w = d ∧ fOp w = op := by
  refine ⟨?_, ?_⟩
  · rintro rfl
    exact ⟨fM_encJ .., fImm18_encJ .., fD_encJ .., fOp_encJ ..⟩
  · rintro ⟨rfl, rfl, rfl, rfl⟩
    rw [encJ, fM, ofBool_getLsbD, fImm18, fD, fOp, joined (by rfl), joined (by rfl), joined (by rfl)]
    exact BitVec.extractLsb'_eq_self

theorem encC_eq_iff : encC m row col a d op = w ↔ fM w = m ∧ cRow w = row ∧ cCol w = col ∧ fA w = a ∧ fD w = d ∧ fOp w = op := by
  refine ⟨?_, ?_⟩
  · rintro rfl
    exact ⟨fM_encC .., cRow_encC .., cCol_encC .., fA_encC .., fD_encC .., fOp_encC ..⟩
  · rintro ⟨rfl, rfl, rfl, rfl, rfl, rfl⟩
    rw [encC, fM, ofBool_getLsbD, cRow, cCol, fA, fD, fOp, joined (by rfl), joined (by rfl), joined (by rfl), joined (by rfl), joined (by rfl)]
    exact BitVec.extractLsb'_eq_self

theorem encK_eq_iff : encK m cond sk x b a fn op = w ↔ fM w = m ∧ kCond w = cond ∧ kSk w = sk ∧ kX w = (x == 1#1) ∧ fB w = b ∧ fA w = a ∧ fD w = fn ∧ fOp w = op := by
  refine ⟨?_, ?_⟩
  · rintro rfl
    exact ⟨fM_encK .., kCond_encK .., kSk_encK .., kX_encK .., fB_encK .., fA_encK .., fD_encK .., fOp_encK ..⟩
  · rintro ⟨rfl, rfl, rfl, hx, rfl, rfl, rfl, rfl⟩
    have hx : x = w.extractLsb' 25 1 := by
      rw [kX, BitVec.getLsbD_eq_extractLsb'] at hx
      generalize w.extractLsb' 25 1 = bit at hx
      decide +revert
    rw [encK, fM, ofBool_getLsbD, hx, kCond, kSk, fB, fA, fD, fOp, joined (by rfl), joined (by rfl), joined (by rfl), joined (by rfl),
      joined (by rfl), joined (by rfl), joined (by rfl)]
    exact BitVec.extractLsb'_eq_self

theorem encS_eq_iff : encS m imm b a op = w ↔ fM w = m ∧ fImmS w = imm ∧ fB w = b ∧ fA w = a ∧ fOp w = op := by
  refine ⟨?_, ?_⟩
  · rintro rfl
    exact ⟨fM_encS .., fImmS_encS .., fB_encS .., fA_encS .., fOp_encS ..⟩
  · rintro ⟨rfl, rfl, rfl, rfl, rfl⟩
    have high : (fImmS w).extractLsb' 6 6 = w.extractLsb' 25 6 := BitVec.extractLsb'_append_eq_left
    have low : (fImmS w).extractLsb' 0 6 = w.extractLsb' 7 6 := BitVec.extractLsb'_append_eq_right
    rw [encS, fM, ofBool_getLsbD, high, low, fB, fA, fOp, joined (by rfl), joined (by rfl), joined (by rfl), joined (by rfl),
      joined (by rfl)]
    exact BitVec.extractLsb'_eq_self

end

/-! ## Fields as numbers -/

theorem toNat_append_eq {n m : Nat} (h : BitVec n) (l : BitVec m) : (h ++ l).toNat = h.toNat * 2 ^ m + l.toNat := by
  rw [BitVec.toNat_append, ← Nat.shiftLeft_add_eq_or_of_lt l.isLt, Nat.shiftLeft_eq]

theorem getElem_eq_decide {n : Nat} (f : BitVec n) {i : Nat} (h : i < n) : f[i] = decide (f.toNat / 2 ^ i % 2 = 1) := by
  rw [BitVec.getElem_eq_testBit_toNat, Nat.testBit_eq_decide_div_mod_eq]

theorem lowestReason_foldl_some (cs : List (Bool × Nat)) (r : Nat) :
    cs.foldl (fun r c => if c.1 then r else some (match r with | none => c.2 | some k => Nat.min k c.2)) (some r) ≠ none := by
  induction cs generalizing r with
  | nil => exact Option.some_ne_none r
  | cons c cs ih =>
    rw [List.foldl_cons]
    split <;> exact ih _

theorem all_of_lowestReason {cs : List (Bool × Nat)} (h : lowestReason cs = none) : cs.all (·.1) = true := by
  induction cs with
  | nil => rfl
  | cons c cs ih =>
    rw [lowestReason, List.foldl_cons] at h
    cases hc : c.1
    · rw [if_neg (by simp [hc])] at h
      exact absurd h (lowestReason_foldl_some cs _)
    · rw [if_pos hc] at h
      rw [List.all_cons, hc]
      exact ih h

/-! ## Decoding, then encoding -/

/-- What the decoder finds in the word, if anything, is well-formed and has this encoding. -/
def EncodesTo (w : BitVec 32) (found : Except Nat Instr) : Prop := ∀ i, found = .ok i → encode i = some w ∧ i.wellFormed = true

theorem encodesTo_error (w : BitVec 32) (r : Nat) : EncodesTo w (.error r) := fun _ h => nomatch h

theorem encodesTo_fin {w w' : BitVec 32} {pre : List (Bool × Nat)} {i : Instr} (enc : encode i = some w')
    (same : pre.all (·.1) = true → w' = w) : EncodesTo w (fin pre i) := by
  intro j found
  rw [fin] at found
  split at found
  case h_2 => exact nomatch found
  case h_1 passed =>
    obtain rfl := Except.ok.inj found
    obtain ⟨unused, wf⟩ := Bool.and_eq_true_iff.mp ((List.all_append ..).symm.trans (all_of_lowestReason passed))
    exact ⟨same unused ▸ enc, wf⟩

theorem encodesTo_decodeFields (w : BitVec 32) : EncodesTo w (decodeFields w) := by
  unfold decodeFields
  dsimp only
  split
  all_goals repeat' split
  all_goals try with_reducible exact encodesTo_error w _
  all_goals refine encodesTo_fin rfl fun unused => ?_
  all_goals
    simp only [encA_eq_iff, encI_eq_iff, encS_eq_iff, encK_eq_iff, encB_eq_iff, encJ_eq_iff, encC_eq_iff]
  all_goals simp only [← BitVec.toNat_inj, toNat_append_eq]
  all_goals try simp at unused
  all_goals simp_all [← BitVec.toNat_inj, getElem_eq_decide, Nat.shiftRight_eq_div_pow]
  all_goals omega

/-- Settles O2: every branch of the decoder finds an instruction whose fields, put together again, are the word. -/
theorem encodeOfDecode : Obligations.EncodeOfDecode := by
  intro k i w decoded
  refine encodesTo_decodeFields w i ?_
  rw [decodeFor] at decoded
  split at decoded
  case h_1 j found =>
    split_ifs at decoded
    exact found.trans decoded
  case h_2 => split_ifs at decoded

end Sys2Proof
end

section
/-!
PROOF. Scalar floating point and the stack frame (spec/06 R119 to R125, R130), and the words written out (R14).
-/

namespace Sys2Proof.Machine

set_option Elab.async false

/-! ## The stack pointer -/

theorem sub_zext64 {n : Nat} (narrow : n ≤ 64) (a : Word) (x : BitVec n) : a - zext64 x = BitVec.ofInt 64 ((a.toNat : Int) - x.toNat) := by
  have small : x.toNat < 2 ^ 64 := x.isLt.trans_le (Nat.pow_le_pow_right (by decide) narrow)
  refine BitVec.eq_of_toNat_eq ?_
  rw [zext64, BitVec.toNat_sub, BitVec.toNat_setWidth, BitVec.toNat_ofInt]
  omega

theorem add_zext64 {n : Nat} (a : Word) (x : BitVec n) : a + zext64 x = BitVec.ofNat 64 (a.toNat + x.toNat) := by
  rw [BitVec.ofNat_add, BitVec.ofNat_toNat, BitVec.setWidth_eq, zext64, BitVec.ofNat_toNat]

/-- What enter compares: the new sp lies below 0 or below SLIM. -/
theorem below_limit_iff {a i l : Nat} :
    (decide (a < i) || decide (a - i < l)) = true ↔ (a : Int) - i < 0 ∨ (a : Int) - i < l := by
  rw [Bool.or_eq_true, decide_eq_true_eq, decide_eq_true_eq]
  omega

/-! ## Results with flags -/

theorem State.falu_clear {s : State} {st : Strand} {u : Uses} (clear : s.Clear st u) (m : Bool) (d : Spec) (f : Strand → Nat × FFlags) :
    s.falu m u d f = .next (s.completes m ((st.raise (f st).2).putS d (BitVec.ofNat 64 (f st).1))) := by
  rw [State.falu, State.issue_clear clear]
  exact congrArg _ (State.finish_put ..)

theorem State.falu_result {s : State} {st : Strand} {u : Uses} {f : Strand → Nat × FFlags} {r : Nat × FFlags} (clear : s.Clear st u) (m : Bool)
    (d : Spec) (value : f st = r) : s.falu m u d f = .next (s.completes m ((st.raise r.2).putS d (BitVec.ofNat 64 r.1))) := by
  rw [State.falu_clear clear, value]

/-! ## Conversions (R123) -/

theorem cvtFmt_eq_none {c : BitVec 3} (integer : c.toNat = 4 ∨ c.toNat = 5) : cvtFmt c = none := by
  rcases integer with h | h <;> simp [cvtFmt, h]

theorem cvtFmt_of_le {c : BitVec 3} (float : c.toNat ≤ 3) : cvtFmt c = some ((cvtFmt c).getD .f64) := by
  have code : c.toNat = 0 ∨ c.toNat = 1 ∨ c.toNat = 2 ∨ c.toNat = 3 := by omega
  rcases code with h | h | h | h <;> simp [cvtFmt, h]

/-- A signed word's integer. -/
theorem read_i64 (w : Word) : (⟨64, true⟩ : IntTy).read w.toNat = w.toInt := by
  simp only [IntTy.read, Nat.mod_eq_of_lt w.isLt, Bool.true_and, decide_eq_true_eq]
  rw [BitVec.toInt_eq_toNat_cond]
  split <;> split <;> omega

theorem read_n64 (w : Word) : (⟨64, false⟩ : IntTy).read w.toNat = w.toNat := by
  simp [IntTy.read, Nat.mod_eq_of_lt w.isLt]

/-- The two integer types of fcvt. -/
theorem cvtInt_of_toNat {c : BitVec 3} : (c.toNat = 4 → cvtInt c = ⟨64, true⟩) ∧ (c.toNat = 5 → cvtInt c = ⟨64, false⟩) := by
  refine ⟨fun h => ?_, fun h => ?_⟩
  · rw [cvtInt, show c = 4 from BitVec.eq_of_toNat_eq h]
    rfl
  · rw [cvtInt, show c = 5 from BitVec.eq_of_toNat_eq h]
    rfl

/-- The value that fcvt converts. -/
theorem fcvt_source {c : BitVec 3} (code : c.toNat ≤ 5) (w : Word) :
    (match cvtFmt c with | some f => f.val w | none => valOfInt ((cvtInt c).read w.toNat)) =
      if c.toNat = 4 then valOfInt w.toInt else if c.toNat = 5 then valOfInt w.toNat
      else (((cvtFmt c).getD .f64).read (w.toNat % 2 ^ (8 * ((cvtFmt c).getD .f64).bytes))) := by
  split_ifs with signed unsigned
  · rw [cvtFmt_eq_none (.inl signed), cvtInt_of_toNat.1 signed, read_i64]
  · rw [cvtFmt_eq_none (.inr unsigned), cvtInt_of_toNat.2 unsigned, read_n64]
  · rw [cvtFmt_of_le (by omega)]
    rfl

/-- What fcvt makes of it. -/
theorem fcvt_result {c : BitVec 3} (code : c.toNat ≤ 5) (rm : RMode) (v : FVal) :
    (match cvtFmt c with | some f => f.write rm v | none => (cvtInt c).fromVal .rz v) =
      if c.toNat = 4 then (⟨64, true⟩ : IntTy).fromVal .rz v else if c.toNat = 5 then (⟨64, false⟩ : IntTy).fromVal .rz v
      else ((cvtFmt c).getD .f64).write rm v := by
  split_ifs with signed unsigned
  · rw [cvtFmt_eq_none (.inl signed), cvtInt_of_toNat.1 signed]
  · rw [cvtFmt_eq_none (.inr unsigned), cvtInt_of_toNat.2 unsigned]
  · rw [cvtFmt_of_le (by omega)]
    rfl

theorem fcvtBits_eq {dt sty : BitVec 3} (pair : fcvtPairOk dt sty = true) (rm : RMode) (w : Word) :
    fcvtBits rm dt sty w =
      (let v : FVal := if sty.toNat = 4 then valOfInt w.toInt else if sty.toNat = 5 then valOfInt w.toNat
        else (((cvtFmt sty).getD .f64).read (w.toNat % 2 ^ (8 * ((cvtFmt sty).getD .f64).bytes)))
      if dt.toNat = 4 then (⟨64, true⟩ : IntTy).fromVal .rz v else if dt.toNat = 5 then (⟨64, false⟩ : IntTy).fromVal .rz v
        else ((cvtFmt dt).getD .f64).write rm v) := by
  obtain ⟨hdt, hst⟩ : dt.toNat ≤ 5 ∧ sty.toNat ≤ 5 := by
    simp only [fcvtPairOk, Bool.and_eq_true, decide_eq_true_eq] at pair
    exact pair.1.1
  rw [← fcvt_source hst, ← fcvt_result hdt]
  rfl

/-! ## Reading and writing a number (R131 to R135) -/

/-- Nothing is rounded up where nothing is left over. -/
theorem RMode.up_exact (md : RMode) (neg : Bool) (q : Nat) : md.up neg q 0 0 false = false := by
  cases md <;> rfl

theorem scaleTo_self (m : Nat) (e : Int) : scaleTo m e e = (m, 0, 0) := by
  simp [scaleTo]

/-- A magnitude whose lowest place is that of the format's result is written without rounding. -/
theorem Fmt.round_exact (f : Fmt) (md : RMode) (neg : Bool) {m : Nat} {e : Int} (nonzero : m ≠ 0) (bits : m < 2 ^ f.prec)
    (place : max (e + Nat.log2 m) f.emin = e + f.fracBits) {mag : Nat}
    (value : (if m < 2 ^ f.fracBits then m else (e + f.fracBits + f.bias).toNat * 2 ^ f.fracBits + (m - 2 ^ f.fracBits)) = mag)
    (fits : mag ≤ f.largest) : f.round md neg m e false = (f.withSign neg mag, 0) := by
  have unit : e + f.fracBits - f.prec + 1 = e := by
    rw [Fmt.prec]
    push_cast
    omega
  have low : f.prec - 1 = f.fracBits := rfl
  simp only [Fmt.round, nonzero, if_false, place, unit, scaleTo_self, RMode.up_exact, Bool.false_eq_true, bits.ne, low, value]
  simp [fits.not_gt]

/-- A number's bits are its sign, its exponent field and its fraction. -/
theorem Fmt.bits_eq (f : Fmt) {x : Nat} (fits : x < 2 * f.signBit) :
    f.withSign (decide (x / f.signBit % 2 = 1)) (x / 2 ^ f.fracBits % 2 ^ f.expBits * 2 ^ f.fracBits + x % 2 ^ f.fracBits) = x := by
  have magnitude : x / 2 ^ f.fracBits % 2 ^ f.expBits * 2 ^ f.fracBits + x % 2 ^ f.fracBits = x % f.signBit := by
    rw [Fmt.signBit, Nat.add_comm f.expBits, pow_add, Nat.mod_mul, Nat.add_comm, Nat.mul_comm]
  have sign : x / f.signBit < 2 := Nat.div_lt_of_lt_mul (by rwa [Nat.mul_comm])
  have whole := Nat.div_add_mod x f.signBit
  rw [magnitude, Fmt.withSign]
  generalize x / f.signBit = g at sign whole
  interval_cases g <;> simpa using whole

theorem Fmt.frac_lt (f : Fmt) (x : Nat) : x % 2 ^ f.fracBits < 2 ^ f.fracBits := Nat.mod_lt _ (Nat.two_pow_pos _)

/-- The largest number of a format, by its fields. -/
theorem Fmt.le_largest (f : Fmt) {ex frac : Nat} (hex : ex < 2 ^ f.expBits) (hfrac : frac < 2 ^ f.fracBits)
    (finite : ¬(ex = 2 ^ f.expBits - 1 ∧ (f = .e4m3 → frac = 7))) : ex * 2 ^ f.fracBits + frac ≤ f.largest := by
  cases f <;> simp only [Fmt.expBits, Fmt.fracBits, Fmt.largest, reduceCtorEq, false_implies, and_true, true_implies] at * <;> omega

theorem Fmt.write_zero (f : Fmt) (md : RMode) (neg : Bool) (e : Int) : f.write md (.fin neg 0 e) = (f.withSign neg 0, 0) := by
  simp [Fmt.write, Fmt.round]

/-- A number below the normal ones has the lowest place of the format. -/
theorem Fmt.write_subnormal (f : Fmt) (md : RMode) (neg : Bool) {frac : Nat} (hfrac : frac < 2 ^ f.fracBits) :
    f.write md (.fin neg frac (1 - (f.bias : Int) - f.fracBits)) = (f.withSign neg frac, 0) := by
  rcases Nat.eq_zero_or_pos frac with rfl | pos
  · exact f.write_zero md neg _
  have log : Nat.log2 frac < f.fracBits := (Nat.log2_lt pos.ne').mpr hfrac
  have small : frac ≤ f.largest := by
    have := f.le_largest (ex := 0) (Nat.two_pow_pos _) hfrac (by cases f <;> simp [Fmt.expBits])
    omega
  refine f.round_exact md neg pos.ne' (hfrac.trans ?_) ?_ (if_pos hfrac) small
  · exact Nat.pow_lt_pow_right (by decide) (Nat.lt_succ_self _)
  · rw [Fmt.emin]
    omega

theorem Nat.log2_two_pow_add {n k : Nat} (h : k < 2 ^ n) : Nat.log2 (2 ^ n + k) = n := by
  refine (Nat.log2_eq_iff (by positivity)).mpr ⟨by omega, ?_⟩
  rw [pow_succ]
  omega

/-- A normal number has its leading one at the place that its exponent field names. -/
theorem Fmt.write_normal (f : Fmt) (md : RMode) (neg : Bool) {ex frac : Nat} (positive : ex ≠ 0) (hfrac : frac < 2 ^ f.fracBits)
    (fits : ex * 2 ^ f.fracBits + frac ≤ f.largest) :
    f.write md (.fin neg (2 ^ f.fracBits + frac) ((ex : Int) - f.bias - f.fracBits)) =
      (f.withSign neg (ex * 2 ^ f.fracBits + frac), 0) := by
  refine f.round_exact md neg (by positivity) ?bits ?place ?value fits
  case bits =>
    rw [Fmt.prec, pow_succ]
    omega
  case place =>
    rw [Nat.log2_two_pow_add hfrac, Fmt.emin]
    omega
  case value =>
    rw [if_neg (by omega), Nat.add_sub_cancel_left]
    congr 2
    omega

theorem Fmt.write_read_number (f : Fmt) (md : RMode) {x : Nat} (fits : x < 2 * f.signBit) (number : (f.read x).isNan = false) :
    f.write md (f.read x) = (x, 0) := by
  have bits := f.bits_eq fits
  have hex : x / 2 ^ f.fracBits % 2 ^ f.expBits < 2 ^ f.expBits := Nat.mod_lt _ (Nat.two_pow_pos _)
  have hfrac := f.frac_lt x
  simp only [Fmt.read] at number ⊢
  generalize x / 2 ^ f.fracBits % 2 ^ f.expBits = ex at *
  generalize x % 2 ^ f.fracBits = frac at *
  generalize decide (x / f.signBit % 2 = 1) = neg at *
  split_ifs at number ⊢ with zero top infinite
  · rw [f.write_subnormal md neg hfrac, ← bits, zero, Nat.zero_mul, Nat.zero_add]
  · have highest : ex = 2 ^ f.expBits - 1 := of_decide_eq_true (Bool.and_eq_true_iff.mp top).1
    rw [← bits, infinite, highest]
    cases f
    case e4m3 => simp [FVal.isNan] at number
    all_goals rfl
  · cases f <;> simp [FVal.isNan] at number
  · rw [f.write_normal md neg zero hfrac (f.le_largest hex hfrac ?_), bits]
    cases f <;> simpa using top

end Sys2Proof.Machine

open Sys2Proof Sys2Proof.Machine in
/-- Settles O3: each word is decoded by evaluation. -/
theorem decodedWords : Obligations.DecodedWords := ⟨rfl, rfl, rfl, rfl, rfl, rfl⟩

namespace Sys2Proof.Machine

/-- Settles O9: enter and leave are clear words whose effect is on sp alone. -/
theorem stackFrames : Obligations.StackFrames := by
  intro s st m imm clear sp set
  refine ⟨State.issue_effect clear ?enter, State.issue_effect clear ?leave⟩
  case enter =>
    by_cases low : (sp.toNat : Int) - imm.toNat < 0 ∨ (sp.toNat : Int) - imm.toNat < st.regs.slim.toNat
    · rw [if_pos low, spReg, if_pos (below_limit_iff.mpr low), sub_zext64 (by decide), State.finish_faultTurn clear.here]
      rfl
    · rw [if_neg low, spReg, if_neg (below_limit_iff.not.mpr low), sub_zext64 (by decide)]
      exact State.finish_put ..
  case leave =>
    rw [spReg, add_zext64]
    exact State.finish_put ..

/-- Settles O10: each word is one operation of its format, finished by one rounding. -/
theorem scalarFloat : Obligations.ScalarFloat := by
  intro s st m ty d a b f bits A B D done
  refine ⟨fun clear => ⟨?_, ?_, ?_, ?_, ?_, ?_⟩, fun clear => ⟨?_, ?_, ?_⟩, fun clear => ?_⟩
  all_goals exact State.falu_clear clear m d _

/-- Settles O11: a conversion by the formats of its codes, a comparison that ends as cmp does, and the two words of twosum. -/
theorem convertCompareTwosum : Obligations.ConvertCompareTwosum := by
  intro s st m dt sty c k ty d a b
  refine ⟨fun clear pair => ?fcvt, fun clear => ?fcmp, fun clear => ?tsum⟩
  case fcvt => exact State.falu_result clear m d (fcvtBits_eq pair ..)
  case fcmp => exact State.issue_effect clear (State.finish_compared s _ m k rfl)
  case tsum => exact State.falu_clear clear m d _

/-- Settles O12: a number keeps its place and nothing of it is rounded; a NaN is the canonical one. -/
theorem writeOfRead : Obligations.WriteOfRead := by
  refine ⟨fun f md x fits number => f.write_read_number md fits number, fun f md x isNan => ?_⟩
  cases value : f.read x with
  | nan sig => cases sig <;> simp [Fmt.write, FVal.isSig, fNV]
  | inf neg => simp [value, FVal.isNan] at isNan
  | fin neg m e => simp [value, FVal.isNan] at isNan

end Sys2Proof.Machine
end

section
/-!
PROOF. Scratchpad addresses (spec/05 R85): the cases of padaddr.
-/

namespace Sys2Proof.Machine

set_option Elab.async false

/-! ## The two plain ranges -/

theorem Strand.inPad_iff (st : Strand) (a : Nat) :
    st.inPad a = true ↔ st.regs.padlo.toNat ≤ a ∧ a < st.regs.padlo.toNat + st.padLen := by
  simp [Strand.inPad]

theorem Strand.inStack_iff (st : Strand) (a : Nat) : st.inStack a = true ↔ st.stackBot ≤ a ∧ a < st.stackTop := by
  simp [Strand.inStack]

/-- A range that one of the two ranges holds whole. -/
theorem Strand.plainRange_ok {st : Strand} {a len : Nat} (some_byte : 0 < len)
    (inside : (st.regs.padlo.toNat ≤ a ∧ a + len ≤ st.regs.padlo.toNat + st.padLen) ∨ (st.stackBot ≤ a ∧ a + len ≤ st.stackTop)) :
    st.plainRange a len = .ok a := by
  refine if_pos ?_
  simp only [Bool.or_eq_true, Bool.and_eq_true, Strand.inPad_iff, Strand.inStack_iff, decide_eq_true_eq]
  omega

theorem Strand.plainRange_outside {st : Strand} {a : Nat} (len : Nat) (pad : ¬ st.inPad a = true) (stack : ¬ st.inStack a = true) :
    st.plainRange a len = .error (6, BitVec.ofNat 64 a) := by
  simp [Strand.plainRange, pad, stack]

theorem Strand.plainRange_leaves_pad {st : Strand} {a len : Nat} (pad : st.inPad a = true) (stack : ¬ st.inStack a = true)
    (past : st.regs.padlo.toNat + st.padLen < a + len) :
    st.plainRange a len = .error (6, BitVec.ofNat 64 (st.regs.padlo.toNat + st.padLen)) := by
  simp [Strand.plainRange, pad, stack, past.not_ge]

theorem Strand.plainRange_leaves_stack {st : Strand} {a len : Nat} (pad : ¬ st.inPad a = true) (stack : st.inStack a = true)
    (past : st.stackTop < a + len) : st.plainRange a len = .error (6, BitVec.ofNat 64 st.stackTop) := by
  simp [Strand.plainRange, pad, stack, past.not_ge]

/-! ## padaddr -/

theorem State.padAddr_plain (s : State) (x : SlotId) (st : Strand) {ea : Word} (len : Nat) (plain : ea.toNat < 2 ^ 20) :
    s.padAddr x st ea len = st.plainRange ea.toNat len := by
  rw [State.padAddr, if_neg (by omega), if_neg (by omega), if_neg (by omega)]

theorem State.padAddr_hole (s : State) (x : SlotId) (st : Strand) {ea : Word} (len : Nat)
    (hole : 2 ^ 20 ≤ ea.toNat ∧ ea.toNat < 2 ^ 23 ∨ 2 ^ 24 ≤ ea.toNat) : s.padAddr x st ea len = .error (6, ea) := by
  unfold State.padAddr
  rcases hole with ⟨low, high⟩ | high
  · rw [if_neg (by omega), if_neg (by omega), if_pos low]
  · rw [if_pos high]

theorem State.padAddr_noRing {s : State} {x : SlotId} {st : Strand} {ea : Word} {c : Nat} (len : Nat)
    (ring : 2 ^ 23 ≤ ea.toNat ∧ ea.toNat < 2 ^ 24) (unusable : s.ringCheckAt x st (ea.toNat / 2 ^ 20 % 8) = .error c) :
    s.padAddr x st ea len = .error (4, codeWord c ea.toNat) := by
  simp only [State.padAddr, ring.2.not_ge, ring.1, if_true, if_false, unusable]

theorem State.padAddr_ring {s : State} {x : SlotId} {st : Strand} {ea : Word} {r : Ring} (len : Nat)
    (ring : 2 ^ 23 ≤ ea.toNat ∧ ea.toNat < 2 ^ 24) (usable : s.ringCheckAt x st (ea.toNat / 2 ^ 20 % 8) = .ok r) :
    s.padAddr x st ea len = if ea.toNat % 2 ^ 20 + len ≤ 2 ^ r.slog2
      then .ok (r.base + r.idx x.member st.uid * 2 ^ r.slog2 + ea.toNat % 2 ^ 20) else .error (6, ea) := by
  simp only [State.padAddr, ring.2.not_ge, ring.1, if_true, if_false, usable, ← not_le, ite_not, Ring.stage]

theorem codeWord_of_lt {low : Nat} (code : Nat) (small : low < 2 ^ 56) : codeWord code low = BitVec.ofNat 64 (code * 2 ^ 56 + low) := by
  show BitVec.ofNat 64 (code * 2 ^ 56 + low % 2 ^ 56) = _
  rw [Nat.mod_eq_of_lt small]

/-- Settles O17: a plain address is judged by plainRange alone, and a ring-relative one by the ring's stage. -/
theorem scratchpadAddress : Obligations.ScratchpadAddress := by
  intro s x st ea len some_byte a
  have address : BitVec.ofNat 64 a = ea := BitVec.ofNat_toNat 64 ea |>.trans (BitVec.setWidth_eq ea)
  simp only [← Strand.inPad_iff, ← Strand.inStack_iff]
  refine ⟨?inside, ?outside, ?pastPad, ?pastStack, State.padAddr_hole s x st len, fun ring => ⟨?stage, ?noRing⟩⟩
  case inside => exact fun plain inside => (State.padAddr_plain s x st len plain).trans (Strand.plainRange_ok some_byte inside)
  case outside =>
    intro plain pad stack
    rw [State.padAddr_plain s x st len plain, Strand.plainRange_outside len pad stack, address]
  case pastPad => exact fun plain pad past stack => (State.padAddr_plain s x st len plain).trans (Strand.plainRange_leaves_pad pad stack past)
  case pastStack => exact fun plain pad stack past => (State.padAddr_plain s x st len plain).trans (Strand.plainRange_leaves_stack pad stack past)
  case stage => exact fun r usable => State.padAddr_ring len ring usable
  case noRing =>
    intro c unusable
    rw [State.padAddr_noRing len ring unusable, codeWord_of_lt c (ring.2.trans (by decide))]

end Sys2Proof.Machine
end

section
/-!
PROOF. The checks of every word's registers (spec/06 R110, spec/12 R246, spec/08 R144): which register a resource fault, a marker fault and a
parity error name. leastRole finds a candidate of the least role wherever there is one; the rest says who the candidates are.
-/

namespace Sys2Proof.Machine

set_option Elab.async false

/-! ## The candidate that is reported -/

theorem leastRole_eq_none {l : List (Nat × Nat × Bool)} : leastRole l = none ↔ l = [] := by
  cases l with
  | nil => simp [leastRole]
  | cons p r =>
    simp only [leastRole, reduceCtorEq, iff_false]
    split
    · simp
    · split <;> simp

theorem leastRole_spec {l : List (Nat × Nat × Bool)} {p : Nat × Nat × Bool} (h : leastRole l = some p) : p ∈ l ∧ ∀ q ∈ l, p.1 ≤ q.1 := by
  induction l generalizing p with
  | nil => simp [leastRole] at h
  | cons a r ih =>
    rw [leastRole] at h
    split at h
    case h_1 empty =>
      obtain rfl := Option.some.inj h
      simp [leastRole_eq_none.mp empty]
    case h_2 q found =>
      obtain ⟨member, least⟩ := ih found
      split at h <;> obtain rfl := Option.some.inj h
      case isTrue lower =>
        exact ⟨List.mem_cons_of_mem _ member, List.forall_mem_cons.mpr ⟨lower.le, least⟩⟩
      case isFalse notLower =>
        exact ⟨List.mem_cons_self, List.forall_mem_cons.mpr ⟨le_rfl, fun k hk => (not_lt.mp notLower).trans (least k hk)⟩⟩

/-- Of candidates that keys stand for, one is reported whose role is least among the keys'. -/
theorem leastRole_of_keys {α : Type} {key : α → Nat × Nat × Bool} {P : α → Prop} {l : List (Nat × Nat × Bool)}
    (members : ∀ p, p ∈ l ↔ ∃ a, P a ∧ key a = p) (some_key : ∃ a, P a) :
    ∃ a, P a ∧ (∀ b, P b → (key a).1 ≤ (key b).1) ∧ leastRole l = some (key a) := by
  obtain ⟨a, ha⟩ := some_key
  cases found : leastRole l with
  | none =>
    have nothing := leastRole_eq_none.mp found
    exact absurd ((members (key a)).mpr ⟨a, ha, rfl⟩) (by simp [nothing])
  | some p =>
    obtain ⟨member, least⟩ := leastRole_spec found
    obtain ⟨b, hb, rfl⟩ := (members p).mp member
    exact ⟨b, hb, fun c hc => least _ ((members _).mpr ⟨c, hc, rfl⟩), rfl⟩

theorem leastRole_of_no_key {α : Type} {key : α → Nat × Nat × Bool} {P : α → Prop} {l : List (Nat × Nat × Bool)}
    (members : ∀ p, p ∈ l ↔ ∃ a, P a ∧ key a = p) (no_key : ∀ a, ¬ P a) : leastRole l = none := by
  refine leastRole_eq_none.mpr (List.eq_nil_iff_forall_not_mem.mpr fun p hp => ?_)
  obtain ⟨a, ha, -⟩ := (members p).mp hp
  exact no_key a ha

/-! ## The candidates -/

theorem namedBy_eq_fields (i : Instr) : namedBy i = (wordUses i).fields := by
  rw [namedBy, Uses.fields]
  cases (wordUses i).dst <;> rfl

/-- No word names a register in a role past those of R110; fork's own register numbers aside, which no field names. -/
theorem srcs_role_lt (i : Instr) : ∀ f ∈ (wordUses i).srcs, f.1 < 4 := by
  cases i
  case plane | unplane => simp [wordUses, useGroups]; grind
  all_goals simp [wordUses, useAB, useA, useD, useABD, useLoad, useStore, vuseAB, vuseA, vuseABD, useRed, useAB0, useSluice]

theorem namedBy_role_lt {i : Instr} {f : Nat × Bool × Spec} (named : f ∈ namedBy i) : f.1 < 4 := by
  simp only [namedBy, List.mem_append, List.mem_map, Option.mem_toList, Option.map_eq_some_iff] at named
  rcases named with (src | ⟨_, _, rfl⟩) | ⟨_, _, rfl⟩
  · exact srcs_role_lt i f src
  · exact (by decide : 3 < 4)
  · exact (by decide : 3 < 4)

theorem Strand.outstanding_iff_awaits {st : Strand} {vec : Bool} {x : Spec} : st.outstanding vec x = true ↔ awaits st vec x := by
  have dest (l : Long) : l.dest = ⟨vec, x⟩ ↔ l.dest.vec = vec ∧ l.dest.spec = x := by
    rcases l.dest with ⟨v, spec⟩
    exact Dest.mk.injEq _ _ _ _ ▸ Iff.rfl
  simp [Strand.outstanding, awaits, dest]

/-! ## Resource faults (R20, R246) -/

/-- A register as leastRole orders it. -/
def fieldKey (f : Nat × Bool × Spec) : Nat × Nat × Bool := (f.1, f.2.2.toNat, false)

/-- The undeclared registers that a word names. -/
def Strand.undeclaredKeys (st : Strand) (u : Uses) : List (Nat × Nat × Bool) :=
  u.fields.filterMap fun f =>
    if decide (f.2.2.toNat < 32) && decide ((if f.2.1 then st.nvregs else st.nregs) ≤ f.2.2.toNat) then some (fieldKey f) else none

theorem Strand.undeclared_eq (st : Strand) (u : Uses) :
    st.undeclared u = (leastRole (st.undeclaredKeys u)).map fun p => codeWord 1 (256 * p.1 + p.2.1) := rfl

theorem Strand.mem_undeclaredKeys (st : Strand) (i : Instr) (p : Nat × Nat × Bool) :
    p ∈ st.undeclaredKeys (wordUses i) ↔ ∃ f, (f ∈ namedBy i ∧ missing st f) ∧ fieldKey f = p := by
  simp [Strand.undeclaredKeys, namedBy_eq_fields, missing, and_assoc]

theorem Strand.undeclared_of_missing {st : Strand} {i : Instr} (some_missing : ∃ f ∈ namedBy i, missing st f) :
    ∃ f ∈ namedBy i, missing st f ∧ (∀ g ∈ namedBy i, missing st g → f.1 ≤ g.1)
      ∧ st.undeclared (wordUses i) = some (BitVec.ofNat 64 (2 ^ 56 + 0x100 * f.1 + f.2.2.toNat)) := by
  obtain ⟨f, ⟨named, absent⟩, least, reported⟩ := leastRole_of_keys (st.mem_undeclaredKeys i) some_missing
  refine ⟨f, named, absent, fun g hg absent' => least g ⟨hg, absent'⟩, ?_⟩
  have small : 256 * f.1 + f.2.2.toNat < 2 ^ 56 := by
    have := namedBy_role_lt named
    have := f.2.2.isLt
    omega
  rw [Strand.undeclared_eq, reported, Option.map_some, fieldKey, codeWord_of_lt 1 small, one_mul, Nat.add_assoc]

theorem Strand.undeclared_eq_none {st : Strand} {i : Instr} (no_missing : ∀ f ∈ namedBy i, ¬ missing st f) :
    st.undeclared (wordUses i) = none := by
  rw [Strand.undeclared_eq, leastRole_of_no_key (st.mem_undeclaredKeys i) fun f h => no_missing f h.1 h.2]
  rfl

/-! ## Marker faults (R110) -/

/-- A use as leastRole orders it. -/
def useKey (k : Nat × Spec × Bool) : Nat × Nat × Bool := (k.1, k.2.1.toNat, k.2.2)

/-- The registers that a word uses and that await a long result. -/
def Strand.markerKeys (st : Strand) (u : Uses) : List (Nat × Nat × Bool) :=
  (u.reads.filterMap fun r => if st.outstanding false r.2 then some (r.1, r.2.toNat, false) else none)
    ++ (u.fields.filterMap fun f => if st.outstanding f.2.1 f.2.2 then some (f.1, f.2.2.toNat, false) else none)
    ++ (if u.sp && st.outstanding false 31 then [(2, 31, false)] else [])
    ++ (if u.readsQ && st.outstanding false 40 then [(2, 40, true)] else [])
    ++ (if u.readsQv && st.outstanding true 40 then [(2, 40, true)] else [])
    ++ (if u.writesQ && st.outstanding false 40 then [(3, 40, true)]
      else match u.dst with
        | some d => if !u.long && d.2 != 41 && d.2 != 40 && st.outstanding d.1 40 then [(3, 40, true)] else []
        | none => [])

theorem Strand.marker_eq (st : Strand) (u : Uses) :
    st.marker u = (leastRole (st.markerKeys u)).map fun p => BitVec.ofNat 64 (p.2.1 + 256 * p.1 + if p.2.2 then 1024 else 0) := rfl

theorem mem_ite_singleton {α : Type} {c : Prop} [Decidable c] {a b : α} : a ∈ (if c then [b] else []) ↔ c ∧ a = b := by
  split <;> simp [*]

/-- A word that writes q so has no destination. -/
theorem dst_of_writesQ {i : Instr} (h : (wordUses i).writesQ = true) : (wordUses i).dst = none := by
  cases i
  case cmp | cmpi | fcmp => rfl
  all_goals exact absurd h Bool.false_ne_true

/-- Whether q, or qv, would be written while it awaits a result. -/
theorem Strand.mem_markerKeys_written (st : Strand) {u : Uses} (noDst : u.writesQ = true → u.dst = none) (p : Nat × Nat × Bool) :
    p ∈ (if u.writesQ && st.outstanding false 40 then [(3, 40, true)]
      else match u.dst with
        | some d => if !u.long && d.2 != 41 && d.2 != 40 && st.outstanding d.1 40 then [(3, 40, true)] else []
        | none => []) ↔
      (u.writesQ = true ∧ awaits st false 40 ∧ p = (3, 40, true))
        ∨ ∃ d, u.writesQ = false ∧ u.dst = some d ∧ u.long = false ∧ d.2 ≠ 41 ∧ d.2 ≠ 40 ∧ awaits st d.1 40 ∧ p = (3, 40, true) := by
  simp only [← Strand.outstanding_iff_awaits]
  cases written : u.writesQ with
  | true => simp [noDst written]
  | false =>
    cases u.dst with
    | none => simp
    | some d => simp [and_assoc]

theorem Strand.mem_markerKeys (st : Strand) (i : Instr) (p : Nat × Nat × Bool) :
    p ∈ st.markerKeys (wordUses i) ↔ ∃ k, awaitedBy st i k ∧ useKey k = p := by
  simp only [Strand.markerKeys, List.mem_append, mem_ite_singleton, Strand.mem_markerKeys_written st dst_of_writesQ, List.mem_filterMap,
    Option.ite_none_right_eq_some, Option.some.injEq, Bool.and_eq_true, Strand.outstanding_iff_awaits, ← namedBy_eq_fields, awaitedBy]
  constructor
  · rintro (((((⟨r, hr, ha, rfl⟩ | ⟨f, hf, ha, rfl⟩) | ⟨⟨h, ha⟩, rfl⟩) | ⟨⟨h, ha⟩, rfl⟩) | ⟨⟨h, ha⟩, rfl⟩) | ⟨h, ha, rfl⟩ | ⟨d, h, hd, hl, h41, h40, ha, rfl⟩)
    · exact ⟨_, .inr (.inl ⟨r, hr, ha, rfl⟩), rfl⟩
    · exact ⟨_, .inl ⟨f, hf, ha, rfl⟩, rfl⟩
    · exact ⟨_, .inr (.inr (.inl ⟨h, ha, rfl⟩)), rfl⟩
    · exact ⟨_, .inr (.inr (.inr (.inl ⟨h, ha, rfl⟩))), rfl⟩
    · exact ⟨_, .inr (.inr (.inr (.inr (.inl ⟨h, ha, rfl⟩)))), rfl⟩
    · exact ⟨_, .inr (.inr (.inr (.inr (.inr (.inl ⟨h, ha, rfl⟩))))), rfl⟩
    · exact ⟨_, .inr (.inr (.inr (.inr (.inr (.inr ⟨d, h, hd, hl, h41, h40, ha, rfl⟩))))), rfl⟩
  · rintro ⟨k, (⟨f, hf, ha, rfl⟩ | ⟨r, hr, ha, rfl⟩ | ⟨h, ha, rfl⟩ | ⟨h, ha, rfl⟩ | ⟨h, ha, rfl⟩ | ⟨h, ha, rfl⟩ | ⟨d, h, hd, hl, h41, h40, ha, rfl⟩), rfl⟩
    · exact .inl (.inl (.inl (.inl (.inr ⟨f, hf, ha, rfl⟩))))
    · exact .inl (.inl (.inl (.inl (.inl ⟨r, hr, ha, rfl⟩))))
    · exact .inl (.inl (.inl (.inr ⟨⟨h, ha⟩, rfl⟩)))
    · exact .inl (.inl (.inr ⟨⟨h, ha⟩, rfl⟩))
    · exact .inl (.inr ⟨⟨h, ha⟩, rfl⟩)
    · exact .inr (.inl ⟨h, ha, rfl⟩)
    · exact .inr (.inr ⟨d, h, hd, hl, h41, h40, ha, rfl⟩)

theorem Strand.marker_of_awaited {st : Strand} {i : Instr} (some_awaited : ∃ k, awaitedBy st i k) :
    ∃ k, awaitedBy st i k ∧ (∀ j, awaitedBy st i j → k.1 ≤ j.1)
      ∧ st.marker (wordUses i) = some (BitVec.ofNat 64 ((if k.2.2 then 0x400 else 0) + 0x100 * k.1 + k.2.1.toNat)) := by
  obtain ⟨k, awaited, least, reported⟩ := leastRole_of_keys (st.mem_markerKeys i) some_awaited
  refine ⟨k, awaited, least, ?_⟩
  rw [Strand.marker_eq, reported, Option.map_some, useKey]
  refine congrArg (fun n => some (BitVec.ofNat 64 n)) ?_
  dsimp only
  omega

theorem Strand.marker_eq_none {st : Strand} {i : Instr} (no_awaited : ∀ k, ¬ awaitedBy st i k) : st.marker (wordUses i) = none := by
  rw [Strand.marker_eq, leastRole_of_no_key (st.mem_markerKeys i) no_awaited]
  rfl

/-! ## Parity (R105, R144) -/

theorem Strand.spoilt_of_readBy {st : Strand} {i : Instr} {vec : Bool} {x : Spec} (reads : readBy i vec x) (wrong : st.upset = some (vec, x)) :
    st.spoilt (wordUses i) = some (vec, x) := by
  obtain ⟨parity, read⟩ := reads
  have carries : hasParity vec x = true := by
    cases vec <;> simp [hasParity] at parity ⊢ <;> bv_omega
  simp only [Strand.spoilt, wrong, Option.filter_some, carries, if_true, Option.bind_some]
  refine if_pos ?_
  cases vec <;> simp [Prod.ext_iff] at read ⊢ <;> grind

theorem State.strand?_modBank_tile (s : State) (t : Nat) (f : Bank → Bank) (x : SlotId) : (s.modBank (.tile t) f).strand? x = s.strand? x := by
  unfold State.modBank State.strand?
  by_cases h : t = x.tile
  · rw [← h, State.tile_modTile]
  · rw [State.tile_modTile_other _ _ h]

/-- An error found in what the executing strand reads. -/
theorem finds_contained {s : State} {st : Strand} (here : s.strand? s.cur = some st) (src : BitVec 8) (place : Nat) :
    finds s st src place (.next (s.contained s.cur src (BitVec.ofNat 64 place))) := by
  refine ⟨Config.freeWord s.freeCount, Config.freeWord (s.freeCount + 1), ?_⟩
  have here' (f : Bank → Bank) : (({ s with freeCount := s.freeCount + 2 } : State).modBank (.tile s.cur.tile) f).strand? s.cur = some st :=
    (State.strand?_modBank_tile ..).trans here
  simp only [State.contained, State.free, here', Nat.add_assoc, Nat.reduceAdd]

/-! ## The statement -/

/-- Settles O13: the checks come in this order, before a word's own effect, and each reports as leastRole says. -/
theorem registerChecks : Obligations.RegisterChecks := by
  intro i s st word here mode fault
  obtain ⟨m, body, runs⟩ := exec_issues i word
  have allowed : (if st.sup then none else (wordUses i).priv) = none := by
    rcases mode with sup | none <;> simp [*]
  have outcome : exec i s = .next (s.finish s.cur m (st.checked s s.cur (wordUses i) (body s))) := by rw [runs, State.issue_next here]
  refine ⟨fun some_missing => ?missing, fun no_missing some_awaited => ?awaited, fun no_missing no_awaited vec x reads wrong => ?parity⟩
  case missing =>
    obtain ⟨f, named, absent, least, reported⟩ := Strand.undeclared_of_missing some_missing
    refine ⟨f, named, absent, least, ?_⟩
    simp only [fault, outcome, Strand.checked, allowed, reported, State.finish_faultTurn here]
    rfl
  case awaited =>
    obtain ⟨k, awaited, least, reported⟩ := Strand.marker_of_awaited some_awaited
    refine ⟨k, awaited, least, ?_⟩
    simp only [fault, outcome, Strand.checked, allowed, Strand.undeclared_eq_none no_missing, reported, State.finish_faultTurn here]
    rfl
  case parity =>
    simp only [outcome, Strand.checked, allowed, Strand.undeclared_eq_none no_missing, Strand.marker_eq_none no_awaited,
      Strand.spoilt_of_readBy reads wrong, State.finish]
    rw [← BitVec.ofNat_toNat]
    exact finds_contained here _ _

end Sys2Proof.Machine
end

section
/-!
PROOF. Faults, traps, and the returns from them (spec/15 R305 to R309, R322): what takeFault records, where trap, break and sret go, and what a
write to TRUN does to the strand that it selects.
-/

namespace Sys2Proof.Machine

set_option Elab.async false

/-! ## Where no transaction is open -/

theorem State.abortTx_closed {s : State} {x : SlotId} {st : Strand} (here : s.strand? x = some st) (closed : st.tx = none) (reason : BitVec 8)
    (addr : Word) : s.abortTx x reason addr = s := by
  simp [State.abortTx, here, closed]

theorem Strand.tgt1_closed {st : Strand} (closed : st.tx = none) : st.tgt1 = none := by
  simp [Strand.tgt1, closed]

/-! ## Dropping a reservation -/

@[simp] theorem State.dropRsv_tiles (s : State) (x : SlotId) : (s.dropRsv x).tiles = (s.modStrand x fun st => { st with rsv := none }).tiles := rfl

theorem State.strand?_of_tiles {s t : State} (same : t.tiles = s.tiles) (x : SlotId) : t.strand? x = s.strand? x := by
  simp [State.strand?, State.tile, same]

theorem State.tile_of_tiles {s t : State} (same : t.tiles = s.tiles) (n : Nat) : t.tile n = s.tile n := by
  simp [State.tile, same]

theorem State.strand?_dropRsv {s : State} {x : SlotId} {st : Strand} (here : s.strand? x = some st) :
    (s.dropRsv x).strand? x = some { st with rsv := none } := by
  rw [State.strand?_of_tiles (s.dropRsv_tiles x), State.modStrand_of_strand here, State.strand?_setStrand]

/-- A strand changed in its slot leaves the tile's queue of events. -/
theorem State.tile_modStrand_events (s : State) (x : SlotId) (f : Strand → Strand) (n : Nat) :
    ((s.modStrand x f).tile n).events = (s.tile n).events ∧ ((s.modStrand x f).tile n).waiting = (s.tile n).waiting := by
  unfold State.modStrand
  split
  case h_1 st _ =>
    by_cases h : x.tile = n
    · subst h
      simp [State.setStrand]
    · simp [State.setStrand, State.tile_modTile_other _ _ h]
  case h_2 => exact ⟨rfl, rfl⟩

theorem State.tile_dropRsv_events (s : State) (x : SlotId) (n : Nat) :
    ((s.dropRsv x).tile n).events = (s.tile n).events ∧ ((s.dropRsv x).tile n).waiting = (s.tile n).waiting := by
  rw [State.tile_of_tiles (s.dropRsv_tiles x)]
  exact s.tile_modStrand_events x _ n

/-! ## The event that a fault queues -/

theorem eventEntry_of_lt {code : Nat} (byte : code < 256) (sid : Word) :
    eventEntry false code sid = BitVec.ofNat 64 (2 ^ 63 + code * 2 ^ 40) ||| (sid &&& 0x3FFFFFFFFF) := by
  rw [eventEntry, Nat.mod_eq_of_lt byte]
  rfl

theorem Tile.queueEvent_strands (t : Tile) (e : Event) : (t.queueEvent e).strands = t.strands := by
  unfold Tile.queueEvent
  split <;> rfl

theorem Tile.queueEvent_spec (t : Tile) (e : Event) :
    if t.events.length < 64 ∧ t.waiting = []
    then (t.queueEvent e).events = t.events ++ [e] ∧ (t.queueEvent e).waiting = []
    else (t.queueEvent e).events = t.events ∧ (t.queueEvent e).waiting = t.waiting ++ [e] := by
  unfold Tile.queueEvent
  simp only [Bool.and_eq_true, decide_eq_true_eq, List.isEmpty_iff]
  split
  case isTrue room => exact ⟨rfl, room.2⟩
  case isFalse full => exact ⟨rfl, rfl⟩

theorem State.strand?_modTile_same (s : State) (x : SlotId) (n : Nat) {f : Tile → Tile} (same : ∀ t, (f t).strands = t.strands) :
    (s.modTile n f).strand? x = s.strand? x := by
  unfold State.strand?
  by_cases h : n = x.tile
  · rw [h, State.tile_modTile, same]
  · rw [State.tile_modTile_other _ _ h]

/-! ## A user strand's fault -/

/-- A user strand with nothing in flight and no open transaction, after its fault. -/
def Strand.faulted (st : Strand) (async : Bool) (code : Nat) (detail epc : Word) : Strand :=
  { st with
    run := .out
    rsv := none
    tepc := epc
    tcause := BitVec.ofNat 64 (code + if async then 256 else 0)
    tdetail := detail }

theorem State.takeFault_user {s : State} {x : SlotId} {st : Strand} (here : s.strand? x = some st) (user : st.sup = false)
    (returned : st.longs = []) (stored : s.stpPending x = false) (closed : st.tx = none) {code : Nat} (byte : code < 256) (async : Bool)
    (detail epc : Word) :
    s.takeFault x async code detail epc = ((s.dropRsv x).setStrand x (st.faulted async code detail epc)).modTile x.tile
      fun t => t.queueEvent ⟨eventEntry false code st.sid, detail, none⟩ := by
  simp only [State.takeFault, here, returned, stored, user, State.takeUser, State.abortTx_closed here closed, Strand.tgt1_closed closed,
    State.modStrand_of_strand (State.strand?_dropRsv here), Nat.mod_eq_of_lt byte, List.isEmpty_nil, Bool.not_true, Bool.or_self,
    Bool.false_eq_true, if_false, Option.getD_none, Strand.faulted]

/-! ## The supervisor's own fault -/

theorem State.takeFault_sup {s : State} {x : SlotId} {st : Strand} (here : s.strand? x = some st) (sup : st.sup = true)
    (returned : st.longs = []) (stored : s.stpPending x = false) (async : Bool) (code : Nat) (detail epc : Word) :
    s.takeFault x async code detail epc = s.takeSup x st code detail epc := by
  simp [State.takeFault, here, returned, stored, sup]

theorem State.takeSup_enabled {s : State} {x : SlotId} {st : Strand} (here : s.strand? x = some st) (closed : st.tx = none)
    (enabled : st.ie = true) {code : Nat} (byte : code < 256) (detail epc : Word) :
    s.takeSup x st code detail epc = (s.dropRsv x).setStrand x { st with
      run := .ready
      ie := false
      rsv := none
      sepc := epc
      scause := BitVec.ofNat 64 code
      sdetail := detail
      sskipn := st.regs.skipn
      regs := { st.regs with pc := st.tvec + 64, skipn := 0 } } := by
  simp only [State.takeSup, enabled, State.abortTx_closed here closed, Strand.tgt1_closed closed, if_true,
    State.modStrand_of_strand (State.strand?_dropRsv here), Nat.mod_eq_of_lt byte, Option.getD_none]
  rfl

theorem leftTile_ne (t : Nat) : leftTile t ≠ t := by
  unfold leftTile
  split <;> omega

/-- A fenced tile has no strand (R320). -/
theorem State.tile_fence (s : State) (t : Nat) : ((s.fence t).tile t).fenced = true ∧ ((s.fence t).tile t).strands = [] := by
  have row (s : State) (r : Nat) (f : Row → Row) : (s.modRow r f).tile t = s.tile t := State.tile_of_tiles rfl t
  simp only [State.fence, row, State.tile_modTile_other _ _ (leftTile_ne t), State.tile_modTile, and_self]

/-- Settles O15: without an open transaction a fault drops the reservation, records what it finds and queues its event. -/
theorem takingAFault : Obligations.TakingAFault := by
  refine ⟨?turn, ?user, ?supervisor⟩
  case turn =>
    intro s x st code detail epc here
    exact ⟨fun plain => State.faultTurn_plain here plain .., fun c lane => by simp only [State.faultTurn, here, lane]⟩
  case user =>
    intro s x st async code detail epc here user returned stored closed byte t
    have outcome : t = _ := State.takeFault_user here user returned stored closed byte async detail epc
    have keeps := s.near_dropRsv x
    obtain ⟨events, waiting⟩ := s.tile_dropRsv_events x x.tile
    refine ⟨?strand, ?event, ?mem, ?full⟩
    case strand =>
      rw [outcome, State.strand?_modTile_same _ _ _ fun t => t.queueEvent_strands _, State.strand?_setStrand]
      rfl
    case event =>
      rw [outcome, State.tile_modTile, ← eventEntry_of_lt byte, ← events, ← waiting]
      have before (st' : Strand) : (((s.dropRsv x).setStrand x st').tile x.tile).events = ((s.dropRsv x).tile x.tile).events
          ∧ (((s.dropRsv x).setStrand x st').tile x.tile).waiting = ((s.dropRsv x).tile x.tile).waiting := by
        simp [State.setStrand]
      rw [← (before (st.faulted async code detail epc)).1, ← (before (st.faulted async code detail epc)).2]
      exact Tile.queueEvent_spec _ _
    case mem => rw [outcome]; exact keeps.mem
    case full => rw [outcome]; exact keeps.full
  case supervisor =>
    intro s x st code detail epc here sup returned stored closed byte
    rw [State.takeFault_sup here sup returned stored]
    refine ⟨fun enabled => ?enabled, fun disabled => ?double⟩
    case enabled =>
      rw [State.takeSup_enabled here closed enabled byte]
      exact ⟨State.strand?_setStrand .., (s.near_dropRsv x).mem, (s.near_dropRsv x).full⟩
    case double =>
      rw [State.takeSup, disabled]
      exact State.tile_fence _ _

/-! ## trap, break and sret (R305, R322, R323) -/

theorem State.issue_faults {s : State} {st : Strand} {u : Uses} {body : Strand → Act} (clear : s.Clear st u) (m : Bool) {code : Nat}
    {detail : Word} (raises : body st = .fault code detail) :
    s.issue m u body = .next (s.faultTurn s.cur code detail (faultPc code st.regs.pc)) := by
  rw [State.issue_clear clear, raises, State.finish_faultTurn clear.here]

theorem exec_trap_clear {s : State} {st : Strand} (clear : s.Clear st {}) (m : Bool) (code : BitVec 18) :
    exec (.trap m code) s = .next (s.faultTurn s.cur 0x20 (code.setWidth 64) (st.regs.pc + 4)) := State.issue_faults clear m rfl

theorem exec_brk_clear {s : State} {st : Strand} (clear : s.Clear st {}) (m : Bool) (code : BitVec 18) :
    exec (.brk m code) s = .next (s.faultTurn s.cur 0x21 (code.setWidth 64) (st.regs.pc + 4)) := State.issue_faults clear m rfl

theorem exec_sret_clear {s : State} {st : Strand} {m : Bool} (clear : s.Clear st { priv := wordDetail (.sret m), aborts := true })
    (aligned : st.sepc.toNat % 4 = 0) :
    exec (.sret m) s = .next (s.jumps m { st with ie := true, sskipn := 0, regs := { st.regs with skipn := st.sskipn } } st.sepc) := by
  refine State.issue_effect clear ?_
  rw [if_neg (by simp [aligned]), State.upd, State.modStrand_of_strand clear.here]
  exact State.finish_put_jump ..

/-! ## TRUN (R309) -/

theorem State.trunOf_selected {s : State} {t : Nat} {v : Word} {x : SlotId} {st : Strand} (selected : s.selected t = some (x, st))
    (out : st.run = .out) (names : v &&& 0x3FFFFFFFFF = (s.tile t).tsel &&& 0x3FFFFFFFFF) : s.trunOf t v = some (x, st) := by
  simpa [State.trunOf, selected, low38, out] using names

theorem State.breakHeld_iff {s : State} {st : Strand} (out : st.run = .out) :
    s.breakHeld st = true ↔ (s.debugger = true ∧ s.ctl.lcs = 2) ∧ st.tcause = 0x21 := by
  simp [State.breakHeld, State.debugging, out]

/-- A strand that goes on at TEPC with registers that a service may have changed. -/
theorem State.modStrand_resume {s : State} {x : SlotId} {st : Strand} (here : s.strand? x = some st) (f : Regs → Regs) :
    (s.modStrand x fun st => (st.modRegs f).resume) = s.setStrand x { st with run := .ready, regs := { f st.regs with pc := st.tepc } } :=
  State.modStrand_of_strand here _

/-! ## How the firmware serves an event -/

theorem State.service_stack {s : State} {st : Strand} (t : Nat) (limit : st.tcause = 5) (above : st.stackBot < st.regs.slim.toNat) :
    s.service t st = .resume fun st => st.modRegs fun r => { r with slim := BitVec.ofNat 64 st.stackBot } := by
  simp [State.service, limit, above]

theorem State.service_trap {s : State} {st : Strand} (t : Nat) (trap : st.tcause = 0x20) :
    s.service t st = .resume fun k => k.putS0 (if st.tdetail = 1 then (if st.det then st.committed else (s.tile t).cycle)
      else if st.tdetail = 2 then BitVec.ofNat 64 st.lid else 0xFFFFFFFFFFFFFFFF) := by
  simp [State.service, trap]

theorem State.service_break {s : State} {st : Strand} (t : Nat) (brk : st.tcause = 0x21) :
    s.service t st = if s.debugging then .keep else .resume fun st => st := by
  simp [State.service, brk]

theorem State.service_other {s : State} {st : Strand} (t : Nat) (noTrap : st.tcause ≠ 0x20) (noBreak : st.tcause ≠ 0x21)
    (noLimit : ¬ (st.tcause = 5 ∧ st.stackBot < st.regs.slim.toNat)) : s.service t st = .endLaunch := by
  have toNat (k : Nat) (small : k < 2 ^ 64) : st.tcause.toNat = k ↔ st.tcause = BitVec.ofNat 64 k := by
    rw [← BitVec.toNat_inj, BitVec.toNat_ofNat, Nat.mod_eq_of_lt small]
  simp only [State.service, Bool.and_eq_true, decide_eq_true_eq, toNat _ (by decide : 5 < 2 ^ 64), toNat _ (by decide : 0x20 < 2 ^ 64),
    toNat _ (by decide : 0x21 < 2 ^ 64)]
  rw [if_neg (by exact noLimit), if_neg (by exact noTrap), if_neg (by exact noBreak)]

theorem exec_trunResume {s : State} {t : Nat} {v : Word} {x : SlotId} {st : Strand} (acts : s.trunOf t v = some (x, st))
    (noEnd : v.getLsbD 63 = false) (aligned : st.tepc.toNat % 4 = 0) {f : Strand → Strand} (served : s.service t st = .resume f) :
    exec (.trunResume t v) s = .next (s.modStrand x fun st => (f st).resume) := by
  refine congrArg Host.Outcome.next ?_
  simp only [acts, served, noEnd, aligned]
  rfl

/-- Settles O16: trap and break take their event at the next word, and each return is TRUN's on the strand that it selects. -/
theorem trapsAndReturns : Obligations.TrapsAndReturns := by
  refine ⟨?traps, fun s st m clear aligned => exec_sret_clear clear aligned, ?returns⟩
  case traps =>
    intro s st m code clear
    rw [BitVec.ofNat_toNat]
    exact ⟨exec_trap_clear clear m code, exec_brk_clear clear m code⟩
  case returns =>
    intro s t v x st selected here out names back debugging
    have acts := State.trunOf_selected selected out names
    refine ⟨?resumes, ?ends, fun noEnd aligned => ⟨?stack, ?trap, ?brk, ?debugger⟩, ?firmwareEnds⟩
    case resumes =>
      intro noEnd aligned free
      have goes : s.breakHeld st = false := Bool.eq_false_iff.mpr fun held => free ((State.breakHeld_iff out).mp held)
      simp only [State.trun, acts, noEnd, goes]
      exact State.modStrand_resume here id
    case ends =>
      intro ends
      simp only [State.trun, acts, ends]
      exact congrArg (fun n => s.endLaunch st.lid (BitVec.ofNat 64 (2 + n))) (by omega)
    case stack =>
      intro limit above
      rw [exec_trunResume acts noEnd aligned (State.service_stack t limit above)]
      exact congrArg Host.Outcome.next (State.modStrand_of_strand here _)
    case trap =>
      intro trap
      rw [exec_trunResume acts noEnd aligned (State.service_trap t trap)]
      exact congrArg Host.Outcome.next (State.modStrand_resume here _)
    case brk =>
      intro brk free
      have noDebugger : s.debugging = false := Bool.eq_false_iff.mpr fun h => free (by simpa [State.debugging, debugging] using h)
      have served : s.service t st = .resume fun st => st := by rw [State.service_break t brk, noDebugger]; rfl
      rw [exec_trunResume acts noEnd aligned served]
      exact congrArg Host.Outcome.next (State.modStrand_resume here id)
    case debugger =>
      intro brk debugs
      have debugger : s.debugging = true := by simpa [State.debugging, debugging] using debugs
      have kept : s.service t st = .keep := by rw [State.service_break t brk, debugger]; rfl
      have held : s.breakHeld st = true := (State.breakHeld_iff out).mpr ⟨debugs, brk⟩
      refine ⟨?firmware, ?host⟩
      case firmware =>
        refine congrArg Host.Outcome.next ?_
        simp only [acts, kept]
      case host =>
        refine congrArg Host.Outcome.next ?_
        simp only [here, held, aligned]
        exact State.modStrand_resume here id
    case firmwareEnds =>
      intro ends noTrap noBreak noLimit
      refine congrArg Host.Outcome.next ?_
      simp only [acts, State.service_other t noTrap noBreak noLimit, ends]
      exact congrArg (fun n => s.endLaunch st.lid (BitVec.ofNat 64 (2 + n))) (by omega)

end Sys2Proof.Machine
end

section
/-!
PROOF. Scratchpad loads and stores (spec/05 R90, R91, R102). Of sound bytes a read finds memory as it stands and a write puts its bytes there;
a word with an uncorrectable error ends either as an error that its check has found.
-/

namespace Sys2Proof.Machine

set_option Elab.async false

/-! ## Addresses and values -/

theorem eaScalar_eq (a : Word) (off : BitVec 9) (z : BitVec 3) :
    eaScalar a off z = a + BitVec.ofInt 64 (off.toInt * (2 ^ (z.toNat / 2) : Nat)) := by
  rw [eaScalar, sext64_eq, BitVec.ofInt_mul, BitVec.ofInt_natCast]
  rfl

theorem eaVector_eq (a : Word) (imm : BitVec 12) : eaVector a imm = a + BitVec.ofInt 64 (imm.toInt * 128) := by
  rw [eaVector, sext64_eq, BitVec.ofInt_mul]
  rfl

theorem eaWord_eq (a : Word) (imm : BitVec 12) : eaWord a imm = a + BitVec.ofInt 64 (imm.toInt * 8) := by
  rw [eaWord, sext64_eq, BitVec.ofInt_mul]
  rfl

theorem bytesToNat_lt (bs : List Byte) : bytesToNat bs < 2 ^ (8 * bs.length) := by
  induction bs with
  | nil => simp [bytesToNat]
  | cons b bs ih =>
    rw [bytesToNat, List.length_cons, Nat.mul_add, Nat.pow_add]
    have := b.isLt
    omega

/-- A size code names 1, 2, 4 or 8 bytes. -/
theorem sizeOf_cases (z : BitVec 3) : sizeOf z = 1 ∨ sizeOf z = 2 ∨ sizeOf z = 4 ∨ sizeOf z = 8 := by
  have code : z.toNat / 2 = 0 ∨ z.toNat / 2 = 1 ∨ z.toNat / 2 = 2 ∨ z.toNat / 2 = 3 := by omega
  rcases code with h | h | h | h <;> simp [sizeOf, h]

/-- Sign extension from k bits is what an arithmetic shift does to bits that stand at the top of the word. -/
theorem sshiftRight_top {k v : Nat} (size : k = 8 ∨ k = 16 ∨ k = 32 ∨ k = 64) (bits : v < 2 ^ k) :
    (BitVec.ofNat 64 (v * 2 ^ (64 - k))).sshiftRight (64 - k)
      = if 2 ^ (k - 1) ≤ v then BitVec.ofInt 64 ((v : Int) - 2 ^ k) else BitVec.ofNat 64 v := by
  refine BitVec.eq_of_toInt_eq ?_
  rw [BitVec.toInt_sshiftRight, Int.shiftRight_eq_div_pow]
  rcases size with rfl | rfl | rfl | rfl <;> split <;>
  · simp only [BitVec.toInt_eq_toNat_cond, BitVec.toNat_ofNat, BitVec.toNat_ofInt]
    omega

theorem loadValue_eq (z : BitVec 3) {v : Nat} (bits : v < 2 ^ (8 * sizeOf z)) :
    loadValue z v = if z.getLsbD 0 = false ∧ 2 ^ (8 * sizeOf z - 1) ≤ v then BitVec.ofInt 64 ((v : Int) - 2 ^ (8 * sizeOf z))
      else BitVec.ofNat 64 v := by
  unfold loadValue
  cases z.getLsbD 0 with
  | true => simp
  | false =>
    have size := sizeOf_cases z
    simp only [Bool.false_eq_true, if_false, true_and]
    exact sshiftRight_top (by omega) bits

/-! ## Sound bytes -/

theorem State.fixWords_of_noWeak {s : State} {a n : Nat} (noWeak : ∀ w ∈ wordsOf a n, w ∉ s.weakWords) (m : BitVec 5) : s.fixWords a n m = s := by
  have none : (wordsOf a n).filter (fun w => s.weakWords.contains w) = [] := by
    simpa [List.filter_eq_nil_iff] using noWeak
  rw [State.fixWords, none]
  rfl

theorem State.badIn_eq_none {s : State} {a n : Nat} (noBad : ∀ w ∈ wordsOf a n, w ∉ s.badWords) : s.badIn a n = none := by
  simpa [State.badIn, List.find?_eq_none] using noBad

theorem State.foldWord_settled {s : State} {r : RedWord} (settled : r.slots = []) : s.foldWord r = s := by
  simp [State.foldWord, settled]

/-- Reduction words whose slots are empty, or that lie elsewhere, have nothing to fold. -/
theorem State.foldFor_settled {s : State} {l : Loc} {n : Nat}
    (settled : ∀ r ∈ s.redWords, r.slots = [] ∨ l.addr + n ≤ r.addr ∨ r.addr + 8 ≤ l.addr) : s.foldFor l n = s := by
  unfold State.foldFor
  split
  · rfl
  · refine List.foldlRecOn (motive := fun t => t = s) _ _ rfl fun t same r hr => ?_
    obtain ⟨listed, meets⟩ := List.mem_filter.mp hr
    rw [same]
    refine State.foldWord_settled ((settled r listed).resolve_right fun apart => ?_)
    simp at meets
    omega

theorem State.noteSeen_apart {s : State} {A n : Nat} (apart : ∀ k ∈ s.lags, ∀ p ∈ k.old, p.1 < A ∨ A + n ≤ p.1) (uid : Nat) :
    s.noteSeen uid A n = s := by
  have misses (k : Lag) (hk : k ∈ s.lags) : k.meets A n = false := by
    simp only [Lag.meets, List.any_eq_false, Bool.and_eq_true, decide_eq_true_eq]
    intro p hp
    have := apart k hk p hp
    omega
  have same (f : Lag → Bool) : (s.lags.map fun k =>
      if k.reader != pathStrand && k.meets A n && !f k then { k with seen := natInsert k.seen uid } else k) = s.lags :=
    (List.map_congr_left (g := id) fun k hk => by simp [misses k hk]).trans (List.map_id _)
  unfold State.noteSeen
  split
  · rfl
  · exact congrArg (fun ks => { s with lags := ks }) (same _)

theorem State.viewByte_apart {s : State} {A n a : Nat} (apart : ∀ k ∈ s.lags, ∀ p ∈ k.old, p.1 < A ∨ A + n ≤ p.1) (inside : A ≤ a ∧ a < A + n)
    (reader : Nat) (b : Byte) : s.viewByte reader a b = b := by
  have none : (s.lags.findSome? fun k => if k.reader = reader then (k.old.find? fun p => p.1 = a).map (·.2) else none) = none := by
    refine List.findSome?_eq_none_iff.mpr fun k hk => ?_
    split
    · rw [List.find?_eq_none.mpr fun p hp => ?_, Option.map_none]
      have := apart k hk p hp
      simp
      omega
    · rfl
  rw [State.viewByte, none, Option.getD_none]

theorem State.viewBytes_apart {s : State} {A n : Nat} (apart : ∀ k ∈ s.lags, ∀ p ∈ k.old, p.1 < A ∨ A + n ≤ p.1) (reader : Nat) :
    s.viewBytes reader A n = s.readBytes A n := by
  unfold State.viewBytes State.viewOver
  split
  · rfl
  · refine List.ext_getElem (by simp) fun i _ hi => ?_
    have length : (s.readBytes A n).length = n := memBytes_length ..
    rw [List.getElem_mapIdx, State.viewByte_apart apart (by omega)]

/-! ## Reads -/

theorem Strand.wset_closed {st : Strand} (outside : st.inTx = false) (plain : st.chunk = none) : st.wset = [] := by
  simp [Strand.wset, outside, plain]

theorem Strand.ownBytes_closed {st : Strand} (outside : st.inTx = false) (plain : st.chunk = none) (l : Loc) (n : Nat) : st.ownBytes l n = [] := by
  simp [Strand.ownBytes, Strand.wset_closed outside plain, wByte]

theorem Strand.buffered_closed {st : Strand} (outside : st.inTx = false) (plain : st.chunk = none) : st.buffered = false := by
  simp [Strand.buffered, outside, plain]

theorem State.padRead_bad {s t : State} {x : SlotId} {st : Strand} {ea : Word} {n p w A : Nat} (address : s.padAddr x st ea n = .ok p)
    (place : s.padLoc x p = ⟨thisDev, A⟩) (checked : s.fixWords A n (BitVec.ofNat 5 x.member) = t) (bad : t.badIn A n = some w) :
    s.padRead x st ea n = .stop (t.badWord w) := by
  unfold State.padRead
  obtain ⟨loc, same⟩ : ∃ loc, s.padLoc x = loc := ⟨_, rfl⟩
  rw [same] at place ⊢
  simp only [address, place, checked, bad]

/-- A read by a strand that holds no store back, where nothing is to be folded and nothing is missed. -/
theorem State.padRead_ok {s t : State} {x : SlotId} {st : Strand} {ea : Word} {n p A : Nat} (outside : st.inTx = false) (plain : st.chunk = none)
    (address : s.padAddr x st ea n = .ok p) (place : s.padLoc x p = ⟨thisDev, A⟩)
    (checked : s.fixWords A n (BitVec.ofNat 5 x.member) = t) (noBad : t.badIn A n = none)
    (settled : ∀ r ∈ t.redWords, r.slots = [] ∨ A + n ≤ r.addr ∨ r.addr + 8 ≤ A)
    (apart : ∀ k ∈ t.lags, ∀ q ∈ k.old, q.1 < A ∨ A + n ≤ q.1) :
    s.padRead x st ea n = .got (t.readBytes A n) t := by
  unfold State.padRead
  obtain ⟨loc, same⟩ : ∃ loc, s.padLoc x = loc := ⟨_, rfl⟩
  rw [same] at place ⊢
  simp only [address, place, checked, noBad, State.foldFor_settled (l := ⟨thisDev, A⟩) settled,
    State.noteSeen_apart apart, State.viewBytes_apart apart, Strand.ownBytes_closed outside plain, Strand.buffered_closed outside plain,
    Bool.false_eq_true, if_false, overlaid, List.foldl_nil]

theorem State.padRead_sound {s : State} {x : SlotId} {st : Strand} {ea : Word} {n p A : Nat} (outside : st.inTx = false) (plain : st.chunk = none)
    (address : s.padAddr x st ea n = .ok p) (place : s.padLoc x p = ⟨thisDev, A⟩) (fine : sound s A n) :
    s.padRead x st ea n = .got (s.readBytes A n) s := by
  obtain ⟨words, settled, apart⟩ := fine
  exact State.padRead_ok outside plain address place (State.fixWords_of_noWeak (fun w hw => (words w hw).2) _)
    (State.badIn_eq_none fun w hw => (words w hw).1) settled apart

/-! ## Words with errors -/

theorem wordsOf_pairwise (a n : Nat) : (wordsOf a n).Pairwise (· < ·) :=
  List.pairwise_lt_range.map _ fun _ _ h => Nat.add_lt_add_left h _

/-- The word that a check reports is the lowest that holds an error. -/
theorem State.badIn_of_least {s : State} {a n w : Nat} (touched : w ∈ wordsOf a n) (bad : w ∈ s.badWords)
    (least : ∀ k ∈ wordsOf a n, k < w → k ∉ s.badWords) : s.badIn a n = some w := by
  obtain ⟨below, above, split⟩ := List.append_of_mem touched
  have sorted := wordsOf_pairwise a n
  rw [split, List.pairwise_append] at sorted
  refine List.find?_eq_some_iff_append.mpr ⟨by simpa using bad, below, above, split, fun k hk => ?_⟩
  have lower : k < w := sorted.2.2 k hk w List.mem_cons_self
  simpa using least k (split ▸ List.mem_append_left _ hk) lower

theorem first_mem_wordsOf {a n : Nat} (some_byte : 0 < n) : a / 8 ∈ wordsOf a n := by
  rw [mem_wordsOf]
  omega

theorem State.badIn_first {s : State} {a n : Nat} (some_byte : 0 < n) (bad : a / 8 ∈ s.badWords) : s.badIn a n = some (a / 8) := by
  refine State.badIn_of_least (first_mem_wordsOf some_byte) bad fun k hk lower => absurd ((mem_wordsOf ..).mp hk).1 lower.not_ge

theorem State.lineAddr_here (s : State) (a : Nat) : s.lineAddr false ⟨thisDev, a⟩ = s.devno.toNat * 2 ^ 44 + a := by
  simp [State.lineAddr, thisDev, cellDev, sheetDev]

theorem State.strand?_modBank (s : State) (b : BankId) (f : Bank → Bank) (x : SlotId) : (s.modBank b f).strand? x = s.strand? x := by
  cases b with
  | tile t => exact State.strand?_modBank_tile s t f x
  | home _ => rfl
  | port _ => rfl

theorem State.lineAddr_here_of_devno {s t : State} (same : t.devno = s.devno) (a : Nat) :
    t.lineAddr false ⟨thisDev, a⟩ = s.devno.toNat * 2 ^ 44 + a := by rw [State.lineAddr_here, same]

/-- What a correction leaves: it changes a bank and the list of weak words. -/
structure State.Corrects (s t : State) : Prop where
  strand : ∀ x, t.strand? x = s.strand? x
  cur : t.cur = s.cur
  devno : t.devno = s.devno
  badWords : t.badWords = s.badWords

theorem State.modBank_corrects (s : State) (b : BankId) (f : Bank → Bank) : s.Corrects (s.modBank b f) := by
  refine ⟨State.strand?_modBank s b f, ?_, ?_, ?_⟩ <;> cases b <;> rfl

theorem State.Corrects.trans {s t u : State} (h : s.Corrects t) (k : t.Corrects u) : s.Corrects u :=
  ⟨fun x => (k.strand x).trans (h.strand x), k.cur.trans h.cur, k.devno.trans h.devno, k.badWords.trans h.badWords⟩

theorem State.fixWords_corrects (s : State) (a n : Nat) (m : BitVec 5) : s.Corrects (s.fixWords a n m) := by
  unfold State.fixWords
  refine List.foldlRecOn (motive := s.Corrects) _ _ ⟨fun _ => rfl, rfl, rfl, rfl⟩ fun t h w _ => h.trans ?_
  exact State.Corrects.trans (t := { t with freeCount := t.freeCount + 1, weakWords := t.weakWords.filter fun k => k != w })
    ⟨fun _ => rfl, rfl, rfl, rfl⟩ (State.modBank_corrects _ _ _)

/-- What an address names depends on the fuses alone. -/
theorem State.region_of_fuses {s t : State} (rows : t.fusedRows = s.fusedRows) (cols : t.fusedCols = s.fusedCols) (a : Nat) :
    t.region a = s.region a := by
  have tileAt (r c : Nat) : t.tileAt r c = s.tileAt r c := by
    unfold State.tileAt State.rowOn State.fusedCol
    rw [rows, cols]
  simp only [State.region, tileAt]

theorem State.bankFor_of_fuses {s t : State} (rows : t.fusedRows = s.fusedRows) (cols : t.fusedCols = s.fusedCols) (l : Loc) :
    t.bankFor l = s.bankFor l := by
  simp only [State.bankFor, State.region_of_fuses rows cols]

theorem State.fixWords_one {s : State} {a n w : Nat} (only : wordsOf a n = [w]) (weak : w ∈ s.weakWords) (m : BitVec 5) :
    s.fixWords a n m = ({ s with
      freeCount := s.freeCount + 1
      weakWords := s.weakWords.filter fun k => k != w } : State).modBank (s.bankFor ⟨thisDev, 8 * w⟩) fun b =>
        b.log 1 5 m (BitVec.ofNat 64 (s.devno.toNat * 2 ^ 44 + 8 * w)) (Config.freeWord s.freeCount) := by
  have chosen : (wordsOf a n).filter (fun w => s.weakWords.contains w) = [w] := by simp [only, weak]
  have bank (k : Nat) (l : Loc) : s.bankFor l = ({ s with freeCount := k } : State).bankFor l := 
    (State.bankFor_of_fuses (s := s) (t := { s with freeCount := k }) rfl rfl l).symm
  have address (k b : Nat) : s.devno.toNat * 2 ^ 44 + b = ({ s with freeCount := k } : State).lineAddr false ⟨thisDev, b⟩ :=
    (State.lineAddr_here_of_devno (s := s) (t := { s with freeCount := k }) rfl b).symm
  rw [bank (s.freeCount + 1), address (s.freeCount + 1)]
  simp only [State.fixWords, chosen, List.foldl_cons, List.foldl_nil, State.free]

/-- The outcome of a word whose check finds an error, after it has corrected others. -/
theorem finds_badWord {s t : State} {st : Strand} (here : s.strand? s.cur = some st) (corrected : s.Corrects t) (m : Bool) {w place : Nat}
    (same : w * 8 = place) : finds t st 5 (s.devno.toNat * 2 ^ 44 + place) (.next (s.finish s.cur m (t.badWord w))) := by
  have address : (BitVec.ofNat 64 (t.lineAddr false ⟨thisDev, 8 * w⟩) : Word) = BitVec.ofNat 64 (s.devno.toNat * 2 ^ 44 + place) := by
    rw [State.lineAddr_here, corrected.devno, mul_comm 8, same]
  have here' : t.strand? t.cur = some st := by rw [corrected.cur, corrected.strand, here]
  rw [State.badWord, State.finish, address, ← corrected.cur]
  exact finds_contained here' 5 _

/-! ## Loads -/

theorem State.loadPad_misaligned {s : State} {st : Strand} {ea : Word} {n : Nat} (misaligned : ea.toNat % n ≠ 0) :
    s.loadPad st ea n = .stop (.fault 7 ea) := by
  simp [State.loadPad, misaligned]

theorem State.loadPad_aligned {s : State} {st : Strand} {ea : Word} {n : Nat} (aligned : ea.toNat % n = 0) :
    s.loadPad st ea n = s.padRead s.cur st ea n := by
  simp [State.loadPad, aligned]

/-- How a scratchpad load ends with the bytes that it has read. -/
def loaded (put : Strand → Nat → Strand) (g : Got (List Byte)) : Act :=
  g.act fun bs t => .ok (t.upd fun st => put st (bytesToNat bs))

theorem exec_lds {s : State} {st : Strand} {d a : Spec} (clear : s.Clear st (useLoad false d a false)) (m : Bool) (off : BitVec 9) (z : BitVec 3) :
    exec (.lds m d a off z) s = .next (s.finish s.cur m (loaded (fun st v => st.putS d (loadValue z v))
      (s.loadPad st (st.rs a + BitVec.ofInt 64 (off.toInt * (2 ^ (z.toNat / 2) : Nat))) (2 ^ (z.toNat / 2))))) := by
  rw [← eaScalar_eq]
  exact State.issue_clear clear m _

theorem exec_ldsv {s : State} {st : Strand} {d a : Spec} (clear : s.Clear st (useLoad true d a false)) (m : Bool) (imm : BitVec 12) :
    exec (.ldsv m d a imm) s = .next (s.finish s.cur m (loaded (fun st v => st.putV d (BitVec.ofNat 1024 v))
      (s.loadPad st (st.rs a + BitVec.ofInt 64 (imm.toInt * 128)) 128))) := by
  rw [← eaVector_eq]
  exact State.issue_clear clear m _

section
variable {s : State} {st : Strand} {put : Strand → Nat → Strand} {n p A : Nat} {ea : Word}

/-- A load whose words its check finds sound, or makes so. -/
theorem State.finish_loaded {t : State} (here : t.strand? s.cur = some st) (cur : t.cur = s.cur) (m : Bool)
    (read : s.loadPad st ea n = .got (t.readBytes A n) t) :
    s.finish s.cur m (loaded put (s.loadPad st ea n)) = t.completes m (put st (bytesToNat (t.readBytes A n))) := by
  rw [read, loaded, Got.act, State.upd, cur, State.modStrand_of_strand here, State.finish_ok (State.strand?_setStrand ..),
    State.setStrand_setStrand, State.completes, cur]

theorem State.finish_loaded_sound (here : s.strand? s.cur = some st) (outside : st.inTx = false) (plain : st.chunk = none)
    (aligned : ea.toNat % n = 0) (address : s.padAddr s.cur st ea n = .ok p) (place : s.padLoc s.cur p = ⟨thisDev, A⟩) (fine : sound s A n)
    (m : Bool) : s.finish s.cur m (loaded put (s.loadPad st ea n)) = s.completes m (put st (bytesToNat (s.readBytes A n))) :=
  State.finish_loaded here rfl m ((State.loadPad_aligned aligned).trans (State.padRead_sound outside plain address place fine))

theorem State.finish_loaded_bad (here : s.strand? s.cur = some st) (aligned : ea.toNat % n = 0) (address : s.padAddr s.cur st ea n = .ok p)
    (place : s.padLoc s.cur p = ⟨thisDev, A⟩) {w : Nat} (bad : (s.fixWords A n (BitVec.ofNat 5 s.cur.member)).badIn A n = some w) (m : Bool) :
    finds (s.fixWords A n (BitVec.ofNat 5 s.cur.member)) st 5 (s.devno.toNat * 2 ^ 44 + w * 8)
      (.next (s.finish s.cur m (loaded put (s.loadPad st ea n)))) := by
  rw [State.loadPad_aligned aligned, State.padRead_bad address place rfl bad]
  exact finds_badWord here (State.fixWords_corrects ..) m rfl

/-- The one word of an aligned access of at most 8 bytes. -/
theorem wordsOf_aligned {a n : Nat} (size : n = 1 ∨ n = 2 ∨ n = 4 ∨ n = 8) (aligned : a % n = 0) : wordsOf a n = [a / 8] := by
  have one : (a + n + 7) / 8 - a / 8 = 1 := by
    rcases size with rfl | rfl | rfl | rfl <;> omega
  rw [wordsOf, one]
  rfl

theorem State.finish_loaded_weak {q : Nat} (here : s.strand? s.cur = some st) (outside : st.inTx = false) (plain : st.chunk = none)
    (aligned : ea.toNat % n = 0) (address : s.padAddr s.cur st ea n = .ok p) (place : s.padLoc s.cur p = ⟨thisDev, A⟩)
    (only : wordsOf A n = [A / 8]) (weak : A / 8 ∈ s.weakWords) (notBad : A / 8 ∉ s.badWords) (pad : s.region (A / 8 * 8) = .pad s.cur.tile q)
    (noRed : s.redWords = []) (noLags : s.lags = []) (m : Bool) :
    ∃ e : Word, s.finish s.cur m (loaded put (s.loadPad st ea n)) =
      (({ s with
        freeCount := s.freeCount + 1
        weakWords := s.weakWords.filter fun w => w != A / 8 } : State).modBank (.tile s.cur.tile) fun b =>
          b.log 1 5 (BitVec.ofNat 5 s.cur.member) (BitVec.ofNat 64 (s.devno.toNat * 2 ^ 44 + A / 8 * 8)) e).completes m
            (put st (bytesToNat (s.readBytes A n))) := by
  have bank : s.bankFor ⟨thisDev, 8 * (A / 8)⟩ = .tile s.cur.tile := by
    simp [State.bankFor, mul_comm 8, pad]
  have checked := State.fixWords_one only weak (BitVec.ofNat 5 s.cur.member)
  rw [bank, mul_comm 8] at checked
  have noBad : (s.fixWords A n (BitVec.ofNat 5 s.cur.member)).badIn A n = none := by
    refine State.badIn_eq_none fun w hw => ?_
    rw [(State.fixWords_corrects ..).badWords]
    rw [only, List.mem_singleton] at hw
    exact hw ▸ notBad
  have here' := ((s.fixWords_corrects A n (BitVec.ofNat 5 s.cur.member)).strand s.cur).trans here
  rw [checked] at noBad here'
  have read := State.padRead_ok outside plain address place checked noBad (fun r hr => absurd (noRed ▸ hr : r ∈ []) List.not_mem_nil)
    (fun k hk => absurd (noLags ▸ hk : k ∈ []) List.not_mem_nil)
  exact ⟨_, State.finish_loaded here' rfl m ((State.loadPad_aligned aligned).trans read)⟩

end

theorem size_code_cases (z : BitVec 3) :
    2 ^ (z.toNat / 2) = 1 ∨ 2 ^ (z.toNat / 2) = 2 ∨ 2 ^ (z.toNat / 2) = 4 ∨ 2 ^ (z.toNat / 2) = 8 := sizeOf_cases z

theorem readBytes_value_lt (s : State) (A n : Nat) : bytesToNat (s.readBytes A n) < 2 ^ (8 * n) := by
  have bound := bytesToNat_lt (s.readBytes A n)
  rwa [State.readBytes, memBytes_length] at bound

/-- What lds gives and leaves, at the place A of its scratchpad byte. -/
theorem lds_outcomes {s : State} {st : Strand} {d a : Spec} {p A : Nat} (m : Bool) (outside : st.inTx = false) (plain : st.chunk = none)
    (place : s.padLoc s.cur p = ⟨thisDev, A⟩) (off : BitVec 9) (z : BitVec 3) (clear : s.Clear st (useLoad false d a false))
    (aligned : (st.rs a + BitVec.ofInt 64 (off.toInt * (2 ^ (z.toNat / 2) : Nat))).toNat % 2 ^ (z.toNat / 2) = 0)
    (address : s.padAddr s.cur st (st.rs a + BitVec.ofInt 64 (off.toInt * (2 ^ (z.toNat / 2) : Nat))) (2 ^ (z.toNat / 2)) = .ok p) :
    let n : Nat := 2 ^ (z.toNat / 2)
    let v := bytesToNat (s.readBytes A n)
    let r := if z.getLsbD 0 = false ∧ 2 ^ (8 * n - 1) ≤ v then BitVec.ofInt 64 ((v : Int) - 2 ^ (8 * n)) else BitVec.ofNat 64 v
    let s' := s.fixWords A n (BitVec.ofNat 5 s.cur.member)
    (sound s A n → exec (.lds m d a off z) s = .next (s.completes m (st.putS d r)))
    ∧ (A / 8 ∈ s.badWords → finds s' st 5 (s.devno.toNat * 2 ^ 44 + A / 8 * 8) (exec (.lds m d a off z) s))
    ∧ (A % n = 0 → A / 8 ∈ s.weakWords → A / 8 ∉ s.badWords → s.region (A / 8 * 8) = .pad s.cur.tile (p / 8 * 8) → s.redWords = [] → s.lags = [] →
      ∃ e : Word, exec (.lds m d a off z) s = .next ((({ s with
        freeCount := s.freeCount + 1
        weakWords := s.weakWords.filter fun w => w != A / 8 } : State).modBank (.tile s.cur.tile) fun b =>
          b.log 1 5 (BitVec.ofNat 5 s.cur.member) (BitVec.ofNat 64 (s.devno.toNat * 2 ^ 44 + A / 8 * 8)) e).completes m (st.putS d r))) := by
  intro n v r s'
  have some_byte : 0 < n := Nat.two_pow_pos _
  have value : loadValue z v = r := loadValue_eq z (readBytes_value_lt s A n)
  refine ⟨fun fine => ?sound, fun bad => ?bad, fun whole weak notBad pad noRed noLags => ?weak⟩
  case sound =>
    rw [exec_lds clear, State.finish_loaded_sound clear.here outside plain aligned address place fine, value]
  case bad =>
    have bad' : A / 8 ∈ s'.badWords := by rwa [(s.fixWords_corrects ..).badWords]
    rw [exec_lds clear]
    exact State.finish_loaded_bad clear.here aligned address place (State.badIn_first some_byte bad') m
  case weak =>
    obtain ⟨e, outcome⟩ := State.finish_loaded_weak (put := fun st v => st.putS d (loadValue z v)) clear.here outside plain aligned address
      place (wordsOf_aligned (size_code_cases z) whole) weak notBad pad noRed noLags m
    exact ⟨e, by rw [exec_lds clear, outcome, value]⟩

theorem ldsv_outcomes {s : State} {st : Strand} {d a : Spec} {p A : Nat} (m : Bool) (outside : st.inTx = false) (plain : st.chunk = none)
    (place : s.padLoc s.cur p = ⟨thisDev, A⟩) (imm : BitVec 12) (clear : s.Clear st (useLoad true d a false))
    (aligned : (st.rs a + BitVec.ofInt 64 (imm.toInt * 128)).toNat % 128 = 0)
    (address : s.padAddr s.cur st (st.rs a + BitVec.ofInt 64 (imm.toInt * 128)) 128 = .ok p) :
    (sound s A 128 → exec (.ldsv m d a imm) s = .next (s.completes m (st.putV d (BitVec.ofNat 1024 (bytesToNat (s.readBytes A 128))))))
    ∧ ∀ w ∈ wordsOf A 128, w ∈ s.badWords → (∀ k ∈ wordsOf A 128, k < w → k ∉ s.badWords) →
      finds (s.fixWords A 128 (BitVec.ofNat 5 s.cur.member)) st 5 (s.devno.toNat * 2 ^ 44 + w * 8) (exec (.ldsv m d a imm) s) := by
  refine ⟨fun fine => ?sound, fun w touched bad least => ?bad⟩
  case sound => rw [exec_ldsv clear, State.finish_loaded_sound clear.here outside plain aligned address place fine]
  case bad =>
    have same := (s.fixWords_corrects A 128 (BitVec.ofNat 5 s.cur.member)).badWords
    rw [exec_ldsv clear]
    exact State.finish_loaded_bad clear.here aligned address place
      (State.badIn_of_least touched (same ▸ bad) fun k hk lower => same ▸ least k hk lower) m

/-- Settles O18: a load is a read of the scratchpad, which finds memory, or an error, at its place. -/
theorem scratchpadLoads : Obligations.ScratchpadLoads := by
  intro s st m d a p outside plain A
  exact ⟨fun off z clear aligned address => lds_outcomes m outside plain rfl off z clear aligned address,
    fun imm clear aligned address => ldsv_outcomes m outside plain rfl imm clear aligned address⟩

end Sys2Proof.Machine
end

section
/-!
PROOF. Scratchpad stores (spec/05 R90, R91, R102): what a store to a sound place, or to a word that it covers whole, writes and leaves.
-/

namespace Sys2Proof.Machine

set_option Elab.async false

@[simp] theorem natToBytes_length (n v : Nat) : (natToBytes n v).length = n := by
  induction n generalizing v with
  | zero => rfl
  | succ n ih => rw [natToBytes, List.length_cons, ih]

theorem State.storePad_misaligned {s : State} {st : Strand} {ea : Word} {bs : List Byte} (misaligned : ea.toNat % bs.length ≠ 0) :
    s.storePad st ea bs = .stop (.fault 7 ea) := by
  simp [State.storePad, misaligned]

/-- A strand's write to a scratchpad, where no reduction word is to be folded. -/
theorem State.poke_pad {s : State} {A t q : Nat} {bs : List Byte} (pad : s.region A = .pad t q)
    (settled : s.foldFor ⟨thisDev, A⟩ bs.length = s) (w : Option SlotId) (sup : Bool) :
    s.poke w sup ⟨thisDev, A⟩ bs = s.store w A bs := by
  obtain ⟨region, same⟩ : ∃ region, s.region = region := ⟨_, rfl⟩
  unfold State.poke
  rw [same] at pad ⊢
  simp only [pad, settled, bne_self_eq_false, Bool.false_eq_true, if_false]
  rfl

section
variable {s t : State} {st : Strand} {ea : Word} {bs : List Byte} {p q A : Nat}

theorem State.storePad_bad {w : Nat} (aligned : ea.toNat % bs.length = 0) (address : s.padAddr s.cur st ea bs.length = .ok p)
    (place : s.padLoc s.cur p = ⟨thisDev, A⟩) (part : bs.length < 8) (checked : s.fixWords A bs.length (BitVec.ofNat 5 s.cur.member) = t)
    (bad : t.badIn A bs.length = some w) : s.storePad st ea bs = .stop (t.badWord w) := by
  unfold State.storePad State.padWrite
  obtain ⟨loc, same⟩ : ∃ loc, s.padLoc s.cur = loc := ⟨_, rfl⟩
  rw [same] at place ⊢
  simp only [aligned, address, place, part, checked, bad, bne_self_eq_false, Bool.false_eq_true, if_false, if_true]

/-- A write by a strand that holds no store back, to a place that its check finds sound or does not look at. -/
theorem State.storePad_ok (outside : st.inTx = false) (plain : st.chunk = none) (aligned : ea.toNat % bs.length = 0)
    (address : s.padAddr s.cur st ea bs.length = .ok p) (place : s.padLoc s.cur p = ⟨thisDev, A⟩) (pad : s.region A = .pad s.cur.tile q)
    (settled : s.foldFor ⟨thisDev, A⟩ bs.length = s)
    (checked : bs.length < 8 → s.fixWords A bs.length (BitVec.ofNat 5 s.cur.member) = s ∧ s.badIn A bs.length = none) :
    s.storePad st ea bs = .got () (s.store (some s.cur) A bs) := by
  have poked := State.poke_pad pad settled (some s.cur) (isSup s.cur)
  unfold State.storePad State.padWrite
  obtain ⟨loc, same⟩ : ∃ loc, s.padLoc s.cur = loc := ⟨_, rfl⟩
  rw [same] at place ⊢
  by_cases part : bs.length < 8
  · obtain ⟨fixed, noBad⟩ := checked part
    simp only [aligned, address, place, part, fixed, noBad, poked, Strand.buffered_closed outside plain, bne_self_eq_false, Bool.false_eq_true,
      if_false, if_true]
  · simp only [aligned, address, place, part, poked, Strand.buffered_closed outside plain, bne_self_eq_false, Bool.false_eq_true, if_false]

end

/-! ## What a performed store leaves -/

theorem State.store_badWords (s : State) (w : Option SlotId) (A : Nat) (bs : List Byte) :
    (s.store w A bs).badWords = s.badWords.filter (fun k => !coversWord A bs.length k)
      ∧ (s.store w A bs).weakWords = s.weakWords.filter fun k => !coversWord A bs.length k := by
  have near := State.near_notify ((s.lagWrite pathStrand 0 A bs.length []).putBytes A bs) w ⟨thisDev, A⟩ bs.length
  have lag := s.lagWrite_eq pathStrand 0 A bs.length []
  rw [State.store, near, lag]
  exact ⟨rfl, rfl⟩

/-- A strand that stores and completes its word. -/
theorem storedOnly_store {s : State} {st : Strand} (here : s.strand? s.cur = some st) (ready : st.run = .ready) (plain : st.chunk = none)
    (m : Bool) (A : Nat) (bs : List Byte) : storedOnly s st m A bs (.next (s.finish s.cur m (.ok (s.store (some s.cur) A bs)))) := by
  have here' : (s.store (some s.cur) A bs).strand? s.cur = some st := State.strand_store here (Strand.calm_of_ready ready plain) ..
  rw [State.finish_ok here']
  refine ⟨_, rfl, ?mem, ?full, State.strand?_setStrand .., fun wf => ⟨fun j apart => ?outside, fun i inside => ?inside⟩⟩
  case mem => rw [State.setStrand_mem, State.store_mem]
  case full => exact fun w => by rw [State.setStrand_full, State.mem_store_full]
  case outside => rw [State.setStrand_mem, State.store_mem, memGet_memSetBytes_outside wf apart]
  case inside => rw [State.setStrand_mem, State.store_mem, memGet_memSetBytes_inside wf]

/-! ## sts and stsv -/

theorem exec_sts {s : State} {st : Strand} {b a : Spec} (clear : s.Clear st (useStore false b a)) (m : Bool) (off : BitVec 9) (z : BitVec 3) :
    exec (.sts m b a off z) s = .next (s.finish s.cur m ((s.storePad st (st.rs a + BitVec.ofInt 64 (off.toInt * (2 ^ (z.toNat / 2) : Nat)))
      (natToBytes (2 ^ (z.toNat / 2)) (st.rs b).toNat)).act fun _ s => .ok s)) := by
  rw [← eaScalar_eq]
  exact State.issue_clear clear m _

theorem exec_stsv {s : State} {st : Strand} {b a : Spec} (clear : s.Clear st (useStore true b a)) (m : Bool) (imm : BitVec 12) :
    exec (.stsv m b a imm) s = .next (s.finish s.cur m ((s.storePad st (st.rs a + BitVec.ofInt 64 (imm.toInt * 128))
      (natToBytes 128 (st.rv b).toNat)).act fun _ s => .ok s)) := by
  rw [← eaVector_eq]
  exact State.issue_clear clear m _

theorem State.foldFor_noRed {s : State} (noRed : s.redWords = []) (l : Loc) (n : Nat) : s.foldFor l n = s :=
  State.foldFor_settled fun r hr => absurd (noRed ▸ hr : r ∈ []) List.not_mem_nil

section
variable {s : State} {st : Strand} {p q A : Nat} (m : Bool) (outside : st.inTx = false) (plain : st.chunk = none) (ready : st.run = .ready)
  (place : s.padLoc s.cur p = ⟨thisDev, A⟩) (pad : s.region A = .pad s.cur.tile q)
include outside plain ready place pad

theorem sts_outcomes (b a : Spec) (off : BitVec 9) (z : BitVec 3) (clear : s.Clear st (useStore false b a))
    (aligned : (st.rs a + BitVec.ofInt 64 (off.toInt * (2 ^ (z.toNat / 2) : Nat))).toNat % 2 ^ (z.toNat / 2) = 0)
    (address : s.padAddr s.cur st (st.rs a + BitVec.ofInt 64 (off.toInt * (2 ^ (z.toNat / 2) : Nat))) (2 ^ (z.toNat / 2)) = .ok p) :
    let n : Nat := 2 ^ (z.toNat / 2)
    let store := exec (.sts m b a off z) s
    (sound s A n → storedOnly s st m A (natToBytes n (st.rs b).toNat) store)
    ∧ (n = 8 → A % 8 = 0 → s.redWords = [] → storedOnly s st m A (natToBytes 8 (st.rs b).toNat) store
      ∧ ∀ t, store = .next t → A / 8 ∉ t.badWords ∧ A / 8 ∉ t.weakWords)
    ∧ (n < 8 → A / 8 ∈ s.badWords →
      finds (s.fixWords A n (BitVec.ofNat 5 s.cur.member)) st 5 (s.devno.toNat * 2 ^ 44 + A / 8 * 8) store) := by
  intro n store
  have length : (natToBytes n (st.rs b).toNat).length = n := natToBytes_length ..
  have outcome : store = _ := exec_sts clear m off z
  have performed := State.storePad_ok (bs := natToBytes n (st.rs b).toNat) outside plain (by rwa [length]) (by rwa [length]) place pad
  rw [length] at performed
  refine ⟨fun fine => ?sound, fun size whole noRed => ?whole, fun part bad => ?bad⟩
  case sound =>
    obtain ⟨words, settled, -⟩ := fine
    rw [outcome, performed (State.foldFor_settled settled) fun _ =>
      ⟨State.fixWords_of_noWeak (fun w hw => (words w hw).2) _, State.badIn_eq_none fun w hw => (words w hw).1⟩]
    exact storedOnly_store clear.here ready plain m A _
  case whole =>
    rw [outcome, performed (State.foldFor_noRed noRed ..) fun part => absurd size part.ne,
      show natToBytes 8 _ = natToBytes n (st.rs b).toNat by rw [size]]
    refine ⟨storedOnly_store clear.here ready plain m A _, fun t ends => ?_⟩
    have covered : coversWord A n (A / 8) = true := by
      rw [coversWord, size, Bool.and_eq_true, decide_eq_true_eq, decide_eq_true_eq]
      omega
    obtain ⟨bad, weak⟩ := s.store_badWords (some s.cur) A (natToBytes n (st.rs b).toNat)
    have here := State.strand_store clear.here (Strand.calm_of_ready ready plain) (some s.cur) A (natToBytes n (st.rs b).toNat) pathStrand 0 []
    rw [Got.act, State.finish_ok here] at ends
    obtain rfl := Host.Outcome.next.inj ends
    rw [State.setStrand_badWords, State.setStrand_weakWords, bad, weak, length]
    simp [covered]
  case bad =>
    have bad' : A / 8 ∈ (s.fixWords A n (BitVec.ofNat 5 s.cur.member)).badWords := by rwa [(s.fixWords_corrects ..).badWords]
    have found := State.storePad_bad (bs := natToBytes n (st.rs b).toNat) (s := s) (st := st) (by rwa [length]) (by rwa [length]) place
      (by rwa [length]) rfl (by rw [length]; exact State.badIn_first (Nat.two_pow_pos _) bad')
    rw [length] at found
    rw [outcome, found]
    exact finds_badWord clear.here (State.fixWords_corrects ..) m rfl

theorem stsv_outcome (b a : Spec) (imm : BitVec 12) (clear : s.Clear st (useStore true b a))
    (aligned : (st.rs a + BitVec.ofInt 64 (imm.toInt * 128)).toNat % 128 = 0)
    (address : s.padAddr s.cur st (st.rs a + BitVec.ofInt 64 (imm.toInt * 128)) 128 = .ok p) (noRed : s.redWords = []) :
    storedOnly s st m A (natToBytes 128 (st.rv b).toNat) (exec (.stsv m b a imm) s) := by
  have length : (natToBytes 128 (st.rv b).toNat).length = 128 := natToBytes_length ..
  have performed := State.storePad_ok (bs := natToBytes 128 (st.rv b).toNat) outside plain (by rwa [length]) (by rwa [length]) place pad
    (State.foldFor_noRed noRed ..) fun part => absurd part (by rw [length]; decide)
  rw [exec_stsv clear, performed]
  exact storedOnly_store clear.here ready plain m A _

end

/-- Settles O19: the bytes go to their place at once, or the check of a part of a word finds its error first. -/
theorem scratchpadStores : Obligations.ScratchpadStores := by
  intro s st m b a p outside plain ready A pad
  exact ⟨fun off z clear aligned address => sts_outcomes m outside plain ready rfl pad b a off z clear aligned address,
    fun imm clear aligned address noRed => stsv_outcome m outside plain ready rfl pad b a imm clear aligned address noRed⟩

end Sys2Proof.Machine
end

section
/-!
PROOF. Alignment faults: each word looks at its effective address before anything else that it does, so a clear word whose address is
misaligned comes to the fault alone.
-/

namespace Sys2Proof.Machine

set_option Elab.async false

/-- A clear word whose own effect is an alignment fault. -/
theorem State.issue_misaligned {s : State} {st : Strand} {u : Uses} {body : Strand → Act} {ea : Word} (clear : s.Clear st u) (m : Bool)
    (raises : body st = .fault 7 ea) : s.issue m u body = .next (s.faultTurn s.cur 7 ea st.regs.pc) :=
  State.issue_faults clear m raises

theorem State.globalAddr_misaligned {s : State} {x : SlotId} {st : Strand} {ea : Word} {n : Nat} {kind : AccKind}
    (misaligned : ea.toNat % n ≠ 0) : s.globalAddr x st ea n kind = .stop (.fault 7 ea) := by
  simp [State.globalAddr, misaligned]

theorem Strand.waitsSolo_plain {st : Strand} (plain : st.chunk = none) : st.waitsSolo = false := by
  simp [Strand.waitsSolo, plain]

theorem Strand.atSluice_ready {st : Strand} (ready : st.run = .ready) : st.atSluice = false := by
  simp [Strand.atSluice, ready]

section
variable {s : State} {st : Strand} {d a b : Spec} {ea : Word} (m : Bool)

/-! ## Scratchpad accesses -/

theorem exec_lds_misaligned (clear : s.Clear st (useLoad false d a false)) (off : BitVec 9) (z : BitVec 3)
    (bad : (eaScalar (st.rs a) off z).toNat % sizeOf z ≠ 0) :
    exec (.lds m d a off z) s = .next (s.faultTurn s.cur 7 (eaScalar (st.rs a) off z) st.regs.pc) :=
  State.issue_misaligned clear m (by rw [State.loadPad_misaligned bad]; rfl)

theorem exec_ldsv_misaligned (clear : s.Clear st (useLoad true d a false)) (imm : BitVec 12) (bad : (eaVector (st.rs a) imm).toNat % 128 ≠ 0) :
    exec (.ldsv m d a imm) s = .next (s.faultTurn s.cur 7 (eaVector (st.rs a) imm) st.regs.pc) :=
  State.issue_misaligned clear m (by rw [State.loadPad_misaligned bad]; rfl)

theorem exec_sts_misaligned (clear : s.Clear st (useStore false b a)) (off : BitVec 9) (z : BitVec 3)
    (bad : (eaScalar (st.rs a) off z).toNat % sizeOf z ≠ 0) :
    exec (.sts m b a off z) s = .next (s.faultTurn s.cur 7 (eaScalar (st.rs a) off z) st.regs.pc) :=
  State.issue_misaligned clear m (by rw [State.storePad_misaligned (by rwa [natToBytes_length])]; rfl)

theorem exec_stsv_misaligned (clear : s.Clear st (useStore true b a)) (imm : BitVec 12) (bad : (eaVector (st.rs a) imm).toNat % 128 ≠ 0) :
    exec (.stsv m b a imm) s = .next (s.faultTurn s.cur 7 (eaVector (st.rs a) imm) st.regs.pc) :=
  State.issue_misaligned clear m (by rw [State.storePad_misaligned (by rwa [natToBytes_length])]; rfl)

/-! ## Global accesses -/

theorem exec_ldg_misaligned (clear : s.Clear st (useLoad false d a true)) (off : BitVec 9) (z : BitVec 3)
    (bad : (eaScalar (st.rs a) off z).toNat % sizeOf z ≠ 0) :
    exec (.ldg m d a off z) s = .next (s.faultTurn s.cur 7 (eaScalar (st.rs a) off z) st.regs.pc) :=
  State.issue_misaligned clear m (by simp only [State.globalAddr_misaligned bad]; rfl)

theorem exec_stg_misaligned (clear : s.Clear st (useStore false b a)) (off : BitVec 9) (z : BitVec 3)
    (bad : (eaScalar (st.rs a) off z).toNat % sizeOf z ≠ 0) :
    exec (.stg m b a off z) s = .next (s.faultTurn s.cur 7 (eaScalar (st.rs a) off z) st.regs.pc) :=
  State.issue_misaligned clear m (by rw [State.globalAddr_misaligned bad]; rfl)

theorem exec_ldgv_misaligned (clear : s.Clear st (useLoad true d a true)) (imm : BitVec 12) (bad : (eaVector (st.rs a) imm).toNat % 128 ≠ 0) :
    exec (.ldgv m d a imm) s = .next (s.faultTurn s.cur 7 (eaVector (st.rs a) imm) st.regs.pc) :=
  State.issue_misaligned clear m (by rw [State.globalAddr_misaligned bad]; rfl)

theorem exec_stgv_misaligned (clear : s.Clear st (useStore true b a)) (imm : BitVec 12) (bad : (eaVector (st.rs a) imm).toNat % 128 ≠ 0) :
    exec (.stgv m b a imm) s = .next (s.faultTurn s.cur 7 (eaVector (st.rs a) imm) st.regs.pc) :=
  State.issue_misaligned clear m (by rw [State.globalAddr_misaligned bad]; rfl)

theorem exec_ldc_misaligned (clear : s.Clear st (useLoad false d a true)) (plain : st.chunk = none) (imm : BitVec 12)
    (bad : (eaWord (st.rs a) imm).toNat % 8 ≠ 0) :
    exec (.ldc m d a imm) s = .next (s.faultTurn s.cur 7 (eaWord (st.rs a) imm) st.regs.pc) :=
  State.issue_misaligned clear m (by rw [Strand.waitsSolo_plain plain, State.globalAddr_misaligned bad]; rfl)

theorem exec_stp_misaligned (clear : s.Clear st (useStore false b a)) (plain : st.chunk = none) (imm : BitVec 12)
    (bad : (eaWord (st.rs a) imm).toNat % 8 ≠ 0) :
    exec (.stp m b a imm) s = .next (s.faultTurn s.cur 7 (eaWord (st.rs a) imm) st.regs.pc) :=
  State.issue_misaligned clear m (by rw [Strand.waitsSolo_plain plain, State.globalAddr_misaligned bad]; rfl)

/-! ## Atomics and reserved pairs -/

theorem exec_ldx_misaligned (clear : s.Clear st { useLoad false d a true with aborts := true }) (bad : (st.rs a).toNat % 8 ≠ 0) :
    exec (.ldx m d a) s = .next (s.faultTurn s.cur 7 (st.rs a) st.regs.pc) :=
  State.issue_misaligned clear m (by rw [State.globalAddr_misaligned bad]; rfl)

theorem exec_stx_misaligned
    (clear : s.Clear st { srcs := [(0, false, a), (1, false, b)], dst := some (false, d), long := true, access := true, aborts := true })
    (bad : (st.rs a).toNat % 8 ≠ 0) : exec (.stx m d a b) s = .next (s.faultTurn s.cur 7 (st.rs a) st.regs.pc) :=
  State.issue_misaligned clear m (by rw [State.globalAddr_misaligned bad]; rfl)

theorem State.atom_misaligned {op : AtomOp} (ord : BitVec 2)
    (clear : s.Clear st { srcs := [(0, false, a), (1, false, b)] ++ (if op = .cas then [(2, false, d)] else []), dst := some (false, d)
                          long := true, access := true, aborts := true })
    (bad : (st.rs a).toNat % op.size ≠ 0) : s.atom m op ord d a b = .next (s.faultTurn s.cur 7 (st.rs a) st.regs.pc) :=
  State.issue_misaligned clear m (by rw [State.globalAddr_misaligned bad]; rfl)

theorem State.atomn_misaligned {op : AtomOp} (rel : BitVec 1)
    (clear : s.Clear st { srcs := [(0, false, a), (1, false, b)], access := true, aborts := true })
    (bad : (st.rs a).toNat % op.size ≠ 0) : s.atomn m op rel a b = .next (s.faultTurn s.cur 7 (st.rs a) st.regs.pc) :=
  State.issue_misaligned clear m (by rw [State.globalAddr_misaligned bad]; rfl)

theorem State.redp_misaligned (clear : s.Clear st { srcs := [(0, false, a)], access := true, aborts := true }) (ready : st.run = .ready)
    (bad : (st.rs a).toNat % 8 ≠ 0) (op : FlightOp) : s.redp m op a = .next (s.faultTurn s.cur 7 (st.rs a) st.regs.pc) :=
  State.issue_misaligned clear m (by simp only [ready, State.globalAddr_misaligned bad]; rfl)

theorem exec_join_misaligned (clear : s.Clear st { srcs := [(0, false, a)], access := true, aborts := true }) (ready : st.run = .ready)
    (bad : (st.rs a).toNat % 8 ≠ 0) : exec (.join m a) s = .next (s.faultTurn s.cur 7 (st.rs a) st.regs.pc) :=
  State.issue_misaligned clear m (by simp only [ready, State.globalAddr_misaligned bad]; rfl)

/-! ## Records -/

theorem exec_gang_misaligned (clear : s.Clear st { srcs := [(0, false, a)], access := true, aborts := true })
    (bad : (st.rs a).toNat % 8 ≠ 0) : exec (.gang m a) s = .next (s.faultTurn s.cur 7 (st.rs a) st.regs.pc) :=
  State.issue_misaligned clear m (if_pos (bne_iff_ne.mpr bad))

theorem exec_lkcfg_misaligned (clear : s.Clear st { srcs := [(0, false, a)], access := true, aborts := true }) (ring : BitVec 3)
    (bad : (st.rs a).toNat % 8 ≠ 0) : exec (.lkcfg m ring a) s = .next (s.faultTurn s.cur 7 (st.rs a) st.regs.pc) :=
  State.issue_misaligned clear m (if_pos (bne_iff_ne.mpr bad))

theorem State.router_misaligned_payload (clear : s.Clear st { srcs := [(0, false, a), (1, false, b)], access := true, aborts := true })
    (send : Bool) (ty : Nat) (bad : (st.rs a).toNat % 128 ≠ 0) :
    s.router m send ty a b = .next (s.faultTurn s.cur 7 (st.rs a) st.regs.pc) :=
  State.issue_misaligned clear m (if_pos (bne_iff_ne.mpr bad))

theorem State.router_misaligned_record (clear : s.Clear st { srcs := [(0, false, a), (1, false, b)], access := true, aborts := true })
    (send : Bool) (ty : Nat) (payload : (st.rs a).toNat % 128 = 0) (bad : (st.rs b).toNat % 8 ≠ 0) :
    s.router m send ty a b = .next (s.faultTurn s.cur 7 (st.rs b) st.regs.pc) :=
  State.issue_misaligned clear m ((if_neg (by simp [payload])).trans (if_pos (bne_iff_ne.mpr bad)))

theorem State.cellNumber_declared {k f c : Nat} {w : Word} (declared : s.declared st = some (k, f, c)) (low : f ≤ w.toNat % 2 ^ 24)
    (high : w.toNat % 2 ^ 24 < f + c) : s.cellNumber st w = .got (w.toNat % 2 ^ 24) s := by
  unfold State.cellNumber cellOperand
  rw [declared]
  exact if_neg (by rw [Bool.or_eq_true, decide_eq_true_eq, decide_eq_true_eq]; omega)

theorem State.sheetNumber_declared {k f c : Nat} {w : Word} (declared : s.declared st = some (k, f, c)) (names : w.toNat / 2 ^ 32 % 2 ^ 12 = k) :
    s.sheetNumber st w = .got k s := by
  unfold State.sheetNumber sheetOperand
  rw [declared]
  exact (if_neg (not_not.mpr names)).trans (by rw [names])

theorem exec_cbind_misaligned (clear : s.Clear st { srcs := [(0, false, a), (1, false, b)], access := true, aborts := true })
    (ready : st.run = .ready) {k f c : Nat} (declared : s.declared st = some (k, f, c)) (low : f ≤ (st.rs a).toNat % 2 ^ 24)
    (high : (st.rs a).toNat % 2 ^ 24 < f + c) (bad : (st.rs b).toNat % 64 ≠ 0) :
    exec (.cbind m a b) s = .next (s.faultTurn s.cur 7 (st.rs b) st.regs.pc) := by
  refine State.issue_misaligned clear m ?_
  rw [Strand.atSluice_ready ready, State.cellNumber_declared declared low high]
  exact if_pos (bne_iff_ne.mpr bad)

theorem exec_ccommit_misaligned
    (clear : s.Clear st { srcs := [(0, false, a), (1, false, b)], dst := some (false, d), long := true, access := true, aborts := true })
    (ready : st.run = .ready) {k f c : Nat} (declared : s.declared st = some (k, f, c)) (names : (st.rs a).toNat / 2 ^ 32 % 2 ^ 12 = k)
    (bad : (st.rs b).toNat % 8 ≠ 0) : exec (.ccommit m d a b) s = .next (s.faultTurn s.cur 7 (st.rs b) st.regs.pc) := by
  refine State.issue_misaligned clear m ?_
  rw [Strand.atSluice_ready ready, State.sheetNumber_declared declared names]
  exact if_pos (bne_iff_ne.mpr bad)

end

/-- Settles O20: each form checks the alignment of its effective address first, or first after it is found to name what it may. -/
theorem alignmentFaults : Obligations.AlignmentFaults := by
  intro s st m d a b off z imm ord ty rel t ring plain
  simp only [← eaScalar_eq, ← eaVector_eq, ← eaWord_eq]
  refine ⟨fun clear => exec_lds_misaligned m clear off z, fun clear => exec_ldg_misaligned m clear off z,
    fun clear bad => ⟨exec_sts_misaligned m clear off z bad, exec_stg_misaligned m clear off z bad⟩,
    fun clear => exec_ldsv_misaligned m clear imm, fun clear => exec_ldgv_misaligned m clear imm,
    fun clear bad => ⟨exec_stsv_misaligned m clear imm bad, exec_stgv_misaligned m clear imm bad⟩,
    fun clear => exec_ldc_misaligned m clear plain imm, fun clear => exec_stp_misaligned m clear plain imm,
    fun clear => exec_ldx_misaligned m clear, fun bad ready => ⟨?long, fun clear => State.atom_misaligned m ord clear bad, ?short, ?held⟩,
    fun bad => ⟨fun clear => State.atom_misaligned m ord clear bad, fun clear => State.atomn_misaligned m rel clear bad⟩,
    fun clear => exec_lkcfg_misaligned m clear ring, fun clear => ⟨?routers, ?cbind⟩, ?ccommit⟩
  case long =>
    intro clear
    simp only [List.forall_mem_cons, List.not_mem_nil, false_implies, implies_true, and_true]
    refine ⟨exec_stx_misaligned m clear bad, ?_, ?_, ?_, ?_, ?_, ?_, ?_, ?_, ?_, ?_⟩
    all_goals exact State.atom_misaligned m ord clear bad
  case short =>
    intro clear
    simp only [List.forall_mem_cons, List.not_mem_nil, false_implies, implies_true, and_true]
    refine ⟨?_, ?_, ?_, ?_, ?_, ?_, ?_, ?_, ?_⟩
    all_goals exact State.atomn_misaligned m rel clear bad
  case held =>
    intro clear
    simp only [List.forall_mem_cons, List.not_mem_nil, false_implies, implies_true, and_true]
    exact ⟨State.redp_misaligned m clear ready bad _, State.redp_misaligned m clear ready bad _, exec_join_misaligned m clear ready bad,
      exec_gang_misaligned m clear bad⟩
  case routers =>
    simp only [List.forall_mem_cons, List.not_mem_nil, false_implies, implies_true, and_true]
    exact ⟨⟨State.router_misaligned_payload m clear _ _, State.router_misaligned_record m clear _ _⟩,
      State.router_misaligned_payload m clear _ _, State.router_misaligned_record m clear _ _⟩
  case cbind => exact fun k f c ready declared low high => exec_cbind_misaligned m clear ready declared low high
  case ccommit => exact fun clear k f c ready declared names => exec_ccommit_misaligned m clear ready declared names

end Sys2Proof.Machine
end

section
/-!
PROOF. The step that a strand's turn makes (spec/12 R234, spec/15 R310), and what a reset leaves (spec/17 R349, R353).
-/

namespace Sys2Proof.Machine

set_option Elab.async false

/-! ## Reset -/

/-- A device without tiles, rows, memory and watches is wiped, wherever it is before its boot. -/
theorem wiped_of_empty {t : State} (tiles : t.tiles = []) (rows : t.rows = []) (mem : t.mem = []) (full : t.full = []) (watches : t.watches = [])
    (ready : t.ctl.ready = false) (busy : t.ctl.busy = true) : wiped t := by
  have tile (n : Nat) : t.tile n = Tile.initial := by rw [State.tile, tiles]; rfl
  have row (n : Nat) : t.rowAt n = Row.initial := by rw [State.rowAt, rows]; rfl
  have chan (n k : Nat) : t.chan n k = Chan.initial := by
    rw [State.chan, tile, Tile.initial]
    simp [Vector.getD, Array.getD]
  refine ⟨fun a => by rw [mem, memGet_nil], fun a => by simp [State.isFull, full], watches, ready, busy, fun n => ?_⟩
  simp only [tile, row, chan]
  exact ⟨rfl, rfl, rfl, rfl, rfl, rfl, fun _ => rfl, fun _ => ⟨rfl, rfl, rfl⟩⟩

theorem wiped_afterReset (s : State) : wiped s.afterReset := wiped_of_empty rfl rfl rfl rfl rfl rfl rfl

/-- Settles O27: a reset leaves none of the state that wiping speaks of. -/
theorem resetWipes : Obligations.ResetWipes :=
  ⟨wiped_of_empty rfl rfl rfl rfl rfl rfl rfl, ⟨rfl, rfl, fun _ h => absurd h List.not_mem_nil⟩,
    fun s => ⟨s.afterReset, rfl, wiped_afterReset s, rfl, rfl, rfl, rfl⟩⟩

/-! ## What a turn comes to -/

theorem Strand.inTx_closed {st : Strand} (closed : st.tx = none) : st.inTx = false := by
  simp [Strand.inTx, Strand.depth, closed]

/-- A strand to which nothing is to be delivered first. -/
theorem State.recognise_word {s : State} {x : SlotId} {st : Strand} (noPre : st.preReq = false) (noAsync : st.asyncs = [])
    (keeps : st.tx = none ∨ (st.abortReq = none ∧ s.lostLine x = none)) (awake : s.waveSleeps x = false)
    (noEvent : st.sup = true → st.ie = false ∨ (s.tile x.tile).events = []) (noSkip : st.regs.skipn = 0) : s.recognise x st = .word := by
  have noConflict : (st.inTx && (st.abortReq.isSome || ((s.lostLine x).isSome && !s.retriesNext x st))) = false := by
    rcases keeps with closed | ⟨noAbort, noLoss⟩
    · simp [Strand.inTx_closed closed]
    · simp [noAbort, noLoss]
  have noEvent' : (st.sup && st.ie && !(s.tile x.tile).events.isEmpty) = false := by
    cases sup : st.sup with
    | false => rfl
    | true => rcases noEvent sup with h | h <;> simp [h]
  simp [State.recognise, noPre, noAsync, noConflict, awake, noEvent', noSkip]

/-- Two states that map addresses alike: their tiles and rows with their buffers, their fuses, and what a check of a leaf looks at. -/
structure State.SameMaps (s t : State) : Prop where
  tiles : t.tiles = s.tiles
  rows : t.rows = s.rows
  fusedRows : t.fusedRows = s.fusedRows
  fusedCols : t.fusedCols = s.fusedCols
  devno : t.devno = s.devno
  members : t.members = s.members
  protlo : t.protlo = s.protlo
  prothi : t.prothi = s.prothi

theorem State.SameMaps.tile {s t : State} (same : s.SameMaps t) (n : Nat) : t.tile n = s.tile n := State.tile_of_tiles same.tiles n

theorem State.SameMaps.region {s t : State} (same : s.SameMaps t) (a : Nat) : t.region a = s.region a :=
  State.region_of_fuses same.fusedRows same.fusedCols a

theorem State.SameMaps.tlbFind {s t : State} (same : s.SameMaps t) (n va : Nat) (asid : BitVec 16) : t.tlbFind n va asid = s.tlbFind n va asid := by
  have row : t.rowAt (t.tileRow n) = s.rowAt (s.tileRow n) := by
    unfold State.rowAt State.tileRow State.physRow
    rw [same.rows, same.fusedRows]
  rw [State.tlbFind, State.tlbFind, same.tile, row]

theorem State.SameMaps.checkLeaf {s t : State} (same : s.SameMaps t) (l : Leaf) (p : Loc) (kind : AccKind) (sup : Bool) :
    t.checkLeaf l p kind sup = s.checkLeaf l p kind sup := by
  have absent : t.absentSite p = s.absentSite p := by
    unfold State.absentSite
    rw [same.region]
    cases s.region p.addr <;> simp only [same.tile]
  unfold State.checkLeaf State.protectedAt
  rw [same.region, absent, same.members, same.protlo, same.prothi]

theorem State.SameMaps.translate {s t : State} (same : s.SameMaps t) (n : Nat) (root : Word) (sup : Bool) (ea : Word) (kind : AccKind) :
    t.translate n root sup ea kind = s.translate n root sup ea kind := by
  have leaf (l : Leaf) (va : Nat) : t.trLeaf l va kind sup = s.trLeaf l va kind sup := by
    simp only [State.trLeaf, show t.leafLoc l va = s.leafLoc l va by unfold State.leafLoc; rw [same.devno], same.checkLeaf]
  unfold State.translate
  simp only [same.tlbFind, leaf]

theorem State.SameMaps.lostLine {s t : State} (same : s.SameMaps t) (x : SlotId) : t.lostLine x = s.lostLine x := by
  have line (sp : Bool) (p : Loc) : t.lineAddr sp p = s.lineAddr sp p := by
    unfold State.lineAddr
    simp only [same.devno]
  simp only [State.lostLine, same.tile, line]

theorem fetches_of_sameMaps {s t : State} {x : SlotId} {st : Strand} {w : BitVec 32} (same : s.SameMaps t) (mem : t.mem = s.mem)
    (code : t.codeStore = s.codeStore) (image : t.fwImage = s.fwImage) (h : fetches s x st w) : fetches t x st w := by
  unfold fetches State.readBytes
  rw [same.translate, same.tile, mem, code, image]
  exact h

theorem State.fetch_of_fetches {s : State} {x : SlotId} {st : Strand} {w : BitVec 32} (h : fetches s x st w) : s.fetch x st = .word w := by
  rcases h with ⟨user, p, tr, place, buffered, fetched⟩ | ⟨sup, rfl⟩
  · have text : s.textAt x st.lid p.addr = w := by
      unfold State.textAt
      split
      case h_1 k held => exact (buffered k held).symm
      case h_2 missing => exact (fetched missing).symm
    simp [State.fetch, user, place, text]
  · simp [State.fetch, sup]

/-- The turn of a strand that is able to issue, when the rotation has come to it. -/
theorem State.turn_ready {s : State} {x : SlotId} {st : Strand}
    (turn : ((s.tile x.tile).phase % 2 = 0 ∧ (s.tile x.tile).owner x.tile = x)
      ∨ ((s.tile x.tile).phase % 2 = 1 ∧ sibling ((s.tile x.tile).owner x.tile) = x ∧ st.det = false))
    (free : s.ctl.ckpt = none ∨ isSup x = true) (here : s.strand? x = some st) (ready : st.run = .ready) (noSkip : st.regs.skipn = 0) :
    s.turnSlot x.tile = x ∧ s.turn x.tile = mapNext (s.issueTurn x st) fun t => t.rotate x.tile false := by
  have goes : s.stopped x = false := by
    rcases free with h | h <;> simp [State.stopped, h]
  rcases turn with ⟨even, own⟩ | ⟨odd, borrowed, undet⟩
  · have slot : s.turnSlot x.tile = x := by simp [State.turnSlot, even, own]
    refine ⟨slot, ?_⟩
    simp [State.turn, slot, goes, even, own, State.ownerTurn, here, ready, noSkip]
  · have slot : s.turnSlot x.tile = x := by simp [State.turnSlot, odd, borrowed]
    refine ⟨slot, ?_⟩
    simp [State.turn, slot, goes, odd, borrowed, State.borrowedTurn, here, ready, undet]

/-- A step in which the agenda, or its default, gives a tile its turn. -/
theorem step_turn {s : State} {r : List Choice} {x : SlotId} {st : Strand}
    (agenda : s.agenda = .turn x.tile :: r ∨ (s.agenda = [] ∧ r = [] ∧ s.focus = x.tile)) (here : s.strand? x = some st) (ready : st.run = .ready)
    (slot : s.turnSlot x.tile = x) : step s = ({ s with agenda := r } : State).turn x.tile := by
  rcases agenda with next | ⟨empty, rfl, focus⟩
  · simp only [step, next]
    rfl
  · have busy : s.idleTurn s.focus = false := by simp [State.idleTurn, focus, slot, here, ready]
    have same : ({ s with agenda := [] } : State) = s := by rw [← empty]
    have default : step s = s.defaultStep := by simp only [step, empty]
    rw [same, default, State.defaultStep, busy, focus]
    rfl

theorem State.runWord_illegal {s : State} {x : SlotId} {st : Strand} {w : BitVec 32} {c : Nat} (fetched : s.fetch x st = .word w)
    (illegal : decodeFor x.core w = .error c) :
    s.runWord x st = .next (s.faultTurn x 1 (BitVec.ofNat 64 (c * 2 ^ 32 + w.toNat)) st.regs.pc) := by
  simp only [State.runWord, fetched, illegal]
  rfl

theorem State.runWord_decoded {s : State} {x : SlotId} {st : Strand} {w : BitVec 32} {i : Instr} (fetched : s.fetch x st = .word w)
    (decoded : decodeFor x.core w = .ok i) : s.runWord x st = exec i { s.settleRedo x st with cur := x } := by
  simp only [State.runWord, fetched, decoded]

/-- Settles O25: the agenda gives the turn, the turn recognises the word, and the word is fetched and run. -/
theorem stepRunsDecoded : Obligations.StepRunsDecoded := by
  intro s r x st w agenda turn free here ready noPre noAsync keeps awake noEvent noSkip fetched s'
  obtain ⟨slot, turned⟩ := State.turn_ready (s := s') turn free here ready noSkip
  have same : s.SameMaps s' := ⟨rfl, rfl, rfl, rfl, rfl, rfl, rfl, rfl⟩
  have word : s'.recognise x st = .word := State.recognise_word noPre noAsync (by rwa [same.lostLine]) awake noEvent noSkip
  have fetched' : s'.fetch x st = .word w := State.fetch_of_fetches (fetches_of_sameMaps same rfl rfl rfl fetched)
  have stepped : step s = mapNext (s'.runWord x st) fun t => t.rotate x.tile false := by
    rw [step_turn agenda here ready slot, turned, State.issueTurn, word]
  refine ⟨fun i decoded => ?_, fun c illegal => by rw [stepped, State.runWord_illegal fetched' illegal]; rfl⟩
  rw [stepped, State.runWord_decoded fetched' decoded, State.settleRedo]
  refine ⟨fun fresh kept => ?fresh, fun fresh lost => ?lost, fun q redo => ?redo⟩
  case fresh => rw [fresh, if_pos kept]
  case lost => rw [fresh, if_neg lost]
  case redo => rw [redo]

end Sys2Proof.Machine
end

section
/-!
PROOF. Global accesses and atomics at issue: what each sends, where to, and what it marks as outstanding (O21, O22).
-/

namespace Sys2Proof.Machine

set_option Elab.async false

/-! ## Sending an access -/

theorem State.globalAddr_at {s : State} {x : SlotId} {st : Strand} {ea : Word} {n : Nat} {kind : AccKind} {p : Loc} {tr : Leaf}
    (aligned : ea.toNat % n = 0) (place : s.translate x.tile st.regs.ptroot st.sup ea kind = .at_ p tr) :
    s.globalAddr x st ea n kind = .got (p, tr) s := by
  simp [State.globalAddr, aligned, place]

/-- The strand that has marked the destination of access `id` as awaiting a long result (R108). -/
def Strand.awaiting (st : Strand) (id : Nat) (dest : Option Dest) (acq : Bool) : Strand :=
  { st with longs := st.longs ++ (dest.map fun d => (⟨id, d, acq⟩ : Long)).toList }

theorem State.strand?_countWork (s : State) (x : SlotId) (t lid ops lines : Nat) : (s.countWork t lid ops lines).strand? x = s.strand? x :=
  State.strand?_modTile_same s x t fun _ => rfl

theorem State.strand?_send {s : State} {x : SlotId} {now : Strand} (here : s.strand? x = some now) (st : Strand) (op : FlightOp) (l : Loc)
    (dest : Option Dest) (kind : Nat) (rel acq : Bool) (tr : Option Leaf) :
    (s.send x st op l dest kind rel acq tr).strand? x = some (now.awaiting s.nextId dest acq) := by
  have marked : (s.modStrand x fun st => match dest with
      | some d => { st with longs := st.longs ++ [⟨s.nextId, d, acq⟩] }
      | none => st).strand? x = some (now.awaiting s.nextId dest acq) := by
    rw [State.modStrand_of_strand here, State.strand?_setStrand]
    cases dest <;> simp [Strand.awaiting]
  exact (State.strand?_countWork _ x x.tile st.lid 0 (linesOf l op.len).length).trans marked

/-! What a change of a strand leaves. -/

theorem State.modStrand_cases (s : State) (x : SlotId) (f : Strand → Strand) : s.modStrand x f = s ∨ ∃ st, s.modStrand x f = s.setStrand x st := by
  unfold State.modStrand
  cases s.strand? x with
  | none => exact .inl rfl
  | some st => exact .inr ⟨f st, rfl⟩

theorem State.modStrand_mem (s : State) (x : SlotId) (f : Strand → Strand) : (s.modStrand x f).mem = s.mem := by
  rcases s.modStrand_cases x f with h | ⟨st, h⟩ <;> rw [h]; rfl
theorem State.modStrand_full (s : State) (x : SlotId) (f : Strand → Strand) : (s.modStrand x f).full = s.full := by
  rcases s.modStrand_cases x f with h | ⟨st, h⟩ <;> rw [h]; rfl
theorem State.modStrand_flight (s : State) (x : SlotId) (f : Strand → Strand) : (s.modStrand x f).flight = s.flight := by
  rcases s.modStrand_cases x f with h | ⟨st, h⟩ <;> rw [h]; rfl
theorem State.modStrand_nextId (s : State) (x : SlotId) (f : Strand → Strand) : (s.modStrand x f).nextId = s.nextId := by
  rcases s.modStrand_cases x f with h | ⟨st, h⟩ <;> rw [h]; rfl
theorem State.modStrand_cur (s : State) (x : SlotId) (f : Strand → Strand) : (s.modStrand x f).cur = s.cur := by
  rcases s.modStrand_cases x f with h | ⟨st, h⟩ <;> rw [h]; rfl

section
variable (s : State) (x : SlotId) {st : Strand} (op : FlightOp) (l : Loc) (dest : Option Dest) (kind : Nat) (rel acq : Bool) (tr : Option Leaf)

@[simp] theorem State.send_mem : (s.send x st op l dest kind rel acq tr).mem = s.mem := State.modStrand_mem _ _ _
@[simp] theorem State.send_full : (s.send x st op l dest kind rel acq tr).full = s.full := State.modStrand_full _ _ _
@[simp] theorem State.send_cur : (s.send x st op l dest kind rel acq tr).cur = s.cur := State.modStrand_cur _ _ _
@[simp] theorem State.send_nextId : (s.send x st op l dest kind rel acq tr).nextId = s.nextId + 1 :=
  congrArg (· + 1) (State.modStrand_nextId _ _ _)

theorem State.send_flight (outside : st.inTx = false) (plain : st.chunk = none) :
    (s.send x st op l dest kind rel acq tr).flight
      = s.flight ++ [⟨s.nextId, x, st.lid, st.sid, st.uid, op, l, dest, kind, rel, acq, [], none, false, false, 0, tr⟩] := by
  simp [State.send, State.countWork, State.modStrand_flight, State.modStrand_nextId, Strand.ownBytes_closed outside plain,
    Strand.wset_closed outside plain, wFull, outside]

end

/-- A word that is clear and sends one access. -/
theorem entersFlight_of_send {s s' : State} {st st' : Strand} {u : Uses} {body : Strand → Act} {op : FlightOp} {l : Loc} {dest : Option Dest}
    {kind : Nat} {rel acq : Bool} {tr : Leaf} (clear : s.Clear st u) (m : Bool) (outside : st.inTx = false) (plain : st.chunk = none)
    (here : s'.strand? s.cur = some st') (cur : s'.cur = s.cur) (ids : st'.lid = st.lid ∧ st'.sid = st.sid ∧ st'.uid = st.uid)
    (sends : body st = .ok (s'.send s.cur st op l dest kind rel acq (some tr))) :
    entersFlight s' st' m op l dest kind rel acq tr (s.issue m u body) := by
  obtain ⟨lid, sid, uid⟩ := ids
  rw [State.issue_clear clear, sends, State.finish_ok (State.strand?_send here st op l dest kind rel acq (some tr))]
  refine ⟨_, rfl, ?_, ?_, ?_, ?_, ?_⟩
  · rw [State.setStrand_flight, State.send_flight _ _ _ _ _ _ _ _ _ outside plain, cur, lid, sid, uid]
  · rw [State.setStrand_nextId, State.send_nextId]
  · rw [State.setStrand_mem, State.send_mem]
  · rw [State.setStrand_full, State.send_full]
  · rw [cur, State.strand?_setStrand]
    rfl

/-! ## Loads -/

section
variable {s : State} {st : Strand} {m : Bool} {d a b : Spec} {p : Loc} {tr : Leaf} (outside : st.inTx = false) (plain : st.chunk = none)
include outside plain

theorem exec_ldg_sends (clear : s.Clear st (useLoad false d a true)) (off : BitVec 9) (z : BitVec 3)
    (aligned : (eaScalar (st.rs a) off z).toNat % sizeOf z = 0)
    (place : s.translate s.cur.tile st.regs.ptroot st.sup (eaScalar (st.rs a) off z) .read = .at_ p tr) (op : FlightOp)
    (asked : (match s.resvAt p with
      | some k => if sizeOf z = 8 then FlightOp.resv k else .load (sizeOf z) (!z.getLsbD 0)
      | none => .load (sizeOf z) (!z.getLsbD 0)) = op) :
    entersFlight s st m op p (some ⟨false, d⟩) 0 false false tr (exec (.ldg m d a off z) s) := by
  refine entersFlight_of_send clear m outside plain clear.here rfl ⟨rfl, rfl, rfl⟩ ?_
  simp only [State.globalAddr_at aligned place]
  simp only [Got.act, outside, Strand.waitsSolo_plain plain, Bool.and_false, State.watchReads, Strand.buffered_closed outside plain]
  subst asked
  cases s.resvAt p <;> rfl

theorem exec_ldc_sends (clear : s.Clear st (useLoad false d a true)) (imm : BitVec 12) (aligned : (eaWord (st.rs a) imm).toNat % 8 = 0)
    (place : s.translate s.cur.tile st.regs.ptroot st.sup (eaWord (st.rs a) imm) .rw = .at_ p tr) :
    entersFlight s st m .ldc p (some ⟨false, d⟩) 4 false true tr (exec (.ldc m d a imm) s) := by
  refine entersFlight_of_send clear m outside plain clear.here rfl ⟨rfl, rfl, rfl⟩ ?_
  simp only [Strand.waitsSolo_plain plain, State.globalAddr_at aligned place, Got.act, outside]
  rfl

theorem exec_ldgv_sends (clear : s.Clear st (useLoad true d a true)) (imm : BitVec 12) (aligned : (eaVector (st.rs a) imm).toNat % 128 = 0)
    (place : s.translate s.cur.tile st.regs.ptroot st.sup (eaVector (st.rs a) imm) .read = .at_ p tr) :
    exec (.ldgv m d a imm) s = .next (s.finish s.cur m (.ok ((s.send s.cur st (.loadV false) p none 0 false false (some tr)).send s.cur st
      (.loadV true) ⟨p.dev, p.addr + 64⟩ (some ⟨true, d⟩) 0 false false (some tr)))) := by
  refine (State.issue_clear clear m _).trans ?_
  simp only [State.globalAddr_at aligned place, Got.act, outside, Bool.false_and, State.watchReads, Strand.buffered_closed outside plain,
    Bool.false_eq_true, if_false, State.send_cur]

end

/-! ## Stores -/

section
variable {s : State} {st : Strand} {m : Bool} {a b : Spec} {p : Loc} {tr : Leaf}

theorem exec_stg {off : BitVec 9} {z : BitVec 3} (clear : s.Clear st (useStore false b a))
    (aligned : (eaScalar (st.rs a) off z).toNat % sizeOf z = 0)
    (place : s.translate s.cur.tile st.regs.ptroot st.sup (eaScalar (st.rs a) off z) .write = .at_ p tr) :
    exec (.stg m b a off z) s = .next (s.finish s.cur m (s.storeGlobal st p (natToBytes (sizeOf z) (st.rs b).toNat) tr)) := by
  refine (State.issue_clear clear m _).trans ?_
  simp only [State.globalAddr_at aligned place, Got.act]

theorem exec_stgv {imm : BitVec 12} (clear : s.Clear st (useStore true b a)) (aligned : (eaVector (st.rs a) imm).toNat % 128 = 0)
    (place : s.translate s.cur.tile st.regs.ptroot st.sup (eaVector (st.rs a) imm) .write = .at_ p tr) :
    exec (.stgv m b a imm) s = .next (s.finish s.cur m (s.storeGlobal st p (natToBytes 128 (st.rv b).toNat) tr)) := by
  refine (State.issue_clear clear m _).trans ?_
  simp only [State.globalAddr_at aligned place, Got.act]

variable (outside : st.inTx = false) (plain : st.chunk = none)
include outside plain

theorem State.storeGlobal_line {bs : List Byte} (short : bs.length ≤ 64) :
    s.storeGlobal st p bs tr = if 16 ≤ s.bufferUsed s.cur then .forfeit
      else .ok (s.send s.cur st (.store bs) p none 1 false false (some tr)) := by
  simp [State.storeGlobal, Strand.buffered_closed outside plain, short]

theorem State.storeGlobal_lines {bs : List Byte} (long : 64 < bs.length) :
    s.storeGlobal st p bs tr = if 16 < s.bufferUsed s.cur + 2 then .forfeit
      else .ok ((s.send s.cur st (.store (bs.take 64)) p none 1 false false (some tr)).send s.cur st (.store (bs.drop 64)) ⟨p.dev, p.addr + 64⟩ none
        1 false false (some tr)) := by
  simp [State.storeGlobal, Strand.buffered_closed outside plain, Nat.not_le.mpr long]

theorem exec_stp_sends (clear : s.Clear st (useStore false b a)) (imm : BitVec 12) (aligned : (eaWord (st.rs a) imm).toNat % 8 = 0)
    (place : s.translate s.cur.tile st.regs.ptroot st.sup (eaWord (st.rs a) imm) .rw = .at_ p tr) :
    entersFlight s st m (.stp (st.rs b)) p none 4 true false tr (exec (.stp m b a imm) s) := by
  refine entersFlight_of_send clear m outside plain clear.here rfl ⟨rfl, rfl, rfl⟩ ?_
  simp only [Strand.waitsSolo_plain plain, State.globalAddr_at aligned place, Got.act, outside]
  rfl

/-- A word of two accesses, one for each of its lines, of which the second has the destination. -/
theorem finish_twoSends (here : s.strand? s.cur = some st) (m : Bool) (op op' : FlightOp) (l l' : Loc) (dest : Option Dest) (kind : Nat) :
    ∃ t : State, s.finish s.cur m (.ok ((s.send s.cur st op l none kind false false (some tr)).send s.cur st op' l' dest kind false false (some tr))) = t
      ∧ t.flight = s.flight ++ [⟨s.nextId, s.cur, st.lid, st.sid, st.uid, op, l, none, kind, false, false, [], none, false, false, 0, some tr⟩,
        ⟨s.nextId + 1, s.cur, st.lid, st.sid, st.uid, op', l', dest, kind, false, false, [], none, false, false, 0, some tr⟩]
      ∧ t.mem = s.mem ∧ t.full = s.full
      ∧ t.strand? s.cur
        = some ({ st with longs := st.longs ++ (dest.map fun d => (⟨s.nextId + 1, d, false⟩ : Long)).toList }.after m (st.regs.pc + 4)) := by
  have first : (s.send s.cur st op l none kind false false (some tr)).strand? s.cur = some st := by
    rw [State.strand?_send here, Strand.awaiting]
    simp
  have second := State.strand?_send first st op' l' dest kind false false (some tr)
  rw [State.finish_ok second]
  refine ⟨_, rfl, ?_, by simp, by simp, ?_⟩
  · rw [State.setStrand_flight, State.send_flight _ _ _ _ _ _ _ _ _ outside plain, State.send_flight _ _ _ _ _ _ _ _ _ outside plain,
      State.send_nextId, List.append_assoc]
    rfl
  · rw [State.strand?_setStrand, State.send_nextId]
    rfl

end

/-- Settles O21: each word's address is translated, and what it sends enters flight. -/
theorem globalAccessesIssue : Obligations.GlobalAccessesIssue := by
  refine ⟨?loads, ?vectors, ?stores⟩
  case loads =>
    intro s st m d a off z imm p tr clear outside plain
    refine ⟨fun aligned place => ?_, fun aligned place => ?_⟩
    · rw [← eaScalar_eq] at aligned place
      refine ⟨fun none => exec_ldg_sends outside plain clear off z aligned place _ ?_, fun k ring eight =>
        exec_ldg_sends outside plain clear off z aligned place _ ?_⟩
      · rcases none with noRing | short
        · rw [noRing]; rfl
        · have narrow : sizeOf z ≠ 8 := Nat.ne_of_lt short
          cases s.resvAt p with
          | none => rfl
          | some k => exact if_neg narrow
      · rw [ring]; exact if_pos eight
    · rw [← eaWord_eq] at aligned place
      exact exec_ldc_sends outside plain clear imm aligned place
  case vectors =>
    intro s st m d b a imm p tr outside plain
    refine fun aligned => ⟨fun clear place => ?_, fun clear place => ⟨fun room => ?_, fun noRoom => ?_⟩⟩
    all_goals rw [← eaVector_eq] at aligned place
    · obtain ⟨t, outcome, effect⟩ := finish_twoSends outside plain clear.here m (.loadV false) (.loadV true) p ⟨p.dev, p.addr + 64⟩ (some ⟨true, d⟩) 0
      exact ⟨t, by rw [exec_ldgv_sends outside plain clear imm aligned place, outcome], effect⟩
    · obtain ⟨t, outcome, flight, mem, full, strand⟩ := finish_twoSends outside plain clear.here m
        (.store ((natToBytes 128 (st.rv b).toNat).take 64)) (.store ((natToBytes 128 (st.rv b).toNat).drop 64)) p ⟨p.dev, p.addr + 64⟩ none 1
      refine ⟨t, ?_, flight, mem, full, by simpa using strand⟩
      rw [exec_stgv clear aligned place, State.storeGlobal_lines outside plain (by simp), if_neg (Nat.not_lt.mpr room), outcome]
    · rw [exec_stgv clear aligned place, State.storeGlobal_lines outside plain (by simp), if_pos noRoom]
      exact congrArg _ (State.modStrand_of_strand clear.here _)
  case stores =>
    intro s st m b a off z imm p tr clear outside plain
    refine ⟨fun aligned place => ?_, fun aligned place => ?_⟩
    · rw [← eaScalar_eq] at aligned place
      have line : (natToBytes (sizeOf z) (st.rs b).toNat).length ≤ 64 := by
        rw [natToBytes_length]
        rcases sizeOf_cases z with h | h | h | h <;> rw [h] <;> decide
      refine ⟨fun room => ?_, fun noRoom => ?_⟩
      · have aligned : (eaScalar (st.rs a) off z).toNat % sizeOf z = 0 := aligned
        refine entersFlight_of_send clear m outside plain clear.here rfl ⟨rfl, rfl, rfl⟩ ?_
        simp only [State.globalAddr_at aligned place, Got.act]
        rw [State.storeGlobal_line outside plain line, if_neg (Nat.not_le.mpr room)]
        rfl
      · rw [exec_stg clear aligned place, State.storeGlobal_line outside plain line, if_pos noRoom]
        exact congrArg _ (State.modStrand_of_strand clear.here _)
    · rw [← eaWord_eq] at aligned place
      exact exec_stp_sends outside plain clear imm aligned place

/-! ## Atomics -/

section
variable {s : State} {st : Strand} {m : Bool} {ord : BitVec 2} {rel : BitVec 1} {d a b : Spec} {p : Loc} {tr : Leaf}

theorem State.atom_sends (plain : st.chunk = none) (place : s.translate s.cur.tile st.regs.ptroot st.sup (st.rs a) .rw = .at_ p tr) (op : AtomOp)
    (clear : s.Clear st { srcs := [(0, false, a), (1, false, b)] ++ (if op = AtomOp.cas then [(2, false, d)] else []),
                          dst := some (false, d), long := true, access := true, aborts := true })
    (aligned : (st.rs a).toNat % op.size = 0) :
    entersFlight s st m (.atom op (st.rs b) (st.rs d)) p (some ⟨false, d⟩) 4 (ord.getLsbD 1) (ord.getLsbD 0) tr (s.atom m op ord d a b) := by
  refine entersFlight_of_send clear m (clear.outside rfl) plain clear.here rfl ⟨rfl, rfl, rfl⟩ ?_
  simp only [State.globalAddr_at aligned place, Got.act]

theorem State.atomn_sends (plain : st.chunk = none) (place : s.translate s.cur.tile st.regs.ptroot st.sup (st.rs a) .rw = .at_ p tr) (op : AtomOp)
    (clear : s.Clear st { srcs := [(0, false, a), (1, false, b)], access := true, aborts := true })
    (aligned : (st.rs a).toNat % op.size = 0) :
    entersFlight s st m (.atomn op (st.rs b)) p none 4 (rel = 1) false tr (s.atomn m op rel a b) := by
  refine entersFlight_of_send clear m (clear.outside rfl) plain clear.here rfl ⟨rfl, rfl, rfl⟩ ?_
  simp only [State.globalAddr_at aligned place, Got.act]

theorem exec_ldx_sends (plain : st.chunk = none) (place : s.translate s.cur.tile st.regs.ptroot st.sup (st.rs a) .rw = .at_ p tr)
    (clear : s.Clear st { useLoad false d a true with aborts := true }) (aligned : (st.rs a).toNat % 8 = 0) :
    entersFlight (s.dropRsv s.cur) { st with rsv := none } m .ldx p (some ⟨false, d⟩) 4 false false tr (exec (.ldx m d a) s) := by
  refine entersFlight_of_send clear m (clear.outside rfl) plain (State.strand?_dropRsv clear.here) (State.modStrand_cur _ _ _) ⟨rfl, rfl, rfl⟩ ?_
  simp only [State.globalAddr_at aligned place, Got.act]

theorem exec_stx_sends (plain : st.chunk = none) (place : s.translate s.cur.tile st.regs.ptroot st.sup (st.rs a) .rw = .at_ p tr)
    (clear : s.Clear st { srcs := [(0, false, a), (1, false, b)], dst := some (false, d), long := true, access := true, aborts := true })
    (aligned : (st.rs a).toNat % 8 = 0) :
    entersFlight s st m (.stx (st.rs b)) p (some ⟨false, d⟩) 4 false false tr (exec (.stx m d a b) s) := by
  refine entersFlight_of_send clear m (clear.outside rfl) plain clear.here rfl ⟨rfl, rfl, rfl⟩ ?_
  simp only [State.globalAddr_at aligned place, Got.act]

end

theorem AtomOp.size_eq (op : AtomOp) : op.size = if op = .fadd32 then 4 else 8 := by
  cases op <;> rfl

/-- Settles O22: each of the words runs the one operation State.atom, or State.atomn, or sends its own access. -/
theorem atomicsIssue : Obligations.AtomicsIssue := by
  intro s st m ord rel d a b p tr plain place
  refine ⟨fun q listed clear aligned => ?_, fun q listed clear aligned => ?_, fun clear aligned => exec_ldx_sends plain place clear aligned,
    fun clear aligned => exec_stx_sends plain place clear aligned⟩
  · have sends := State.atom_sends (m := m) (ord := ord) plain place q.2 clear (by rwa [AtomOp.size_eq])
    have runs : exec q.1 s = s.atom m q.2 ord d a b := by
      simp only [List.mem_cons, List.not_mem_nil, or_false] at listed
      rcases listed with rfl | rfl | rfl | rfl | rfl | rfl | rfl | rfl | rfl | rfl | rfl | rfl <;> rfl
    rwa [runs]
  · have sends := State.atomn_sends (m := m) (rel := rel) plain place q.2 clear (by rwa [AtomOp.size_eq])
    have runs : exec q.1 s = s.atomn m q.2 rel a b := by
      simp only [List.mem_cons, List.not_mem_nil, or_false] at listed
      rcases listed with rfl | rfl | rfl | rfl | rfl | rfl | rfl | rfl | rfl | rfl <;> rfl
    rwa [runs]

end Sys2Proof.Machine
end

section
/-!
PROOF. Fences: what one waits for, and the orders between paths that it makes (O24).
-/

namespace Sys2Proof.Machine

set_option Elab.async false

/-! ## The orders between paths -/

/-- What a dropped write leaves is part of what was missed: its class, its writer and who has read it stay. -/
theorem mem_lagsDrop {ks : List Lag} {cls : Nat} {gone : Nat → Bool} {e : Lag} (h : e ∈ lagsDrop ks cls gone) :
    ∃ k ∈ ks, ∃ old, e = { k with old := old } := by
  obtain ⟨k, mem, kept⟩ := List.mem_filterMap.mp h
  split at kept
  · simp only [Option.ite_none_left_eq_some, Option.some.injEq] at kept
    exact ⟨k, mem, _, kept.2.symm⟩
  · exact ⟨k, mem, k.old, (Option.some.inj kept).symm⟩

/-- What holds of the writes that are kept, and does not speak of their bytes, holds of the list that dropOlder leaves. -/
theorem of_mem_dropOlder {P : Lag → Prop} (bytes : ∀ k old, P k → P { k with old := old }) (l : List (Lag × Bool))
    (kept : ∀ p ∈ l, p.2 = false → P p.1) (ks : List Lag) (before : ∀ k ∈ ks, P k) : ∀ e ∈ dropOlder ks l, P e := by
  induction l generalizing ks with
  | nil => exact before
  | cons p r ih =>
    obtain ⟨k, gone⟩ := p
    have rest : ∀ p ∈ r, p.2 = false → P p.1 := fun p h => kept p (List.mem_cons_of_mem _ h)
    cases gone with
    | true =>
      refine ih rest _ fun e h => ?_
      obtain ⟨k', mem, old, rfl⟩ := mem_lagsDrop h
      exact bytes _ _ (before k' mem)
    | false =>
      refine ih rest _ fun e h => ?_
      rcases List.mem_append.mp h with h | h
      · exact before e h
      · rw [List.mem_singleton.mp h]
        exact kept (k, false) List.mem_cons_self rfl

/-- A write of a class of P that a class of Q may miss, and of which a strand has observed that it has ended, or has read what it wrote (R201). -/
def State.handsOn (s : State) (uid : Nat) (pred succ : BitVec 6) (k : Lag) : Prop :=
  pred.getLsbD k.writer = true ∧ succ.getLsbD k.reader = true ∧ (s.opEnded k = true ∨ uid ∈ k.seen)

/-- A write of a class of P that a strand has observed to end, or has read, is missed by no class of Q after its fencex. -/
theorem orderPaths_hands {s : State} {t uid scope : Nat} {pred succ : BitVec 6} (wide : 4 ≤ scope) {k : Lag}
    (writer : pred.getLsbD k.writer = true) (reader : succ.getLsbD k.reader = true) (observed : s.opEnded k = true ∨ uid ∈ k.seen) :
    k ∉ (s.orderPaths t uid pred succ scope).lags := by
  have all : ∀ e ∈ (s.orderPaths t uid pred succ scope).lags, ¬ s.handsOn uid pred succ e := by
    refine of_mem_dropOlder (P := fun e => ¬ s.handsOn uid pred succ e) (fun _ _ h => h) _ (fun p mem survives => ?_) [] (fun _ h => absurd h List.not_mem_nil)
    obtain ⟨e, -, rfl⟩ := List.mem_map.mp mem
    by_cases orders : s.ordersLag t uid pred scope e = true
    · simp only [orders, Bool.not_true, Bool.false_eq_true, if_false] at survives ⊢
      by_cases inSucc : succ.getLsbD e.reader = true
      · simp [inSucc] at survives
      · rw [if_neg inSucc]
        split <;> exact fun ⟨_, reader, _⟩ => inSucc reader
    · simp only [orders, Bool.not_false, if_true]
      rintro ⟨inPred, -, seen⟩
      refine orders ?_
      have covered (l : Loc) : s.covers t scope l = true := by rw [State.covers, if_pos wide]
      cases old : e.old <;> simp [State.ordersLag, inPred, old, covered, seen]
  exact fun mem => all k mem ⟨writer, reader, observed⟩

theorem orderPaths_none {s : State} (none : s.lags = []) (t uid : Nat) (pred succ : BitVec 6) (scope : Nat) :
    (s.orderPaths t uid pred succ scope).lags = [] := by
  simp [State.orderPaths, none, dropOlder]

/-! ## What a fence waits for -/

/-- An access in flight that a test names, within a scope seen from a tile, is still to be performed. -/
def State.awaits (s : State) (t scope : Nat) (named : Access → Bool) : Prop :=
  ∃ a ∈ s.flight, a.done = false ∧ a.op.isResult = false ∧ s.covers t scope a.loc = true ∧ named a = true

theorem fenceWaits_iff {s : State} {x : SlotId} {own : Access → Bool} {core : Bool} {scope : Nat} {named : Access → Bool}
    (names : ∀ a, named a = ((decide (a.who = x) && s.present a && own a) || (core && (a.op.writes && sameCore a.who x)))) :
    s.fenceWaits x own core scope = true ↔ s.awaits x.tile scope named := by
  simp only [State.awaits, State.fenceWaits, List.any_eq_true, names, Bool.and_eq_true, Bool.not_eq_true', Bool.and_assoc]

/-- Settles O24: a fence completes when the test of the accesses in flight is false, and holds its strand when it is true. -/
theorem fences : Obligations.Fences := by
  intro s st m pred scope succ clear
  have fence := fenceWaits_iff (s := s) (x := s.cur) (scope := scope.toNat) (own := fun a => pred.getLsbD a.kind)
    (core := pred.getLsbD 1 || pred.getLsbD 4) fun _ => rfl
  have fencex := fenceWaits_iff (s := s) (x := s.cur) (scope := scope.toNat) (own := fun _ => true) (core := true)
    (named := fun a => (decide (a.who = s.cur) && s.present a) || (a.op.writes && sameCore a.who s.cur)) fun a => by simp
  have waits : s.finish s.cur m (.hold s .again) = s.setStrand s.cur { st with run := .held .again, mark := m } :=
    State.finish_hold clear.here m (by simp)
  refine ⟨fun done => ?_, fun left => ?_, fun done => ?_, fun left => ?_⟩
  · refine (State.issue_clear clear m _).trans ?_
    rw [if_neg (mt fence.mp done), State.finish_same clear.here]
  · refine (State.issue_clear clear m _).trans ?_
    rw [if_pos (fence.mpr left), waits]
  · refine ⟨(s.orderPaths s.cur.tile st.uid pred succ scope.toNat).lags, ?_, fun none => orderPaths_none none _ _ _ _ _,
      fun k _ writer reader wide observed => orderPaths_hands wide writer reader observed⟩
    refine (State.issue_clear clear m _).trans ?_
    rw [if_neg ?_]
    · exact congrArg _ (State.finish_same (s := s.orderPaths s.cur.tile st.uid pred succ scope.toNat) clear.here m)
    · intro waits
      obtain ⟨inPred, waits⟩ := Bool.and_eq_true_iff.mp waits
      obtain ⟨a, mem, undone, res, cov, named⟩ := fencex.mp waits
      exact done ⟨a, mem, undone, res, cov, Bool.and_eq_true_iff.mpr ⟨inPred, named⟩⟩
  · refine (State.issue_clear clear m _).trans ?_
    rw [if_pos, waits]
    obtain ⟨a, mem, done, res, cov, named⟩ := left
    obtain ⟨inPred, h⟩ := Bool.and_eq_true_iff.mp named
    exact Bool.and_eq_true_iff.mpr ⟨inPred, fencex.mpr ⟨a, mem, done, res, cov, h⟩⟩

end Sys2Proof.Machine
end

section
/-!
PROOF. The device's edges: boot and life cycle (O28), the host's registers (O29), checkpoints (O30).
-/

namespace Sys2Proof.Machine

set_option Elab.async false

/-! ## The checks of the boot image -/

theorem State.staged_length (s : State) (a n : Nat) : (s.staged a n).length = n := by simp [State.staged]

theorem State.staged_getElem (s : State) (a n i : Nat) (h : i < (s.staged a n).length) :
    (s.staged a n)[i] = (assocGet s.staging (a + i)).getD 0 := by simp [State.staged]

/-- A part of the image in BAR4 is the bytes that stand there. -/
theorem imagePart_staged (s : State) {n off k : Nat} (inside : off + k ≤ n) : imagePart (s.staged 0 n) off k = s.staged off k := by
  refine List.ext_getElem ?_ fun i h h' => ?_
  · simp only [imagePart, List.length_take, List.length_drop, State.staged_length]
    omega
  · simp only [imagePart, List.getElem_take, List.getElem_drop, State.staged_getElem, Nat.zero_add]

/-- The checks of Table 17.3 in their order, with the code of each. -/
def State.bootChecks (s : State) : List (BitVec 8 × Bool) :=
  let n := s.ctl.fwlen.toNat
  let digest := sha384 (s.staged 0 16 ++ s.staged 64 (n - 160))
  [(6, s.ctl.lcs != 3), (1, decide (256 ≤ n) && decide (n ≤ 2 ^ 26) && s.staged 0 8 == [0x4E, 0x47, 0x46, 0x4B, 1, 0, 0, 0]),
   (2, digest == s.staged 16 48), (3, ecdsaVerify digest s.key (s.staged (n - 96) 96) && beNat (sha384 s.key) == s.keyDigest.toNat),
   (4, decide (s.rollbackMin.toNat ≤ bytesToNat (s.staged 8 4))), (5, decide (s.ctl.devnoset.toNat < 3072))]

theorem imageDigest_staged (s : State) {n : Nat} (long : 256 ≤ n) : imageDigest (s.staged 0 n) = sha384 (s.staged 0 16 ++ s.staged 64 (n - 160)) := by
  rw [imageDigest, State.staged_length, imagePart_staged s (by omega), imagePart_staged s (by omega)]

theorem digestOk_staged (s : State) {n : Nat} (long : 256 ≤ n) :
    digestOk (s.staged 0 n) = (sha384 (s.staged 0 16 ++ s.staged 64 (n - 160)) == s.staged 16 48) := by
  rw [digestOk, imageDigest_staged s long, imagePart_staged s (by omega), beq_eq_decide]

theorem signedOk_staged (s : State) {n : Nat} (long : 256 ≤ n) :
    s.signedOk (s.staged 0 n) = (ecdsaVerify (sha384 (s.staged 0 16 ++ s.staged 64 (n - 160))) s.key (s.staged (n - 96) 96)
      && beNat (sha384 s.key) == s.keyDigest.toNat) := by
  have signature : (s.staged 0 n).drop ((s.staged 0 n).length - 96) = s.staged (n - 96) 96 := by
    rw [← imagePart_staged s (n := n) (off := n - 96) (k := 96) (by omega), imagePart, State.staged_length, List.take_of_length_le]
    rw [List.length_drop, State.staged_length]
    omega
  rw [State.signedOk, imageDigest_staged s long, signature, beq_eq_decide]

/-- The code of the first check that fails, 0 when none does. -/
def firstFailed (cs : List (BitVec 8 × Bool)) : BitVec 8 := ((cs.find? fun c => !c.2).map (·.1)).getD 0

theorem firstFailed_cons (c : BitVec 8) (passes : Bool) (r : List (BitVec 8 × Bool)) :
    firstFailed ((c, passes) :: r) = if passes then firstFailed r else c := by
  cases passes <;> rfl

theorem State.bootCheck_eq (s : State) : s.bootCheck = firstFailed s.bootChecks := by
  have image : (decide (s.ctl.fwlen.toNat < 256) || decide (2 ^ 26 < s.ctl.fwlen.toNat) || s.staged 0 8 != [0x4E, 0x47, 0x46, 0x4B, 1, 0, 0, 0])
      = !(decide (256 ≤ s.ctl.fwlen.toNat) && decide (s.ctl.fwlen.toNat ≤ 2 ^ 26) && s.staged 0 8 == [0x4E, 0x47, 0x46, 0x4B, 1, 0, 0, 0]) := by
    simp only [Bool.not_and, ← decide_not, Nat.not_le, bne]
  simp only [State.bootCheck, State.bootChecks, firstFailed_cons, image]
  by_cases lcs : s.ctl.lcs = 3
  · rw [if_pos lcs, if_neg (by simp [lcs])]
  rw [if_neg lcs, if_pos (c := (s.ctl.lcs != 3) = true) (by simpa using lcs)]
  by_cases long : 256 ≤ s.ctl.fwlen.toNat
  · rw [digestOk_staged s long, signedOk_staged s long]
    simp only [Bool.not_eq_true', ← Bool.not_eq_true, ← Nat.not_le, ite_not, decide_eq_true_eq]
    rfl
  · rw [decide_eq_false long, Bool.false_and, Bool.false_and]
    rfl

theorem firstFailed_some {cs : List (BitVec 8 × Bool)} {c : BitVec 8 × Bool} (failed : (cs.find? fun c => !c.2) = some c) : firstFailed cs = c.1 := by
  rw [firstFailed, failed]
  rfl

theorem firstFailed_none {cs : List (BitVec 8 × Bool)} (passed : (cs.find? fun c => !c.2) = none) : firstFailed cs = 0 := by
  rw [firstFailed, passed]
  rfl

/-! ## The supervisors that boot starts -/

/-- What a fold of strands set in other slots leaves. -/
theorem strand?_foldl_sups {P : Nat → Strand} {k : Nat} (l : List Nat) (s : State) (other : k ∉ l) :
    (l.foldl (fun s t => s.setStrand (supSlot t) (P t)) s).strand? (supSlot k) = s.strand? (supSlot k) := by
  induction l generalizing s with
  | nil => rfl
  | cons t r ih =>
    rw [List.mem_cons, not_or] at other
    exact (ih _ other.2).trans (State.strand?_setStrand_other _ _ (.inl (Ne.symm other.1)))

/-- Every supervisor that a fold sets stands in its slot. -/
theorem strand?_foldl_sup {P : Nat → Strand} {k : Nat} (l : List Nat) (s : State) (distinct : l.Nodup) (mem : k ∈ l) :
    (l.foldl (fun s t => s.setStrand (supSlot t) (P t)) s).strand? (supSlot k) = some (P k) := by
  induction l generalizing s with
  | nil => exact absurd mem List.not_mem_nil
  | cons t r ih =>
    obtain ⟨fresh, distinct⟩ := List.nodup_cons.mp distinct
    by_cases first : k = t
    · subst first
      exact (strand?_foldl_sups r _ fresh).trans (State.strand?_setStrand _ _ _)
    · exact ih _ distinct ((List.mem_cons.mp mem).resolve_left first)

section
variable (s : State) (img : List Byte) (tiles : List Nat)

/-- The supervisors of a list of tiles started: State.startSups is this for all 1,536. -/
def State.startSupsOf : State :=
  { tiles.foldl (fun (s : State) t => s.setStrand (supSlot t) (bootStrand t (s.nextId + t) img)) s with nextId := s.nextId + 1536 }

theorem State.startSups_eq : s.startSups img = s.startSupsOf img (List.range 1536) := by
  rw [State.startSups, State.startSupsOf]

theorem State.startSupsOf_mem : (s.startSupsOf img tiles).mem = s.mem :=
  (State.near_foldl _ (fun s t => s.near_setStrand (supSlot t) _) tiles s).mem

/-- No supervisor that is set changes the number of the next access. -/
theorem nextId_foldl_sups : (tiles.foldl (fun (s : State) t => s.setStrand (supSlot t) (bootStrand t (s.nextId + t) img)) s)
    = tiles.foldl (fun (t : State) k => t.setStrand (supSlot k) (bootStrand k (s.nextId + k) img)) s := by
  suffices h : ∀ t : State, t.nextId = s.nextId → tiles.foldl (fun (s : State) t => s.setStrand (supSlot t) (bootStrand t (s.nextId + t) img)) t
      = tiles.foldl (fun (t : State) k => t.setStrand (supSlot k) (bootStrand k (s.nextId + k) img)) t from h s rfl
  induction tiles with
  | nil => exact fun _ _ => rfl
  | cons k r ih => exact fun t same => by rw [List.foldl_cons, List.foldl_cons, same]; exact ih _ same

theorem State.startSupsOf_strand {k : Nat} (distinct : tiles.Nodup) (listed : k ∈ tiles) :
    (s.startSupsOf img tiles).strand? (supSlot k) = some (bootStrand k (s.nextId + k) img) := by
  rw [State.startSupsOf, nextId_foldl_sups]
  exact strand?_foldl_sup tiles s distinct listed

end

/-- The device that boot starts: memory is as it was, and every tile's supervisor stands at its entry. -/
theorem State.startSups_spec (s : State) (img : List Byte) : (s.startSups img).mem = s.mem
    ∧ ∀ k < 1536, (s.startSups img).strand? (supSlot k) = some (bootStrand k (s.nextId + k) img) := by
  rw [State.startSups_eq]
  exact ⟨State.startSupsOf_mem s img _, fun k tile => State.startSupsOf_strand s img _ List.nodup_range (List.mem_range.mpr tile)⟩

/-- Boot, when `t` is the device with its supervisors started. -/
theorem exec_bootgo_starts {s t : State} (before : s.ctl.ready = false) (passed : s.bootCheck = 0)
    (started : s.startSups (s.staged 0 s.ctl.fwlen.toNat) = t) :
    exec .bootgo s = .next { t with
      fwImage := s.staged 0 s.ctl.fwlen.toNat
      codeStore := []
      devno := s.ctl.devnoset
      ctl := { s.ctl with ready := true, busy := false, booterr := 0 } } := by
  subst started
  show execBootgo s = _
  simp only [execBootgo, before, passed]
  rfl

theorem exec_lcreq_allowed {s : State} {v : BitVec 3} (allowed : lcAllowed s.ctl.lcs v = true) :
    exec (.lcreq v) s = .next { s.afterReset with ctl := { s.afterReset.ctl with lcs := v.setWidth 2 } } := by
  show execLcreq v s = _
  simp only [execLcreq, allowed, if_true]

theorem exec_lcreq_ignored {s : State} {v : BitVec 3} (ignored : lcAllowed s.ctl.lcs v = false) : exec (.lcreq v) s = .next s := by
  show execLcreq v s = _
  simp only [execLcreq, ignored, Bool.false_eq_true, if_false]

/-- The states of the life cycle that Table 17.4 lets follow one another. -/
theorem lcAllowed_iff (now : BitVec 2) (v : BitVec 3) : lcAllowed now v = true ↔ (now, v) ∈ [((0, 1) : BitVec 2 × BitVec 3), (1, 2), (1, 3), (2, 3)] := by
  revert now v
  decide

/-- Settles O28: boot's code is that of the first check that fails, and a life-cycle request either wipes the device or leaves it. -/
theorem bootAndLifeCycle : Obligations.BootAndLifeCycle := by
  intro s
  refine ⟨fun before => ⟨fun c failed => ?fails, fun passed => ?starts⟩, fun v => ?lifeCycle⟩
  case fails =>
    have code : s.bootCheck = c.1 := s.bootCheck_eq.trans (firstFailed_some failed)
    have nonzero : c.1 ≠ 0 := by
      have listed := List.mem_of_find?_eq_some failed
      simp only [List.mem_cons, List.not_mem_nil, or_false] at listed
      rcases listed with rfl | rfl | rfl | rfl | rfl | rfl <;> simp
    show execBootgo s = _
    simp only [execBootgo, before, code]
    simpa using nonzero
  case starts =>
    have code : s.bootCheck = 0 := s.bootCheck_eq.trans (firstFailed_none passed)
    obtain ⟨mem, strands⟩ := s.startSups_spec (s.staged 0 s.ctl.fwlen.toNat)
    obtain ⟨t, started⟩ : ∃ t, s.startSups (s.staged 0 s.ctl.fwlen.toNat) = t := ⟨_, rfl⟩
    rw [started] at mem strands
    exact ⟨_, exec_bootgo_starts before code started, rfl, rfl, rfl, mem, fun k tile => ⟨_, strands k tile, rfl, rfl, rfl⟩⟩
  case lifeCycle =>
    by_cases allowed : (s.ctl.lcs, v) ∈ [((0, 1) : BitVec 2 × BitVec 3), (1, 2), (1, 3), (2, 3)]
    · rw [if_pos allowed]
      refine ⟨_, exec_lcreq_allowed ((lcAllowed_iff _ _).mpr allowed), wiped_of_empty rfl rfl rfl rfl rfl rfl rfl, ?_⟩
      · have small : v.toNat < 4 := by
          simp only [List.mem_cons, Prod.mk.injEq, List.not_mem_nil, or_false] at allowed
          rcases allowed with ⟨-, rfl⟩ | ⟨-, rfl⟩ | ⟨-, rfl⟩ | ⟨-, rfl⟩ <;> decide
        exact (BitVec.toNat_setWidth 2 v).trans (Nat.mod_eq_of_lt small)
    · rw [if_neg allowed]
      exact exec_lcreq_ignored (Bool.eq_false_iff.mpr (mt (lcAllowed_iff _ _).mp allowed))

/-! ## Bytes of a value -/

theorem natToBytes_getElem (n v i : Nat) (h : i < (natToBytes n v).length) : (natToBytes n v)[i] = BitVec.ofNat 8 (v / 256 ^ i) := by
  induction n generalizing v i with
  | zero => exact absurd h (Nat.not_lt_zero _)
  | succ n ih =>
    cases i with
    | zero => simp [natToBytes]
    | succ i =>
      simp only [natToBytes, List.getElem_cons_succ]
      rw [ih, Nat.div_div_eq_div_mul, Nat.pow_succ']

theorem natToBytes_getD {n i : Nat} (v : Nat) (h : i < n) : (natToBytes n v).getD i 0 = BitVec.ofNat 8 (v / 256 ^ i) := by
  have inside : i < (natToBytes n v).length := by rwa [natToBytes_length]
  rw [List.getD_eq_getElem _ _ inside, natToBytes_getElem]

/-! ## Reports -/

theorem fitTo_length (n : Nat) (bs : List Byte) : (fitTo n bs).length = n := by
  rw [fitTo, List.length_take, List.length_append, List.length_replicate]
  omega

theorem fitTo_self {bs : List Byte} : fitTo bs.length bs = bs := by
  rw [fitTo, List.take_left]

theorem beBytes_length (n v : Nat) : (beBytes n v).length = n := by
  rw [beBytes, List.length_reverse, natToBytes_length]

theorem ecPublic_length (d : Nat) : (ecPublic d).length = 97 := by
  unfold ecPublic
  split
  · rw [List.length_cons, List.length_append, beBytes_length, beBytes_length]
  · rw [List.length_cons, List.length_replicate]

theorem ecdsaSign_length (d : Nat) (digest : List Byte) (f i : Nat) : (ecdsaSign d digest f i).length = 96 := by
  induction f generalizing i with
  | zero => exact List.length_replicate
  | succ f ih =>
    rw [ecdsaSign]
    split
    · exact ih _
    · rw [List.length_append, beBytes_length, beBytes_length]

/-- The first word of a report (Table 17.5). -/
def State.reportWord (s : State) (valid : Bool) : List Byte :=
  natToBytes 8 ((if valid then 2 ^ 63 else 0) + s.ctl.lcs.toNat + s.devno.toNat * 2 ^ 32)

/-- Bytes 0x008 to 0x06F of a report. -/
def State.reportIds (s : State) : List Byte :=
  natToBytes 8 (s.rollbackMin.toNat * 2 ^ 32 + bytesToNat (fitTo 4 ((s.fwImage.drop 8).take 4))) ++ fitTo 48 ((s.fwImage.drop 16).take 48)

theorem State.reportHead_eq (s : State) (valid : Bool) : s.reportHead valid
    = s.reportWord valid ++ (s.reportIds ++ (fitTo 48 s.ctl.nonce ++ (ecPublic s.identityScalar ++ List.replicate 47 0))) := by
  simp only [State.reportHead, State.reportWord, State.reportIds, List.append_assoc]

theorem State.reportWord_length (s : State) (valid : Bool) : (s.reportWord valid).length = 8 := natToBytes_length _ _

theorem State.reportIds_length (s : State) : s.reportIds.length = 56 := by
  rw [State.reportIds, List.length_append, natToBytes_length, fitTo_length]

theorem State.reportHead_length (s : State) (valid : Bool) : (s.reportHead valid).length = 256 := by
  simp only [State.reportHead_eq, List.length_append, State.reportWord_length, State.reportIds_length, fitTo_length, ecPublic_length,
    List.length_replicate]

/-- The head of a report whose valid bit has been set. -/
def State.validHead (s : State) : List Byte := (s.reportHead false).set 7 ((s.reportHead false).getD 7 0 ||| 0x80)

theorem State.validHead_eq (s : State) : s.validHead = (s.reportWord false).set 7 ((s.reportHead false).getD 7 0 ||| 0x80)
    ++ (s.reportIds ++ (fitTo 48 s.ctl.nonce ++ (ecPublic s.identityScalar ++ List.replicate 47 0))) := by
  conv_lhs => rw [State.validHead, State.reportHead_eq]
  rw [List.set_append_left _ _ (by rw [State.reportWord_length]; decide), ← State.reportHead_eq]

theorem State.validHead_length (s : State) : s.validHead.length = 256 := by
  rw [State.validHead, List.length_set, State.reportHead_length]

/-- The nonce and the public key stand at their offsets. -/
theorem State.validHead_parts (s : State) (nonce : s.ctl.nonce.length = 48) (r : List Byte) :
    ((s.validHead ++ r).drop 0x40).take 48 = s.ctl.nonce ∧ ((s.validHead ++ r).drop 0x70).take 97 = ecPublic s.identityScalar := by
  have word : ((s.reportWord false).set 7 ((s.reportHead false).getD 7 0 ||| 0x80)).length = 8 := by
    rw [List.length_set, State.reportWord_length]
  have ids := s.reportIds_length
  have fits : fitTo 48 s.ctl.nonce = s.ctl.nonce := by rw [← nonce, fitTo_self]
  have key := ecPublic_length s.identityScalar
  rw [State.validHead_eq, fits]
  generalize (s.reportWord false).set 7 _ = first at *
  generalize s.reportIds = ids' at *
  generalize ecPublic _ = key' at *
  have split1 : first ++ (ids' ++ (s.ctl.nonce ++ (key' ++ List.replicate 47 0))) ++ r
      = (first ++ ids') ++ (s.ctl.nonce ++ (key' ++ (List.replicate 47 0 ++ r))) := by simp only [List.append_assoc]
  have split2 : (first ++ ids') ++ (s.ctl.nonce ++ (key' ++ (List.replicate 47 0 ++ r)))
      = (first ++ ids' ++ s.ctl.nonce) ++ (key' ++ (List.replicate 47 0 ++ r)) := by simp only [List.append_assoc]
  constructor
  · rw [split1, List.drop_left' (by rw [List.length_append, word, ids]), List.take_left' nonce]
  · rw [split1, split2, List.drop_left' (by rw [List.length_append, List.length_append, word, ids, nonce]), List.take_left' key]

/-- The valid bit of a report that is still built is 0: no field reaches so high. -/
theorem State.reportHead_invalid (s : State) (r : List Byte) : ((s.reportHead false ++ r).getD 7 0).getLsbD 7 = false := by
  have byte : (s.reportHead false ++ r).getD 7 0 = BitVec.ofNat 8 ((s.ctl.lcs.toNat + s.devno.toNat * 2 ^ 32) / 256 ^ 7) := by
    rw [State.reportHead_eq, List.append_assoc, List.getD_append _ _ _ _ (by rw [State.reportWord_length]; decide), State.reportWord,
      natToBytes_getD _ (by decide)]
    simp
  have small : (s.ctl.lcs.toNat + s.devno.toNat * 2 ^ 32) / 256 ^ 7 = 0 := by
    have lcs := s.ctl.lcs.isLt
    have devno := s.devno.isLt
    omega
  rw [byte, small]
  rfl

theorem State.validHead_valid (s : State) (r : List Byte) : ((s.validHead ++ r).getD 7 0).getLsbD 7 = true := by
  have byte : (s.validHead ++ r).getD 7 0 = (s.reportHead false).getD 7 0 ||| 0x80 := by
    rw [List.getD_append _ _ _ _ (by rw [State.validHead_length]; decide), State.validHead,
      List.getD_eq_getElem _ _ (by rw [List.length_set, State.reportHead_length]; decide), List.getElem_set_self]
  rw [byte, BitVec.getLsbD_or]
  simp

theorem exec_reportComplete {s : State} {head : List Byte} (building : s.ctl.building = true) (stands : s.ctl.report.take 256 = head) :
    exec .reportComplete s = .next { s with
      freeCount := s.freeCount + 8
      ctl := { s.ctl with
        building := false
        report := head.set 7 (head.getD 7 0 ||| 0x80)
          ++ ecdsaSign s.identityScalar (sha384 (head.set 7 (head.getD 7 0 ||| 0x80))) 8 s.freeCount ++ List.replicate 160 0 } } := by
  subst stands
  show execReportComplete s = _
  simp only [execReportComplete, building]
  rfl

/-- A report that is built, when `t` is the state in which it is. -/
theorem report_complete {s t : State} (built : t = { s with ctl := { s.ctl with building := true, report := s.reportHead false ++ List.replicate 256 0 } }) :
    ∃ u : State, exec .reportComplete t = .next u
      ∧ u.ctl.report = s.validHead ++ (ecdsaSign s.identityScalar (sha384 s.validHead) 8 s.freeCount ++ List.replicate 160 0)
      ∧ u.ctl.building = false ∧ u.mem = s.mem := by
  have scalar : t.identityScalar = s.identityScalar := by
    subst built
    unfold State.identityScalar State.identityInfo
    rfl
  have head : t.ctl.report.take 256 = s.reportHead false := by
    rw [built]
    exact List.take_left' (s.reportHead_length false)
  have count : t.freeCount = s.freeCount := by rw [built]
  have mem : t.mem = s.mem := by rw [built]
  refine ⟨_, exec_reportComplete (by rw [built]) head, ?_, rfl, mem⟩
  show _ ++ ecdsaSign t.identityScalar (sha384 s.validHead) 8 t.freeCount ++ _ = _
  rw [scalar, count, List.append_assoc]
  rfl

theorem State.validReport_length (s : State) (d : Nat) (digest : List Byte) (f i : Nat) :
    (s.validHead ++ (ecdsaSign d digest f i ++ List.replicate 160 0)).length = 512 := by
  rw [List.length_append, List.length_append, State.validHead_length, ecdsaSign_length, List.length_replicate]

theorem State.validReport_signed (s : State) (d : Nat) (digest : List Byte) (f i : Nat) (r : List Byte) :
    (s.validHead ++ (ecdsaSign d digest f i ++ r)).take 256 = s.validHead
      ∧ ((s.validHead ++ (ecdsaSign d digest f i ++ r)).drop 0x100).take 96 = ecdsaSign d digest f i := by
  rw [List.take_left' s.validHead_length, List.drop_left' s.validHead_length, List.take_left' (ecdsaSign_length d digest f i)]
  exact ⟨rfl, rfl⟩

/-! ## The control page -/

/-- A word of NONCE that is written, and the others as they were. -/
theorem nonce_write {l : List Byte} (len : l.length = 48) {k : Nat} (word : k < 6) (v : Nat) :
    (l.take (8 * k) ++ natToBytes 8 v ++ l.drop (8 * k + 8)).length = 48
    ∧ ∀ j < 48, (l.take (8 * k) ++ natToBytes 8 v ++ l.drop (8 * k + 8)).getD j 0
      = if 8 * k ≤ j ∧ j < 8 * k + 8 then BitVec.ofNat 8 (v / 2 ^ (8 * (j - 8 * k))) else l.getD j 0 := by
  have before : (l.take (8 * k)).length = 8 * k := by rw [List.length_take]; omega
  have upTo : (l.take (8 * k) ++ natToBytes 8 v).length = 8 * k + 8 := by rw [List.length_append, before, natToBytes_length]
  refine ⟨by rw [List.length_append, upTo, List.length_drop]; omega, fun j inside => ?_⟩
  by_cases low : j < 8 * k
  · rw [if_neg (by omega), List.getD_append _ _ _ _ (by omega), List.getD_append _ _ _ _ (by omega)]
    simp only [List.getD_eq_getElem?_getD, List.getElem?_take_of_lt low]
  by_cases here : j < 8 * k + 8
  · rw [if_pos (by omega), List.getD_append _ _ _ _ (by omega), List.getD_append_right _ _ _ _ (by omega), before, natToBytes_getD _ (by omega),
      show (256 : Nat) = 2 ^ 8 from rfl, ← Nat.pow_mul]
  · rw [if_neg (by omega), List.getD_append_right _ _ _ _ (by omega), upTo]
    simp only [List.getD_eq_getElem?_getD, List.getElem?_drop]
    congr 2
    omega

theorem step_hostRegRead {s : State} {r : List Choice} {off : Nat} (agenda : s.agenda = .hostRegRead off :: r) :
    step s = .next { s with agenda := r, hostSaw := s.ctl.word (off / 8 * 8) } := by
  simp only [step, agenda]
  rfl

/-- The options of Table 17.6 that the device supports. -/
theorem uetOption_supported_eq (o : UetOption) : UetOption.supported o = decide (o ∉ [UetOption.hpc, .uud, .creditFlow, .unencrypted]) := by
  cases o <;> rfl

/-- Settles O29: the parts of a report stand at their offsets, and each register is written and read alone. -/
theorem hostRegisters : Obligations.HostRegisters := by
  refine ⟨fun s nonce => ?report, fun s v => ⟨rfl, rfl, rfl, fun nonce k word => ?nonce⟩, fun s r off agenda => ?reads, fun s port offer small => ?options⟩
  case report =>
    obtain ⟨t, built⟩ : ∃ t : State, t = { s with ctl := { s.ctl with building := true, report := s.reportHead false ++ List.replicate 256 0 } } :=
      ⟨_, rfl⟩
    obtain ⟨u, completes, report, building, mem⟩ := report_complete built
    have report' : t.ctl.report = s.reportHead false ++ List.replicate 256 0 := by rw [built]
    obtain ⟨nonceAt, keyAt⟩ := s.validHead_parts nonce (ecdsaSign s.identityScalar (sha384 s.validHead) 8 s.freeCount ++ List.replicate 160 0)
    obtain ⟨signed, signature⟩ := s.validReport_signed s.identityScalar (sha384 s.validHead) 8 s.freeCount (List.replicate 160 0)
    refine ⟨t, u, congrArg _ built.symm, completes, ?_, ?_, ?_, ?_, building, ?_, ⟨?_, ?_⟩, mem⟩
    · rw [report', List.length_append, State.reportHead_length, List.length_replicate]
    · rw [report', State.reportHead_invalid]
    · rw [report, State.validReport_length]
    · rw [report, State.validHead_valid]
    · rw [report, nonceAt]
    · rw [report, keyAt]
      rfl
    · rw [report, signature, signed]
      rfl
  case nonce =>
    refine ⟨_, ?_, nonce_write nonce word v.toNat⟩
    have inside : 0x100 ≤ 0x100 + 8 * k ∧ 0x100 + 8 * k < 0x130 ∧ (0x100 + 8 * k) % 8 = 0 := by omega
    show execDeviceRegisterWrite (0x100 + 8 * k) v s = _
    rw [execDeviceRegisterWrite, if_neg (by omega), if_neg (by omega), if_neg (by omega), if_pos (by simp; omega)]
    rw [show 0x100 + 8 * k - 0x100 = 8 * k by omega]
  case reads =>
    have read := step_hostRegRead agenda
    refine ⟨fun dstat => ?_, fun q listed at_ => ?_, fun k word at_ => ?_, fun k word at_ => ?_⟩
    · rw [read, dstat]
      rfl
    · rw [read, at_]
      simp only [List.mem_cons, List.not_mem_nil, or_false] at listed
      rcases listed with rfl | rfl | rfl | rfl | rfl | rfl | rfl | rfl | rfl <;> simp [Ctl.word]
    · rw [read, show off / 8 * 8 = 0x100 + 8 * k by omega]
      have word' : s.ctl.word (0x100 + 8 * k) = wordAt s.ctl.nonce (8 * k) := by
        rw [Ctl.word, if_neg (by omega), if_neg (by omega), if_neg (by omega), if_neg (by omega), if_neg (by omega), if_neg (by omega),
          if_pos (by simp; omega), show 0x100 + 8 * k - 0x100 = 8 * k by omega]
      rw [word']
      rfl
    · rw [read, show off / 8 * 8 = 0x400 + 8 * k by omega]
      have word' : s.ctl.word (0x400 + 8 * k) = wordAt s.ctl.report (8 * k) := by
        rw [Ctl.word, if_neg (by omega), if_neg (by omega), if_neg (by omega), if_neg (by omega), if_neg (by omega), if_neg (by omega),
          if_neg (by simp; omega), if_pos (by simp; omega), show 0x400 + 8 * k - 0x400 = 8 * k by omega]
      rw [word']
      rfl
  case options =>
    refine ⟨_, congrArg Host.Outcome.next (if_pos small), rfl, ?_⟩
    rw [assocGet_assocSet_same]
    exact congrArg some (List.filter_congr fun o _ => uetOption_supported_eq o)

end Sys2Proof.Machine
end

section
/-!
PROOF. What every shared operation of the model keeps: any property of memory, its full words, the checkpoints, the control page, the context blocks
and the fuses that does not mind what an operation may do to them.
-/

namespace Sys2Proof.Machine

set_option Elab.async false

/-- The parts of a state that few operations change. -/
structure Parts where
  mem : List Host.Cell
  full : List Nat
  checkpoints : List ((Nat × Nat) × Saved)
  ctl : Ctl
  spills : List Spilled
  fusedRows : Vector Nat 4
  fusedCols : List (Nat × Nat)
  devno : BitVec 12

/-- A property of the parts of a state. -/
def Holds (P : Parts → Prop) (mem : List Host.Cell) (full : List Nat) (checkpoints : List ((Nat × Nat) × Saved)) (ctl : Ctl)
    (spills : List Spilled) (fusedRows : Vector Nat 4) (fusedCols : List (Nat × Nat)) (devno : BitVec 12) : Prop :=
  P ⟨mem, full, checkpoints, ctl, spills, fusedRows, fusedCols, devno⟩

def State.On (P : Parts → Prop) (s : State) : Prop :=
  Holds P s.mem s.full s.checkpoints s.ctl s.spills s.fusedRows s.fusedCols s.devno

/-- A property of a state's parts, read off a state that is written out. -/
@[simp] theorem State.on_mk {P : Parts → Prop} (tiles rows mem full flight nextId freeCount watches redWords walks lags lagOn engineTile badWords weakWords fusedRows fusedCols
    devno protlo prothi members cells sheets cellWaits cmdRings commands roundRings copyWaits launches images waveReqs waves
    transit turnouts packets rnodes rgroups sendQueues netOut roots svcQueues intkReqs outfalls spills evicted homeBanks portBanks
    ctl staging fwImage codeStore secret rollbackMin keyDigest key checkpoints heldWrites uet debugger hostSaw agenda focus cur) :
    (State.mk tiles rows mem full flight nextId freeCount watches redWords walks lags lagOn engineTile badWords weakWords fusedRows fusedCols
    devno protlo prothi members cells sheets cellWaits cmdRings commands roundRings copyWaits launches images waveReqs waves
    transit turnouts packets rnodes rgroups sendQueues netOut roots svcQueues intkReqs outfalls spills evicted homeBanks portBanks
    ctl staging fwImage codeStore secret rollbackMin keyDigest key checkpoints heldWrites uet debugger hostSaw agenda focus cur).On P
      = Holds P mem full checkpoints ctl spills fusedRows fusedCols devno := by
  rw [State.On]

@[simp] theorem State.holds_parts {P : Parts → Prop} (s : State) :
    Holds P s.mem s.full s.checkpoints s.ctl s.spills s.fusedRows s.fusedCols s.devno = s.On P := by
  rw [State.On]

/-- A property that bears a change of strands in their context blocks, and that some of these go. -/
structure Parts.Bears (P : Parts → Prop) : Prop where
  spilled : ∀ (s : State) (sel : Spilled → Bool) (f : Spilled → Spilled), s.On P → (s.modSpilled sel f).On P
  map : ∀ (p : Parts) (f : Spilled → Spilled), P p → P { p with spills := p.spills.map f }
  filter : ∀ (p : Parts) (f : Spilled → Bool), P p → P { p with spills := p.spills.filter f }

/-- A property that bears every write to memory, and every change of the context blocks. -/
structure Parts.Written (P : Parts → Prop) : Prop extends Parts.Bears P where
  bytes : ∀ (s : State) (a : Nat) (bs : List Byte), s.On P → (s.putBytes a bs).On P
  sets : ∀ (p : Parts) (a : Nat) (b : Byte), P p → P { p with mem := memSet p.mem a b }
  clears : ∀ (p : Parts) (f : Host.Cell → Bool), P p → P { p with mem := p.mem.filter f }
  fills : ∀ (p : Parts) (k : Nat), P p → P { p with full := natInsert p.full k }
  empties : ∀ (p : Parts) (f : Nat → Bool), P p → P { p with full := p.full.filter f }
  blocks : ∀ (p : Parts) (l : List Spilled), P p → P { p with spills := l }

/-- What is kept at every step of a fold is kept to its end. -/
theorem State.On.foldl {P : Parts → Prop} {α : Type} {f : State → α → State} (step : ∀ s a, s.On P → (f s a).On P) (l : List α) {s : State}
    (hs : s.On P) : (l.foldl f s).On P := by
  induction l generalizing s with
  | nil => exact hs
  | cons a r ih => exact ih (step s a hs)

section
set_option linter.unusedSectionVars false
set_option linter.unusedSimpArgs false
variable {P : Parts → Prop} (hP : Parts.Bears P) {s : State} (hs : s.On P)
include hP hs

theorem State.on_filterSpills {f : Spilled → Bool} : Holds P s.mem s.full s.checkpoints s.ctl (s.spills.filter f) s.fusedRows s.fusedCols s.devno :=
  hP.filter _ f hs

theorem State.on_mapSpills {f : Spilled → Spilled} : Holds P s.mem s.full s.checkpoints s.ctl (s.spills.map f) s.fusedRows s.fusedCols s.devno :=
  hP.map _ f hs

@[simp] theorem State.on_setTile {t : Nat} {x : Tile} : (s.setTile t x).On P := by
  simp [State.setTile, hP, hs]

@[simp] theorem State.on_modTile {t : Nat} {f : Tile → Tile} : (s.modTile t f).On P := by
  simp [State.modTile, hP, hs]

@[simp] theorem State.on_modRow {r : Nat} {f : Row → Row} : (s.modRow r f).On P := by
  simp [State.modRow, hP, hs]

@[simp] theorem State.on_setStrand {x : SlotId} {st : Strand} : (s.setStrand x st).On P := by
  simp [State.setStrand, hP, hs]

@[simp] theorem State.on_modStrand {x : SlotId} {f : Strand → Strand} : (s.modStrand x f).On P := by
  unfold State.modStrand
  split <;> simp [hP, hs]

@[simp] theorem State.on_dropStrand {x : SlotId} : (s.dropStrand x).On P := by
  simp [State.dropStrand, hP, hs]

@[simp] theorem State.on_modBank {b : BankId} {f : Bank → Bank} : (s.modBank b f).On P := by
  unfold State.modBank
  split <;> simp [hP, hs]

@[simp] theorem State.on_dropWeir {x : SlotId} : (s.dropWeir x).On P := by
  simp [State.dropWeir, hP, hs]

@[simp] theorem State.on_wakeAt {x : SlotId} {addr : Word} : (s.wakeAt x addr).On P :=
  State.On.foldl (fun s y hs => by dsimp only; (repeat' split) <;> simp [hP, hs]) _ hs

@[simp] theorem State.on_notifyLine {writer : Option SlotId} {l : Loc} : (s.notifyLine writer l).On P := by
  unfold State.notifyLine
  refine State.On.foldl (fun s p hs => State.On.foldl (fun s m hs => by simp [hP, hs]) _ hs) _ ?_
  exact hP.map _ _ hs

@[simp] theorem State.on_notify {writer : Option SlotId} {l : Loc} {n : Nat} : (s.notify writer l n).On P :=
  State.On.foldl (fun s l hs => by simp [hP, hs]) _ hs

@[simp] theorem State.on_lagWrite {cls op a n : Nat} {shadow : List (Nat × Nat)} : (s.lagWrite cls op a n shadow).On P := by
  unfold State.lagWrite
  split <;> simp [hP, hs]

@[simp] theorem State.on_noteSeen {uid a n : Nat} : (s.noteSeen uid a n).On P := by
  unfold State.noteSeen
  split <;> simp [hP, hs]

@[simp] theorem State.on_abortTx {x : SlotId} {reason : BitVec 8} {addr : Word} : (s.abortTx x reason addr).On P := by
  unfold State.abortTx
  (repeat' split) <;> simp [hP, hs]

@[simp] theorem State.on_endRsv {x : SlotId} : (s.endRsv x).On P := by
  simp [State.endRsv, hP, hs]

@[simp] theorem State.on_dropRsv {x : SlotId} : (s.dropRsv x).On P := by
  simp [State.dropRsv, hP, hs]

@[simp] theorem State.on_modSpilled {sel : Spilled → Bool} {f : Spilled → Spilled} : (s.modSpilled sel f).On P := hP.spilled s sel f hs

@[simp] theorem State.on_modUid {x : SlotId} {uid : Nat} {f : Strand → Strand} : (s.modUid x uid f).On P := by
  unfold State.modUid
  split <;> simp [hP, hs]

@[simp] theorem State.on_putCell {c : Cell} : (s.putCell c).On P := by
  unfold State.putCell
  split <;> simp [hP, hs]

@[simp] theorem State.on_modCell {n : Nat} {f : Cell → Cell} : (s.modCell n f).On P := by
  unfold State.modCell
  split <;> simp [hP, hs]

@[simp] theorem State.on_modSheet {n : Nat} {f : Sheet → Sheet} : (s.modSheet n f).On P := by
  simp [State.modSheet, hP, hs]

@[simp] theorem State.on_modGens {n : Nat} {f : Sheet → Sheet} : (s.modGens n f).On P := by
  unfold State.modGens
  dsimp only
  split <;> simp [hP, hs]

@[simp] theorem State.on_modEdits {n : Nat} {f : List Edit → List Edit} : (s.modEdits n f).On P := by
  unfold State.modEdits
  split
  · exact hs
  · exact State.On.foldl (fun s c hs => by simp [hP, hs]) _ (by simp [hP, hs])

@[simp] theorem State.on_rerank {n : Nat} : (s.rerank n).On P :=
  State.On.foldl (fun s c hs => by simp [hP, hs]) _ hs

@[simp] theorem State.on_dropTask {c gen : Nat} : (s.dropTask c gen).On P := by
  simp [State.dropTask, hP, hs]

@[simp] theorem State.on_faultSeed {n c k : Nat} : (s.faultSeed n c k).On P :=
  State.on_modCell hP (State.on_dropTask hP (State.on_modSheet hP hs))

@[simp] theorem State.on_cascade {n : Nat} : (s.cascade n).On P := by
  unfold State.cascade
  split
  · exact hs
  · exact State.On.foldl (fun s q hs => by split <;> simp [hP, hs]) _ hs

@[simp] theorem State.on_deliver {x : SlotId} {uid : Nat} {sid : Word} {lid code : Nat} {detail : Word} : (s.deliver x uid sid lid code detail).On P := by
  unfold State.deliver
  split <;> simp [hP, hs]

@[simp] theorem State.on_dropLong {id : Nat} {who : SlotId} {uid : Nat} : (s.dropLong id who uid).On P := by
  simp [State.dropLong, hP, hs]

@[simp] theorem State.on_finishLong {id : Nat} {v : Word} : (s.finishLong id v).On P := by
  unfold State.finishLong
  (repeat' split) <;> simp [hP, hs]

@[simp] theorem State.on_answerWaits {n : Nat} : (s.answerWaits n).On P :=
  State.On.foldl (fun s w hs => by
    (repeat' split)
    · exact hs
    · exact hs
    · exact hs
    · simp [hP, hs]
    · exact State.on_deliver hP (State.on_dropLong hP (State.on_modUid hP (by simp [hs])))) _ hs

@[simp] theorem State.on_settle {n : Nat} : (s.settle n).On P :=
  State.on_answerWaits hP (State.on_modGens hP (State.on_cascade hP hs))

@[simp] theorem State.on_pinStream {c : Nat} : (s.pinStream c).On P := by
  unfold State.pinStream
  (repeat' split) <;> simp [hP, hs]

@[simp] theorem State.on_applyEdit {h : Nat} {e : Edit} : (s.applyEdit h e).On P := by
  simp [State.applyEdit, hP, hs]

@[simp] theorem State.on_dropUnstarted {c : Cell} {n : Nat} : (s.dropUnstarted c n).On P :=
  State.on_modSheet hP (State.On.foldl (fun s q hs => by simp [hP, hs]) _ hs)

@[simp] theorem State.on_markStale {g n : Nat} : (s.markStale g n).On P := by
  unfold State.markStale
  split
  · exact hs
  · dsimp only
    split
    · simp [hP, hs]
    · exact State.on_putCell hP (State.on_modSheet hP (State.on_dropUnstarted hP hs))

@[simp] theorem State.on_publishTask {n : Nat} {q : Seed} : (s.publishTask n q).On P :=
  State.on_settle hP (State.on_pinStream hP (State.on_modCell hP (State.on_modSheet hP hs)))

@[simp] theorem State.on_taskFailed {c h : Nat} : (s.taskFailed c h).On P := by
  unfold State.taskFailed
  split <;> simp [hP, hs]

@[simp] theorem State.on_putRing {writer : Option SlotId} {t k : Nat} {r : Ring} : (s.putRing writer t k r).On P := by
  unfold State.putRing
  dsimp only
  split <;> simp [hP, hs]

@[simp] theorem State.on_setRing {x : SlotId} {k : Nat} {r : Ring} : (s.setRing x k r).On P := by
  simp [State.setRing, hP, hs]

@[simp] theorem State.on_leaveRings {x : SlotId} {uid : Nat} : (s.leaveRings x uid).On P := by
  have rings : ((List.range 8).foldl (fun (s : State) k =>
      let r := (s.tile x.tile).rings.getD k Ring.initial
      if r.has x.member uid then s.setRing x k (r.leave x.member uid) else s) s).On P :=
    State.On.foldl (fun s k hs => by dsimp only; split <;> simp [hP, hs]) _ hs
  simp [State.leaveRings, rings]

@[simp] theorem State.on_countWork {t lid ops lines : Nat} : (s.countWork t lid ops lines).On P := by
  simp [State.countWork, hP, hs]

@[simp] theorem State.on_modMember {w : Nat} {x : SlotId} {f : Strand → Strand} : (s.modMember w x f).On P := by
  unfold State.modMember
  split <;> simp [hP, hs]

@[simp] theorem State.on_modMemberMat {w : Nat} {x : SlotId} {f : Matrix → Matrix} : (s.modMemberMat w x f).On P := by
  unfold State.modMemberMat
  split <;> simp [hP, hs]

@[simp] theorem State.on_setTBar {writer : Option SlotId} {t k : Nat} {b : Barrier} : (s.setTBar writer t k b).On P := by
  unfold State.setTBar
  dsimp only
  split <;> simp [hP, hs]

@[simp] theorem State.on_completeTBar {writer : Option SlotId} {t k : Nat} : (s.completeTBar writer t k).On P := by
  unfold State.completeTBar
  dsimp only
  split
  · exact State.On.foldl (fun s m hs => by split <;> simp [hP, hs]) _ (by simp [hP, hs])
  · exact hs

@[simp] theorem State.on_startGang {w : Nat} {ms : List SlotId} {came : SlotId → Bool} : (s.startGang w ms came).On P := by
  unfold State.startGang
  extract_lets descs ok m
  split
  · exact State.On.foldl (fun s x hs => by simp [hP, hs]) _ hs
  · exact State.On.foldl (fun s x hs => by split <;> simp [hP, hs]) _ hs

@[simp] theorem State.on_completeRBar {r k : Nat} : (s.completeRBar r k).On P := by
  unfold State.completeRBar
  dsimp only
  split
  · split
    · simp [hP, hs]
    · split
      · exact State.On.foldl (fun s x hs => by simp [hP, hs]) _ (by simp [hP, hs])
      · simp [hP, hs]
  · exact hs

@[simp] theorem State.on_leaveBars {x : SlotId} {wv : Wave} : (s.leaveBars x wv).On P := by
  unfold State.leaveBars
  split <;> exact State.On.foldl (fun s p hs => by simp [hP, hs]) _ hs

@[simp] theorem State.on_leaveWave {x : SlotId} {w : Nat} : (s.leaveWave x w).On P := by
  unfold State.leaveWave
  split <;> simp [hP, hs]

@[simp] theorem State.on_freeBars {lid : Nat} : (s.freeBars lid).On P := by
  unfold State.freeBars
  dsimp only
  refine State.On.foldl (fun s t hs => State.On.foldl (fun s k hs => by split <;> simp [hP, hs]) _ hs) _ ?_
  exact hs

@[simp] theorem State.on_endTask {cellgen : Word} : (s.endTask cellgen).On P := by
  unfold State.endTask
  split <;> simp [hP, hs]

@[simp] theorem State.on_leaveAs {x : SlotId} {st : Strand} {goes : Bool} : (s.leaveAs x st goes).On P := by
  unfold State.leaveAs
  extract_lets s1 s2 s3 s4 s5
  have left : s3.On P := by simp [s3, s2, s1, hP, hs]
  have waves : s4.On P := by
    simp only [s4]
    split <;> simp [hP, left]
  have task : s5.On P := by
    simp only [s5]
    split <;> simp [hP, waves]
  simp [task]

@[simp] theorem State.on_leave {x : SlotId} {goes : Bool} : (s.leave x goes).On P := by
  unfold State.leave
  split
  · exact hs
  · exact State.on_leaveAs hP (State.on_dropStrand hP (State.on_dropWeir hP (State.on_dropRsv hP hs)))

@[simp] theorem State.on_endLaunch {lid : Nat} {status : Word} : (s.endLaunch lid status).On P := by
  unfold State.endLaunch
  dsimp only
  split
  · refine State.On.foldl (fun s n hs => by simp [hP, hs]) _ (State.On.foldl (fun s q hs => by simp [hP, hs]) _ ?_)
    refine State.On.foldl (fun s p hs => by simp [hP, hs]) _ ?_
    rw [State.on_mk]
    refine State.on_filterSpills hP (State.On.foldl (fun s x hs => ?_) _ (by simp [hs]))
    (repeat' split) <;> simp [hP, hs]
  · exact hs

@[simp] theorem State.on_fence {t : Nat} : (s.fence t).On P := by
  unfold State.fence
  simp only
  refine State.on_modRow hP (State.on_modTile hP (State.on_modTile hP (State.On.foldl (fun s q hs => by simp [hP, hs]) _ ?_)))
  exact State.On.foldl (fun s l hs => by simp [hP, hs]) _ hs

@[simp] theorem State.on_takeUser {x : SlotId} {st : Strand} {async : Bool} {code : Nat} {detail epc : Word} :
    (s.takeUser x st async code detail epc).On P := by
  unfold State.takeUser
  exact State.on_modTile hP (State.on_modStrand hP (State.on_dropRsv hP (State.on_abortTx hP hs)))

@[simp] theorem State.on_takeSup {x : SlotId} {st : Strand} {code : Nat} {detail epc : Word} : (s.takeSup x st code detail epc).On P := by
  unfold State.takeSup
  dsimp only
  split
  · exact State.on_modStrand hP (State.on_dropRsv hP (State.on_abortTx hP hs))
  · simp [hP, hs]

@[simp] theorem State.on_takeFault {x : SlotId} {async : Bool} {code : Nat} {detail epc : Word} : (s.takeFault x async code detail epc).On P := by
  unfold State.takeFault
  (repeat' split) <;> simp [hP, hs]

end
end Sys2Proof.Machine
end

section
/-!
PROOF. What an instruction's end, the tables of ports and rings, and accesses in flight keep of a state's parts.
-/

namespace Sys2Proof.Machine

set_option Elab.async false

/-- What an instruction comes to keeps a property. -/
def Act.On (P : Parts → Prop) : Act → Prop
  | .ok s => s.On P
  | .jump s _ => s.On P
  | .fault _ _ => True
  | .faultIn s _ _ => s.On P
  | .hold s _ => s.On P
  | .forfeit => True
  | .placed s => s.On P
  | .check s _ _ => s.On P

section
variable {P : Parts → Prop} {s : State}

@[simp] theorem Act.on_ok : (Act.ok s).On P = s.On P := by simp only [Act.On]
@[simp] theorem Act.on_jump {p : Word} : (Act.jump s p).On P = s.On P := by simp only [Act.On]
@[simp] theorem Act.on_fault {c : Nat} {d : Word} : (Act.fault c d).On P = True := by simp only [Act.On]
@[simp] theorem Act.on_faultIn {c : Nat} {d : Word} : (Act.faultIn s c d).On P = s.On P := by simp only [Act.On]
@[simp] theorem Act.on_hold {k : Hold} : (Act.hold s k).On P = s.On P := by simp only [Act.On]
@[simp] theorem Act.on_forfeit : Act.forfeit.On P = True := by simp only [Act.On]
@[simp] theorem Act.on_placed : (Act.placed s).On P = s.On P := by simp only [Act.On]
@[simp] theorem Act.on_check {src : BitVec 8} {a : Word} : (Act.check s src a).On P = s.On P := by simp only [Act.On]

end

/-- A value with a state, or the end that the instruction comes to instead, keeps a property. -/
def Got.On {α : Type} (P : Parts → Prop) : Got α → Prop
  | .got _ s => s.On P
  | .stop a => a.On P

section
variable {P : Parts → Prop} {α β : Type}

@[simp] theorem Got.on_got {v : α} {s : State} : (Got.got v s).On P = s.On P := by simp only [Got.On]
@[simp] theorem Got.on_stop {a : Act} : (Got.stop a : Got α).On P = a.On P := by simp only [Got.On]

theorem Got.on_bind {g : Got α} {f : α → State → Got β} (hg : g.On P) (hf : ∀ v s, s.On P → (f v s).On P) : (g.bind f).On P := by
  cases g with
  | got v s => exact hf v s hg
  | stop a => exact hg

theorem Got.on_act {g : Got α} {f : α → State → Act} (hg : g.On P) (hf : ∀ v s, s.On P → (f v s).On P) : (g.act f).On P := by
  cases g with
  | got v s => exact hf v s hg
  | stop a => exact hg

end

/-- What a step leads to keeps a property. -/
def Keeps (P : Parts → Prop) (o : Host.Outcome State Fault Refusal) : Prop := ∀ t, o = .next t → t.On P

section
variable {P : Parts → Prop}

@[simp] theorem keeps_next {t : State} : Keeps P (.next t) = t.On P :=
  propext ⟨fun h => h t rfl, fun h _ e => Host.Outcome.next.inj e ▸ h⟩

@[simp] theorem keeps_fault {f : Fault} : Keeps P (.fault f) = True := eq_true fun _ e => nomatch e
@[simp] theorem keeps_refused {r : Refusal} : Keeps P (.refused r) = True := eq_true fun _ e => nomatch e

theorem Keeps.next {t : State} (h : t.On P) : Keeps P (.next t) := by rwa [keeps_next]

end

section
set_option linter.unusedSectionVars false
set_option linter.unusedSimpArgs false
variable {P : Parts → Prop} (hP : Parts.Bears P) {s : State} (hs : s.On P)
include hP hs

@[simp] theorem State.on_preempt {x : SlotId} : (s.preempt x).On P := by
  unfold State.preempt
  split
  · exact hs
  · exact State.on_modStrand hP (State.on_dropRsv hP (State.on_abortTx hP hs))

@[simp] theorem State.on_noteMiss {x : SlotId} {va : Nat} {kind : AccKind} : (s.noteMiss x va kind).On P := by
  unfold State.noteMiss
  split <;> simp [hP, hs]

@[simp] theorem State.on_holdAt {x : SlotId} {h : Hold} {m : Bool} : (s.holdAt x h m).On P := by
  unfold State.holdAt
  split <;> simp [hP, hs]

@[simp] theorem State.on_faultTurn {x : SlotId} {code : Nat} {detail epc : Word} : (s.faultTurn x code detail epc).On P := by
  unfold State.faultTurn
  (repeat' split) <;> simp [hP, hs]

@[simp] theorem State.on_free : s.free.2.On P := by
  simp [State.free, hs]

@[simp] theorem State.on_contained {x : SlotId} {src : BitVec 8} {addr : Word} : (s.contained x src addr).On P := by
  have logged (f : Bank → Bank) : (s.free.2.free.2.modBank (.tile x.tile) f).On P := State.on_modBank hP (State.on_free hP (State.on_free hP hs))
  unfold State.contained
  dsimp only
  split
  · exact logged _
  · exact State.on_takeFault hP (logged _)

/-! ## The end of an instruction -/

theorem State.on_finish {x : SlotId} {m : Bool} {a : Act} (ha : a.On P) : (s.finish x m a).On P := by
  cases a with
  | ok t => exact State.on_modStrand hP ha
  | jump t p => exact State.on_modStrand hP ha
  | fault c d =>
    simp only [State.finish]
    split <;> simp [hP, hs]
  | faultIn t c d =>
    have ht : t.On P := ha
    simp only [State.finish]
    split <;> simp [hP, ht]
  | hold t k => exact State.on_holdAt hP ha
  | forfeit => exact State.on_modStrand hP hs
  | placed t => exact State.on_modStrand hP ha
  | check t src addr => exact State.on_contained hP ha

theorem Strand.on_checked {st : Strand} {x : SlotId} {u : Uses} {body : Strand → Act} (hb : (body st).On P) : (st.checked s x u body).On P := by
  unfold Strand.checked
  (repeat' split) <;> simp [hP, hs, hb]

theorem State.keeps_issue {m : Bool} {u : Uses} {body : Strand → Act} (hb : ∀ st, (body st).On P) : Keeps P (s.issue m u body) := by
  unfold State.issue
  split
  · intro t h
    exact absurd h (by simp)
  · intro t h
    rw [← Host.Outcome.next.inj h]
    exact State.on_finish hP hs (Strand.on_checked hP hs (hb _))

@[simp] theorem State.on_put {st : Strand} : (s.put st).On P := by
  simp [State.put, hP, hs]

@[simp] theorem State.on_fillTlb {t : Nat} {l : Leaf} : (s.fillTlb t l).On P := by
  simp [State.fillTlb, hP, hs]

@[simp] theorem State.on_engineTr {t : Nat} {ptroot : Word} {sup : Bool} {ea : Word} {kind : AccKind} : (s.engineTr t ptroot sup ea kind).2.On P := by
  unfold State.engineTr
  (repeat' split) <;> simp [hP, hs]

@[simp] theorem State.on_engineLoc {tile : Nat} {ptroot : Word} {sup : Bool} {va : Nat} {kind : AccKind} :
    (s.engineLoc tile ptroot sup va kind).2.On P := by
  have tr : (s.engineTr tile ptroot sup (BitVec.ofNat 64 va) kind).2.On P := State.on_engineTr hP hs
  unfold State.engineLoc
  split
  · exact hs
  · split <;> simp_all

@[simp] theorem State.on_vaFill {v : Via} {va n : Nat} {kind : AccKind} : (s.vaFill v va n kind).On P :=
  State.On.foldl (fun s p hs => by simp [hP, hs]) _ hs

@[simp] theorem State.on_putCmdRing {r : CmdRing} : (s.putCmdRing r).On P := by
  simp [State.putCmdRing, hP, hs]

@[simp] theorem State.on_commitTicket {n : Nat} {t : BitVec 32} : (s.commitTicket n t).On P := by
  unfold State.commitTicket
  dsimp only
  split <;> simp [hP, hs]

theorem State.on_insertFiring {n : Nat} {cmd : List Word} {t : State} (h : s.insertFiring n cmd = some t) : t.On P := by
  unfold State.insertFiring at h
  dsimp only at h
  split at h
  · exact absurd h (by simp)
  · rw [← Option.some.inj h]
    exact State.on_putCmdRing hP hs

@[simp] theorem State.on_fireTurnout {k f : Nat} : (s.fireTurnout k f).On P := by
  induction f generalizing s with
  | zero => exact hs
  | succ f ih =>
    unfold State.fireTurnout
    dsimp only
    split
    · refine ih ?_
      split
      · next t h => exact State.on_insertFiring hP (by simp [hs]) h
      · exact State.on_putCmdRing hP (by simp [hs])
    · exact hs

@[simp] theorem State.on_countAt {k n : Nat} : (s.countAt k n).On P := by
  unfold State.countAt
  dsimp only
  split <;> simp [hP, hs]

@[simp] theorem State.on_countTag {die : Option Nat} {tag : BitVec 32} : (s.countTag die tag).On P :=
  State.On.foldl (fun s p hs => by split <;> simp [hP, hs]) _ hs

@[simp] theorem State.on_portPut {sup : Bool} {off : Nat} {v : Word} : (s.portPut sup off v).On P := by
  unfold State.portPut
  dsimp only
  (repeat' split) <;> simp [hP, hs]

@[simp] theorem State.on_setSem {writer : Option SlotId} {t k : Nat} {v : BitVec 32} : (s.setSem writer t k v).On P := by
  simp [State.setSem, hP, hs]

/-! ## Read sets and write sets -/

@[simp] theorem State.on_endChunk {x : SlotId} : (s.endChunk x).On P := by
  simp [State.endChunk, hP, hs]

@[simp] theorem State.on_addRead {x : SlotId} {sp live : Bool} {l : Loc} : (s.addRead x sp live l).On P := by
  unfold State.addRead
  dsimp only
  (repeat' split) <;> simp [hP, hs]

/-- A fold of operations that may stop an instruction. -/
theorem Got.on_foldl {α : Type} {f : α → State → Got Unit} (hf : ∀ a s, s.On P → (f a s).On P) (l : List α) :
    (l.foldl (fun (g : Got Unit) a => g.bind fun _ s => f a s) (.got () s)).On P := by
  suffices h : ∀ g : Got Unit, g.On P → (l.foldl (fun (g : Got Unit) a => g.bind fun _ s => f a s) g).On P from h _ (by simp [hs])
  induction l with
  | nil => exact fun g hg => hg
  | cons a r ih => exact fun g hg => ih _ (Got.on_bind hg fun _ s hs => hf a s hs)

@[simp] theorem State.on_addReads {x : SlotId} {sp live : Bool} {ls : List Loc} : (s.addReads x sp live ls).On P :=
  Got.on_foldl hP hs (fun _ _ hs => State.on_addRead hP hs) ls

@[simp] theorem State.on_addWrite {x : SlotId} {sp : Bool} {l : Loc} {ops : List WOp} : (s.addWrite x sp l ops).On P := by
  unfold State.addWrite
  (repeat' split) <;> simp [hP, hs]

@[simp] theorem State.on_holdStore {x : SlotId} {sp : Bool} {l : Loc} {bs : List Byte} {leaf : Option Leaf} : (s.holdStore x sp l bs leaf).On P :=
  Got.on_foldl hP hs (fun _ _ hs => State.on_addWrite hP hs) _

@[simp] theorem State.on_globalAddr {x : SlotId} {st : Strand} {ea : Word} {n : Nat} {kind : AccKind} : (s.globalAddr x st ea n kind).On P := by
  unfold State.globalAddr
  (repeat' split) <;> simp [hs]

@[simp] theorem State.on_pokeWord {writer : Option SlotId} {sup : Bool} {l : Loc} {bs : List Byte} : (s.pokeWord writer sup l bs).On P := by
  unfold State.pokeWord
  (repeat' split) <;> simp [hP, hs]

@[simp] theorem State.on_fixWords {a n : Nat} {m : BitVec 5} : (s.fixWords a n m).On P := by
  refine State.On.foldl (fun s w hs => ?_) _ hs
  have logged (f : Bank → Bank) (b : BankId) : (({ s.free.2 with weakWords := s.free.2.weakWords.filter fun k => k != w } : State).modBank b f).On P :=
    State.on_modBank hP (by simp [State.on_free hP hs])
  exact logged _ _

@[simp] theorem State.on_send {x : SlotId} {st : Strand} {op : FlightOp} {l : Loc} {dest : Option Dest} {kind : Nat} {rel acq : Bool} {tr : Option Leaf} : (s.send x st op l dest kind rel acq tr).On P := by
  simp [State.send, hP, hs]

@[simp] theorem State.on_modOwner {id : Nat} {who : SlotId} {f : Strand → Strand} : (s.modOwner id who f).On P := by
  unfold State.modOwner
  dsimp only
  split <;> simp [hP, hs]

@[simp] theorem State.on_dropAccess {a : Access} : (s.dropAccess a).On P := by
  simp [State.dropAccess, hP, hs]

@[simp] theorem State.on_setAccess {a : Access} : (s.setAccess a).On P := by
  simp [State.setAccess, hP, hs]

@[simp] theorem State.on_performed {a : Access} {v : V128} : (s.performed a v).On P := by
  unfold State.performed
  (repeat' split) <;> simp [hP, hs]

@[simp] theorem State.on_deliverTo {a : Access} {code : Nat} {detail : Word} : (s.deliverTo a code detail).On P := by
  simp [State.deliverTo, hP, hs]

@[simp] theorem State.on_failAccess {a : Access} : (s.failAccess a).On P := by
  have free : s.free.2.free.2.On P := State.on_free hP (State.on_free hP hs)
  unfold State.failAccess
  dsimp only
  refine State.on_modUid hP (State.on_dropAccess hP ?_)
  generalize s.free.2.free.2 = t at free ⊢
  have delivered {f : Bank → Bank} {c : Nat} {d : Word} : ((t.modBank (t.bankFor a.loc) f).deliverTo a c d).On P :=
    State.on_deliverTo hP (State.on_modBank hP free)
  split
  · exact State.On.foldl (fun s e hs => by simp [hP, hs]) _ delivered
  · exact delivered

@[simp] theorem State.on_corrected {a : Access} : (s.corrected a).On P := by
  simp [State.corrected, hP, hs]

@[simp] theorem State.on_pruneWatches : (s.pruneWatches).On P := by
  simp [State.pruneWatches, hP, hs]

@[simp] theorem State.on_evictWatch {w : Watch} : (s.evictWatch w).On P := by
  unfold State.evictWatch
  dsimp only
  split
  · simp [hs]
  · refine State.On.foldl (fun s e hs => ?_) _ (by simp [hs])
    split <;> simp [hP, hs]

theorem State.on_addWatch {w : Watch} {t : State} (h : s.addWatch w = some t) : t.On P := by
  unfold State.addWatch at h
  dsimp only at h
  split at h
  · rw [← Option.some.inj h]
    exact hs
  · obtain ⟨u, made, rfl⟩ := Option.map_eq_some_iff.mp h
    have hu : u.On P := by
      split at made
      · rw [← Option.some.inj made]
        simp [hP, hs]
      · obtain ⟨k, -, rfl⟩ := Option.map_eq_some_iff.mp made
        simp [hP, hs]
    simp [hu]

theorem State.on_addWatch_getD {w : Watch} : ((s.addWatch w).getD s).On P := by
  cases h : s.addWatch w with
  | none => exact hs
  | some t => exact State.on_addWatch hP hs h

@[simp] theorem State.on_armRead {a : Access} : (s.armRead a).On P := by
  unfold State.armRead
  split
  · exact State.on_addWatch_getD hP (State.on_modTile hP hs)
  · exact hs

@[simp] theorem State.on_retryAt {x : SlotId} : (s.retryAt x).On P := by
  unfold State.retryAt
  dsimp only
  (repeat' split) <;> simp [hP, hs]

@[simp] theorem State.on_redUpdate {addr tile : Nat} {b : Word} : (s.redUpdate addr tile b).On P := by
  simp [State.redUpdate, hP, hs]

@[simp] theorem State.on_waitAt {a : Access} {kind : Nat} : (s.waitAt a kind).On P :=
  State.on_addWatch_getD hP hs

@[simp] theorem State.on_dropVoidV {lo : Nat} : (s.dropVoidV lo).On P := by
  unfold State.dropVoidV
  (repeat' split) <;> simp [hP, hs]

@[simp] theorem State.on_fixRead {a : Access} : (s.fixRead a).On P :=
  State.On.foldl (fun s w hs => by simp [hP, hs]) _ hs

@[simp] theorem State.on_returnLong {a : Access} : (s.returnLong a).On P := by
  unfold State.returnLong
  split
  · exact hs
  · split
    · dsimp only
      split <;> simp [hP, hs]
    · (repeat' split) <;> simp [hP, hs, State.on_dropAccess hP (State.on_dropAccess hP (State.on_modOwner hP hs))]
    · split <;> simp [hP, hs]


end
end Sys2Proof.Machine
end

section
/-!
PROOF. What writes to memory, and accesses at the moment when they are performed, keep of a state's parts.
-/

namespace Sys2Proof.Machine

set_option Elab.async false

section
set_option linter.unusedSectionVars false
set_option linter.unusedSimpArgs false
variable {P : Parts → Prop} (hP : Parts.Written P) {s : State} (hs : s.On P)
include hP hs

@[simp] theorem State.on_putBytes {a : Nat} {bs : List Byte} : (s.putBytes a bs).On P := hP.bytes s a bs hs

@[simp] theorem State.on_store {w : Option SlotId} {a : Nat} {bs : List Byte} {cls op : Nat} {sh : List (Nat × Nat)} :
    (s.store w a bs cls op sh).On P :=
  State.on_notify hP.toBears (State.on_putBytes hP (State.on_lagWrite hP.toBears hs))

theorem State.on_emptied {f : Nat → Bool} :
    Holds P s.mem (s.full.filter f) s.checkpoints s.ctl s.spills s.fusedRows s.fusedCols s.devno := hP.empties _ f hs

theorem State.on_blocks {l : List Spilled} : Holds P s.mem s.full s.checkpoints s.ctl l s.fusedRows s.fusedCols s.devno := hP.blocks _ l hs

@[simp] theorem State.on_emptyWord {w : Option SlotId} {k : Nat} : (s.emptyWord w k).On P :=
  State.on_notify hP.toBears (by rw [State.on_mk]; exact State.on_emptied hP hs)

@[simp] theorem State.on_foldWord {r : RedWord} : (s.foldWord r).On P := by
  unfold State.foldWord
  dsimp only
  split <;> simp [-State.store_mem, hP, hs]

@[simp] theorem State.on_foldFor {l : Loc} {n : Nat} : (s.foldFor l n).On P := by
  unfold State.foldFor
  split
  · exact hs
  · exact State.On.foldl (fun s r hs => by simp [hP, hs]) _ hs

@[simp] theorem State.on_poke {w : Option SlotId} {sup : Bool} {l : Loc} {bs : List Byte} {cls op : Nat} : (s.poke w sup l bs cls op).On P := by
  have pieces (ps : List (Nat × List Byte)) : (ps.foldl (fun (s : State) p => s.pokeWord w sup ⟨thisDev, p.1⟩ p.2) s).On P :=
    State.On.foldl (fun s p hs => by simp [hP.toBears, hs]) _ hs
  unfold State.poke
  (repeat' split) <;> simp [hP, hs, pieces]

@[simp] theorem State.on_applyEntry {x : SlotId} {e : WEntry} : (s.applyEntry x e).On P := by
  unfold State.applyEntry
  refine State.On.foldl (fun s o hs => ?_) _ ?_
  · (repeat' split) <;> simp [hP, hP.toBears, hs]
  · split <;> simp [hP.toBears, hs]

@[simp] theorem State.on_padRead {x : SlotId} {st : Strand} {ea : Word} {n : Nat} : (s.padRead x st ea n).On P := by
  unfold State.padRead
  obtain ⟨loc, same⟩ : ∃ loc, s.padLoc x = loc := ⟨_, rfl⟩
  rw [same]
  split
  · simp
  · extract_lets l t
    have fixed : t.On P := State.on_fixWords hP.toBears hs
    have seen : ((t.foldFor l n).noteSeen st.uid l.addr n).On P := State.on_noteSeen hP.toBears (State.on_foldFor hP fixed)
    split
    · simpa [State.badWord] using fixed
    · split
      · exact Got.on_bind (State.on_addReads hP.toBears seen) fun _ _ h => by simpa using h
      · simpa using seen

@[simp] theorem State.on_padWrite {x : SlotId} {st : Strand} {ea : Word} {bs : List Byte} : (s.padWrite x st ea bs).On P := by
  unfold State.padWrite
  split
  · simp
  · next p _ =>
    obtain ⟨l, place⟩ : ∃ l, s.padLoc x p = l := ⟨_, rfl⟩
    simp only [place]
    have fixed : (if bs.length < 8 then s.fixWords l.addr bs.length (BitVec.ofNat 5 x.member) else s).On P := by
      split <;> simp [hP.toBears, hs]
    split
    · simpa [State.badWord] using fixed
    · split
      · exact State.on_holdStore hP.toBears fixed
      · simpa using State.on_poke hP fixed

@[simp] theorem State.on_rmw {a : Access} {op : AtomOp} {b : Word} {cmp : Option Word} {answer : V128} : (s.rmw a op b cmp answer).2.On P := by
  have seen : ((s.foldFor a.loc op.size).noteSeen a.uid a.loc.addr op.size).On P := State.on_noteSeen hP.toBears (State.on_foldFor hP hs)
  unfold State.rmw
  dsimp only
  (repeat' split) <;> simp [hP, hs, seen]

@[simp] theorem State.on_readHere {a : Access} {n : Nat} : (s.readHere a n).On P := by
  unfold State.readHere
  split <;> simp [hP, hP.toBears, hs]

@[simp] theorem State.on_redRegister {a : Access} {ty : Nat} {answer : V128} : (s.redRegister a ty answer).2.On P := by
  unfold State.redRegister
  (repeat' split) <;> simp [hs]

theorem State.on_effect_stx {a : Access} {v : Word} {answer : V128} (op : a.op = .stx v) : (s.effect a answer).On P := by
  have hB := hP.toBears
  unfold State.effect
  simp only [op]
  have kept : ({ s with flight := s.flight.map fun e => e.unreserve a.who a.id } : State).On P := by simp [hs]
  generalize ({ s with flight := s.flight.map fun e => e.unreserve a.who a.id } : State) = t at kept
  generalize List.find? _ s.watches = mine
  have ended : (if mine.isSome then t.endRsv a.who else t).On P := by split <;> simp [hB, kept]
  generalize (if mine.isSome then t.endRsv a.who else t) = u at ended
  split
  · exact State.on_performed hB ended
  · have written := State.on_performed hB (a := a) (v := 0) (State.on_poke hP ended (w := u.writerOf a) (sup := isSup a.who) (l := a.loc) (bs := natToBytes 8 v.toNat) (cls := pathStrand) (op := 0))
    have failed := State.on_performed hB (a := a) (v := 1) ended
    rcases mine with _ | w
    · exact failed
    · dsimp only
      split
      · exact written
      · exact failed

theorem State.on_effect_atomn {a : Access} {op : AtomOp} {b : Word} {answer : V128} (is : a.op = .atomn op b) : (s.effect a answer).On P := by
  have hB := hP.toBears
  have updated : ((s.rmw a op b none answer).2.performed a 0).On P := State.on_performed hB (State.on_rmw hP hs)
  unfold State.effect
  simp only [is]
  split
  · exact State.on_performed hB (State.on_redUpdate hB hs)
  · (repeat' split)
    · exact State.on_performed hB (State.on_countAt hB hs)
    · exact updated
    · exact updated

theorem State.on_effect_ldc {a : Access} {answer : V128} (is : a.op = .ldc) : (s.effect a answer).On P := by
  have hB := hP.toBears
  have here : (s.readHere a 8).On P := State.on_readHere hP hs
  unfold State.effect
  simp only [is]
  generalize s.readHere a 8 = t at here ⊢
  split
  · split
    · exact State.on_performed hB (State.on_armRead hB here)
    · exact State.on_setAccess hB (State.on_armRead hB here)
  · split
    · refine State.on_performed hB ?_
      split
      · exact State.on_emptyWord hP here
      · exact here
    · exact State.on_waitAt hB here

theorem State.on_effect_stp {a : Access} {answer : V128} (is : (∃ v, a.op = .stp v) ∨ a.op = .stpTest) : (s.effect a answer).On P := by
  have hB := hP.toBears
  have folded : (s.foldFor a.loc 8).On P := State.on_foldFor hP hs
  unfold State.effect
  rcases is with ⟨v, is⟩ | is <;> simp only [is] <;> generalize s.foldFor a.loc 8 = t at folded ⊢ <;> split
  · exact State.on_waitAt hB folded
  · exact State.on_performed hB (State.on_poke hP folded)
  · exact State.on_setAccess hB (State.on_armRead hB folded)
  · exact State.on_performed hB (State.on_armRead hB folded)

@[simp] theorem State.on_effect {a : Access} {answer : V128} : (s.effect a answer).On P := by
  have hB := hP.toBears
  have read (n : Nat) : ((s.readHere a n).armRead a).On P := State.on_armRead hB (State.on_readHere hP hs)
  cases is : a.op with
  | load n signed => simp only [State.effect, is]; exact State.on_performed hB (read _)
  | loadV upper => simp only [State.effect, is]; exact State.on_dropVoidV hB (State.on_setAccess hB (read _))
  | store bs => simp only [State.effect, is]; exact State.on_performed hB (State.on_poke hP hs)
  | atom op b c => simp only [State.effect, is]; exact State.on_performed hB (State.on_rmw hP hs)
  | atomn op b => exact State.on_effect_atomn hP hs is
  | ldc => exact State.on_effect_ldc hP hs is
  | stp v => exact State.on_effect_stp hP hs (.inl ⟨v, is⟩)
  | stpTest => exact State.on_effect_stp hP hs (.inr is)
  | ldx =>
    simp only [State.effect, is]
    exact State.on_performed hB (State.on_addWatch_getD hB (State.on_modStrand hB (State.on_endRsv hB (State.on_readHere hP hs))))
  | stx v => exact State.on_effect_stx hP hs is
  | redpReg ty => simp only [State.effect, is]; exact State.on_setAccess hB (State.on_redRegister hP hs)
  | redpRel =>
    have folded : (s.foldFor a.loc 8).On P := State.on_foldFor hP hs
    simp only [State.effect, is]
    exact State.on_setAccess hB (by simp [folded])
  | joinDec => simp only [State.effect, is]; exact State.on_setAccess hB (State.on_rmw hP hs)
  | resv n => simp only [State.effect, is]; exact State.on_performed hB (State.on_putCmdRing hB hs)
  | wrongBit => simp only [State.effect, is]; exact hs
  | result => simp only [State.effect, is]; exact hs

@[simp] theorem State.on_perform {a : Access} {err : ErrKind} {answer : V128} : (s.perform a err answer).On P := by
  have fixed : (s.fixRead a).On P := State.on_fixRead hP.toBears hs
  unfold State.perform
  dsimp only
  (repeat' split) <;> simp [hP, hP.toBears, fixed, hs]

end
end Sys2Proof.Machine
end

section
/-!
PROOF. What the words of the scalar unit, of memory, of atomics and of the rings keep: each keeps a property that bears every write.
-/

namespace Sys2Proof.Machine

set_option Elab.async false

section
variable {P : Parts → Prop}

@[simp] theorem on_noTx : noTx.On P := by simp [noTx]
@[simp] theorem on_ringFault {c a : Nat} : (ringFault c a).On P := by simp [ringFault]
@[simp] theorem on_rowFault {a : Word} : (rowFault a).On P := by simp [rowFault]
@[simp] theorem on_cellFault {c a : Nat} : (cellFault c a).On P := by simp [cellFault]

end

section
set_option linter.unusedSectionVars false
set_option linter.unusedSimpArgs false
variable {P : Parts → Prop} (hP : Parts.Written P) {s : State} (hs : s.On P)
include hP hs

@[simp] theorem State.keeps_alu {m : Bool} {u : Uses} {d : Spec} {f : Strand → Word} : Keeps P (s.alu m u d f) := by
  refine State.keeps_issue hP.toBears hs fun st => ?_
  simp [hP, hP.toBears, hs]

@[simp] theorem State.on_compared {st : Strand} {sk : BitVec 2} {holds : Bool} : (s.compared st sk holds).On P := by
  unfold State.compared
  split <;> simp [hP, hP.toBears, hs]

@[simp] theorem execCmp_keeps {m : Bool} {cond : BitVec 3} {sk : BitVec 2} {a b : Spec} : Keeps P (execCmp m cond sk a b s) := by
  refine State.keeps_issue hP.toBears hs fun st => ?_
  simp [hP, hP.toBears, hs]

@[simp] theorem execCmpi_keeps {m : Bool} {cond : BitVec 3} {sk : BitVec 2} {a : Spec} {imm : BitVec 6} : Keeps P (execCmpi m cond sk a imm s) := by
  refine State.keeps_issue hP.toBears hs fun st => ?_
  simp [hP, hP.toBears, hs]

@[simp] theorem execBr_keeps {m : Bool} {cond : BitVec 3} {a : Spec} {disp : BitVec 15} : Keeps P (execBr m cond a disp s) := by
  refine State.keeps_issue hP.toBears hs fun st => ?_
  split <;> simp [hP, hP.toBears, hs]

@[simp] theorem execJ_keeps {m : Bool} {disp : BitVec 18} : Keeps P (execJ m disp s) := by
  refine State.keeps_issue hP.toBears hs fun st => ?_
  simp [hP, hP.toBears, hs]

@[simp] theorem execCall_keeps {m : Bool} {d : Spec} {disp : BitVec 18} : Keeps P (execCall m d disp s) := by
  refine State.keeps_issue hP.toBears hs fun st => ?_
  simp [hP, hP.toBears, hs]

@[simp] theorem execCalli_keeps {m : Bool} {d a : Spec} {imm : BitVec 12} : Keeps P (execCalli m d a imm s) := by
  refine State.keeps_issue hP.toBears hs fun st => ?_
  dsimp only
  split <;> simp [hP, hP.toBears, hs]

@[simp] theorem execEnter_keeps {m : Bool} {imm : BitVec 18} : Keeps P (execEnter m imm s) := by
  refine State.keeps_issue hP.toBears hs fun st => ?_
  dsimp only
  split <;> simp [hP, hP.toBears, hs]

@[simp] theorem execLeave_keeps {m : Bool} {imm : BitVec 18} : Keeps P (execLeave m imm s) := by
  refine State.keeps_issue hP.toBears hs fun st => ?_
  simp [hP, hP.toBears, hs]

@[simp] theorem State.keeps_falu {m : Bool} {u : Uses} {d : Spec} {f : Strand → Nat × FFlags} : Keeps P (s.falu m u d f) := by
  refine State.keeps_issue hP.toBears hs fun st => ?_
  simp [hP, hP.toBears, hs]

@[simp] theorem execFcmp_keeps {m : Bool} {cond : BitVec 3} {sk : BitVec 2} {ty : BitVec 1} {a b : Spec} : Keeps P (execFcmp m cond sk ty a b s) := by
  refine State.keeps_issue hP.toBears hs fun st => ?_
  simp [hP, hP.toBears, hs]

@[simp] theorem State.on_upd {f : Strand → Strand} : (s.upd f).On P := by
  simp [State.upd, hP, hP.toBears, hs]

@[simp] theorem State.on_loadPad {st : Strand} {ea : Word} {n : Nat} : (s.loadPad st ea n).On P := by
  unfold State.loadPad
  split <;> simp [hP, hP.toBears, hs]

@[simp] theorem State.on_storePad {st : Strand} {ea : Word} {bs : List Byte} : (s.storePad st ea bs).On P := by
  unfold State.storePad
  split <;> simp [hP, hP.toBears, hs]

@[simp] theorem execLds_keeps {m : Bool} {d a : Spec} {off : BitVec 9} {z : BitVec 3} : Keeps P (execLds m d a off z s) := by
  refine State.keeps_issue hP.toBears hs fun st => ?_
  refine Got.on_act (by simp [hP, hP.toBears, hs]) fun v s hs => ?_
  simp [hP, hP.toBears, hs]

@[simp] theorem execSts_keeps {m : Bool} {b a : Spec} {off : BitVec 9} {z : BitVec 3} : Keeps P (execSts m b a off z s) := by
  refine State.keeps_issue hP.toBears hs fun st => ?_
  refine Got.on_act (by simp [hP, hP.toBears, hs]) fun v s hs => ?_
  simp [hP, hP.toBears, hs]

@[simp] theorem execLdsv_keeps {m : Bool} {d a : Spec} {imm : BitVec 12} : Keeps P (execLdsv m d a imm s) := by
  refine State.keeps_issue hP.toBears hs fun st => ?_
  refine Got.on_act (by simp [hP, hP.toBears, hs]) fun v s hs => ?_
  simp [hP, hP.toBears, hs]

@[simp] theorem execStsv_keeps {m : Bool} {b a : Spec} {imm : BitVec 12} : Keeps P (execStsv m b a imm s) := by
  refine State.keeps_issue hP.toBears hs fun st => ?_
  refine Got.on_act (by simp [hP, hP.toBears, hs]) fun v s hs => ?_
  simp [hP, hP.toBears, hs]

@[simp] theorem State.on_watchReads {st : Strand} {l : Loc} {n : Nat} : (s.watchReads st l n).On P := by
  unfold State.watchReads
  split <;> simp [hP, hP.toBears, hs]

@[simp] theorem execLdg_keeps {m : Bool} {d a : Spec} {off : BitVec 9} {z : BitVec 3} : Keeps P (execLdg m d a off z s) := by
  refine State.keeps_issue hP.toBears hs fun st => Got.on_act (by simp [hP.toBears, hs]) fun p s hs => ?_
  split
  · simp [hP.toBears, hs]
  · split
    · simp [hP.toBears, hs]
    · exact Got.on_act (by simp [hP, hs]) fun _ s hs => by simp [hP.toBears, hs]

@[simp] theorem execLdgv_keeps {m : Bool} {d a : Spec} {imm : BitVec 12} : Keeps P (execLdgv m d a imm s) := by
  refine State.keeps_issue hP.toBears hs fun st => Got.on_act (by simp [hP.toBears, hs]) fun p s hs => ?_
  split
  · simp [hP.toBears, hs]
  · exact Got.on_act (by simp [hP, hs]) fun _ s hs => State.on_send hP.toBears (State.on_send hP.toBears hs)

@[simp] theorem State.on_storeGlobal {st : Strand} {l : Loc} {bs : List Byte} {tr : Leaf} : (s.storeGlobal st l bs tr).On P := by
  unfold State.storeGlobal
  split
  · exact Got.on_act (by simp [hP.toBears, hs]) fun _ s hs => by simp [hs]
  · extract_lets lines
    split
    · simp
    · exact State.On.foldl (fun s p hs => by simp [hP.toBears, hs]) _ hs

@[simp] theorem execStg_keeps {m : Bool} {b a : Spec} {off : BitVec 9} {z : BitVec 3} : Keeps P (execStg m b a off z s) := by
  refine State.keeps_issue hP.toBears hs fun st => ?_
  refine Got.on_act (by simp [hP, hP.toBears, hs]) fun v s hs => ?_
  simp [hP, hP.toBears, hs]

@[simp] theorem execStgv_keeps {m : Bool} {b a : Spec} {imm : BitVec 12} : Keeps P (execStgv m b a imm s) := by
  refine State.keeps_issue hP.toBears hs fun st => ?_
  refine Got.on_act (by simp [hP, hP.toBears, hs]) fun v s hs => ?_
  simp [hP, hP.toBears, hs]

@[simp] theorem execLdc_keeps {m : Bool} {d a : Spec} {imm : BitVec 12} : Keeps P (execLdc m d a imm s) := by
  refine State.keeps_issue hP.toBears hs fun st => ?_
  dsimp only
  split
  · simp [hP.toBears, hs]
  · refine Got.on_act (by simp [hP.toBears, hs]) fun p s hs => ?_
    split
    · simp [hP.toBears, hs]
    · split
      · refine Got.on_act (by simp [hP.toBears, hs]) fun _ s hs => ?_
        exact Got.on_act (State.on_addWrite hP.toBears (State.on_send hP.toBears hs)) fun _ s hs => by simp [hs]
      · simp [hP.toBears, hs]

@[simp] theorem execStp_keeps {m : Bool} {b a : Spec} {imm : BitVec 12} : Keeps P (execStp m b a imm s) := by
  refine State.keeps_issue hP.toBears hs fun st => ?_
  dsimp only
  split
  · simp [hP.toBears, hs]
  · refine Got.on_act (by simp [hP.toBears, hs]) fun p s hs => ?_
    split
    · refine Got.on_act (by simp [hP.toBears, hs]) fun _ s hs => ?_
      exact Got.on_act (State.on_holdStore hP.toBears (State.on_send hP.toBears hs)) fun _ s hs => by simp [hs]
    · simp [hP.toBears, hs]

@[simp] theorem execLdx_keeps {m : Bool} {d a : Spec} : Keeps P (execLdx m d a s) := by
  refine State.keeps_issue hP.toBears hs fun st => ?_
  refine Got.on_act (by simp [hP, hP.toBears, hs]) fun v s hs => ?_
  simp [hP, hP.toBears, hs]

@[simp] theorem execStx_keeps {m : Bool} {d a b : Spec} : Keeps P (execStx m d a b s) := by
  refine State.keeps_issue hP.toBears hs fun st => ?_
  refine Got.on_act (by simp [hP, hP.toBears, hs]) fun v s hs => ?_
  simp [hP, hP.toBears, hs]

@[simp] theorem execFence_keeps {m : Bool} {pred : BitVec 6} {scope : BitVec 3} {_succ : BitVec 6} : Keeps P (execFence m pred scope _succ s) := by
  refine State.keeps_issue hP.toBears hs fun st => ?_
  split <;> simp [hP, hP.toBears, hs]

@[simp] theorem State.on_orderPaths {t uid : Nat} {pred succ : BitVec 6} {scope : Nat} : (s.orderPaths t uid pred succ scope).On P := by
  simp [State.orderPaths, hP, hP.toBears, hs]

@[simp] theorem execFencex_keeps {m : Bool} {pred : BitVec 6} {scope : BitVec 3} {succ : BitVec 6} : Keeps P (execFencex m pred scope succ s) := by
  refine State.keeps_issue hP.toBears hs fun st => ?_
  split <;> simp [hP, hP.toBears, hs]

@[simp] theorem State.keeps_atom {m : Bool} {op : AtomOp} {ord : BitVec 2} {d a b : Spec} : Keeps P (s.atom m op ord d a b) := by
  refine State.keeps_issue hP.toBears hs fun st => ?_
  refine Got.on_act (by simp [hP, hP.toBears, hs]) fun v s hs => ?_
  simp [hP, hP.toBears, hs]

@[simp] theorem State.keeps_atomn {m : Bool} {op : AtomOp} {rel : BitVec 1} {a b : Spec} : Keeps P (s.atomn m op rel a b) := by
  refine State.keeps_issue hP.toBears hs fun st => ?_
  refine Got.on_act (by simp [hP, hP.toBears, hs]) fun v s hs => ?_
  simp [hP, hP.toBears, hs]

@[simp] theorem State.keeps_redp {m : Bool} {op : FlightOp} {a : Spec} : Keeps P (s.redp m op a) := by
  refine State.keeps_issue hP.toBears hs fun st => ?_
  split
  · (repeat' split) <;> simp [hP.toBears, hs]
  · exact Got.on_act (by simp [hP.toBears, hs]) fun p s hs => by simp [hP.toBears, hs]

@[simp] theorem execTxb_keeps {m : Bool} {disp : BitVec 18} : Keeps P (execTxb m disp s) := by
  refine State.keeps_issue hP.toBears hs fun st => ?_
  dsimp only
  (repeat' split) <;> simp [hP, hP.toBears, hs]

@[simp] theorem execOth_keeps {m : Bool} {disp : BitVec 18} : Keeps P (execOth m disp s) := by
  refine State.keeps_issue hP.toBears hs fun st => ?_
  (repeat' split) <;> simp [hP, hP.toBears, hs]

@[simp] theorem State.on_commitTx {x : SlotId} {t : Tx} : (s.commitTx x t).On P :=
  State.on_dropWeir hP.toBears (State.on_modStrand hP.toBears (State.On.foldl (fun s e hs => by simp [hP, hs]) _ hs))

@[simp] theorem State.on_joinChunk {x : SlotId} {t : Tx} : (s.joinChunk x t).On P := by
  simp [State.joinChunk, hP, hP.toBears, hs]

@[simp] theorem execTxe_keeps {m : Bool} : Keeps P (execTxe m s) := by
  refine State.keeps_issue hP.toBears hs fun st => ?_
  (repeat' split) <;> simp [hP, hP.toBears, hs]

@[simp] theorem execTxa_keeps {m : Bool} {a : Spec} : Keeps P (execTxa m a s) := by
  refine State.keeps_issue hP.toBears hs fun st => ?_
  dsimp only
  (repeat' split) <;> simp [hP, hP.toBears, hs]

@[simp] theorem execRetry_keeps {m : Bool} : Keeps P (execRetry m s) := by
  refine State.keeps_issue hP.toBears hs fun st => ?_
  split <;> simp [hP, hP.toBears, hs]

@[simp] theorem State.on_semWrite {x : SlotId} {st : Strand} {k : Nat} {v : BitVec 32} : (s.semWrite x st k v).On P := by
  unfold State.semWrite
  split <;> simp [hP, hP.toBears, hs]

@[simp] theorem State.on_semRead {x : SlotId} {st : Strand} {k : Nat} : (s.semRead x st k).On P := by
  unfold State.semRead
  split <;> simp [hP, hP.toBears, hs]

@[simp] theorem execSempost_keeps {m : Bool} {k : BitVec 5} {a : Spec} : Keeps P (execSempost m k a s) := by
  refine State.keeps_issue hP.toBears hs fun st => ?_
  dsimp only
  split
  · simp [hs]
  · refine Got.on_act (by simp [hP, hs]) fun _ s hs => ?_
    exact Got.on_act (by simp [hP, hs]) fun _ s hs => by simp [hs]

@[simp] theorem execSemtry_keeps {m : Bool} {d : Spec} {k : BitVec 5} : Keeps P (execSemtry m d k s) := by
  refine State.keeps_issue hP.toBears hs fun st => Got.on_act (by simp [hP, hs]) fun _ s hs => ?_
  dsimp only
  split
  · simp [hP, hs]
  · exact Got.on_act (by simp [hP, hs]) fun _ s hs => by simp [hP, hs]

@[simp] theorem execLkcfg_keeps {m : Bool} {ring : BitVec 3} {a : Spec} : Keeps P (execLkcfg m ring a s) := by
  refine State.keeps_issue hP.toBears hs fun st => ?_
  dsimp only
  split
  · simp
  · split
    · simp
    · split
      · simp
      · split
        · simp
        · refine Got.on_act (by simp [hP, hs]) fun bs s hs => ?_
          (repeat' split) <;> simp [hP.toBears, hs]

@[simp] theorem execLkadv_keeps {m : Bool} {ring : BitVec 3} : Keeps P (execLkadv m ring s) := by
  refine State.keeps_issue hP.toBears hs fun st => ?_
  (repeat' split) <;> simp [hP, hP.toBears, hs]

@[simp] theorem execLkpos_keeps {m : Bool} {d : Spec} {ring : BitVec 3} : Keeps P (execLkpos m d ring s) := by
  refine State.keeps_issue hP.toBears hs fun st => ?_
  split
  · simp
  · refine Got.on_act ?_ fun _ s hs => by simp [hP, hs]
    split <;> simp [hP.toBears, hs]

@[simp] theorem execLkjoin_keeps {m : Bool} {ring : BitVec 3} {a : Spec} : Keeps P (execLkjoin m ring a s) := by
  refine State.keeps_issue hP.toBears hs fun st => ?_
  dsimp only
  (repeat' split) <;> simp [hP, hP.toBears, hs]

end
end Sys2Proof.Machine
end

section
/-!
PROOF. What block transfers, the vector unit and the matrix engine keep: each keeps a property that bears every write.
-/

namespace Sys2Proof.Machine

set_option Elab.async false

section
set_option linter.unusedSectionVars false
set_option linter.unusedSimpArgs false
variable {P : Parts → Prop} (hP : Parts.Written P) {s : State} (hs : s.On P)
include hP hs

@[simp] theorem execCpset_keeps {m : Bool} {ch : BitVec 2} {field : BitVec 6} {a : Spec} : Keeps P (execCpset m ch field a s) := by
  refine State.keeps_issue hP.toBears hs fun st => ?_
  simp [hP, hP.toBears, hs]

@[simp] theorem execCpseti_keeps {m : Bool} {ch : BitVec 2} {field : BitVec 6} {imm : BitVec 12} : Keeps P (execCpseti m ch field imm s) := by
  refine State.keeps_issue hP.toBears hs fun st => ?_
  simp [hP, hP.toBears, hs]

@[simp] theorem State.on_setChan {writer : Option SlotId} {t k : Nat} {c : Chan} : (s.setChan writer t k c).On P := by
  unfold State.setChan
  dsimp only
  split <;> simp [hP, hP.toBears, hs]

@[simp] theorem execCplaunch_keeps {m : Bool} {d : Spec} {ch : BitVec 2} : Keeps P (execCplaunch m d ch s) := by
  refine State.keeps_issue hP.toBears hs fun st => ?_
  dsimp only
  (repeat' split) <;> simp [hP, hP.toBears, hs]

@[simp] theorem execCpstat_keeps {m : Bool} {d : Spec} {ch : BitVec 2} : Keeps P (execCpstat m d ch s) := by
  refine State.keeps_issue hP.toBears hs fun st => ?_
  dsimp only
  split
  · simp [hs]
  · refine Got.on_act ?_ fun _ s hs => by simp [hP, hs]
    split <;> simp [hP.toBears, hs]

@[simp] theorem execCpstop_keeps {m : Bool} {ch : BitVec 2} : Keeps P (execCpstop m ch s) := by
  refine State.keeps_issue hP.toBears hs fun st => ?_
  simp [hP, hP.toBears, hs]

@[simp] theorem State.on_sideLoc {tile : Nat} {t : Transfer} {kind : Nat} {a : Word} {acc : AccKind} : (s.sideLoc tile t kind a acc).2.On P := by
  have tr : (s.engineTr tile t.ptroot t.sup a acc).2.On P := State.on_engineTr hP.toBears hs
  unfold State.sideLoc
  split
  · exact hs
  · split <;> simp_all

@[simp] theorem State.on_haltChan {tile ch : Nat} {t : Transfer} {code : Nat} {wr : Bool} {addr : Word} : (s.haltChan tile ch t code wr addr).On P := by
  unfold State.haltChan
  extract_lets c u v
  have halted : u.On P := State.on_setChan hP hs
  have woken : v.On P := by
    unfold v
    split <;> simp [hP.toBears, halted]
  split <;> simp [hP.toBears, woken]

@[simp] theorem execTransferStart_keeps {tile ch : Nat} : Keeps P (execTransferStart tile ch s) := by
  unfold execTransferStart
  dsimp only
  (repeat' split) <;> simp [hP, hs]

@[simp] theorem State.on_readElement {c : Chan} {tile : Nat} {t : Transfer} {old : Bool} {answer : V128} : (s.readElement c tile t old answer).2.On P := by
  unfold State.readElement
  extract_lets f n sa i0 rowA
  have found : (if f.lineEn then s.sideLoc tile t t.srcKind rowA .read else (.error 0, s)).2.On P := by split <;> simp [hP, hs]
  generalize (if f.lineEn then s.sideLoc tile t t.srcKind rowA .read else (.error 0, s)) = q at found
  obtain ⟨row, u⟩ := q
  dsimp only
  split
  · exact found
  · have read : (u.sideLoc tile t t.srcKind sa .read).2.On P := State.on_sideLoc hP found
    split
    · simp_all
    · simp_all

@[simp] theorem State.on_logCopy {cls : BitVec 2} {t : Transfer} {l : Loc} : (s.logCopy cls t l).On P := by
  simp [State.logCopy, hP, hP.toBears, hs]

theorem State.on_copyCheck_good {t : Transfer} {l : Loc} {n : Nat} {reads : Nat → Bool} {err : ErrKind} {u : State}
    (h : s.copyCheck t l n reads err = .good u) : u.On P := by
  have fixed (ws : List Nat) : (ws.foldl (fun s w => s.fixWords (8 * w) 8 (BitVec.ofNat 5 t.who.member)) s).On P :=
    State.On.foldl (fun s w hs => by simp [hP.toBears, hs]) _ hs
  unfold State.copyCheck at h
  dsimp only at h
  split at h
  · cases h
  · cases h
  · cases h
    simp [hP, fixed]
  · cases h
    exact fixed _

theorem State.on_copyCheck_fails {t : Transfer} {l : Loc} {n : Nat} {reads : Nat → Bool} {err : ErrKind} {off : Nat} {u : State}
    (h : s.copyCheck t l n reads err = .fails off u) : u.On P := by
  have fixed (ws : List Nat) : (ws.foldl (fun s w => s.fixWords (8 * w) 8 (BitVec.ofNat 5 t.who.member)) s).On P :=
    State.On.foldl (fun s w hs => by simp [hP.toBears, hs]) _ hs
  unfold State.copyCheck at h
  dsimp only at h
  split at h
  · cases h
    simp [hP, fixed]
  · cases h
    simp [hP, fixed]
  · cases h
  · cases h

@[simp] theorem State.on_writeElement {tile ch : Nat} {t : Transfer} {bs : List Byte} {err : ErrKind} : (s.writeElement tile ch t bs err).On P := by
  have found : (s.sideLoc tile t t.dstKind (t.addr true t.x) .write).2.On P := State.on_sideLoc hP hs
  unfold State.writeElement
  extract_lets n da
  split
  · next code u e =>
    rw [e] at found
    exact State.on_haltChan hP found
  · next l u e =>
    rw [e] at found
    split
    · next off v e => simp [hP, State.on_copyCheck_fails hP found e]
    · next v e => exact State.on_setChan hP (State.on_poke hP (State.on_countWork hP.toBears (State.on_copyCheck_good hP found e)))

@[simp] theorem execCopyElement_keeps {tile ch : Nat} {old : Bool} {err : CopyErr} {answer : V128} : Keeps P (execCopyElement tile ch old err answer s) := by
  unfold execCopyElement
  extract_lets c
  split
  · simp [hs]
  · next t _ =>
    extract_lets f n sa
    split
    · simp [hs]
    · have read : (s.readElement c tile t old answer).2.On P := State.on_readElement hP hs
      split
      · next e u eq =>
        rw [eq] at read
        simp [hP, read]
      · next bs t' place u eq =>
        rw [eq] at read
        split
        · next off v eq =>
          have failed : v.On P := by
            cases place with
            | none => cases eq
            | some l => exact State.on_copyCheck_fails hP read eq
          simp [hP, failed]
        · next v eq =>
          have checked : v.On P := by
            cases place with
            | none => cases eq; exact read
            | some l => exact State.on_copyCheck_good hP read eq
          extract_lets lines w
          have counted : w.On P := State.on_countWork hP.toBears checked
          split <;> simp [hP, counted]

@[simp] theorem execSendPacketAccept_keeps {tile ch : Nat} : Keeps P (execSendPacketAccept tile ch s) := by
  unfold execSendPacketAccept
  dsimp only
  split
  · simp [hs]
  · split
    · simp [hs]
    · split
      · have freed := State.on_free hP.toBears hs
        exact Keeps.next (State.on_haltChan hP (State.on_setChan hP freed))
      · exact Keeps.next (State.on_setChan hP (by simp [hs]))

@[simp] theorem State.on_finishCommand {cid : Nat} {v : Word} : (s.finishCommand cid v).On P := by
  simp [State.finishCommand, hP, hP.toBears, hs]

@[simp] theorem execTransferComplete_keeps {tile ch : Nat} : Keeps P (execTransferComplete tile ch s) := by
  unfold execTransferComplete
  dsimp only
  (repeat' split) <;> simp [hP, hs]

@[simp] theorem execCpctlResume_keeps {tile ch : Nat} : Keeps P (execCpctlResume tile ch s) := by
  unfold execCpctlResume
  dsimp only
  split <;> simp [hP, hs]

@[simp] theorem execCpctlCancel_keeps {tile ch : Nat} : Keeps P (execCpctlCancel tile ch s) := by
  unfold execCpctlCancel
  dsimp only
  split <;> simp [hP, hs]

@[simp] theorem State.keeps_valu {m : Bool} {u : Uses} {d : Spec} {f : Strand → V128} : Keeps P (s.valu m u d f) := by
  refine State.keeps_issue hP.toBears hs fun st => ?_
  simp [hP, hP.toBears, hs]

@[simp] theorem State.on_tally {st : Strand} : (s.tally st).On P := by
  simp [State.tally, hP, hP.toBears, hs]

@[simp] theorem State.keeps_vfpu {m : Bool} {u : Uses} {d : Spec} {f : Strand → V128} : Keeps P (s.vfpu m u d f) := by
  refine State.keeps_issue hP.toBears hs fun st => ?_
  simp [hP, hP.toBears, hs]

@[simp] theorem State.keeps_vround {fp m : Bool} {u : Uses} {rnd : BitVec 2} {w n wd : Nat} {d : Spec} {f : Strand → Nat → RMode → Nat} : Keeps P (s.vround fp m u rnd w n wd d f) := by
  refine State.keeps_issue hP.toBears hs fun st => ?_
  dsimp only
  split <;> simp [hP, hP.toBears, hs]

@[simp] theorem State.keeps_redTo {m : Bool} {d a : Spec} {f : Strand → Word} : Keeps P (s.redTo m d a f) := by
  refine State.keeps_issue hP.toBears hs fun st => ?_
  simp [hP, hP.toBears, hs]

@[simp] theorem execPlane_keeps {m : Bool} {pm1 : BitVec 5} {d a b : Spec} : Keeps P (execPlane m pm1 d a b s) := by
  refine State.keeps_issue hP.toBears hs fun st => ?_
  refine Got.on_act (by simp [hP, hP.toBears, hs]) fun v s hs => ?_
  simp [hP, hP.toBears, hs]

@[simp] theorem execUnplane_keeps {m : Bool} {pm1 : BitVec 5} {d a b : Spec} : Keeps P (execUnplane m pm1 d a b s) := by
  refine State.keeps_issue hP.toBears hs fun st => ?_
  refine Got.on_act (by simp [hP, hP.toBears, hs]) fun v s hs => ?_
  simp [hP, hP.toBears, hs]

@[simp] theorem execSrnd_keeps {m : Bool} {t : BitVec 4} {d a : Spec} : Keeps P (execSrnd m t d a s) := by
  refine State.keeps_issue hP.toBears hs fun st => ?_
  simp [hP, hP.toBears, hs]

theorem State.keeps_matrix {m : Bool} {u : Uses} {body : Strand → State → Act} (hb : ∀ st s, s.On P → (body st s).On P) :
    Keeps P (s.matrix m u body) := by
  refine State.keeps_issue hP.toBears hs fun st => ?_
  dsimp only
  split
  · simp
  · exact hb _ _ (State.on_modTile hP.toBears hs)

@[simp] theorem State.on_modEngine {f : Matrix → Matrix} : (s.modEngine f).On P := by
  simp [State.modEngine, hP, hP.toBears, hs]

@[simp] theorem State.keeps_setRec {m : Bool} {k : Nat} {a b : Spec} : Keeps P (s.setRec m k a b) := by
  refine State.keeps_issue hP.toBears hs fun st => ?_
  dsimp only
  split <;> simp [hP, hP.toBears, hs]

@[simp] theorem execMmul_keeps {m : Bool} : Keeps P (execMmul m s) := by
  refine State.keeps_issue hP.toBears hs fun st => ?_
  dsimp only
  (repeat' split) <;> simp [hP, hP.toBears, hs]

@[simp] theorem State.on_arriveRow {m : Bool} {phys : Nat} {gang : Bool} : (s.arriveRow m phys gang).On P :=
  State.on_modStrand hP.toBears (State.on_completeRBar hP.toBears (State.on_modRow hP.toBears (State.on_modStrand hP.toBears hs)))

@[simp] theorem execMgang_keeps {m : Bool} {k : BitVec 3} : Keeps P (execMgang m k s) := by
  refine State.keeps_matrix hP hs fun st s hs => ?_
  (repeat' split) <;> simp [hP, hs]

@[simp] theorem execMzero_keeps {m : Bool} {a : Spec} : Keeps P (execMzero m a s) := by
  refine State.keeps_issue hP.toBears hs fun st => ?_
  dsimp only
  (repeat' split) <;> simp [hP, hP.toBears, hs]

@[simp] theorem execMwr_keeps {m : Bool} {a b : Spec} : Keeps P (execMwr m a b s) := by
  refine State.keeps_issue hP.toBears hs fun st => ?_
  dsimp only
  (repeat' split) <;> simp [hP, hP.toBears, hs]

@[simp] theorem State.on_finishVec {id : Nat} {v : V128} : (s.finishVec id v).On P := by
  unfold State.finishVec
  split <;> simp [hP, hP.toBears, hs]

@[simp] theorem State.on_sendValue {x : SlotId} {st : Strand} {d : Dest} {acq : Bool} {v : V128} : (s.sendValue x st d acq v).On P := by
  unfold State.sendValue
  dsimp only
  split <;> simp [hP, hP.toBears, hs]

@[simp] theorem State.keeps_mrd {m : Bool} {form : Nat} {d a : Spec} : Keeps P (s.mrd m form d a) := by
  unfold State.mrd
  extract_lets was
  refine State.keeps_matrix hP hs fun st t ht => ?_
  dsimp only
  split
  · simp
  · split
    · simp [was, hs]
    · split
      · simp [hP, ht]
      · rw [Act.on_ok]
        exact State.on_modEngine hP (State.on_send hP.toBears ht)

@[simp] theorem State.on_applyBlock {rows : List (List Int × Nat)} {t : Nat} {op : MatOp} {b : Nat} : (s.applyBlock rows t op b).On P := by
  simp [State.applyBlock, hP, hP.toBears, hs]

@[simp] theorem State.on_logMatrix {t : Nat} {cls : BitVec 2} {src : BitVec 8} {addr : Word} : (s.logMatrix t cls src addr).On P := by
  simp [State.logMatrix, hP, hP.toBears, hs]

@[simp] theorem State.on_takeRow {t : Nat} {m : Matrix} {r : MatRead} : (s.takeRow t m r).On P := by
  unfold State.takeRow
  split
  · split
    · exact hs
    · exact State.on_deliver hP.toBears (State.on_dropLong hP.toBears (State.on_free hP.toBears (State.on_logMatrix hP hs)))
  · simp [hP, hs]

@[simp] theorem State.on_endOp {t : Nat} : (s.endOp t).On P :=
  State.on_modTile hP.toBears (State.On.foldl (fun s r hs => by simp [hP, hs]) _ (State.on_modTile hP.toBears hs))

@[simp] theorem State.on_deliverOwner {t : Nat} {code : Nat} {detail : Word} : (s.deliverOwner t code detail).On P := by
  unfold State.deliverOwner
  split <;> simp [hP, hP.toBears, hs]

@[simp] theorem execMatrixOpStart_keeps {tile : Nat} : Keeps P (execMatrixOpStart tile s) :=
  Keeps.next (State.on_modTile hP.toBears hs)

@[simp] theorem State.on_readBlocks {ms : List (Nat × MatOp)} {b : Nat} : (s.readBlocks ms b).On P :=
  State.On.foldl (fun s p hs => State.On.foldl (fun s r hs => by simp [hP, hP.toBears, hs]) _ hs) _ hs

@[simp] theorem State.on_failOp {ms : List (Nat × MatOp)} {t : Nat} {src : BitVec 8} {addr : Word} : (s.failOp ms t src addr).On P :=
  State.On.foldl (fun _ _ hs => State.on_endOp hP (State.on_deliverOwner hP (State.on_free hP.toBears hs))) _ (State.on_logMatrix hP hs)

theorem State.on_blockPasses {ms : List (Nat × MatOp)} {rows : List (List Int × Nat)} {b c : Nat} :
    (ms.foldl (fun s p =>
      let s := s.applyBlock rows p.1 p.2 b
      let lid := (((s.matOwner p.1).bind s.strand?).map (·.lid)).getD 0
      let s := s.countWork p.1 lid ((rows.length + 15) / 16 * c) 0
      if b + 1 < dNb (p.2.recs.getD 0 Rec.initial).desc then
        s.modTile p.1 fun t => { t with mat := { t.mat with mprog := b + 1 } }
      else s.endOp p.1) s).On P :=
  State.On.foldl (fun s p hs => by
    extract_lets t lid u
    have counted : u.On P := State.on_countWork hP.toBears (State.on_applyBlock hP hs)
    split <;> simp [hP, hP.toBears, counted]) _ hs

@[simp] theorem execMatrixBlockApply_keeps {tile : Nat} {err : ErrKind} : Keeps P (execMatrixBlockApply tile err s) := by
  refine Keeps.next ?_
  split
  · exact hs
  · split
    · extract_lets ms b height u
      have read : u.On P := State.on_readBlocks hP hs
      split
      · simp [hP, read]
      · split
        · exact State.On.foldl (fun s p hs => by simp [hP, hs]) _ read
        · split
          · simp [hP, read]
          · have freed : (if err = .ok then ((0 : Word), u) else u.free).2.On P := by split <;> simp [hP.toBears, read]
            generalize (if err = .ok then ((0 : Word), u) else u.free) = q at freed
            obtain ⟨a, v⟩ := q
            dsimp only
            split
            · simp [hP, freed]
            · exact State.on_blockPasses hP (by split <;> simp [hP, freed])
    · exact hs

end
end Sys2Proof.Machine
end

section
/-!
PROOF. What cells, tasks, waves and strands keep: each keeps a property that bears every write.
-/

namespace Sys2Proof.Machine

set_option Elab.async false

section
set_option linter.unusedSectionVars false
set_option linter.unusedSimpArgs false
variable {P : Parts → Prop} (hP : Parts.Written P) {s : State} (hs : s.On P)
include hP hs

@[simp] theorem State.on_cellNumber {st : Strand} {a : Word} : (s.cellNumber st a).On P := by
  unfold State.cellNumber
  dsimp only
  (repeat' split) <;> simp [hP, hP.toBears, hs]

@[simp] theorem State.on_theCell {c : Nat} : (s.theCell c).On P := by
  unfold State.theCell
  split <;> simp [hP, hP.toBears, hs]

@[simp] theorem State.on_namedCell {st : Strand} {a : Word} : (s.namedCell st a).On P := by
  unfold State.namedCell
  refine Got.on_bind (by simp [hP, hP.toBears, hs]) fun v s hs => ?_
  simp [hP, hP.toBears, hs]

@[simp] theorem State.on_sheetNumber {st : Strand} {a : Word} : (s.sheetNumber st a).On P := by
  unfold State.sheetNumber
  dsimp only
  (repeat' split) <;> simp [hP, hP.toBears, hs]

@[simp] theorem State.on_theSheet {n : Nat} : (s.theSheet n).On P := by
  unfold State.theSheet
  split <;> simp [hP, hP.toBears, hs]

@[simp] theorem State.on_namedSheet {st : Strand} {a : Word} : (s.namedSheet st a).On P := by
  unfold State.namedSheet
  refine Got.on_bind (by simp [hP, hP.toBears, hs]) fun v s hs => ?_
  simp [hP, hP.toBears, hs]

@[simp] theorem State.on_recordPart {x : SlotId} {st : Strand} {ea : Word} {n : Nat} : (s.recordPart x st ea n).On P := by
  unfold State.recordPart
  split
  · simp [hs]
  · simp
  · split
    · simp [hs]
    · dsimp only
      split
      · simp [hP.toBears, hs]
      · rw [Got.on_got]
        exact State.on_noteSeen hP.toBears (State.on_foldFor hP hs)

@[simp] theorem State.on_releaseCells {st : Strand} : (s.releaseCells st).On P := by
  simp [State.releaseCells, hP, hP.toBears, hs]

@[simp] theorem State.on_dropLags {within : Nat → Bool} {who : Nat → Bool} : (s.dropLags within who).On P := by
  simp [State.dropLags, hP, hP.toBears, hs]

@[simp] theorem State.on_recordParts {x : SlotId} {st : Strand} {ea : Word} {n k : Nat} : (s.recordParts x st ea n k).On P := by
  induction k generalizing s with
  | zero => simp [State.recordParts, hs]
  | succ k ih => exact Got.on_bind (ih hs) fun vs s hs => Got.on_bind (State.on_recordPart hP hs) fun v s hs => by simp [hs]

@[simp] theorem State.on_fixVersion {n : Nat} : (s.fixVersion n).On P := by
  unfold State.fixVersion
  split
  · exact hs
  · extract_lets u
    have filled : u.On P := State.on_vaFill hP.toBears hs
    split
    · exact filled
    · exact State.on_dropLags hP (State.On.foldl (fun _ _ hs => State.on_store hP hs) _ filled)

@[simp] theorem State.on_askSluice {n : Nat} {o : SluiceOp} : (s.askSluice n o).On P := by
  simp [State.askSluice, hP, hP.toBears, hs]

@[simp] theorem execCbind_keeps {m : Bool} {a b : Spec} : Keeps P (execCbind m a b s) := by
  refine State.keeps_issue hP.toBears hs fun st => ?_
  dsimp only
  split
  · simp [hs]
  · refine Got.on_act (by simp [hP, hs]) fun c s hs => ?_
    split
    · simp
    · refine Got.on_act (by simp [hP, hs]) fun w s hs => ?_
      refine Got.on_act (by simp [hP, hs]) fun ps s hs => ?_
      exact Got.on_act (by simp [hP, hs]) fun c s hs => by simp [hP, hs]

@[simp] theorem execCunbind_keeps {m : Bool} {a : Spec} : Keeps P (execCunbind m a s) := by
  refine State.keeps_issue hP.toBears hs fun st => ?_
  split
  · simp [hs]
  · exact Got.on_act (by simp [hP, hs]) fun c s hs => by simp [hP, hs]

@[simp] theorem State.on_sendResult {st : Strand} {d : Spec} {acq : Bool} : (s.sendResult st d acq).2.On P := by
  simp [State.sendResult, hP, hP.toBears, hs]

@[simp] theorem State.on_sendWord {st : Strand} {d : Spec} {acq : Bool} {v : Word} : (s.sendWord st d acq v).On P := by
  simp [State.sendWord, hP, hP.toBears, hs]

-- OTHER State.answered {st : Strand} {d : Spec} {c : Cell} {opens : Bool} {gen : Option Nat} : Answer → Act

@[simp] theorem State.on_answered {st : Strand} {d : Spec} {c : Cell} {opens : Bool} {gen : Option Nat} {r : Answer} :
    (s.answered st d c opens gen r).On P := by
  cases r with
  | refuse code => simp [State.answered]
  | give c' v => simp [State.answered, hP, hP.toBears, hs]
  | wait =>
    have sent : (s.sendResult st d (!opens)).2.On P := State.on_sendResult hP hs
    simp [State.answered, sent]

@[simp] theorem execCwopen_keeps {m : Bool} {d a : Spec} : Keeps P (execCwopen m d a s) :=
  State.keeps_issue hP.toBears hs fun _ => Got.on_act (by simp [hP, hs]) fun c s hs => State.on_answered hP hs

@[simp] theorem execCcommit_keeps {m : Bool} {d a b : Spec} : Keeps P (execCcommit m d a b s) := by
  refine State.keeps_issue hP.toBears hs fun st => ?_
  dsimp only
  split
  · simp [hs]
  · refine Got.on_act (by simp [hP, hs]) fun n s hs => ?_
    split
    · simp
    · split
      · simp [hs]
      · refine Got.on_act (by simp [hP, hs]) fun w s hs => ?_
        refine Got.on_act (by simp [hP, hs]) fun cs s hs => ?_
        refine Got.on_act (by simp [hP, hs]) fun sh s hs => ?_
        split
        · simp
        · rw [Act.on_hold]
          exact State.on_askSluice hP (State.on_releaseCells hP (State.on_sendResult hP hs))

@[simp] theorem execCdone_keeps {m : Bool} {a : Spec} : Keeps P (execCdone m a s) := by
  refine State.keeps_issue hP.toBears hs fun st => Got.on_act (by simp [hP, hs]) fun c s hs => ?_
  dsimp only
  split
  · simp
  · split
    · simp [hs]
    · rw [Act.on_ok]
      exact State.on_modSheet hP.toBears (State.on_upd hP (State.on_releaseCells hP hs))

@[simp] theorem State.on_txGen {st : Strand} {n : Nat} : (s.txGen st n).On P := by
  unfold State.txGen
  split
  · simp [hs]
  · exact Got.on_bind (by simp [hP.toBears, hs]) fun _ s hs => by simp [hP, hs]

@[simp] theorem State.on_cpinTx {st : Strand} {d : Spec} {c : Cell} : (s.cpinTx st d c).On P := by
  refine Got.on_act (State.on_txGen hP hs) fun g s hs => Got.on_act (State.on_addRead hP.toBears hs) fun _ s hs => ?_
  split
  · split
    · simp
    · exact Got.on_act (by simp [hP.toBears, hs]) fun _ s hs => by simp [hP, hs]
  · split
    · simp
    · have sent : (s.send s.cur st .wrongBit ⟨thisDev, 0⟩ (some ⟨false, d⟩) 0 false true none).On P := State.on_send hP.toBears hs
      rw [Act.on_ok, State.on_mk]
      exact sent

@[simp] theorem execCpin_keeps {m : Bool} {d a : Spec} : Keeps P (execCpin m d a s) := by
  refine State.keeps_issue hP.toBears hs fun st => ?_
  dsimp only
  split
  · simp [hP.toBears, hs]
  · refine Got.on_act (by simp [hP, hs]) fun c s hs => ?_
    split <;> simp [hP, hs]

@[simp] theorem execCunpin_keeps {m : Bool} {a b : Spec} : Keeps P (execCunpin m a b s) := by
  refine State.keeps_issue hP.toBears hs fun st => Got.on_act (by simp [hP, hs]) fun c s hs => ?_
  split
  · simp [hs]
  · simp
  · refine Got.on_act (by simp [hP, hs]) fun c s hs => ?_
    dsimp only
    (repeat' split) <;> simp [hP.toBears, hs]

@[simp] theorem execCgen_keeps {m : Bool} {d a : Spec} : Keeps P (execCgen m d a s) := by
  refine State.keeps_issue hP.toBears hs fun st => ?_
  split
  · simp [hP.toBears, hs]
  · refine Got.on_act (by simp [hP, hs]) fun sh s hs => ?_
    split
    · exact Got.on_act (by simp [hP, hs]) fun _ s hs => by simp [hP, hs]
    · simp [hP, hs]

@[simp] theorem execCstat_keeps {m : Bool} {d a : Spec} : Keeps P (execCstat m d a s) := by
  refine State.keeps_issue hP.toBears hs fun st => ?_
  split
  · simp [hP.toBears, hs]
  · refine Got.on_act (by simp [hP, hs]) fun c s hs => ?_
    split
    · refine Got.on_act (by simp [hP, hs]) fun _ s hs => ?_
      exact Got.on_act (by simp [hP.toBears, hs]) fun _ s hs => by simp [hP, hs]
    · simp [hP, hs]

@[simp] theorem State.on_answerAt {a : Asker} {f : Strand → Strand} : (s.answerAt a f).On P := by
  simp [State.answerAt, hP, hP.toBears, hs]

@[simp] theorem execEditAccept_keeps {sheet : Nat} : Keeps P (execEditAccept sheet s) := by
  refine Keeps.next ?_
  split
  · exact hs
  · split
    · next form c nform who cmd bad r _ =>
      extract_lets u
      have begun : u.On P := State.on_modSheet hP.toBears hs
      split
      · extract_lets v
        have answered : v.On P := by
          unfold v
          cases who <;> simp [hP, begun]
        cases cmd <;> simp [hP, answered]
      · rename_i input gone idle v w _ _
        have edited : v.On P := by
          unfold v
          split <;> simp [hP.toBears, begun]
        have answered : w.On P := by
          unfold w
          cases who <;> simp [hP, edited]
        cases cmd <;> simp [hP, answered]
    · exact hs

@[simp] theorem State.on_publishBatch {n : Nat} {batch : List Nat} : (s.publishBatch n batch).1.On P := by
  have hB := hP.toBears
  unfold State.publishBatch
  split
  · exact hs
  · next sh _ =>
    have opened : (batch.foldl (fun s c => (s.modCell c fun x => { x.publish (sh.gen + 1) with opened := false }).pinStream c) s).On P :=
      State.On.foldl (fun _ _ hs => State.on_pinStream hB (State.on_modCell hB hs)) _ hs
    have edited : (sh.edits.foldl (fun (s : State) e => s.applyEdit (sh.gen + 1) e) _).On P := State.On.foldl (fun _ _ hs => State.on_applyEdit hB hs) _ opened
    have marked (l : List Nat) := State.On.foldl (f := fun s c => s.markStale (sh.gen + 1) c) (fun _ _ hs => State.on_markStale hB hs) l
      (State.on_rerank hB (State.on_modEdits hB edited (n := n) (f := fun _ => [])) (n := n))
    exact State.on_settle hB (State.on_modGens hB (marked _))

@[simp] theorem execPublicationStep_keeps {sheet : Nat} : Keeps P (execPublicationStep sheet s) := by
  refine Keeps.next ?_
  split
  · exact hs
  · split
    · next cs who acc cmd r _ =>
      split
      · exact hs
      · have begun : (s.modSheet sheet fun sh => { sh with ops := r }).On P := State.on_modSheet hP.toBears hs
        generalize (s.modSheet sheet fun sh => { sh with ops := r }) = u at begun
        have fixed : (cs.foldl (fun (s : State) c => s.fixVersion c) u).On P := State.On.foldl (fun s c hs => by simp [hP, hs]) _ begun
        have published : ((cs.foldl (fun (s : State) c => s.fixVersion c) u).publishBatch sheet cs).1.On P := State.on_publishBatch hP fixed
        dsimp only
        generalize (cs.foldl (fun (s : State) c => s.fixVersion c) u).publishBatch sheet cs = q at published ⊢
        obtain ⟨t, h⟩ := q
        generalize (acc.bind fun id => u.flight.find? fun (a : Access) => a.id = id) = asks
        dsimp only
        have dropped (a : Access) : (u.dropAccess a).On P := State.on_dropAccess hP.toBears begun
        have served (a : Access) (v : V128) : (t.performed a v).On P := State.on_performed hP.toBears published
        cases asks <;> cases who <;> cases cmd <;> split <;> simp_all
    · exact hs

@[simp] theorem State.on_taskLane {lid : Nat} : (s.taskLane lid).2.On P := by
  simp [State.taskLane, hP, hP.toBears, hs]

@[simp] theorem execTaskRelease_keeps {sheet cell : Nat} : Keeps P (execTaskRelease sheet cell s) := by
  refine Keeps.next ?_
  split
  · exact hs
  · split
    · exact hs
    · dsimp only
      split
      · exact hs
      · split
        · simp [hP.toBears, hs]
        · split
          · exact hs
          · exact State.on_modTile hP.toBears (State.on_taskLane hP (State.on_modSheet hP.toBears hs))

@[simp] theorem execFormulaPublish_keeps {sheet : Nat} : Keeps P (execFormulaPublish sheet s) := by
  unfold execFormulaPublish
  (repeat' split) <;> simp [hP, hP.toBears, hs]

@[simp] theorem State.on_waveLanes {lid n : Nat} : (s.waveLanes lid n).2.On P := by
  simp [State.waveLanes, hP, hP.toBears, hs]

@[simp] theorem State.on_seat {lid : Nat} {x : SlotId} {task : Bool} {rank stackBot lane : Nat} {wave : Option Nat} {f : Regs → Regs} : (s.seat lid x task rank stackBot lane wave f).On P := by
  unfold State.seat
  dsimp only
  split <;> simp [hP, hP.toBears, hs]

@[simp] theorem State.on_giveRings {t : Nat} {rs : List (Nat × Ring)} : (s.giveRings t rs).On P :=
  State.On.foldl (fun _ _ hs => State.on_modTile hP.toBears (State.on_putRing hP.toBears hs)) _ hs

@[simp] theorem State.on_settleOn {l : Launch} {k : TilePlace} : (s.settleOn l k).On P := by
  unfold State.settleOn
  split <;> simp [hP, hP.toBears, hs]

@[simp] theorem State.on_giveBars {q : WaveReq} {ms : List SlotId} {bars : List Nat} : (s.giveBars q ms bars).On P := by
  unfold State.giveBars
  dsimp only
  split
  · simp [hP.toBears, hs]
  · exact State.On.foldl (fun s i hs => by simp [hP.toBears, hs]) _ hs

@[simp] theorem execWavePlace_keeps {req : Nat} {place : Placement} : Keeps P (execWavePlace req place s) := by
  refine Keeps.next ?_
  split
  · exact hs
  · next q _ =>
    split
    · exact hs
    · next l _ =>
      split
      · extract_lets ms u v bars w
        have settled : u.On P := State.On.foldl (fun s k hs => by split <;> simp [hP, hs]) _ hs
        have seated : v.On P := State.On.foldl (fun s p hs => by simp [hP, hs]) _ settled
        have barred : w.On P := State.on_giveBars hP seated
        simp [barred]
      · exact hs

@[simp] theorem State.on_pushTask {t : Nat} {k : Task} : (s.pushTask t k).On P := by
  simp [State.pushTask, hP, hP.toBears, hs]

@[simp] theorem State.on_takeCell {k : Task} : (s.takeCell k).On P := by
  unfold State.takeCell
  (repeat' split) <;> simp [hP, hP.toBears, hs]

theorem State.on_returned {ws : List (Nat × Byte)} {bits : List (Nat × Nat)} {g : Nat → Bool} {base off : Nat} :
    Holds P (ws.foldl (fun m p => memSet m (base + p.1) p.2) s.mem)
      (bits.foldl (fun f p => if g p.2 then natInsert f (off + p.1) else f.filter (· != off + p.1)) s.full)
      s.checkpoints s.ctl s.spills s.fusedRows s.fusedCols s.devno := by
  have words (p : Parts) (hp : P p) : P { p with mem := ws.foldl (fun m p => memSet m (base + p.1) p.2) p.mem } := by
    induction ws generalizing p with
    | nil => exact hp
    | cons a r ih => exact ih _ (hP.sets p _ _ hp)
  have filled (p : Parts) (hp : P p) :
      P { p with full := bits.foldl (fun f p => if g p.2 then natInsert f (off + p.1) else f.filter (· != off + p.1)) p.full } := by
    induction bits generalizing p with
    | nil => exact hp
    | cons a r ih =>
      rw [List.foldl_cons]
      split
      · exact ih _ (hP.fills p _ hp)
      · exact ih _ (hP.empties p _ hp)
  exact filled _ (words _ hs)

@[simp] theorem State.on_giveBack {e : Evicted} : (s.giveBack e).On P := by
  unfold State.giveBack
  extract_lets b as ws bs bits lines u v
  have back : u.On P := by
    rw [State.on_mk]
    exact State.on_returned hP hs (g := fun i => (bits.getD (i / 8) 0).getLsbD (i % 8))
  have given : v.On P := State.on_giveRings hP (State.on_modTile hP.toBears back)
  simp [given]

@[simp] theorem State.on_backFor {t lid : Nat} : (s.backFor t lid).On P := by
  unfold State.backFor
  (repeat' split) <;> simp [hP, hP.toBears, hs]

-- OTHER State.takeTask {x : SlotId} {l : Launch} {k : Task} {stackBot : Nat} : Option State

-- OTHER State.takeAtTurn {x : SlotId} : Option State

theorem State.on_takeTask {x : SlotId} {l : Launch} {k : Task} {stackBot : Nat} {t : State} (h : s.takeTask x l k stackBot = some t) : t.On P := by
  have back : (s.backFor x.tile l.lid).On P := State.on_backFor hP hs
  unfold State.takeTask at h
  dsimp only at h
  split at h
  · cases h
    exact State.on_takeCell hP (State.on_seat hP (State.on_modTile hP.toBears back))
  · cases h

theorem State.on_takeAtTurn {x : SlotId} {t : State} (h : s.takeAtTurn x = some t) : t.On P := by
  unfold State.takeAtTurn at h
  obtain ⟨p, _, h⟩ := Option.bind_eq_some_iff.mp h
  obtain ⟨a, _, h⟩ := Option.bind_eq_some_iff.mp h
  exact State.on_takeTask hP (State.on_free hP.toBears (State.on_backFor hP hs)) h

@[simp] theorem execDequeTake_keeps {who : SlotId} {stackBot : Nat} : Keeps P (execDequeTake who stackBot s) := by
  refine Keeps.next ?_
  cases h : (s.taskFor who).bind fun p => s.takeTask who p.1 p.2 stackBot with
  | none => exact hs
  | some t =>
    obtain ⟨p, _, h⟩ := Option.bind_eq_some_iff.mp h
    exact State.on_takeTask hP hs h

@[simp] theorem execDequeOverflowMove_keeps {tile : Nat} : Keeps P (execDequeOverflowMove tile s) := by
  unfold execDequeOverflowMove
  split <;> simp [hP, hP.toBears, hs]

@[simp] theorem execContinuationArrive_keeps {idx : Nat} : Keeps P (execContinuationArrive idx s) := by
  unfold execContinuationArrive
  dsimp only
  (repeat' split) <;> simp [hP, hP.toBears, hs]

@[simp] theorem State.on_exitNow {st : Strand} {h : Hold} : (s.exitNow st h).On P := by
  unfold State.exitNow
  split <;> simp [hP, hP.toBears, hs]

@[simp] theorem execExit_keeps {m : Bool} : Keeps P (execExit m s) := by
  refine State.keeps_issue hP.toBears hs fun st => ?_
  simp [hP, hP.toBears, hs]

@[simp] theorem execFork_keeps {m : Bool} {disp : BitVec 18} : Keeps P (execFork m disp s) := by
  refine State.keeps_issue hP.toBears hs fun st => ?_
  dsimp only
  split <;> simp [hP, hP.toBears, hs]

@[simp] theorem execJoin_keeps {m : Bool} {a : Spec} : Keeps P (execJoin m a s) := by
  refine State.keeps_issue hP.toBears hs fun st => ?_
  split
  · simp [hP, hs]
  · dsimp only
    (repeat' split) <;> simp [hP, hP.toBears, hs]
  · exact Got.on_act (by simp [hP.toBears, hs]) fun p s hs => by simp [hP.toBears, hs]

@[simp] theorem execMig_keeps {m : Bool} {row : BitVec 8} {col : BitVec 4} {a : Spec} : Keeps P (execMig m row col a s) := by
  refine State.keeps_issue hP.toBears hs fun st => ?_
  dsimp only
  (repeat' split) <;> simp [hP, hP.toBears, hs]

@[simp] theorem execGang_keeps {m : Bool} {a : Spec} : Keeps P (execGang m a s) := by
  refine State.keeps_issue hP.toBears hs fun st => ?_
  dsimp only
  split
  · simp
  · refine Got.on_act (by simp [hP, hs]) fun w s hs => ?_
    have laned (n : Nat) : (s.waveLanes st.lid n).2.On P := State.on_waveLanes hP hs
    split <;> simp [laned]

@[simp] theorem State.on_barFault {st : Strand} {row : Bool} : (s.barFault st row).On P := by
  unfold State.barFault
  simp [hP, hP.toBears, hs]

@[simp] theorem execBarTile_keeps {m : Bool} {k : BitVec 2} : Keeps P (execBarTile m k s) := by
  refine State.keeps_issue hP.toBears hs fun st => ?_
  split
  · simp [hP, hs]
  · split
    · simp [hs]
    · rw [Act.on_placed]
      exact State.on_modStrand hP.toBears (State.on_completeTBar hP.toBears (State.on_setTBar hP.toBears (State.on_modStrand hP.toBears hs)))

@[simp] theorem execBarRow_keeps {m : Bool} {k : BitVec 3} : Keeps P (execBarRow m k s) := by
  refine State.keeps_issue hP.toBears hs fun st => ?_
  (repeat' split) <;> simp [hP, hP.toBears, hs]

@[simp] theorem execYield_keeps {m : Bool} : Keeps P (execYield m s) := by
  refine State.keeps_issue hP.toBears hs fun st => ?_
  dsimp only
  split
  · rw [Act.on_placed]
    exact State.on_upd hP (State.on_preempt hP.toBears (State.on_upd hP hs))
  · simp [hs]

end
end Sys2Proof.Machine
end

section
/-!
PROOF. What placement and pre-emption, and the network keep: each keeps a property that bears every write.
-/

namespace Sys2Proof.Machine

set_option Elab.async false

section
set_option linter.unusedSectionVars false
set_option linter.unusedSimpArgs false
variable {P : Parts → Prop} (hP : Parts.Written P) {s : State} (hs : s.On P)
include hP hs

@[simp] theorem State.on_requestPreempt {x : SlotId} : (s.requestPreempt x).On P := by
  unfold State.requestPreempt
  (repeat' split) <;> simp [hP, hP.toBears, hs]

theorem State.on_requestPreempts {ms : List SlotId} : (ms.foldl (fun s y => s.requestPreempt y) s).On P :=
  State.On.foldl (fun s y hs => by simp [hP, hs]) _ hs

@[simp] theorem execPreemption_keeps {who : SlotId} : Keeps P (execPreemption who s) := by
  refine Keeps.next ?_
  split
  · exact hs
  · dsimp only
    split
    · simp [hP.toBears, hs]
    · split
      · exact State.on_requestPreempts hP hs
      · exact hs

@[simp] theorem execSpill_keeps {who : SlotId} {base : Nat} : Keeps P (execSpill who base s) := by
  refine Keeps.next ?_
  split
  · exact hs
  · extract_lets t owner n
    split
    · exact hs
    · rename_i p u _ v w _
      have saved : w.On P := State.on_putBytes hP (State.on_modTile hP.toBears (State.on_dropStrand hP.toBears (State.on_dropWeir hP.toBears hs)))
      rw [State.on_mk]
      exact State.on_blocks hP saved

@[simp] theorem State.on_waveBack {w : Option Nat} : (s.waveBack w).On P := by
  unfold State.waveBack
  (repeat' split) <;> simp [hP, hP.toBears, hs]

@[simp] theorem execRestore_keeps {who : SlotId} {uid : Nat} : Keeps P (execRestore who uid s) := by
  refine Keeps.next ?_
  split
  · split <;> simp [hP.toBears, hs]
  · split
    · exact hs
    · next p _ =>
      dsimp only
      split
      · exact hs
      · have seated := State.on_setStrand hP.toBears (State.on_backFor hP hs (t := who.tile) (lid := p.strand.lid)) (x := who)
          (st := ((s.backFor who.tile p.strand.lid).blockNow p).strand)
        refine State.on_waveBack hP ?_
        rw [State.on_mk]
        refine State.on_filterSpills hP.toBears ?_
        split
        · exact State.on_modTile hP.toBears seated
        · exact seated

@[simp] theorem execRestoreDeadline_keeps {tile waveId : Nat} : Keeps P (execRestoreDeadline tile waveId s) := by
  unfold execRestoreDeadline
  refine Keeps.next ?_
  split <;> exact State.on_requestPreempts hP hs

@[simp] theorem execLaunchEvict_keeps {tile : Nat} {ev : Eviction} : Keeps P (execLaunchEvict tile ev s) := by
  unfold execLaunchEvict
  refine Keeps.next ?_
  split
  · exact hs
  · dsimp only
    split
    · exact hs
    · rw [State.on_mk]
      exact State.on_modTile hP.toBears (State.on_putBytes hP hs)

@[simp] theorem execLoadExchange_keeps {src dst : Nat} {kind : Core} : Keeps P (execLoadExchange src dst kind s) := by
  unfold execLoadExchange
  refine Keeps.next ?_
  split
  · refine State.On.foldl (fun s k hs => ?_) _ hs
    dsimp only
    split
    · exact State.on_modTile hP.toBears (State.on_modTile hP.toBears hs)
    · exact State.on_pushTask hP (State.on_modTile hP.toBears hs)
  · exact hs

@[simp] theorem execClassWindow_keeps {tile : Nat} : Keeps P (execClassWindow tile s) := by
  unfold execClassWindow
  refine Keeps.next (State.on_modTile hP.toBears (State.On.foldl (fun s r hs => ?_) _ hs))
  simp [hs]

@[simp] theorem State.on_dropGroup {die group : Nat} : (s.dropGroup die group).On P := by
  simp [State.dropGroup, hP, hP.toBears, hs]

@[simp] theorem State.on_setGroup {g : RGroup} : (s.setGroup g).On P := by
  simp [State.setGroup, hP, hP.toBears, hs]

@[simp] theorem State.on_finishGroup {cmds : List Nat} {st : Word} : (s.finishGroup cmds st).On P :=
  State.On.foldl (fun s k hs => by simp [hP, hs]) _ hs

@[simp] theorem State.on_routerWrite {t off : Nat} {bs : List Byte} : (s.routerWrite t off bs).On P := by
  simp [State.routerWrite, hP, hP.toBears, hs]

@[simp] theorem State.on_groupStatus {w0 w1 st : Word} : (s.groupStatus w0 w1 st).On P := by
  unfold State.groupStatus
  split <;> simp [hP, hP.toBears, hs]

@[simp] theorem State.on_completeGroup {die group : Nat} {w0 w1 : Word} {v : V128} : (s.completeGroup die group w0 w1 v).On P := by
  unfold State.completeGroup
  refine State.on_dropGroup hP (State.on_finishGroup hP (State.on_groupStatus hP ?_))
  split <;> simp [hP, hs]

@[simp] theorem State.on_timeoutFault {dest : Nat} {o : Option Sender} {group : Nat} : (s.timeoutFault dest o group).On P := by
  unfold State.timeoutFault
  split <;> simp [hP, hP.toBears, hs]

@[simp] theorem State.on_noteCame {die : Nat} {p : Packet} {kept : Bool} : (s.noteCame die p kept).On P := by
  simp [State.noteCame, hP, hP.toBears, hs]

@[simp] theorem State.on_lateCame {p : Packet} {g : RGroup} : (s.lateCame p g).On P := by
  unfold State.lateCame
  dsimp only
  split <;> simp [hP, hP.toBears, hs]

@[simp] theorem State.on_payload {p : Packet} : (s.payload p).2.On P := by
  unfold State.payload
  dsimp only
  split <;> simp [hP, hP.toBears, hs]

@[simp] theorem State.on_joinRouter {die : Nat} {p : Packet} : (s.joinRouter die p).On P := by
  unfold State.joinRouter
  dsimp only
  split
  · simp [hP, hs]
  · have came : ((s.noteCame die p true).payload p).2.On P := State.on_payload hP (State.on_noteCame hP hs)
    generalize (s.noteCame die p true).payload p = q at came
    obtain ⟨x, t⟩ := q
    dsimp only at came ⊢
    split
    · split
      · simp [came]
      · split
        · simp [came]
        · exact State.on_completeGroup hP (by simp [came])
    · simp [came]

@[simp] theorem execRouterPacketArrive_keeps {idx : Nat} : Keeps P (execRouterPacketArrive idx s) := by
  unfold execRouterPacketArrive
  dsimp only
  (repeat' split) <;> simp [hP, hP.toBears, hs]

@[simp] theorem execRouterTimeout_keeps {die group router : Nat} : Keeps P (execRouterTimeout die group router s) := by
  refine Keeps.next ?_
  split
  · exact hs
  · next n _ =>
    extract_lets missing st g mine dest owner u v w
    have dropped : u.On P := State.on_dropGroup hP hs
    have failed : v.On P := by simp [v, dropped]
    have told : w.On P := State.on_finishGroup hP (State.on_groupStatus hP failed)
    clear_value owner dest
    cases dest <;> simp [hP, told]

@[simp] theorem State.on_forgetGroups {lid : Nat} : (s.forgetGroups lid).On P := by
  simp [State.forgetGroups, hP, hP.toBears, hs]

@[simp] theorem execNsendDeliver_keeps {idx : Nat} : Keeps P (execNsendDeliver idx s) := by
  refine Keeps.next ?_
  split
  · exact hs
  · dsimp only
    split
    · simp [hs]
    · split
      · exact hs
      · exact State.on_routerWrite hP (State.on_routerWrite hP (State.on_payload hP (by simp [hs])))

@[simp] theorem State.on_launchPacket {tile : Nat} {send : Bool} {w0 w1 : Word} {ty pay : Nat} {who : SlotId} {sid : Word} {uid lid : Nat} {cmd : Option Nat} : (s.launchPacket tile send w0 w1 ty pay who sid uid lid cmd).On P := by
  simp [State.launchPacket, hP, hP.toBears, hs]

@[simp] theorem State.keeps_router {m send : Bool} {ty : Nat} {a b : Spec} : Keeps P (s.router m send ty a b) := by
  refine State.keeps_issue hP.toBears hs fun st => ?_
  dsimp only
  split
  · simp
  · split
    · simp
    · split
      · simp
      · refine Got.on_act (by simp [hP, hs]) fun bs s hs => ?_
        (repeat' split) <;> simp [hP, hs]

end
end Sys2Proof.Machine
end

section
/-!
PROOF. What the serving engines and the commands of rings keep: each keeps a property that bears every write.
-/

namespace Sys2Proof.Machine

set_option Elab.async false

/-- What dispatch makes of a command keeps a property. -/
def CmdEnd.On (P : Parts → Prop) : CmdEnd → Prop
  | .waits => True
  | .refused s _ _ _ => s.On P
  | .done s _ => s.On P
  | .started s _ => s.On P

section
variable {P : Parts → Prop} {s : State}

theorem State.on_ite {c : Prop} [Decidable c] {t : State} (hs : s.On P) (ht : t.On P) : (if c then s else t).On P := by
  split
  · exact hs
  · exact ht

@[simp] theorem CmdEnd.on_waits : CmdEnd.waits.On P = True := by simp only [CmdEnd.On]
@[simp] theorem CmdEnd.on_refused {a b c : Nat} : (CmdEnd.refused s a b c).On P = s.On P := by simp only [CmdEnd.On]
@[simp] theorem CmdEnd.on_done {v : Nat} : (CmdEnd.done s v).On P = s.On P := by simp only [CmdEnd.On]
@[simp] theorem CmdEnd.on_started {l : Nat} : (CmdEnd.started s l).On P = s.On P := by simp only [CmdEnd.On]
theorem State.on_snd_ite {α : Type} {c : Prop} [Decidable c] {a b : α × State} (ha : a.2.On P) (hb : b.2.On P) : (if c then a else b).2.On P := by
  split
  · exact ha
  · exact hb

theorem CmdEnd.on_ite {c : Prop} [Decidable c] {a b : CmdEnd} (ha : a.On P) (hb : b.On P) : (if c then a else b).On P := by
  split
  · exact ha
  · exact hb

@[simp] theorem on_refusalOf {e : Nat × Word} : (refusalOf s e).On P = s.On P := by rw [refusalOf, CmdEnd.on_refused]

end

section
set_option linter.unusedSectionVars false
set_option linter.unusedSimpArgs false
variable {P : Parts → Prop} (hP : Parts.Written P) {s : State} (hs : s.On P)
include hP hs

@[simp] theorem State.on_vaTouch {v : Via} {va n : Nat} {kind : AccKind} : (s.vaTouch v va n kind).On P := by
  refine State.On.foldl (fun s q hs => ?_) _ hs
  have found : (s.engineLoc v.tile v.ptroot v.sup q.1 kind).2.On P := State.on_engineLoc hP.toBears hs
  split
  · next p t e =>
    rw [e] at found
    exact State.on_foldFor hP found
  · next t e =>
    rw [e] at found
    exact found

@[simp] theorem State.on_vaWrite {v : Via} {va cls : Nat} {bs : List Byte} : (s.vaWrite v va cls bs).On P := by
  induction bs generalizing s va with
  | nil => exact hs
  | cons b r ih =>
    refine ih ?_
    split <;> simp [hP, hs]

@[simp] theorem State.on_vaWord {v : Via} {va : Nat} {w : Word} {cls : Nat} : (s.vaWord v va w cls).On P := by
  have found : (s.engineLoc v.tile v.ptroot v.sup va .write).2.On P := State.on_engineLoc hP.toBears hs
  unfold State.vaWord
  split
  · next p t e =>
    rw [e] at found
    exact State.on_poke hP found
  · next t e =>
    rw [e] at found
    exact found

@[simp] theorem execSqMessageArrive_keeps {handle asid : BitVec 16} {msg : List Byte} : Keeps P (execSqMessageArrive handle asid msg s) := by
  refine Keeps.next ?_
  split
  · exact hs
  · next q _ =>
    extract_lets v
    split
    · exact hs
    · rename_i u _
      have came : u.On P := by simp [u, hs]
      have found : (u.engineLoc v.tile v.ptroot v.sup q.doorbell.toNat .rw).2.On P := State.on_engineLoc hP.toBears came
      split
      · next p t e =>
        rw [e] at found
        exact State.on_poke hP (State.on_foldFor hP found)
      · next t e =>
        rw [e] at found
        exact found

@[simp] theorem State.on_answerIntk {r : IntkReq} {v : Word} : (s.answerIntk r v).On P := by
  simp [State.answerIntk, hP, hP.toBears, hs]

@[simp] theorem State.on_refuseMsg {r : IntkReq} {reply : BitVec 16} {code slot : Nat} : (s.refuseMsg r reply code slot).On P := by
  unfold State.refuseMsg
  dsimp only
  split <;> simp [hP, hP.toBears, hs]

@[simp] theorem State.on_unpinCell {c : Nat} {b : Bool} : (s.unpinCell c b).On P := by
  unfold State.unpinCell
  split <;> simp [hP, hP.toBears, hs]

@[simp] theorem State.on_undoIntake {r : IntkReq} {j : IntkJob} : (s.undoIntake r j).On P := by
  simp [State.undoIntake, hP, hP.toBears, hs]

@[simp] theorem State.on_keepJob {r : IntkReq} {j : IntkJob} : (s.keepJob r j).On P := by
  simp [State.keepJob, hP, hP.toBears, hs]

@[simp] theorem State.on_fillPrompt {r : IntkReq} {j : IntkJob} {c : Cell} : (s.fillPrompt r j c).On P := by
  refine State.on_answerIntk hP (State.on_publishBatch hP (State.on_fixVersion hP ?_))
  rw [State.on_mk]
  exact State.on_vaWrite hP (State.on_vaTouch hP hs)

@[simp] theorem State.on_intakeCommit {r : IntkReq} {j : IntkJob} : (s.intakeCommit r j).On P := by
  have undone := State.on_undoIntake hP hs (r := r) (j := j)
  have freed : ((s.undoIntake r j).free.2.answerIntk r (s.undoIntake r j).free.1).On P := State.on_answerIntk hP (State.on_free hP.toBears undone)
  unfold State.intakeCommit
  dsimp only
  (repeat' split) <;> simp [hP, hs, undone, freed]

@[simp] theorem State.on_intakeIds {r : IntkReq} {j : IntkJob} {msg : List Byte} : (s.intakeIds r j msg).On P := by
  unfold State.intakeIds
  dsimp only
  split
  · next v p _ _ =>
    split
    · simp [hP, hs]
    · split
      · simp [hP, hs]
      · split
        · simp [hP, hs]
        · exact State.on_intakeCommit hP (State.on_vaWord hP (State.On.foldl (fun s w hs => by simp [hP, hs]) _ (State.on_putCell hP.toBears hs)))
  · simp [hP, hs]
  · simp [hP, hs]

@[simp] theorem State.on_intakeTake {r : IntkReq} : (s.intakeTake r).On P := by
  unfold State.intakeTake
  dsimp only
  (repeat' split) <;> simp [hP, hP.toBears, hs]

@[simp] theorem execIntake_keeps {idx : Nat} : Keeps P (execIntake idx s) := by
  unfold execIntake
  (repeat' split) <;> simp [hP, hP.toBears, hs]

@[simp] theorem execIntk_keeps {m : Bool} {d a : Spec} : Keeps P (execIntk m d a s) := by
  refine State.keeps_issue hP.toBears hs fun st => ?_
  simp [hP, hP.toBears, hs]

@[simp] theorem State.on_attach {st : Strand} {n : Nat} : (s.attach st n).2.On P := by
  have touched (v : Via) (a n : Nat) (k : AccKind) : (s.vaTouch v a n k).On P := State.on_vaTouch hP hs
  unfold State.attach
  split
  · exact hs
  · refine State.on_snd_ite hs (State.on_snd_ite hs (State.on_snd_ite (State.on_free hP.toBears hs) ?_))
    simp only []
    split
    · exact touched _ _ _ _
    · refine State.on_snd_ite (touched _ _ _ _) (State.on_snd_ite (touched _ _ _ _) ?_)
      rw [State.on_mk]
      exact State.on_putCell hP.toBears (touched _ _ _ _)

@[simp] theorem execOutf_keeps {m : Bool} {d a : Spec} : Keeps P (execOutf m d a s) := by
  refine State.keeps_issue hP.toBears hs fun st => ?_
  dsimp only
  split <;> simp [hP, hP.toBears, hs]

theorem State.on_unpinned {cell vbuf : Nat} :
    (match s.cell? cell with
      | some v => if v.buf0.toNat = vbuf then s.unpinCell cell false else if v.buf1.toNat = vbuf then s.unpinCell cell true else s
      | none => s).On P := by
  (repeat' split) <;> simp [hP, hs]

@[simp] theorem State.on_endOutfall {o : Outfall} {base : Nat} : (s.endOutfall o base).On P := by
  refine State.on_vaWord hP (State.On.foldl (fun s b hs => by simp [hP, hs]) _ ?_)
  rw [State.on_mk]
  exact State.on_unpinned hP hs

@[simp] theorem execOutfallVersion_keeps {cell : Nat} : Keeps P (execOutfallVersion cell s) := by
  refine Keeps.next ?_
  split
  · next o c _ _ =>
    split
    · exact hs
    · next b todo _ =>
      simp only []
      refine State.on_ite hs ?_
      have touched : (s.vaTouch o.via (c.buf b).toNat c.bytes .read).On P := State.on_vaTouch hP hs
      generalize s.vaTouch o.via (c.buf b).toNat c.bytes .read = u at touched ⊢
      refine State.on_ite (State.on_endOutfall hP (State.on_unpinCell hP ?_)) (State.on_unpinCell hP ?_)
      · rw [State.on_mk, State.holds_parts]
        exact State.on_ite touched (by simp [touched])
      · rw [State.on_mk, State.holds_parts]
        exact State.on_ite touched (by simp [touched])
  · exact hs

@[simp] theorem execRingReserve_keeps {n : Nat} : Keeps P (execRingReserve n s) := by
  unfold execRingReserve
  split <;> simp [hP, hP.toBears, hs]

@[simp] theorem execRingCommit_keeps {n : Nat} {t : BitVec 32} : Keeps P (execRingCommit n t s) := by
  unfold execRingCommit
  split <;> simp [hP, hP.toBears, hs]

@[simp] theorem execRcfgWrite_keeps {n : Nat} {v : Word} : Keeps P (execRcfgWrite n v s) := by
  unfold execRcfgWrite
  split <;> simp [hP, hP.toBears, hs]

@[simp] theorem execRerrClear_keeps {n : Nat} : Keeps P (execRerrClear n s) := by
  unfold execRerrClear
  dsimp only
  split <;> simp [hP, hP.toBears, hs]

@[simp] theorem State.on_serveRing {n : Nat} : (s.serveRing n).On P := by
  simp [State.serveRing, hP, hP.toBears, hs]

theorem State.on_dispatch {n : Nat} {sel : List Nat → Bool} {act : Cmd → State → CmdEnd} (ha : ∀ c s, s.On P → (act c s).On P) :
    (s.dispatch n sel act).On P := by
  unfold State.dispatch
  extract_lets r r' v s0
  generalize r.slots.find? _ = found
  cases found with
  | none => exact hs
  | some p =>
    dsimp -zeta only
    extract_lets w waits compl place u cid cmd src t
    refine State.on_ite hs (State.on_ite hs ?_)
    have filled : u.On P := by
      unfold u
      split <;> simp [hP.toBears, hs]
    clear_value u place
    have served (r : CmdRing) : ((u.serveRing n).putCmdRing r).On P := State.on_putCmdRing hP.toBears (State.on_serveRing hP filled)
    generalize (if compl = 0 then Except.ok none else place.map some) = where_
    cases where_ with
    | error e => exact served _
    | ok where_ =>
      dsimp -zeta only
      extract_lets note
      replace served : t.On P := by simp [t, src, served]
      clear_value t
      have acted := ha cmd t served
      have noted (q : State) (hq : q.On P) (res : Option Word) (lid : Nat) : (note q res lid).On P := by simp [note, hq]
      refine State.on_ite (noted _ served _ _) (State.on_ite (noted _ served _ _) ?_)
      generalize act cmd t = e at acted
      cases e with
      | waits => exact hs
      | refused q st c k => exact noted _ (by simpa using acted) _ _
      | done q v => exact noted _ (by simpa using acted) _ _
      | started q lid => exact noted _ (by simpa using acted) _ _

@[simp] theorem execNop_keeps {n : Nat} : Keeps P (execNop n s) :=
  Keeps.next (State.on_dispatch hP hs fun c s hs => by simp [hs])

@[simp] theorem State.on_startLaunch {c : Cmd} : (State.startLaunch c s).On P := by
  have touched (s : State) (hs : s.On P) (v : Via) (a n : Nat) (k : AccKind) : (s.vaTouch v a n k).On P := State.on_vaTouch hP hs
  unfold State.startLaunch
  generalize State.vaTouch = touch at touched ⊢
  have read (v : Via) (a b n m : Nat) (k : AccKind) : (touch (touch s v a n k) v b m k).On P := touched _ (touched _ hs _ _ _ _) _ _ _ _
  dsimp only
  (repeat' split) <;> simp [hs, read]

@[simp] theorem execLaunch_keeps {n : Nat} : Keeps P (execLaunch n s) :=
  Keeps.next (State.on_dispatch hP hs fun _ _ hs => State.on_startLaunch hP hs)

@[simp] theorem State.on_startCommit {c : Cmd} : (State.startCommit c s).On P := by
  have read (v : Via) (a b n m : Nat) (k : AccKind) : ((s.vaTouch v a n k).vaTouch v b m k).On P := State.on_vaTouch hP (State.on_vaTouch hP hs)
  unfold State.startCommit
  refine CmdEnd.on_ite (by simp) ?_
  simp only []
  split
  · simp [hP, hs]
  · refine CmdEnd.on_ite (by simp) ?_
    split
    · simp [read]
    · split
      · simp [read]
      · exact CmdEnd.on_ite (by simp [read]) (CmdEnd.on_ite (by simp [read]) (by simp [hP, read]))

@[simp] theorem execCommit_keeps {n : Nat} : Keeps P (execCommit n s) :=
  Keeps.next (State.on_dispatch hP hs fun _ _ hs => State.on_startCommit hP hs)

@[simp] theorem State.on_startBind {c : Cmd} : (State.startBind c s).On P := by
  have read (v : Via) (a b n m : Nat) (k : AccKind) : ((s.vaTouch v a n k).vaTouch v b m k).On P := State.on_vaTouch hP (State.on_vaTouch hP hs)
  unfold State.startBind
  simp only []
  split
  · simp [hs]
  · refine CmdEnd.on_ite (by simp) ?_
    split
    · simp [hP, hs]
    · refine CmdEnd.on_ite (by simp) ?_
      split
      · simp [read]
      · split
        · simp [read]
        · refine CmdEnd.on_ite (by simp [hP, read]) (CmdEnd.on_ite (by simp [read]) ?_)
          split <;> simp [hP, read]

@[simp] theorem execBind_keeps {n : Nat} : Keeps P (execBind n s) :=
  Keeps.next (State.on_dispatch hP hs fun _ _ hs => State.on_startBind hP hs)

@[simp] theorem execSheetnew_keeps {n : Nat} : Keeps P (execSheetnew n s) := by
  refine Keeps.next (State.on_dispatch hP hs fun c s hs => ?_)
  (repeat' split) <;> simp [hP.toBears, hs]

@[simp] theorem State.on_zeroRange {v : Via} {va len : Nat} : (s.zeroRange v va len).On P := State.on_vaWrite hP hs

@[simp] theorem execCellnew_keeps {n : Nat} : Keeps P (execCellnew n s) := by
  refine Keeps.next (State.on_dispatch hP hs fun c s hs => ?_)
  have touched (va vb n m : Nat) (v : Via) : ((s.vaTouch v va n .write).vaTouch v vb m .write).On P := State.on_vaTouch hP (State.on_vaTouch hP hs)
  dsimp only
  split
  · simp
  · split
    · simp [touched]
    · simp [touched]
    · split
      · simp [touched]
      · split
        · simp [touched]
        · split
          · simp [touched]
          · rw [CmdEnd.on_done]
            refine State.on_notifyLine hP.toBears ?_
            rw [State.on_mk]
            exact State.on_dropLags hP (State.on_zeroRange hP (State.on_zeroRange hP (touched _ _ _ _ _)))

@[simp] theorem execSheetend_keeps {n : Nat} : Keeps P (execSheetend n s) := by
  refine Keeps.next (State.on_dispatch hP hs fun c s hs => ?_)
  (repeat' split) <;> simp [hP.toBears, hs]

@[simp] theorem execSheetDestroy_keeps {sheet : Nat} : Keeps P (execSheetDestroy sheet s) := by
  refine Keeps.next ?_
  split
  · exact hs
  · split
    · exact hs
    · dsimp only
      split
      · exact hs
      · exact State.on_finishCommand hP (State.On.foldl (fun s c hs => by simp [hP.toBears, hs]) _ (State.on_notifyLine hP.toBears (by simp [hs])))

@[simp] theorem execLaunchend_keeps {n : Nat} : Keeps P (execLaunchend n s) := by
  refine Keeps.next (State.on_dispatch hP hs fun c s hs => ?_)
  dsimp only
  (repeat' split) <;> simp [hP.toBears, hs]

@[simp] theorem execFwopSelftest_keeps {n : Nat} : Keeps P (execFwopSelftest n s) := by
  refine Keeps.next (State.on_dispatch hP hs fun c s hs => ?_)
  dsimp only
  (repeat' split) <;> simp [hP.toBears, hs]

@[simp] theorem execTurnarm_keeps {n : Nat} : Keeps P (execTurnarm n s) := by
  refine Keeps.next (State.on_dispatch hP hs fun c s hs => ?_)
  dsimp only
  (repeat' split) <;> simp [hP, hs]

theorem State.on_copyAttempt {w : CopyWait} {t : State} (h : s.copyAttempt w = .launched t) : t.On P := by
  unfold State.copyAttempt at h
  dsimp only at h
  split at h
  · cases h
  · split at h
    · cases h
    · cases h
      exact State.on_setChan hP hs

@[simp] theorem State.on_startCopy {n : Nat} {c : Cmd} : (State.startCopy n c s).On P := by
  unfold State.startCopy
  dsimp only
  split
  · simp [hs]
  · split
    · simp
    · split
      · simp [hP, hs]
      · split
        · simp [hP, hs]
        · have set (f : Strand → Strand) := State.on_modStrand hP.toBears (x := supSlot (c.word 2 % 2 ^ 11)) (f := f)
            (State.on_vaTouch hP hs (v := ⟨c.word 2 % 2 ^ 11, s.rootOf c.asid, true⟩) (va := c.word 3) (n := 336) (kind := .read))
          split
          · rw [on_refusalOf]
            exact set _
          · rw [CmdEnd.on_started, State.on_mk]
            exact set _
          · next t e =>
            rw [CmdEnd.on_started]
            exact State.on_copyAttempt hP (set _) e

theorem State.on_copyAgain {w : CopyWait} {t : State} (h : s.copyAgain w = some t) : t.On P := by
  unfold State.copyAgain at h
  dsimp only at h
  split at h
  · split at h
    · cases h
      exact State.on_finishCommand hP (by simp [hs])
    · cases h
  · cases h
  · next u e =>
    cases h
    rw [State.on_mk]
    exact State.on_copyAttempt hP hs e

@[simp] theorem execCopy_keeps {n : Nat} : Keeps P (execCopy n s) := by
  refine Keeps.next ?_
  split
  · next t e =>
    obtain ⟨w, _, e⟩ := List.exists_of_findSome?_eq_some e
    exact State.on_copyAgain hP hs e
  · exact State.on_dispatch hP hs fun _ _ hs => State.on_startCopy hP hs

@[simp] theorem State.on_startReduce {c : Cmd} : (State.startReduce c s).On P := by
  unfold State.startReduce
  dsimp only
  (repeat' split) <;> simp [hP, hs]

@[simp] theorem execReduce_keeps {n : Nat} : Keeps P (execReduce n s) :=
  Keeps.next (State.on_dispatch hP hs fun _ _ hs => State.on_startReduce hP hs)

@[simp] theorem execCompletionWord_keeps {cid : Nat} : Keeps P (execCompletionWord cid s) := by
  unfold execCompletionWord
  dsimp only
  (repeat' split) <;> simp [hP, hP.toBears, hs]

@[simp] theorem State.on_releaseTile {lid t : Nat} : (s.releaseTile lid t).On P := by
  unfold State.releaseTile
  split
  · exact hs
  · extract_lets u v w
    have ringless : u.On P := by
      unfold u
      split <;> simp [hP, hs]
    have placeless : w.On P := State.on_modTile hP.toBears (by simp [v, ringless])
    split
    · exact placeless
    · exact State.On.foldl (fun s k hs => by simp [hP.toBears, hs]) _ placeless

@[simp] theorem execLaunchComplete_keeps {lid : Nat} : Keeps P (execLaunchComplete lid s) := by
  refine Keeps.next ?_
  split
  · exact hs
  · split
    · exact hs
    · refine State.on_finishCommand hP ?_
      rw [State.on_mk]
      exact State.On.foldl (fun s r hs => State.on_foldWord hP hs) _
        (State.on_forgetGroups hP (State.on_freeBars hP.toBears (State.On.foldl (fun s t hs => State.on_releaseTile hP hs) _ hs)))

@[simp] theorem execTurnoutCount_keeps {die : Nat} {tag : BitVec 32} : Keeps P (execTurnoutCount die tag s) := by
  unfold execTurnoutCount
  simp [hP, hP.toBears, hs]

@[simp] theorem execTurnoutInsert_keeps {k : Nat} : Keeps P (execTurnoutInsert k s) := by
  refine Keeps.next ?_
  split
  · exact hs
  · split
    · exact hs
    · next u e => exact State.on_putCmdRing hP.toBears (State.on_insertFiring hP.toBears hs e)

@[simp] theorem execTurnoutDisarm_keeps {k : Nat} : Keeps P (execTurnoutDisarm k s) := by
  unfold execTurnoutDisarm
  split <;> simp [hP, hP.toBears, hs]

@[simp] theorem State.on_nextPlace {lid : Nat} : (s.nextPlace lid).On P := by
  simp [State.nextPlace, hP, hP.toBears, hs]

@[simp] theorem execChunkCommit_keeps {lid : Nat} : Keeps P (execChunkCommit lid s) := by
  have written (x : SlotId) (ws : List WEntry) : (ws.foldl (fun s e => s.applyEntry x e) s).On P :=
    State.On.foldl (fun s e hs => by simp [hP, hs]) _ hs
  refine Keeps.next ?_
  (repeat' split) <;> simp [hP, hP.toBears, hs, written]

theorem State.on_laneFault {x : SlotId} {st : Strand} {c : Chunk} {code : Nat} {detail : Word} {t : State}
    (h : s.laneFault x st c code detail = some t) : t.On P := by
  have written (ws : List WEntry) : (ws.foldl (fun s e => s.applyEntry x e) s).On P :=
    State.On.foldl (fun s e hs => by simp [hP, hs]) _ hs
  unfold State.laneFault at h
  dsimp only at h
  split at h
  · cases h
  · split at h
    · cases h
      exact State.on_dropWeir hP.toBears (State.on_setStrand hP.toBears hs)
    · split at h
      · cases h
        exact State.on_takeFault hP.toBears hs
      · cases h
        exact State.on_takeFault hP.toBears (State.on_nextPlace hP (State.on_modStrand hP.toBears (written _)))

end
end Sys2Proof.Machine
end

section
/-!
PROOF. What traps, system registers, what comes between instructions, and the performance of accesses in flight keep: each keeps a property that bears every write.
-/

namespace Sys2Proof.Machine

set_option Elab.async false

section
set_option linter.unusedSectionVars false
set_option linter.unusedSimpArgs false
variable {P : Parts → Prop} (hP : Parts.Written P) {s : State} (hs : s.On P)
include hP hs

@[simp] theorem execTrap_keeps {m : Bool} {code : BitVec 18} : Keeps P (execTrap m code s) := by
  refine State.keeps_issue hP.toBears hs fun st => ?_
  simp [hP, hP.toBears, hs]

@[simp] theorem execBrk_keeps {m : Bool} {code : BitVec 18} : Keeps P (execBrk m code s) := by
  refine State.keeps_issue hP.toBears hs fun st => ?_
  simp [hP, hP.toBears, hs]

@[simp] theorem execSret_keeps {m : Bool} : Keeps P (execSret m s) := by
  refine State.keeps_issue hP.toBears hs fun st => ?_
  dsimp only
  split <;> simp [hP, hP.toBears, hs]

@[simp] theorem State.on_setWindow {t : Nat} {f : Strand → Strand} : (s.setWindow t f).On P := by
  unfold State.setWindow
  split <;> simp [hP, hP.toBears, hs]

@[simp] theorem State.on_endFor {st : Strand} : (s.endFor st).On P := by
  simp [State.endFor, hP, hP.toBears, hs]

@[simp] theorem State.on_trun {t : Nat} {v : Word} : (s.trun t v).On P := by
  unfold State.trun
  (repeat' split) <;> simp [hP, hP.toBears, hs]

@[simp] theorem execTrunResume_keeps {tile : Nat} {v : Word} : Keeps P (execTrunResume tile v s) := by
  unfold execTrunResume
  (repeat' split) <;> simp [hP, hP.toBears, hs]

@[simp] theorem execTrunEndLaunch_keeps {tile : Nat} {v : Word} : Keeps P (execTrunEndLaunch tile v s) := by
  unfold execTrunEndLaunch
  (repeat' split) <;> simp [hP, hP.toBears, hs]

@[simp] theorem execHostDebuggerResume_keeps {who : SlotId} : Keeps P (execHostDebuggerResume who s) := by
  unfold execHostDebuggerResume
  (repeat' split) <;> simp [hP, hP.toBears, hs]

@[simp] theorem State.on_modSelBank {t : Nat} {f : Bank → Bank} : (s.modSelBank t f).On P := by
  unfold State.modSelBank
  split <;> simp [hP, hP.toBears, hs]

@[simp] theorem execMcstatusClear_keeps {tile : Nat} {v : Word} : Keeps P (execMcstatusClear tile v s) := by
  unfold execMcstatusClear
  split <;> simp [hP, hP.toBears, hs]

@[simp] theorem execMccountClear_keeps {tile : Nat} : Keeps P (execMccountClear tile s) := by
  unfold execMccountClear
  simp [hP, hP.toBears, hs]

@[simp] theorem State.on_readSys {st : Strand} {num : Nat} : (s.readSys st num).2.On P := by
  unfold State.readSys
  dsimp only
  split <;> simp [hP, hP.toBears, hs]

@[simp] theorem State.on_writeSys {st : Strand} {num : Nat} {v : Word} : (s.writeSys st num v).On P := by
  unfold State.writeSys
  simp only []
  repeat' refine State.on_ite ?_ ?_
  all_goals simp [hP, hP.toBears, hs]

@[simp] theorem execSysr_keeps {m : Bool} {d : Spec} {num : BitVec 12} : Keeps P (execSysr m d num s) := by
  refine State.keeps_issue hP.toBears hs fun st => ?_
  simp [hP, hP.toBears, hs]

@[simp] theorem execSysw_keeps {m : Bool} {num : BitVec 12} {a : Spec} : Keeps P (execSysw m num a s) := by
  refine State.keeps_issue hP.toBears hs fun st => ?_
  split <;> simp [hP, hP.toBears, hs]

@[simp] theorem State.keeps_tlbinv {i : Instr} {m : Bool} {srcs : List (Nat × Bool × Spec)} {sel : Strand → Leaf → Bool} : Keeps P (s.tlbinv i m srcs sel) := by
  refine State.keeps_issue hP.toBears hs fun st => ?_
  dsimp only
  (repeat' split) <;> simp [hP, hP.toBears, hs]

@[simp] theorem execTlbinvPage_keeps {m : Bool} {a : Spec} : Keeps P (execTlbinvPage m a s) := by
  refine State.keeps_issue hP.toBears hs fun st => ?_
  dsimp only
  (repeat' split) <;> simp [hP, hP.toBears, hs]

@[simp] theorem execTlbinvAsid_keeps {m : Bool} {a : Spec} : Keeps P (execTlbinvAsid m a s) := by
  refine State.keeps_issue hP.toBears hs fun st => ?_
  dsimp only
  (repeat' split) <;> simp [hP, hP.toBears, hs]

@[simp] theorem execTlbinvAll_keeps {m : Bool} : Keeps P (execTlbinvAll m s) := by
  refine State.keeps_issue hP.toBears hs fun st => ?_
  dsimp only
  (repeat' split) <;> simp [hP, hP.toBears, hs]

@[simp] theorem State.on_peerUpdate {a : Nat} {op : AtomOp} {b : Word} : (s.peerUpdate a op b).On P := by
  unfold State.peerUpdate
  dsimp only
  (repeat' split) <;> simp [hP, hP.toBears, hs]

@[simp] theorem State.on_peerCas {a : Nat} {cmp v : Word} : (s.peerCas a cmp v).On P := by
  unfold State.peerCas
  dsimp only
  (repeat' split) <;> simp [hP, hP.toBears, hs]

theorem State.on_peerBit {w : Watch} {a : Nat} {serve : State → State} (served : ∀ s, s.On P → (serve s).On P) :
    (s.peerBit w a serve).On P := by
  unfold State.peerBit
  simp only []
  refine State.on_ite (by simp [hP, hP.toBears, hs]) (State.on_ite (served _ ?_) ?_)
  · rw [State.on_mk, State.holds_parts]
    simp [hP, hP.toBears, hs]
  · exact State.on_addWatch_getD hP.toBears (State.on_foldFor hP hs)

@[simp] theorem State.on_peerPut {w : HeldWrite} : (s.peerPut w).On P := by
  unfold State.peerPut
  split
  · simp [hP, hP.toBears, hs]
  · simp [hP, hP.toBears, hs]
  · simp [hP, hP.toBears, hs]
  · exact State.on_peerBit hP hs fun s hs => by simp [hP, hP.toBears, hs]
  · exact State.on_peerBit hP hs fun s hs => by simp [hP, hP.toBears, hs]

@[simp] theorem State.on_peerArrive {w : HeldWrite} : (s.peerArrive w).On P := by
  unfold State.peerArrive
  split <;> simp [hP, hP.toBears, hs]

@[simp] theorem State.on_flushHeld : (s.flushHeld).On P :=
  State.On.foldl (fun s w hs => State.on_peerPut hP hs) _ (by rw [State.on_mk, State.holds_parts]; exact hs)

@[simp] theorem execSelftest_keeps {m : Bool} {d a : Spec} : Keeps P (execSelftest m d a s) := by
  refine State.keeps_issue hP.toBears hs fun st => ?_
  dsimp only
  (repeat' split) <;> simp [hP, hP.toBears, hs]

@[simp] theorem State.on_clearPad {t : Nat} : (s.clearPad t).On P :=
  State.On.foldl (fun s l hs => State.on_notifyLine hP.toBears hs) _ (by
    rw [State.on_mk]
    exact hP.empties _ _ (hP.clears _ _ hs))

theorem State.on_selftestLogs {tile : Nat} {fail : BitVec 10} {l : List Nat} :
    (l.foldl (fun (s : State) i =>
      if fail.getLsbD i then
        let (d, s) := s.free
        s.modBank (.tile tile) fun b => b.log 2 (failSrc i) 0 0 d
      else s) s).On P :=
  State.On.foldl (fun s i hs => by split <;> simp [hP, hP.toBears, hs]) _ hs

theorem State.on_idleChans {tile : Nat} {l : List Nat} :
    (l.foldl (fun (s : State) k =>
      s.setChan none tile k { s.chan tile k with queue := [], halted := false, cause := 0, line := [] }) s).On P :=
  State.On.foldl (fun s k hs => by simp [hP, hP.toBears, hs]) _ hs

@[simp] theorem execSelftestComplete_keeps {tile : Nat} {fail : BitVec 10} : Keeps P (execSelftestComplete tile fail s) := by
  unfold execSelftestComplete
  simp only []
  rw [keeps_next]
  refine State.on_ite hs (State.on_flushHeld hP ?_)
  split
  · exact State.on_finishCommand hP (State.on_selftestLogs hP (State.on_idleChans hP (State.on_modTile hP.toBears (State.on_clearPad hP hs))))
  · exact State.on_selftestLogs hP (State.on_idleChans hP (State.on_modTile hP.toBears (State.on_clearPad hP hs)))

@[simp] theorem execAnnulledWord_keeps : Keeps P (execAnnulledWord s) := by
  unfold execAnnulledWord
  dsimp only
  (repeat' split) <;> simp [hP, hP.toBears, hs]

@[simp] theorem execAsyncDelivery_keeps : Keeps P (execAsyncDelivery s) := by
  unfold execAsyncDelivery
  (repeat' split) <;> simp [hP, hP.toBears, hs]

@[simp] theorem execEventTake_keeps {tile : Nat} : Keeps P (execEventTake tile s) := by
  unfold execEventTake
  (repeat' split) <;> simp [hP, hP.toBears, hs]

@[simp] theorem execSeventRead_keeps {tile : Nat} : Keeps P (execSeventRead tile s) := by
  unfold execSeventRead
  dsimp only
  (repeat' split) <;> simp [hP, hP.toBears, hs]

@[simp] theorem execLongResultReturn_keeps {id : Nat} : Keeps P (execLongResultReturn id s) := by
  unfold execLongResultReturn
  split <;> simp [hP, hP.toBears, hs]

@[simp] theorem State.on_performBy {id : Nat} {may : Performer → HomeStep → Bool} {err : ErrKind} {answer : V128} : (s.performBy id may err answer).On P := by
  unfold State.performBy
  (repeat' split) <;> simp [hP, hP.toBears, hs]

@[simp] theorem execGlobalAccessPerformed_keeps {id : Nat} {err : ErrKind} {answer : V128} : Keeps P (execGlobalAccessPerformed id err answer s) := by
  unfold execGlobalAccessPerformed
  simp [hP, hP.toBears, hs]

@[simp] theorem execStoreBufferDrain_keeps {id : Nat} : Keeps P (execStoreBufferDrain id s) := by
  unfold execStoreBufferDrain
  simp [hP, hP.toBears, hs]

@[simp] theorem execHomeAtomic_keeps {id : Nat} {err : ErrKind} {answer : V128} : Keeps P (execHomeAtomic id err answer s) := by
  unfold execHomeAtomic
  simp [hP, hP.toBears, hs]

@[simp] theorem execFullEmptyRetest_keeps {id : Nat} {err : ErrKind} {answer : V128} : Keeps P (execFullEmptyRetest id err answer s) := by
  unfold execFullEmptyRetest
  simp [hP, hP.toBears, hs]

@[simp] theorem execTileWindowAccess_keeps {id : Nat} {err : ErrKind} : Keeps P (execTileWindowAccess id err s) := by
  unfold execTileWindowAccess
  simp [hP, hP.toBears, hs]

@[simp] theorem State.on_endMiss {r : Except Nat Leaf} {m : Miss} : (s.endMiss r m).On P := by
  unfold State.endMiss
  dsimp only
  (repeat' split) <;> simp [hP, hP.toBears, hs]

@[simp] theorem execTranslationWalk_keeps {who : SlotId} : Keeps P (execTranslationWalk who s) := by
  unfold execTranslationWalk
  rw [keeps_next]
  split
  · exact hs
  · exact State.On.foldl (fun s k hs => State.on_endMiss hP hs) _ (by rw [State.on_mk, State.holds_parts]; exact hs)

@[simp] theorem execPatrolScrub_keeps {pa : Nat} {err : ErrKind} : Keeps P (execPatrolScrub pa err s) := by
  unfold execPatrolScrub
  dsimp only
  split <;> simp [hP, hP.toBears, hs]

@[simp] theorem execRemoteTimeout_keeps {id : Nat} : Keeps P (execRemoteTimeout id s) := by
  unfold execRemoteTimeout
  (repeat' split) <;> simp [hP, hP.toBears, hs]

@[simp] theorem execPeerReset_keeps {dev : BitVec 12} : Keeps P (execPeerReset dev s) := by
  unfold execPeerReset
  rw [keeps_next]
  exact State.On.foldl (fun s a hs => by split <;> simp [hP, hP.toBears, hs]) _ hs

@[simp] theorem execTxConflict_keeps {who : SlotId} : Keeps P (execTxConflict who s) := by
  unfold execTxConflict
  (repeat' split) <;> simp [hP, hP.toBears, hs]

@[simp] theorem execTxWake_keeps {who : SlotId} : Keeps P (execTxWake who s) := by
  unfold execTxWake
  dsimp only
  (repeat' split) <;> simp [hP, hP.toBears, hs]

@[simp] theorem execWakeWithNoWrite_keeps {who : SlotId} : Keeps P (execWakeWithNoWrite who s) := by
  unfold execWakeWithNoWrite
  (repeat' split) <;> simp [hP, hP.toBears, hs]

@[simp] theorem execSupervisorMemoryError_keeps {tile : Nat} {queues mirrorLost : Bool} : Keeps P (execSupervisorMemoryError tile queues mirrorLost s) := by
  unfold execSupervisorMemoryError
  simp only []
  rw [keeps_next]
  refine State.on_ite (State.on_modStrand hP.toBears ?_) (State.on_ite ?_ ?_)
  · rw [State.on_mk, State.holds_parts]
    simp [hP, hP.toBears, hs]
  · exact State.on_fence hP.toBears (State.on_modBank hP.toBears (State.on_free hP.toBears hs))
  · simp [hP, hP.toBears, hs]

end
end Sys2Proof.Machine
end

section
/-!
PROOF. What the device's edges keep: a fatal error, reset, boot, the life cycle, checkpoints and restores.
-/

namespace Sys2Proof.Machine

set_option Elab.async false

/-- A property that bears everything that a step may do to the parts of a state: every write, a checkpoint saved, dropped or read back, a reset. -/
structure Parts.Stepped (P : Parts → Prop) : Prop extends Parts.Written P where
  control : ∀ (p : Parts) (c : Ctl) (d : BitVec 12), P p → P { p with ctl := c, devno := d }
  drops : ∀ (p : Parts) (f : ((Nat × Nat) × Saved) → Bool), P p → P { p with checkpoints := p.checkpoints.filter f }
  saves : ∀ (p : Parts) (key : Nat × Nat) (k : Saved), P p → k.mem = p.mem → k.full = p.full →
    P { p with checkpoints := p.checkpoints ++ [(key, k)] }
  returns : ∀ (p : Parts) (k : (Nat × Nat) × Saved), P p → k ∈ p.checkpoints → P { p with mem := k.2.mem, full := k.2.full, spills := k.2.spills }
  wipes : ∀ p : Parts, P p → P { p with mem := [], full := [], spills := [] }

section
set_option linter.unusedSectionVars false
set_option linter.unusedSimpArgs false
variable {P : Parts → Prop} (hP : Parts.Stepped P) {s : State} (hs : s.On P)
include hP hs

theorem State.on_setCtl {c : Ctl} : Holds P s.mem s.full s.checkpoints c s.spills s.fusedRows s.fusedCols s.devno := hP.control _ c s.devno hs

theorem State.on_keptCheckpoints : Holds P s.mem s.full s.keptCheckpoints s.ctl s.spills s.fusedRows s.fusedCols s.devno := by
  unfold State.keptCheckpoints
  split
  · exact hP.drops _ _ hs
  · exact hs

@[simp] theorem State.on_fatal {bank : BankId} {src : BitVec 8} {addr detail : Word} : (s.fatal bank src addr detail).On P := by
  have logged : (s.modBank bank fun b => b.log 3 src 0 addr detail).On P := State.on_modBank hP.toBears hs
  unfold State.fatal
  simp only []
  rw [State.on_mk, State.holds_parts]
  refine State.On.foldl (fun s l hs => State.on_endLaunch hP.toBears hs) _ ?_
  rw [State.on_mk]
  exact hP.control _ _ _ (State.on_keptCheckpoints hP logged)

@[simp] theorem execFatalError_keeps {bank : BankId} {src : BitVec 8} {addr detail : Word} : Keeps P (execFatalError bank src addr detail s) :=
  Keeps.next (State.on_fatal hP hs)

@[simp] theorem execLinkResend_keeps {bank : BankId} {fails : Nat} {addr detail : Word} : Keeps P (execLinkResend bank fails addr detail s) := by
  have resent : ((List.range (Nat.min fails 4)).foldl (fun (s : State) _ => s.modBank bank fun b => b.log 1 9 0 addr detail) s).On P :=
    State.On.foldl (fun s _ hs => State.on_modBank hP.toBears hs) _ hs
  exact Keeps.next (State.on_ite (State.on_fatal hP resent) resent)

/-- A reset clears memory, its full words and the context blocks, and keeps the usable checkpoints. -/
@[simp] theorem State.on_afterReset : s.afterReset.On P := by
  unfold State.afterReset
  simp only []
  rw [State.on_mk]
  exact hP.control _ _ _ (hP.wipes _ (State.on_keptCheckpoints hP hs))

@[simp] theorem execReset_keeps : Keeps P (execReset s) := Keeps.next (State.on_afterReset hP hs)

@[simp] theorem State.on_startSups {img : List Byte} : (s.startSups img).On P := by
  unfold State.startSups
  generalize List.range 1536 = tiles
  rw [State.on_mk, State.holds_parts]
  exact State.On.foldl (fun s t hs => State.on_setStrand hP.toBears hs) _ hs

@[simp] theorem execBootgo_keeps : Keeps P (execBootgo s) := by
  have started : (s.startSups (s.staged 0 s.ctl.fwlen.toNat)).On P := State.on_startSups hP hs
  unfold execBootgo
  simp only []
  generalize s.startSups (s.staged 0 s.ctl.fwlen.toNat) = u at started ⊢
  refine Keeps.next (State.on_ite hs (State.on_ite ?_ ?_))
  · rw [State.on_mk]
    exact State.on_setCtl hP hs
  · rw [State.on_mk]
    exact hP.control _ _ _ started

@[simp] theorem execLcreq_keeps {v : BitVec 3} : Keeps P (execLcreq v s) := by
  unfold execLcreq
  simp only []
  refine Keeps.next (State.on_ite ?_ hs)
  rw [State.on_mk]
  exact State.on_setCtl hP (State.on_afterReset hP hs)

@[simp] theorem execAttgo_keeps : Keeps P (execAttgo s) := by
  unfold execAttgo
  rw [keeps_next, State.on_mk]
  exact State.on_setCtl hP hs

@[simp] theorem execReportComplete_keeps : Keeps P (execReportComplete s) := by
  unfold execReportComplete
  simp only []
  refine Keeps.next (State.on_ite hs ?_)
  rw [State.on_mk]
  exact State.on_setCtl hP hs

@[simp] theorem execDeviceRegisterWrite_keeps {off : Nat} {v : Word} : Keeps P (execDeviceRegisterWrite off v s) := by
  unfold execDeviceRegisterWrite
  refine Keeps.next (State.on_ite ?_ (State.on_ite ?_ (State.on_ite ?_ (State.on_ite ?_ hs)))) <;>
    (rw [State.on_mk]; exact State.on_setCtl hP hs)

@[simp] theorem execUetConnect_keeps {port : Nat} {offer : List UetOption} : Keeps P (execUetConnect port offer s) := by
  unfold execUetConnect
  refine Keeps.next (State.on_ite ?_ hs)
  rw [State.on_mk, State.holds_parts]
  exact hs

@[simp] theorem State.on_stopStrands : s.stopStrands.On P :=
  State.On.foldl (fun s x hs => by (repeat' split) <;> simp [hP.toBears, hP.toWritten, hs]) _ hs

@[simp] theorem execCkctlGo_keeps {tier : BitVec 1} : Keeps P (execCkctlGo tier s) := by
  unfold execCkctlGo
  refine Keeps.next (State.on_ite hs ?_)
  rw [State.on_mk]
  exact hP.control _ _ _ (State.on_stopStrands hP hs)

@[simp] theorem execCkctlRestore_keeps {tier : BitVec 1} : Keeps P (execCkctlRestore tier s) := by
  unfold execCkctlRestore
  refine Keeps.next (State.on_ite hs ?_)
  rw [State.on_mk]
  exact hP.control _ _ _ (State.on_stopStrands hP hs)

theorem State.on_restored {k : (Nat × Nat) × Saved} (found : k ∈ s.checkpoints) : (s.restored k.2).On P := by
  unfold State.restored
  rw [State.on_mk]
  exact hP.returns _ k hs found

@[simp] theorem execCheckpointComplete_keeps {fail : Bool} {ms : BitVec 32} : Keeps P (execCheckpointComplete fail ms s) := by
  unfold execCheckpointComplete
  rw [keeps_next]
  split
  · exact hs
  · simp only []
    refine State.on_ite ?_ (State.on_ite ?_ (State.on_ite ?_ hs))
    · refine State.on_flushHeld hP.toWritten ?_
      rw [State.on_mk]
      exact hP.control _ _ _ (State.on_keptCheckpoints hP hs)
    · split
      · next k found =>
        refine State.on_flushHeld hP.toWritten ?_
        rw [State.on_mk]
        exact hP.control _ _ _ (State.on_restored hP hs (List.mem_of_find?_eq_some found))
      · refine State.on_flushHeld hP.toWritten ?_
        rw [State.on_mk]
        exact State.on_setCtl hP hs
    · refine State.on_flushHeld hP.toWritten ?_
      rw [State.on_mk]
      exact hP.control _ _ _ (hP.saves _ _ _ (hP.drops _ _ hs) rfl rfl)

end
end Sys2Proof.Machine
end

section
/-!
PROOF. What every instruction word and every step of another agent keeps, word by word as `exec` gives them their meanings.
-/

namespace Sys2Proof.Machine

set_option Elab.async false

section
set_option linter.unusedSectionVars false
set_option linter.unusedSimpArgs false
variable {P : Parts → Prop} (hP : Parts.Stepped P) {s : State} (hs : s.On P)
include hP hs

/-- Every instruction word, and every step of another agent, keeps what bears everything that a step may do. -/
theorem exec_keeps (i : Instr) : Keeps P (exec i s) := by
  cases i with
  | add | sub | and | or | xor | shl | shr | sha | min | max | minn | maxn | mul | mulh | mulhn | div | divn | rem | remn | set | sel | clz | popc |
    addi | andi | ori | xori | shli | shri | shai | bext | seti | lih | addpc | txst | cpget | bins | vext | vextHigh | rndcLo | rndcHi =>
    exact State.keeps_alu hP.toWritten hs
  | fadd | fsub | fmul | fdiv | fmin | fmax | tsum | fsqrt | fclass | fmv | ffma | fcvt =>
    exact State.keeps_falu hP.toWritten hs
  | atomAdd | atomAnd | atomOr | atomXor | atomMin | atomMax | atomMinn | atomMaxn | atomSwap | atomCas | atomFaddF64 | atomFaddF32 =>
    exact State.keeps_atom hP.toWritten hs
  | atomnAdd | atomnAnd | atomnOr | atomnXor | atomnMin | atomnMax | atomnMinn | atomnMaxn | atomnFaddF64 | atomnFaddF32 =>
    exact State.keeps_atomn hP.toWritten hs
  | redpReg | redpRel =>
    exact State.keeps_redp hP.toWritten hs
  | vadd | vsub | vmul | vdiv | vfma | vfms | vfnma | vsqrt | vrcp | vrsq | vexp2 | vcvt =>
    exact State.keeps_vround hP.toWritten hs
  | vabs | vneg | vmin | vmax | vcmp | vsel =>
    exact State.keeps_vfpu hP.toWritten hs
  | vredAdd | vredMin | vredMax | vtsum =>
    exact State.keeps_redTo hP.toWritten hs
  | vperm | vshufZlo | vshufZhi | vshufEven | vshufOdd | vand | vor | vxor | vshl | vshr | bscale | vbcast | vmov | p2enc | p2dec | viadd | visub |
    vimul =>
    exact State.keeps_valu hP.toWritten hs
  | mptrOpa | mptrOpb | msclOpa | msclOpb | mspar =>
    exact State.keeps_setRec hP.toWritten hs
  | mrdhi | mrdlo | mrds =>
    exact State.keeps_mrd hP.toWritten hs
  | nred | nsend =>
    exact State.keeps_router hP.toWritten hs
  | cmp => exact execCmp_keeps hP.toWritten hs
  | cmpi => exact execCmpi_keeps hP.toWritten hs
  | br => exact execBr_keeps hP.toWritten hs
  | j => exact execJ_keeps hP.toWritten hs
  | call => exact execCall_keeps hP.toWritten hs
  | calli => exact execCalli_keeps hP.toWritten hs
  | enter => exact execEnter_keeps hP.toWritten hs
  | leave => exact execLeave_keeps hP.toWritten hs
  | fcmp => exact execFcmp_keeps hP.toWritten hs
  | lds => exact execLds_keeps hP.toWritten hs
  | sts => exact execSts_keeps hP.toWritten hs
  | ldg => exact execLdg_keeps hP.toWritten hs
  | stg => exact execStg_keeps hP.toWritten hs
  | ldsv => exact execLdsv_keeps hP.toWritten hs
  | stsv => exact execStsv_keeps hP.toWritten hs
  | ldgv => exact execLdgv_keeps hP.toWritten hs
  | stgv => exact execStgv_keeps hP.toWritten hs
  | ldc => exact execLdc_keeps hP.toWritten hs
  | stp => exact execStp_keeps hP.toWritten hs
  | ldx => exact execLdx_keeps hP.toWritten hs
  | stx => exact execStx_keeps hP.toWritten hs
  | fence m pred scope succ => exact @execFence_keeps P hP.toWritten s hs m pred scope succ
  | fencex => exact execFencex_keeps hP.toWritten hs
  | txb => exact execTxb_keeps hP.toWritten hs
  | txe => exact execTxe_keeps hP.toWritten hs
  | txa => exact execTxa_keeps hP.toWritten hs
  | retry => exact execRetry_keeps hP.toWritten hs
  | oth => exact execOth_keeps hP.toWritten hs
  | sempost => exact execSempost_keeps hP.toWritten hs
  | semtry => exact execSemtry_keeps hP.toWritten hs
  | cpset => exact execCpset_keeps hP.toWritten hs
  | cpseti => exact execCpseti_keeps hP.toWritten hs
  | cplaunch => exact execCplaunch_keeps hP.toWritten hs
  | cpstat => exact execCpstat_keeps hP.toWritten hs
  | cpstop => exact execCpstop_keeps hP.toWritten hs
  | lkcfg => exact execLkcfg_keeps hP.toWritten hs
  | lkadv => exact execLkadv_keeps hP.toWritten hs
  | lkpos => exact execLkpos_keeps hP.toWritten hs
  | lkjoin => exact execLkjoin_keeps hP.toWritten hs
  | plane => exact execPlane_keeps hP.toWritten hs
  | unplane => exact execUnplane_keeps hP.toWritten hs
  | srnd => exact execSrnd_keeps hP.toWritten hs
  | mgang => exact execMgang_keeps hP.toWritten hs
  | mmul => exact execMmul_keeps hP.toWritten hs
  | mzero => exact execMzero_keeps hP.toWritten hs
  | mwr => exact execMwr_keeps hP.toWritten hs
  | cbind => exact execCbind_keeps hP.toWritten hs
  | cunbind => exact execCunbind_keeps hP.toWritten hs
  | cwopen => exact execCwopen_keeps hP.toWritten hs
  | ccommit => exact execCcommit_keeps hP.toWritten hs
  | cdone => exact execCdone_keeps hP.toWritten hs
  | cpin => exact execCpin_keeps hP.toWritten hs
  | cunpin => exact execCunpin_keeps hP.toWritten hs
  | cgen => exact execCgen_keeps hP.toWritten hs
  | cstat => exact execCstat_keeps hP.toWritten hs
  | fork => exact execFork_keeps hP.toWritten hs
  | join => exact execJoin_keeps hP.toWritten hs
  | mig => exact execMig_keeps hP.toWritten hs
  | gang => exact execGang_keeps hP.toWritten hs
  | barTile => exact execBarTile_keeps hP.toWritten hs
  | barRow => exact execBarRow_keeps hP.toWritten hs
  | exit => exact execExit_keeps hP.toWritten hs
  | yield => exact execYield_keeps hP.toWritten hs
  | intk => exact execIntk_keeps hP.toWritten hs
  | outf => exact execOutf_keeps hP.toWritten hs
  | trap => exact execTrap_keeps hP.toWritten hs
  | sret => exact execSret_keeps hP.toWritten hs
  | sysr => exact execSysr_keeps hP.toWritten hs
  | sysw => exact execSysw_keeps hP.toWritten hs
  | tlbinvPage => exact execTlbinvPage_keeps hP.toWritten hs
  | tlbinvAsid => exact execTlbinvAsid_keeps hP.toWritten hs
  | tlbinvAll => exact execTlbinvAll_keeps hP.toWritten hs
  | selftest => exact execSelftest_keeps hP.toWritten hs
  | brk => exact execBrk_keeps hP.toWritten hs
  | annulledWord => exact execAnnulledWord_keeps hP.toWritten hs
  | longResultReturn => exact execLongResultReturn_keeps hP.toWritten hs
  | translationWalk => exact execTranslationWalk_keeps hP.toWritten hs
  | globalAccessPerformed => exact execGlobalAccessPerformed_keeps hP.toWritten hs
  | storeBufferDrain => exact execStoreBufferDrain_keeps hP.toWritten hs
  | homeAtomic => exact execHomeAtomic_keeps hP.toWritten hs
  | fullEmptyRetest => exact execFullEmptyRetest_keeps hP.toWritten hs
  | patrolScrub => exact execPatrolScrub_keeps hP.toWritten hs
  | tileWindowAccess => exact execTileWindowAccess_keeps hP.toWritten hs
  | transferStart => exact execTransferStart_keeps hP.toWritten hs
  | copyElement => exact execCopyElement_keeps hP.toWritten hs
  | transferComplete => exact execTransferComplete_keeps hP.toWritten hs
  | sendPacketAccept => exact execSendPacketAccept_keeps hP.toWritten hs
  | cpctlResume => exact execCpctlResume_keeps hP.toWritten hs
  | cpctlCancel => exact execCpctlCancel_keeps hP.toWritten hs
  | asyncDelivery => exact execAsyncDelivery_keeps hP.toWritten hs
  | preemption => exact execPreemption_keeps hP.toWritten hs
  | spill => exact execSpill_keeps hP.toWritten hs
  | restore => exact execRestore_keeps hP.toWritten hs
  | restoreDeadline => exact execRestoreDeadline_keeps hP.toWritten hs
  | launchEvict => exact execLaunchEvict_keeps hP.toWritten hs
  | wavePlace => exact execWavePlace_keeps hP.toWritten hs
  | dequeTake => exact execDequeTake_keeps hP.toWritten hs
  | dequeOverflowMove => exact execDequeOverflowMove_keeps hP.toWritten hs
  | continuationArrive => exact execContinuationArrive_keeps hP.toWritten hs
  | loadExchange => exact execLoadExchange_keeps hP.toWritten hs
  | classWindow => exact execClassWindow_keeps hP.toWritten hs
  | eventTake => exact execEventTake_keeps hP.toWritten hs
  | seventRead => exact execSeventRead_keeps hP.toWritten hs
  | trunResume => exact execTrunResume_keeps hP.toWritten hs
  | trunEndLaunch => exact execTrunEndLaunch_keeps hP.toWritten hs
  | supervisorMemoryError => exact execSupervisorMemoryError_keeps hP.toWritten hs
  | mcstatusClear => exact execMcstatusClear_keeps hP.toWritten hs
  | mccountClear => exact execMccountClear_keeps hP.toWritten hs
  | fatalError => exact execFatalError_keeps hP hs
  | linkResend => exact execLinkResend_keeps hP hs
  | selftestComplete => exact execSelftestComplete_keeps hP.toWritten hs
  | txConflict => exact execTxConflict_keeps hP.toWritten hs
  | txWake => exact execTxWake_keeps hP.toWritten hs
  | editAccept => exact execEditAccept_keeps hP.toWritten hs
  | publicationStep => exact execPublicationStep_keeps hP.toWritten hs
  | taskRelease => exact execTaskRelease_keeps hP.toWritten hs
  | formulaPublish => exact execFormulaPublish_keeps hP.toWritten hs
  | routerPacketArrive => exact execRouterPacketArrive_keeps hP.toWritten hs
  | routerTimeout => exact execRouterTimeout_keeps hP.toWritten hs
  | nsendDeliver => exact execNsendDeliver_keeps hP.toWritten hs
  | matrixOpStart => exact execMatrixOpStart_keeps hP.toWritten hs
  | matrixBlockApply => exact execMatrixBlockApply_keeps hP.toWritten hs
  | ringReserve => exact execRingReserve_keeps hP.toWritten hs
  | ringCommit => exact execRingCommit_keeps hP.toWritten hs
  | rcfgWrite => exact execRcfgWrite_keeps hP.toWritten hs
  | rerrClear => exact execRerrClear_keeps hP.toWritten hs
  | launch => exact execLaunch_keeps hP.toWritten hs
  | commit => exact execCommit_keeps hP.toWritten hs
  | bind => exact execBind_keeps hP.toWritten hs
  | sheetnew => exact execSheetnew_keeps hP.toWritten hs
  | cellnew => exact execCellnew_keeps hP.toWritten hs
  | sheetend => exact execSheetend_keeps hP.toWritten hs
  | sheetDestroy => exact execSheetDestroy_keeps hP.toWritten hs
  | launchend => exact execLaunchend_keeps hP.toWritten hs
  | fwopSelftest => exact execFwopSelftest_keeps hP.toWritten hs
  | turnarm => exact execTurnarm_keeps hP.toWritten hs
  | copy => exact execCopy_keeps hP.toWritten hs
  | reduce => exact execReduce_keeps hP.toWritten hs
  | nop => exact execNop_keeps hP.toWritten hs
  | completionWord => exact execCompletionWord_keeps hP.toWritten hs
  | launchComplete => exact execLaunchComplete_keeps hP.toWritten hs
  | turnoutCount => exact execTurnoutCount_keeps hP.toWritten hs
  | turnoutInsert => exact execTurnoutInsert_keeps hP.toWritten hs
  | turnoutDisarm => exact execTurnoutDisarm_keeps hP.toWritten hs
  | chunkCommit => exact execChunkCommit_keeps hP.toWritten hs
  | sqMessageArrive => exact execSqMessageArrive_keeps hP.toWritten hs
  | intake => exact execIntake_keeps hP.toWritten hs
  | outfallVersion => exact execOutfallVersion_keeps hP.toWritten hs
  | reset => exact execReset_keeps hP hs
  | bootgo => exact execBootgo_keeps hP hs
  | lcreq => exact execLcreq_keeps hP hs
  | attgo => exact execAttgo_keeps hP hs
  | reportComplete => exact execReportComplete_keeps hP hs
  | ckctlGo => exact execCkctlGo_keeps hP hs
  | ckctlRestore => exact execCkctlRestore_keeps hP hs
  | checkpointComplete => exact execCheckpointComplete_keeps hP hs
  | deviceRegisterWrite => exact execDeviceRegisterWrite_keeps hP hs
  | remoteTimeout => exact execRemoteTimeout_keeps hP.toWritten hs
  | peerReset => exact execPeerReset_keeps hP.toWritten hs
  | uetConnect => exact execUetConnect_keeps hP hs
  | wakeWithNoWrite => exact execWakeWithNoWrite_keeps hP.toWritten hs
  | hostDebuggerResume => exact execHostDebuggerResume_keeps hP.toWritten hs

end
end Sys2Proof.Machine
end

section
/-!
PROOF. What a turn, a choice of the agenda and the default of the schedule keep, and so every step: a property that bears everything that a step
may do holds after each. The canonical form of memory is one.
-/

namespace Sys2Proof.Machine

set_option Elab.async false

section
set_option linter.unusedSectionVars false
set_option linter.unusedSimpArgs false
variable {P : Parts → Prop} (hP : Parts.Stepped P)

theorem Keeps.mapNext {o : Host.Outcome State Fault Refusal} {f : State → State} (ho : Keeps P o) (hf : ∀ s, s.On P → (f s).On P) :
    Keeps P (mapNext o f) := by
  cases o with
  | next s => exact Keeps.next (hf s (by rwa [keeps_next] at ho))
  | fault r => exact keeps_fault ▸ trivial
  | refused r => exact keeps_refused ▸ trivial

variable {s : State} (hs : s.On P)
include hP hs

@[simp] theorem State.on_rotate {t : Nat} {lent : Bool} : (s.rotate t lent).On P := State.on_modTile hP.toBears hs

theorem State.on_setCur {x : SlotId} : State.On P { s with cur := x } := by
  rw [State.on_mk, State.holds_parts]
  exact hs

@[simp] theorem State.on_settleRedo {x : SlotId} {st : Strand} : (s.settleRedo x st).On P := by
  unfold State.settleRedo
  (repeat' split) <;> simp [hP.toBears, hs]

theorem State.keeps_runWord {x : SlotId} {st : Strand} : Keeps P (s.runWord x st) := by
  unfold State.runWord
  split
  · exact Keeps.next (State.on_holdAt hP.toBears hs)
  · exact Keeps.next (State.on_faultTurn hP.toBears hs)
  · split
    · exact Keeps.next (State.on_faultTurn hP.toBears hs)
    · exact exec_keeps hP (State.on_setCur hP (State.on_settleRedo hP hs)) _

/-- A sleeping wave ends its members' transactions and is held. -/
theorem State.on_waveHold {x : SlotId} {f : Strand → Strand} : ((s.abortTx x 9 0).modStrand x f).On P :=
  State.on_modStrand hP.toBears (State.on_abortTx hP.toBears hs)

theorem State.keeps_issueTurn {x : SlotId} {st : Strand} : Keeps P (s.issueTurn x st) := by
  unfold State.issueTurn
  split
  · exact exec_keeps hP hs _
  · exact exec_keeps hP (State.on_setCur hP hs) _
  · exact exec_keeps hP hs _
  · exact Keeps.next (State.on_waveHold hP hs)
  · exact exec_keeps hP hs _
  · exact exec_keeps hP (State.on_setCur hP hs) _
  · exact State.keeps_runWord hP hs

/-- The turn of a strand that is held until its fault may be taken. -/
theorem State.keeps_heldFault {x : SlotId} {st : Strand} {code : Nat} {detail : Word} {o : Host.Outcome State Fault Refusal} (calm : st.preReq = false)
    (h : s.heldTurn x st (.fault code detail) = some o) : Keeps P o := by
  have delivered : Keeps P (exec .asyncDelivery { s with cur := x }) := exec_keeps hP (State.on_setCur hP hs) _
  unfold State.heldTurn at h
  simp only [calm, Bool.false_eq_true, if_false] at h
  split at h
  · split at h
    · exact Option.some.inj h ▸ delivered
    · obtain ⟨t, taken, rfl⟩ := Option.map_eq_some_iff.mp h
      exact Keeps.next (State.on_laneFault hP.toWritten hs taken)
  · split at h
    · cases h
    · split at h
      · exact Option.some.inj h ▸ delivered
      · exact Option.some.inj h ▸ Keeps.next (State.on_takeFault hP.toBears hs)

theorem State.keeps_heldTurn {x : SlotId} {st : Strand} {k : Hold} {o : Host.Outcome State Fault Refusal} (h : s.heldTurn x st k = some o) :
    Keeps P o := by
  unfold State.heldTurn at h
  by_cases calm : st.preReq = true
  · rw [if_pos calm] at h
    exact Option.some.inj h ▸ exec_keeps hP hs _
  · cases k with
    | fault code detail => exact State.keeps_heldFault hP hs (Bool.eq_false_iff.mpr calm) (by rw [State.heldTurn.eq_def]; exact h)
    | again =>
      rw [if_neg calm] at h
      dsimp only at h
      split at h
      · exact Option.some.inj h ▸ exec_keeps hP (State.on_setCur hP hs) _
      · exact Option.some.inj h ▸ exec_keeps hP hs _
      · exact Option.some.inj h ▸ Keeps.next (State.on_waveHold hP hs)
      · exact Option.some.inj h ▸ State.keeps_runWord hP hs
    | home _ | joined _ | tlbinv _ _ | selftest =>
      rw [if_neg calm] at h
      exact Option.some.inj h ▸ State.keeps_runWord hP hs
    | walk _ _ | bar _ _ _ | wave | chunk | edit _ =>
      rw [if_neg calm] at h
      cases h

theorem State.keeps_ownerTurn {x : SlotId} : Keeps P (s.ownerTurn x) := by
  have rotates (b : State → Bool) (t : State) (ht : t.On P) : (t.rotate x.tile (b t)).On P := State.on_rotate hP ht
  unfold State.ownerTurn
  split
  · refine Keeps.next (State.on_rotate hP ?_)
    cases h : s.takeAtTurn x with
    | none => exact hs
    | some t => exact State.on_takeAtTurn hP.toWritten hs h
  · simp only []
    split
    · exact Keeps.mapNext (State.keeps_issueTurn hP hs) (rotates _)
    · split
      · exact Keeps.mapNext (State.keeps_issueTurn hP (State.on_setStrand hP.toBears hs)) (rotates _)
      · split
        · exact Keeps.mapNext (exec_keeps hP hs _) (rotates _)
        · exact Keeps.next (State.on_rotate hP hs)
    · split
      · exact Keeps.next (State.on_rotate hP hs)
      · next o h => exact Keeps.mapNext (State.keeps_heldTurn hP hs h) (rotates _)
    · split
      · exact Keeps.mapNext (exec_keeps hP hs _) (rotates _)
      · exact Keeps.next (State.on_rotate hP hs)
    · exact Keeps.next (State.on_rotate hP hs)
    · exact Keeps.next (State.on_rotate hP hs)

theorem State.keeps_borrowedTurn {x : SlotId} : Keeps P (s.borrowedTurn x) := by
  have rotates (t : State) (ht : t.On P) : (t.rotate x.tile false).On P := State.on_rotate hP ht
  unfold State.borrowedTurn
  split
  · exact Keeps.next (rotates s hs)
  · split
    · exact Keeps.next (rotates s hs)
    · split
      · exact Keeps.mapNext (State.keeps_issueTurn hP hs) rotates
      · split
        · exact Keeps.next (rotates s hs)
        · next o h => exact Keeps.mapNext (State.keeps_heldTurn hP hs h) rotates
      · exact Keeps.next (rotates s hs)

theorem State.keeps_turn {t : Nat} : Keeps P (s.turn t) := by
  unfold State.turn
  simp only []
  split
  · exact Keeps.next (State.on_rotate hP hs)
  · split
    · exact State.keeps_ownerTurn hP hs
    · exact State.keeps_borrowedTurn hP hs

@[simp] theorem State.on_forfeitTurn {t : Nat} : (s.forfeitTurn t).On P := by
  unfold State.forfeitTurn
  split
  · exact State.on_ite (State.on_rotate hP (State.on_modStrand hP.toBears hs)) hs
  · exact hs

@[simp] theorem State.on_residueTurn {t : Nat} {src : BitVec 8} {addr detail : Word} : (s.residueTurn t src addr detail).On P := by
  unfold State.residueTurn
  split
  · exact hs
  · refine State.on_ite hs ?_
    split
    · exact State.on_rotate hP (State.on_setStrand hP.toBears hs)
    · exact State.on_rotate hP (State.on_takeFault hP.toBears (State.on_modBank hP.toBears (State.on_free hP.toBears (State.on_setStrand hP.toBears hs))))

theorem State.keeps_parityTurn {t : Nat} {vec : Bool} {spec : Spec} : Keeps P (s.parityTurn t vec spec) :=
  Keeps.mapNext (State.keeps_turn hP (State.on_modStrand hP.toBears hs)) fun _ ht => State.on_modStrand hP.toBears ht

@[simp] theorem State.on_spoil {t word : Nat} {corrected : Bool} : (s.spoil t word corrected).On P := by
  unfold State.spoil
  simp only []
  refine State.on_ite (State.on_ite hs ?_) ?_ <;> (rw [State.on_mk, State.holds_parts]; exact hs)

@[simp] theorem State.on_stage {off : Nat} {bytes : List Byte} : (s.stage off bytes).On P := by
  unfold State.stage
  refine State.on_ite hs ?_
  rw [State.on_mk, State.holds_parts]
  exact hs

@[simp] theorem State.on_keepText {t : Nat} {core : Core} {lid addr : Nat} : (s.keepText t core lid addr).On P :=
  State.on_ite hs (State.on_modTile hP.toBears hs)

@[simp] theorem State.on_setLag {writer reader : Nat} {on : Bool} : (s.setLag writer reader on).On P := by
  unfold State.setLag
  refine State.on_ite hs ?_
  rw [State.on_mk, State.holds_parts]
  exact hs

@[simp] theorem State.on_peerRead {a n : Nat} : (s.peerRead a n).On P := by
  unfold State.peerRead
  refine State.on_ite hs ?_
  split
  · exact State.on_ite (State.on_putCmdRing hP.toBears hs) hs
  · exact State.on_foldFor hP.toWritten hs

@[simp] theorem State.on_hostRead {off : Nat} : (s.hostRead off).On P := by
  unfold State.hostRead
  refine State.on_ite ?_ ?_
  · rw [State.on_mk, State.holds_parts]
    exact State.on_putCmdRing hP.toBears hs
  · rw [State.on_mk, State.holds_parts]
    exact hs

@[simp] theorem State.on_hostRegRead {off : Nat} : (s.hostRegRead off).On P := by
  unfold State.hostRegRead
  rw [State.on_mk, State.holds_parts]
  exact hs

@[simp] theorem State.on_hostStageRead {off : Nat} : (s.hostStageRead off).On P := by
  unfold State.hostStageRead
  rw [State.on_mk, State.holds_parts]
  exact hs

theorem State.keeps_choose {c : Choice} : Keeps P (s.choose c) := by
  cases c with
  | turn t => exact State.keeps_turn hP hs
  | parity t vec spec => exact State.keeps_parityTurn hP hs
  | event i =>
    rw [State.choose]
    split
    · exact exec_keeps hP hs _
    · exact keeps_refused ▸ trivial
  | forfeit t => exact Keeps.next (State.on_forfeitTurn hP hs)
  | residue t src a d => exact Keeps.next (State.on_residueTurn hP hs)
  | spoil t w corrected => exact Keeps.next (State.on_spoil hP hs)
  | spoilPair t p low => exact Keeps.next (State.on_modTile hP.toBears hs)
  | supCorrected t a d => exact Keeps.next (State.on_modBank hP.toBears hs)
  | evict row place idx => exact Keeps.next (State.on_ite (State.on_modRow hP.toBears hs) (State.on_modTile hP.toBears hs))
  | keepText t core lid addr => exact Keeps.next (State.on_keepText hP hs)
  | dropText t idx => exact Keeps.next (State.on_modTile hP.toBears hs)
  | lag w r on => exact Keeps.next (State.on_setLag hP hs)
  | remoteWrite dev line => exact Keeps.next (State.on_ite (State.on_notifyLine hP.toBears hs) hs)
  | peerWatch dev kind a tile ctx => exact Keeps.next (State.on_ite (State.on_addWatch_getD hP.toBears hs) hs)
  | loadImage img bytes =>
    have loaded : (bytes.foldl (fun (s : State) (p : Nat × Byte) => s.store none p.1 [p.2]) s).On P :=
      State.On.foldl (fun s p hs => State.on_store hP.toWritten hs) _ hs
    exact Keeps.next (by rw [State.on_mk, State.holds_parts]; exact loaded)
  | hostWrite off v => exact Keeps.next (State.on_portPut hP.toBears hs)
  | hostRead off => exact Keeps.next (State.on_hostRead hP hs)
  | hostStage off bytes => exact Keeps.next (State.on_stage hP hs)
  | peerWrite a bytes => exact Keeps.next (State.on_peerArrive hP.toWritten hs)
  | peerAdd a op v => exact Keeps.next (State.on_ite hs (State.on_peerArrive hP.toWritten hs))
  | peerCas a cmp v => exact Keeps.next (State.on_peerArrive hP.toWritten hs)
  | peerLdc dev a ctx => exact Keeps.next (State.on_ite (State.on_peerArrive hP.toWritten hs) hs)
  | peerStp dev a ctx v => exact Keeps.next (State.on_ite (State.on_peerArrive hP.toWritten hs) hs)
  | peerRead a n => exact Keeps.next (State.on_peerRead hP hs)
  | fenceTile t => exact Keeps.next (State.on_ite (State.on_fence hP.toBears (State.on_modTile hP.toBears hs)) hs)
  | hostRegRead off => exact Keeps.next (State.on_hostRegRead hP hs)
  | hostStageRead off => exact Keeps.next (State.on_hostStageRead hP hs)
  | engineTile _ | catchUp _ | peerWatchEnd _ _ | openSpace _ _ | membership _ | openSendQueue _ | closeSendQueue _ | installQueue _ | debugger _ =>
    unfold State.choose
    rw [keeps_next, State.on_mk, State.holds_parts]
    exact hs

theorem State.keeps_chanStep {t k : Nat} {o : Host.Outcome State Fault Refusal} (h : s.chanStep t k = some o) : Keeps P o := by
  unfold State.chanStep at h
  simp only [] at h
  split at h
  · cases h
  · split at h
    · exact Option.some.inj h ▸ execTransferComplete_keeps hP.toWritten hs
    · split at h
      · cases h
      · split at h
        · exact Option.some.inj h ▸ execTransferStart_keeps hP.toWritten hs
        · split at h
          · exact Option.some.inj h ▸ execSendPacketAccept_keeps hP.toWritten hs
          · split at h
            · exact Option.some.inj h ▸ execTransferComplete_keeps hP.toWritten hs
            · exact Option.some.inj h ▸ execCopyElement_keeps hP.toWritten hs

theorem State.keeps_sluiceStep {o : Host.Outcome State Fault Refusal} (h : s.sluiceStep = some o) : Keeps P o := by
  unfold State.sluiceStep at h
  obtain ⟨sh, _, h⟩ := List.exists_of_findSome?_eq_some h
  split at h
  · exact Option.some.inj h ▸ execEditAccept_keeps hP.toWritten hs
  · exact Option.some.inj h ▸ execPublicationStep_keeps hP.toWritten hs
  · split at h
    · exact Option.some.inj h ▸ execFormulaPublish_keeps hP.toWritten hs
    · obtain ⟨q, _, rfl⟩ := Option.map_eq_some_iff.mp h
      exact execTaskRelease_keeps hP.toWritten hs

theorem State.keeps_background {t : Nat} {o : Host.Outcome State Fault Refusal} (h : s.background t = some o) : Keeps P o := by
  unfold State.background at h
  split at h
  · exact Option.some.inj h ▸ exec_keeps hP hs _
  · split at h
    · exact Option.some.inj h ▸ exec_keeps hP hs _
    · split at h
      · next o' found =>
        obtain ⟨k, _, found⟩ := List.exists_of_findSome?_eq_some found
        exact Option.some.inj h ▸ State.keeps_chanStep hP hs found
      · simp only [] at h
        split at h
        · exact Option.some.inj h ▸ execMatrixBlockApply_keeps hP.toWritten hs
        · split at h
          · exact Option.some.inj h ▸ execMatrixOpStart_keeps hP.toWritten hs
          · exact State.keeps_sluiceStep hP hs h

theorem State.keeps_defaultStep : Keeps P s.defaultStep := by
  unfold State.defaultStep
  split
  · split
    · next s' h =>
      have moved := State.keeps_background hP hs h
      rw [keeps_next] at moved
      exact State.keeps_turn hP moved
    · exact keeps_fault ▸ trivial
    · exact keeps_refused ▸ trivial
    · exact State.keeps_turn hP hs
  · exact State.keeps_turn hP hs

theorem step_keeps : Keeps P (step s) := by
  unfold step
  split
  · exact State.keeps_defaultStep hP hs
  · refine State.keeps_choose hP ?_
    rw [State.on_mk, State.holds_parts]
    exact hs

end

/-- A property that bears writes to memory, and any context blocks, bears a change of strands in their blocks. -/
theorem State.on_changedBlocks {P : Parts → Prop} (bytes : ∀ (s : State) (a : Nat) (bs : List Byte), s.On P → (s.putBytes a bs).On P)
    (blocks : ∀ (p : Parts) (l : List Spilled), P p → P { p with spills := l }) {s : State} (hs : s.On P) (sel : Spilled → Bool)
    (f : Spilled → Spilled) : (s.modSpilled sel f).On P := by
  unfold State.modSpilled
  simp only []
  refine State.On.foldl (fun s (p : Spilled) hs => bytes s p.base p.block hs) _ ?_
  rw [State.on_mk]
  exact blocks _ _ hs

/-- The parts of a state have memory, its full words and those of every checkpoint in canonical form. -/
def Parts.MemOk (p : Parts) : Prop := Memory.wf p.mem = true ∧ natSorted p.full = true ∧ ∀ k ∈ p.checkpoints, k.2.MemOk

theorem State.on_memOk (s : State) : s.On Parts.MemOk = s.MemOk := rfl

theorem State.putBytes_on_memOk {s : State} (h : s.On Parts.MemOk) (a : Nat) (bs : List Byte) : (s.putBytes a bs).On Parts.MemOk :=
  ⟨memSetBytes_wf h.1 a bs, natInserts_sorted h.2.1 _, h.2.2⟩

/-- The canonical form of memory bears everything that a step may do. -/
theorem Parts.memOk_stepped : Parts.Stepped Parts.MemOk where
  spilled _ sel f h := State.on_changedBlocks (fun _ a bs h => State.putBytes_on_memOk h a bs) (fun _ _ h => h) h sel f
  map p f h := h
  filter p f h := h
  bytes s a bs h := State.putBytes_on_memOk h a bs
  sets p a b h := ⟨memSet_wf h.1 a b, h.2⟩
  clears p f h := ⟨memFilter_wf h.1 f, h.2⟩
  fills p k h := ⟨h.1, natInsert_sorted h.2.1 k, h.2.2⟩
  empties p f h := ⟨h.1, natFilter_sorted h.2.1 f, h.2.2⟩
  blocks p l h := h
  control p c d h := h
  drops p f h := ⟨h.1, h.2.1, fun k hk => h.2.2 k (List.mem_of_mem_filter hk)⟩
  saves p key k h hm hf := ⟨h.1, h.2.1, fun q hq => by
    rcases List.mem_append.mp hq with old | new
    · exact h.2.2 q old
    · rw [List.mem_singleton.mp new]
      exact ⟨hm ▸ h.1, hf ▸ h.2.1⟩⟩
  returns p k h hk := ⟨(h.2.2 k hk).1, (h.2.2 k hk).2, h.2.2⟩
  wipes p h := ⟨rfl, rfl, h.2.2⟩

/-- Settles O26: the canonical form of memory, of its full words and of the checkpoints is a property of the state's parts that bears everything that
a step may do. -/
theorem stepKeepsMemory : Obligations.StepKeepsMemory := by
  intro s t ok stepped
  have kept : Keeps Parts.MemOk (step s) := step_keeps Parts.memOk_stepped (s.on_memOk ▸ ok)
  exact t.on_memOk ▸ kept t stepped

end Sys2Proof.Machine
end

section
/-!
PROOF. Checkpoints and restores: what stops, what the copy holds, and what a completion leaves.
-/

namespace Sys2Proof.Machine

set_option Elab.async false

theorem State.near_abortTx (s : State) (x : SlotId) (reason : BitVec 8) (addr : Word) : s.Near (s.abortTx x reason addr) := by
  unfold State.abortTx
  (repeat' split) <;> rfl

theorem State.near_preempt (s : State) (x : SlotId) : s.Near (s.preempt x) := by
  unfold State.preempt
  split
  · exact State.Near.rfl' s
  · exact ((s.near_abortTx x 6 0).trans (State.near_dropRsv _ x)).trans (State.near_modStrand _ x _)

theorem State.near_requestPreempt (s : State) (x : SlotId) : s.Near (s.requestPreempt x) := by
  unfold State.requestPreempt
  split
  · exact State.Near.rfl' s
  · split
    · exact State.Near.rfl' s
    · split
      · exact s.near_modStrand x _
      · exact s.near_modStrand x _
      · exact State.Near.rfl' s
      · exact s.near_preempt x

theorem State.near_stopStrands (s : State) : s.Near s.stopStrands := by
  refine State.near_foldl _ (fun s x => ?_) _ s
  split
  · split
    · exact State.Near.rfl' s
    · split
      · exact s.near_preempt x
      · exact s.near_requestPreempt x
  · exact State.Near.rfl' s

/-- The control page and the checkpoints are these. -/
def Parts.Edges (c : Ctl) (k : List ((Nat × Nat) × Saved)) (p : Parts) : Prop := p.ctl = c ∧ p.checkpoints = k

/-- No write to memory changes the control page or a checkpoint. -/
theorem Parts.edges_written (c : Ctl) (k : List ((Nat × Nat) × Saved)) : Parts.Written (Parts.Edges c k) where
  spilled _ sel f h := @State.on_changedBlocks (Parts.Edges c k) (fun _ _ _ h => h) (fun _ _ h => h) _ h sel f
  map _ _ h := h
  filter _ _ h := h
  bytes _ _ _ h := h
  sets _ _ _ h := h
  clears _ _ h := h
  fills _ _ h := h
  empties _ _ h := h
  blocks _ _ h := h

theorem State.flushHeld_edges (s : State) : s.flushHeld.ctl = s.ctl ∧ s.flushHeld.checkpoints = s.checkpoints :=
  State.on_flushHeld (Parts.edges_written s.ctl s.checkpoints) (s := s) ⟨rfl, rfl⟩

theorem State.flushHeld_none {s : State} (none : s.heldWrites = []) : s.flushHeld = s := by
  have same : ({ s with heldWrites := [] } : State) = s := by rw [← none]
  simp [State.flushHeld, none, same]

theorem State.poke_hbm {s : State} {a : Nat} (hbm : s.region a = .hbm) (settled : s.redWords = []) (w : Option SlotId) (sup : Bool) (bs : List Byte) :
    s.poke w sup ⟨thisDev, a⟩ bs = s.store w a bs := by
  have folded : s.foldFor ⟨thisDev, a⟩ bs.length = s := by simp [State.foldFor, settled]
  obtain ⟨region, same⟩ : ∃ region, s.region = region := ⟨_, rfl⟩
  unfold State.poke
  rw [same] at hbm ⊢
  simp only [hbm, folded, bne_self_eq_false, Bool.false_eq_true, if_false]
  rfl

theorem State.served_hbm {s : State} {a : Nat} (hbm : s.region a = .hbm) : s.served ⟨thisDev, a⟩ = true := by
  obtain ⟨region, same⟩ : ∃ region, s.region = region := ⟨_, rfl⟩
  unfold State.served
  rw [same] at hbm ⊢
  simp only [hbm, bne_self_eq_false, Bool.false_or]

theorem State.store_heldWrites (s : State) (w : Option SlotId) (a : Nat) (bs : List Byte) : (s.store w a bs).heldWrites = s.heldWrites := by
  have near := State.near_notify ((s.lagWrite pathStrand 0 a bs.length []).putBytes a bs) w ⟨thisDev, a⟩ bs.length
  have stored : (s.store w a bs).heldWrites = ((s.lagWrite pathStrand 0 a bs.length []).putBytes a bs).heldWrites := by
    rw [State.store, near]
  rw [stored, State.putBytes_heldWrites, State.lagWrite_eq]

/-- A peer's store to HBM that no longer has to wait is performed. -/
theorem State.peerWaits_idle {s : State} {a : Nat} {bs : List Byte} (idle : s.ctl.ckpt = none) (hbm : s.region a = .hbm) :
    s.peerWaits ⟨a, .store bs⟩ = false := by
  rw [State.peerWaits, State.served_hbm hbm, idle]
  rfl

theorem State.peerPut_hbm {s : State} {a : Nat} {bs : List Byte} (hbm : s.region a = .hbm) (settled : s.redWords = []) :
    s.peerPut ⟨a, .store bs⟩ = s.store none a bs := by
  rw [State.peerPut]
  exact State.poke_hbm hbm settled none false bs

theorem State.flushHeld_one {s : State} {w : HeldWrite} (held : s.heldWrites = [w]) (goes : s.peerWaits w = false) :
    s.flushHeld = ({ s with heldWrites := [] } : State).peerPut w := by
  have now : (s.heldWrites.filter fun w => !s.peerWaits w) = [w] := by rw [held, List.filter_singleton, goes]; rfl
  have later : (s.heldWrites.filter fun w => s.peerWaits w) = [] := by rw [held, List.filter_singleton, goes]; rfl
  rw [State.flushHeld, now, later, List.foldl_cons, List.foldl_nil]

theorem State.flushHeld_store {s : State} {a : Nat} {bs : List Byte} (held : s.heldWrites = [⟨a, .store bs⟩]) (idle : s.ctl.ckpt = none)
    (hbm : s.region a = .hbm) (settled : s.redWords = []) : s.flushHeld.heldWrites = [] ∧ s.flushHeld.mem = memSetBytes s.mem a bs := by
  obtain ⟨t, is⟩ : ∃ t : State, t = { s with heldWrites := [] } := ⟨_, rfl⟩
  have region : t.region a = .hbm := (State.region_of_fuses (by rw [is]) (by rw [is]) a).trans hbm
  have folded : t.redWords = [] := by rw [is, settled]
  rw [State.flushHeld_one held (State.peerWaits_idle idle hbm), ← is, State.peerPut_hbm region folded, State.store_heldWrites, State.store_mem, is]
  exact ⟨rfl, rfl⟩

/-- The control page of a device that has ended a checkpoint or a restore. -/
def Ctl.ended (c : Ctl) (fail : Bool) (ms : BitVec 32) : Ctl :=
  { c with busy := false, ckpt := none, ckstat := BitVec.ofNat 64 (2 ^ 63 + (if fail then 2 ^ 62 else 0) + ms.toNat) }

/-- The copies beside the one that a checkpoint makes. -/
theorem find?_filter_key_append {α : Type} {l : List ((Nat × Nat) × α)} {key : Nat × Nat} {k : α} :
    ((l.filter fun q => q.1 != key) ++ [(key, k)]).find? (fun q => q.1 = key) = some (key, k) := by
  rw [List.find?_append, List.find?_eq_none.mpr]
  · simp
  · simp

theorem find?_filter_key {α : Type} {l : List ((Nat × Nat) × α)} {key : Nat × Nat} :
    (l.filter fun q => q.1 != key).find? (fun q => q.1 = key) = none := by
  simp

section
variable {s : State} {back tier : Bool} (runs : s.ctl.ckpt = some (back, tier)) (ms : BitVec 32)
include runs

theorem execCheckpointComplete_fails :
    execCheckpointComplete true ms s = .next (State.flushHeld { s with checkpoints := s.checkpoints.filter fun q => q.1 != s.ctl.ckKey tier, ctl := s.ctl.ended true ms }) := by
  simp only [execCheckpointComplete, runs, State.keptCheckpoints, if_true]
  rfl

theorem execCheckpointComplete_saves (saves : back = false) (quiet : s.quiet = true) :
    execCheckpointComplete false ms s = .next (State.flushHeld { s with
      checkpoints := (s.checkpoints.filter fun q => q.1 != s.ctl.ckKey tier) ++ [(s.ctl.ckKey tier, s.saved)], ctl := s.ctl.ended false ms }) := by
  simp only [execCheckpointComplete, runs, saves, quiet, Bool.false_eq_true, if_false, if_true]
  rfl

theorem execCheckpointComplete_restores {q : (Nat × Nat) × Saved} (restores : back = true)
    (found : s.checkpoints.find? (fun q => q.1 = s.ctl.ckKey tier) = some q) :
    execCheckpointComplete false ms s = .next (State.flushHeld { s.restored q.2 with ctl := s.ctl.ended false ms }) := by
  simp only [execCheckpointComplete, runs, restores, found, Bool.false_eq_true, if_false, if_true]
  rfl

theorem execCheckpointComplete_lost (restores : back = true) (lost : s.checkpoints.find? (fun q => q.1 = s.ctl.ckKey tier) = none) :
    execCheckpointComplete false ms s = .next (State.flushHeld { s with ctl := s.ctl.ended true ms }) := by
  simp only [execCheckpointComplete, runs, restores, lost, Bool.false_eq_true, if_false, if_true]
  rfl

end

/-- What a completion shows: the control page it ends on, and the copies as they then stand. -/
theorem State.flushHeld_ended (s : State) (fail : Bool) (ms : BitVec 32) (place : Nat × Nat) (c : Option Saved)
    (copies : (s.checkpoints.find? fun q => q.1 = place).map (fun q => q.2) = c) (ends : s.ctl = s.ctl.ended fail ms) :
    (s.flushHeld.checkpoints.find? fun q => q.1 = place).map (fun q => q.2) = c ∧ s.flushHeld.ctl.ckpt = none ∧ s.flushHeld.ctl.busy = false
      ∧ s.flushHeld.ctl.ckstat = BitVec.ofNat 64 (2 ^ 63 + (if fail then 2 ^ 62 else 0) + ms.toNat) := by
  obtain ⟨ctl, kept⟩ := s.flushHeld_edges
  rw [ctl, kept, ends]
  exact ⟨copies, rfl, rfl, rfl⟩

/-- Settles O30: CKCTL stops the strands and changes the control page alone; a completion writes the copy or reads it back, ends on the control page,
and then performs what has waited, which changes neither. -/
theorem checkpoints : Obligations.Checkpoints := by
  unfold Obligations.Checkpoints
  refine ⟨?starts, ?stops, ?waits, ?completes⟩
  case starts =>
    intro s tier ready idle
    have go : (!s.ctl.ready || s.ctl.ckpt.isSome) = false := by simp [ready, idle]
    constructor
    · exact ⟨{ s.stopStrands with ctl := { s.ctl with busy := true, ckpt := some (false, tier = 1) } },
        by show execCkctlGo tier s = _; rw [execCkctlGo, go, if_neg Bool.false_ne_true], rfl, s.near_stopStrands.mem⟩
    · exact ⟨{ s.stopStrands with ctl := { s.ctl with busy := true, ckpt := some (true, tier = 1) } },
        by show execCkctlRestore tier s = _; rw [execCkctlRestore, go, if_neg Bool.false_ne_true], rfl, s.near_stopStrands.mem⟩
  case stops =>
    intro s n runs user
    have stopped : s.stopped (s.turnSlot n) = true := by
      simp [State.stopped, runs, isSup]
      tauto
    simp [State.turn, stopped]
  case waits =>
    intro s r a bs agenda runs
    simp [step, agenda, State.choose, State.peerArrive, State.peerWaits, runs]
  case completes =>
    intro s back tier ms runs
    refine ⟨fun saves quiet => ?_, fun k restores found => ?_, fun restores lost => ?_, ?_⟩
    · have done := execCheckpointComplete_saves runs ms saves quiet
      generalize is : ({ s with
        checkpoints := (s.checkpoints.filter fun q => q.1 != s.ctl.ckKey tier) ++ [(s.ctl.ckKey tier, s.saved)]
        ctl := s.ctl.ended false ms } : State) = u at done
      obtain ⟨copied, ends⟩ := u.flushHeld_ended false ms (s.ctl.ckKey tier) (some s.saved) (by rw [← is, find?_filter_key_append]; rfl) (by rw [← is]; rfl)
      refine ⟨u.flushHeld, s.saved, done, copied, rfl, rfl, rfl, rfl, ends, fun none => ?_, fun a bs held hbm settled => ?_⟩
      · rw [State.flushHeld_none (by rw [← is, none]), ← is]
        exact ⟨rfl, rfl⟩
      · have stored := State.flushHeld_store (s := u) (a := a) (bs := bs) (by rw [← is, held]) (by rw [← is]; rfl)
          ((State.region_of_fuses (by rw [← is]) (by rw [← is]) a).trans hbm) (by rw [← is, settled])
        rw [stored.1, stored.2, ← is]
        exact ⟨rfl, rfl⟩
    · obtain ⟨q, copy, rfl⟩ := Option.map_eq_some_iff.mp found
      have done := execCheckpointComplete_restores runs ms restores copy
      generalize is : ({ s.restored q.2 with ctl := s.ctl.ended false ms } : State) = u at done
      obtain ⟨-, ends⟩ := u.flushHeld_ended false ms (s.ctl.ckKey tier) _ rfl (by rw [← is]; rfl)
      refine ⟨u.flushHeld, done, ends, fun none => ?_⟩
      rw [State.flushHeld_none (by rw [← is]; exact none), ← is]
      exact ⟨rfl, rfl, rfl, rfl⟩
    · have done := execCheckpointComplete_lost runs ms restores (Option.map_eq_none_iff.mp lost)
      generalize is : ({ s with ctl := s.ctl.ended true ms } : State) = u at done
      obtain ⟨-, ends⟩ := u.flushHeld_ended true ms (s.ctl.ckKey tier) _ rfl (by rw [← is]; rfl)
      exact ⟨u.flushHeld, done, ends⟩
    · have done := execCheckpointComplete_fails runs ms
      generalize is : ({ s with
        checkpoints := s.checkpoints.filter fun q => q.1 != s.ctl.ckKey tier
        ctl := s.ctl.ended true ms } : State) = u at done
      obtain ⟨gone, ends⟩ := u.flushHeld_ended true ms (s.ctl.ckKey tier) none (by rw [← is, find?_filter_key]; rfl) (by rw [← is]; rfl)
      refine ⟨u.flushHeld, done, gone, ends, fun none => ?_⟩
      rw [State.flushHeld_none (by rw [← is, none]), ← is]

end Sys2Proof.Machine
end

section
/-!
PROOF. The performance of accesses: what a home does to an access that may be performed, and what a write performed there leaves.
-/

namespace Sys2Proof.Machine

set_option Elab.async false

/-! ## Readers told of a write -/

/-- No strand in a context block awaits the result of access `id`. -/
def State.BlocksFree (s : State) (id : Nat) : Prop := ∀ p ∈ s.spills, ∀ l ∈ p.strand.longs, l.id ≠ id

/-- `t` is `s` after readers have been told of writes: strands, watches and the chunks in context blocks may differ. -/
structure State.Told (s t : State) : Prop where
  rest : t = { s with tiles := t.tiles, spills := t.spills, watches := t.watches }
  blocks : ∀ id, s.BlocksFree id → t.BlocksFree id

theorem State.Told.refl (s : State) : s.Told s := ⟨rfl, fun _ h => h⟩

theorem State.Told.trans {s t u : State} (h : s.Told t) (k : t.Told u) : s.Told u := by
  refine ⟨?_, fun id free => k.blocks id (h.blocks id free)⟩
  rw [k.rest, h.rest]

theorem State.told_modTile (s : State) (n : Nat) (f : Tile → Tile) : s.Told (s.modTile n f) := ⟨rfl, fun _ h => h⟩

theorem State.told_modStrand (s : State) (x : SlotId) (f : Strand → Strand) : s.Told (s.modStrand x f) := by
  rcases s.modStrand_cases x f with h | ⟨st, h⟩ <;> rw [h]
  · exact State.Told.refl s
  · exact s.told_modTile _ _

theorem State.told_foldl {α : Type} {f : State → α → State} (step : ∀ s a, State.Told s (f s a)) (l : List α) (s : State) : s.Told (l.foldl f s) := by
  induction l generalizing s with
  | nil => exact State.Told.refl s
  | cons a r ih => exact (step s a).trans (ih (f s a))

theorem State.told_wakeAt (s : State) (x : SlotId) (addr : Word) : s.Told (s.wakeAt x addr) := by
  refine State.told_foldl (fun s y => ?_) _ s
  dsimp only
  split
  · split
    · exact s.told_modStrand _ _
    · exact (s.told_modStrand _ _).trans (State.told_modTile _ _ _)
  · exact s.told_modStrand _ _

theorem State.told_notifyLine (s : State) (w : Option SlotId) (l : Loc) : s.Told (s.notifyLine w l) := by
  refine State.Told.trans ⟨rfl, fun id free p hp => ?_⟩
    (State.told_foldl (fun s p => State.told_foldl (fun s m => s.told_wakeAt _ _) _ s) _ _)
  obtain ⟨q, hq, rfl⟩ := List.mem_map.mp hp
  split
  · exact free q hq
  · exact free q hq

theorem State.told_notify (s : State) (w : Option SlotId) (l : Loc) (n : Nat) : s.Told (s.notify w l n) :=
  State.told_foldl (fun s l => s.told_notifyLine w l) _ s

/-! ## Writes performed -/

/-- `t` is `s` with bytes written at an address, its words full, and what its readers were told. -/
structure State.Wrote (s t : State) (A : Nat) (bs : List Byte) : Prop where
  mem : t.mem = memSetBytes s.mem A bs
  full : t.full = (wordsOf A bs.length).foldl natInsert s.full
  flight : t.flight = s.flight
  redWords : t.redWords = s.redWords
  blocks : ∀ id, s.BlocksFree id → t.BlocksFree id

theorem State.store_wrote (s : State) (w : Option SlotId) (A : Nat) (bs : List Byte) : s.Wrote (s.store w A bs) A bs := by
  have told := ((s.lagWrite pathStrand 0 A bs.length []).putBytes A bs).told_notify w ⟨thisDev, A⟩ bs.length
  have lag := s.lagWrite_eq pathStrand 0 A bs.length []
  have flight : (s.store w A bs).flight = s.flight := by
    rw [State.store, told.rest, State.putBytes_flight, lag]
  have redWords : (s.store w A bs).redWords = s.redWords := by
    rw [State.store, told.rest, State.putBytes_redWords, lag]
  refine ⟨s.store_mem w A bs _ _ _, s.store_full w A bs _ _ _, flight, redWords, fun id free => told.blocks id ?_⟩
  have blocks : ((s.lagWrite pathStrand 0 A bs.length []).putBytes A bs).spills = s.spills := by rw [State.putBytes_spills, lag]
  rw [State.BlocksFree, blocks]
  exact free

theorem State.Wrote.written {s t : State} {A : Nat} {bs : List Byte} (h : s.Wrote t A bs) : written s t A bs :=
  ⟨h.mem, fun w => by rw [h.full, mem_foldl_natInsert, mem_wordsOf]⟩

/-! ## Ends of an access -/

/-- Nothing changes where no context block is chosen. -/
theorem State.modSpilled_none {s : State} {sel : Spilled → Bool} (none : ∀ p ∈ s.spills, sel p = false) (f : Spilled → Spilled) :
    s.modSpilled sel f = s := by
  have chosen : s.spills.filter sel = [] := by simpa [List.filter_eq_nil_iff] using none
  have same : (s.spills.map fun p => if sel p then f (s.blockNow p) else p) = s.spills :=
    (List.map_congr_left (g := id) fun p hp => by simp [none p hp]).trans (List.map_id _)
  unfold State.modSpilled
  rw [chosen, same]
  rfl

/-- A change of the awaiting strand is one of its slot where no context block awaits the access. -/
theorem State.modOwner_rest {s : State} {id : Nat} (free : s.BlocksFree id) (who : SlotId) (f : Strand → Strand) :
    s.modOwner id who f = { s with tiles := (s.modOwner id who f).tiles } := by
  unfold State.modOwner
  dsimp only
  split
  · rcases s.modStrand_cases who f with h | ⟨st, h⟩ <;> rw [h]
    rfl
  · rw [State.modSpilled_none]
    intro p hp
    simp only [Bool.and_eq_false_iff, List.any_eq_false, decide_eq_true_eq]
    exact .inr (free p hp)

section
variable {s : State} {a : Access} (free : s.BlocksFree a.id)
include free

theorem State.dropAccess_mem : (s.dropAccess a).mem = s.mem := by
  rw [State.dropAccess, State.modOwner_rest free]

theorem State.dropAccess_full : (s.dropAccess a).full = s.full := by
  rw [State.dropAccess, State.modOwner_rest free]

theorem State.dropAccess_redWords : (s.dropAccess a).redWords = s.redWords := by
  rw [State.dropAccess, State.modOwner_rest free]

theorem State.dropAccess_spills : (s.dropAccess a).spills = s.spills := by
  rw [State.dropAccess, State.modOwner_rest free]

theorem State.dropAccess_flight : (s.dropAccess a).flight = s.flight.filter fun e => e.id != a.id := by
  rw [State.dropAccess, State.modOwner_rest free]

end

/-- An access without a destination, or with one that is z, is gone when it is performed. -/
theorem State.performed_void {s : State} {a : Access} (void : a.dest = none ∨ ∃ d, a.dest = some d ∧ d.spec = 41) (v : V128) :
    s.performed a v = s.dropAccess a := by
  unfold State.performed
  rcases void with none | ⟨d, dest, z⟩
  · rw [none]
  · rw [dest]
    exact if_pos z

theorem State.performed_value {s : State} {a : Access} {d : Dest} (dest : a.dest = some d) (named : d.spec ≠ 41) (v : V128) :
    s.performed a v = s.setAccess { a with done := true, value := v } := by
  unfold State.performed
  rw [dest]
  exact if_neg named

/-! ## An access that may be performed -/

theorem Access.readWords_sub {a : Access} {n w : Nat} (short : a.op.len ≤ n) (reads : w ∈ a.readWords) : w ∈ wordsOf a.loc.addr n := by
  unfold Access.readWords at reads
  split at reads
  · cases reads
  · have touched := (mem_wordsOf _ _ _).mp (List.mem_of_mem_filter reads)
    exact (mem_wordsOf _ _ _).mpr ⟨touched.1, by omega⟩

/-- An access meets no error in words that hold none. -/
theorem State.fixRead_whole {s : State} {a : Access} (whole : ∀ w ∈ a.readWords, w ∉ s.weakWords) : s.fixRead a = s := by
  unfold State.fixRead
  refine List.foldlRecOn (motive := fun t => t = s) _ _ rfl fun t same w hw => ?_
  rw [same]
  refine State.fixWords_of_noWeak (fun k hk => ?_) _
  have only : k = w := by have := (mem_wordsOf _ _ _).mp hk; omega
  exact only ▸ whole w hw

theorem State.padErr_whole {s : State} {a : Access} (whole : ∀ w ∈ a.readWords, w ∉ s.badWords) (err : ErrKind) : s.padErr a err = err := by
  unfold State.padErr
  rw [if_neg]
  simpa using whole

theorem State.perform_able {s : State} {a : Access} {n : Nat} (able : Performable s a n) (short : a.op.len ≤ n) (served : s.served a.loc = true)
    (answer : V128) : s.perform a .ok answer = s.effect a answer := by
  have whole (w : Nat) (reads : w ∈ a.readWords) := able.whole w (Access.readWords_sub short reads)
  unfold State.perform
  rw [able.ready, served, able.room, State.fixRead_whole fun w hw => (whole w hw).2]
  simp only [State.padErr_whole (fun w hw => (whole w hw).1), Bool.and_true, if_true]

theorem blocksFree_of_performable {s : State} {a : Access} {n : Nat} (able : Performable s a n) : s.BlocksFree a.id := able.spilled

/-- Where an access on this device is performed. -/
theorem State.performer_hbm {s : State} {a : Access} (here : a.loc.dev = thisDev) (hbm : s.region a.loc.addr = .hbm) : s.performer a = .home := by
  obtain ⟨region, same⟩ : ∃ region, s.region = region := ⟨_, rfl⟩
  unfold State.performer
  rw [same] at hbm ⊢
  simp only [here, hbm, bne_self_eq_false, Bool.false_eq_true, if_false]

theorem State.performer_pad {s : State} {a : Access} {t off : Nat} (here : a.loc.dev = thisDev) (pad : s.region a.loc.addr = .pad t off) :
    s.performer a = .window := by
  obtain ⟨region, same⟩ : ∃ region, s.region = region := ⟨_, rfl⟩
  unfold State.performer
  rw [same] at pad ⊢
  simp only [here, pad, bne_self_eq_false, Bool.false_eq_true, if_false]

theorem State.served_pad {s : State} {A t off : Nat} (pad : s.region A = .pad t off) (works : (s.tile t).testing = false) :
    s.served ⟨thisDev, A⟩ = true := by
  obtain ⟨region, same⟩ : ∃ region, s.region = region := ⟨_, rfl⟩
  unfold State.served
  rw [same] at pad ⊢
  simp only [pad, works, bne_self_eq_false, Bool.false_or, Bool.not_false]

/-- An access that a step may perform has its effect. -/
theorem State.performBy_able {s : State} {a : Access} {n : Nat} {p : Performer} (able : Performable s a n) (short : a.op.len ≤ n)
    (at_ : s.performer a = p) (served : s.served ⟨thisDev, a.loc.addr⟩ = true) {may : Performer → HomeStep → Bool}
    (allowed : may p a.op.homeStep = true) (answer : V128) : s.performBy a.id may .ok answer = s.effect a answer := by
  have place : a.loc = ⟨thisDev, a.loc.addr⟩ := by rw [← able.here]
  unfold State.performBy
  rw [able.flies]
  simp only [at_, allowed, if_true]
  exact State.perform_able able short (place ▸ served) answer

theorem State.performBy_home {s : State} {a : Access} {n : Nat} (able : Performable s a n) (short : a.op.len ≤ n)
    (hbm : s.region a.loc.addr = .hbm) {may : Performer → HomeStep → Bool} (allowed : may .home a.op.homeStep = true) (answer : V128) :
    s.performBy a.id may .ok answer = s.effect a answer :=
  State.performBy_able able short (State.performer_hbm able.here hbm) (State.served_hbm hbm) allowed answer

section
variable {s : State} {a : Access} {n : Nat} (able : Performable s a n) (short : a.op.len ≤ n)
include able short

theorem exec_storeBufferDrain_home (hbm : s.region a.loc.addr = .hbm) (is : a.op.homeStep = .store) :
    exec (.storeBufferDrain a.id) s = .next (s.effect a 0) := by
  show execStoreBufferDrain a.id s = _
  rw [execStoreBufferDrain, State.performBy_home able short hbm (by rw [is]; rfl)]

theorem exec_globalAccessPerformed_home (hbm : s.region a.loc.addr = .hbm) (is : a.op.homeStep = .plain) :
    exec (.globalAccessPerformed a.id .ok 0) s = .next (s.effect a 0) := by
  show execGlobalAccessPerformed a.id .ok 0 s = _
  rw [execGlobalAccessPerformed, State.performBy_home able short hbm (by rw [is]; rfl)]

theorem exec_homeAtomic_home (hbm : s.region a.loc.addr = .hbm) (is : a.op.homeStep = .atomic) :
    exec (.homeAtomic a.id .ok 0) s = .next (s.effect a 0) := by
  show execHomeAtomic a.id .ok 0 s = _
  rw [execHomeAtomic, State.performBy_home able short hbm (by rw [is]; rfl)]

theorem exec_fullEmptyRetest_home (hbm : s.region a.loc.addr = .hbm) (is : a.op.homeStep = .bit) :
    exec (.fullEmptyRetest a.id .ok 0) s = .next (s.effect a 0) := by
  show execFullEmptyRetest a.id .ok 0 s = _
  rw [execFullEmptyRetest, State.performBy_home able short hbm (by rw [is]; rfl)]

theorem exec_tileWindowAccess_pad {t off : Nat} (pad : s.region a.loc.addr = .pad t off) (works : (s.tile t).testing = false) :
    exec (.tileWindowAccess a.id .ok) s = .next (s.effect a 0) := by
  show execTileWindowAccess a.id .ok s = _
  rw [execTileWindowAccess, State.performBy_able able short (State.performer_pad able.here pad) (State.served_pad pad works) rfl]

end

/-- Bytes written to memory, where nothing has to be folded first. -/
theorem State.poke_memory {s : State} {l : Loc} {bs : List Byte} (here : l.dev = thisDev)
    (memory : s.region l.addr = .hbm ∨ ∃ t off, s.region l.addr = .pad t off) (settled : s.foldFor l bs.length = s) (w : Option SlotId) (sup : Bool) :
    s.poke w sup l bs = s.store w l.addr bs := by
  obtain ⟨dev, A⟩ := l
  subst here
  rcases memory with hbm | ⟨t, off, pad⟩
  · obtain ⟨region, same⟩ : ∃ region, s.region = region := ⟨_, rfl⟩
    unfold State.poke
    rw [same] at hbm ⊢
    simp only [hbm, settled, bne_self_eq_false, Bool.false_eq_true, if_false]
    rfl
  · exact State.poke_pad pad settled w sup

theorem State.effect_store {s : State} {a : Access} {bs : List Byte} (store : a.op = .store bs) (answer : V128) :
    s.effect a answer = (s.poke (s.writerOf a) (isSup a.who) a.loc bs).performed a 0 := by
  simp only [State.effect, store]

/-- Settles O31: a store's effect is its write, and the access is then gone. -/
theorem storesPerform : Obligations.StoresPerform := by
  intro s a bs able sound _ store dest
  have short : a.op.len ≤ bs.length := by rw [store]; exact le_rfl
  have effect (memory : s.region a.loc.addr = .hbm ∨ ∃ t off, s.region a.loc.addr = .pad t off) :
      written s (s.effect a 0) a.loc.addr bs ∧ (s.effect a 0).flight = s.flight.filter fun e => e.id != a.id := by
    have wrote := s.store_wrote (s.writerOf a) a.loc.addr bs
    have free := wrote.blocks a.id able.spilled
    rw [State.effect_store store, State.poke_memory able.here memory (State.foldFor_settled sound.2.1), State.performed_void (.inl dest)]
    refine ⟨⟨?_, ?_⟩, ?_⟩
    · rw [State.dropAccess_mem free, wrote.mem]
    · rw [State.dropAccess_full free]
      exact wrote.written.2
    · rw [State.dropAccess_flight free, wrote.flight]
  exact ⟨fun hbm => ⟨_, exec_storeBufferDrain_home able short hbm (by rw [store]; rfl), effect (.inl hbm)⟩,
    fun t off pad works => ⟨_, exec_tileWindowAccess_pad able short pad works, effect (.inr ⟨t, off, pad⟩)⟩⟩

end Sys2Proof.Machine
end

section
/-!
PROOF. LoadsPerform does not hold of every state: a reduction word that is folded into memory that is not in canonical form is not read as it was
written.
-/

namespace Sys2Proof.Machine

set_option Elab.async false

/-- A load of a reduction word at the end of HBM, with s31 as its destination. -/
def foldedLoad : Access :=
  ⟨3, ⟨0, .a, 0⟩, 0, 0, 0, .load 8 false, ⟨thisDev, 0xFFFFFFFFF8⟩, some ⟨false, 31⟩, 0, false, false, [], none, false, false, 0, none⟩

/-- The reduction word of integers there, with 251 to add. -/
def unfoldedWord : RedWord := ⟨0xFFFFFFFFF8, 2, [(0, 251)], 0⟩

/-- A device with that load in flight, on which the lowest byte of the word, 5, stands behind a byte of a higher address: no write of a 0 finds it. -/
def disordered : State :=
  { State.reset with flight := [foldedLoad], redWords := [unfoldedWord], mem := [(0x10000000000, 1), (0xFFFFFFFFF8, 5)] }

/-- The value that the load's step gives its access. -/
def firstValue (o : Host.Outcome State Fault Refusal) : Option V128 :=
  match o with
  | .next t => (t.flight.head?).map (·.value)
  | _ => none

theorem firstValue_disordered : firstValue (exec (.globalAccessPerformed foldedLoad.id .ok 0) disordered) = some 261 := by
  decide +kernel

theorem performable_disordered : Performable disordered foldedLoad 8 :=
  { flies := by decide +kernel, ready := by decide +kernel, room := by decide +kernel, plain := ⟨rfl, rfl, rfl⟩, here := rfl,
    whole := fun _ _ => ⟨List.not_mem_nil, List.not_mem_nil⟩, spilled := fun _ h => absurd h List.not_mem_nil }

/-- Refutes O32: in a memory list that is not in canonical form, here one whose addresses fall, a fold that writes the byte 0 does not remove the byte
that stands there; a load of the reduction word then finds 261 and not the sum, 5 + 251 = 256. -/
theorem not_loadsPerform : ¬ Obligations.LoadsPerform := by
  rintro ⟨-, -, folds, -⟩
  obtain ⟨t, runs, answered, -, -⟩ := folds disordered foldedLoad ⟨false, 31⟩ unfoldedWord rfl rfl (by decide) performable_disordered (by decide +kernel) rfl rfl
    rfl rfl (by decide) (2, fun x y => x + y) (by simp) rfl
  have value := firstValue_disordered
  rw [runs, firstValue, answered] at value
  revert value
  decide +kernel

end Sys2Proof.Machine
end

section
/-!
PROOF. Atomics, reservations and reduction words at their home (O33).
-/

namespace Sys2Proof.Machine

set_option Elab.async false

theorem sound_of_shorter {s : State} {A m n : Nat} (h : sound s A n) (short : m ≤ n) : sound s A m := by
  obtain ⟨whole, settled, apart⟩ := h
  refine ⟨fun w touched => whole w ?_, fun r hr => (settled r hr).imp_right fun h => h.imp_left fun h => by omega, fun k hk p hp => ?_⟩
  · have := (mem_wordsOf _ _ _).mp touched
    exact (mem_wordsOf _ _ _).mpr ⟨this.1, by omega⟩
  · have := apart k hk p hp
    omega

/-- What a place in HBM shows, read as it stands in memory. -/
theorem State.peek_hbm {s : State} {l : Loc} (here : l.dev = thisDev) (hbm : s.region l.addr = .hbm) (n : Nat) : s.peek l n = memBytes s.mem l.addr n := by
  obtain ⟨region, same⟩ : ∃ region, s.region = region := ⟨_, rfl⟩
  unfold State.peek
  rw [same] at hbm ⊢
  simp only [here, hbm, bne_self_eq_false, Bool.false_eq_true, if_false]
  rfl

/-- The old value of a read-modify-write of memory. -/
def State.oldWord (s : State) (a : Access) (op : AtomOp) : Word := BitVec.ofNat 64 (bytesToNat (memBytes s.mem a.loc.addr op.size))

section
variable {s : State} {a : Access} {op : AtomOp} {b : Word} {cmp : Option Word} (here : a.loc.dev = thisDev) (hbm : s.region a.loc.addr = .hbm)
  (snd : sound s a.loc.addr op.size)
include here hbm snd

/-- The read-modify-write of memory in which nothing is folded: it reads as no other path's write is missed, and writes unless its comparand differs. -/
theorem State.rmw_eq (answer : V128) {v : State} (is : v = { s with lags := lagsSeen s.lags pathStrand a.loc.addr op.size }) :
    s.rmw a op b cmp answer = if (cmp.isSome && cmp != some (s.oldWord a op)) = true then (s.oldWord a op, v)
      else (s.oldWord a op, v.store (v.writerOf a) a.loc.addr (natToBytes op.size (op.apply (s.oldWord a op) b).toNat)) := by
  obtain ⟨-, settled, apart⟩ := snd
  have region : v.region a.loc.addr = .hbm := (State.region_of_fuses (by rw [is]) (by rw [is]) _).trans hbm
  have old : BitVec.ofNat 64 (bytesToNat (v.peek a.loc op.size)) = s.oldWord a op := by rw [State.peek_hbm here region, is]; rfl
  have folded : v.foldFor a.loc (natToBytes op.size (op.apply (s.oldWord a op) b).toNat).length = v := by
    rw [natToBytes_length]
    exact State.foldFor_settled (by rw [is]; exact settled)
  have seen : (s.foldFor a.loc op.size).noteSeen a.uid a.loc.addr op.size = s := by
    rw [State.foldFor_settled settled, State.noteSeen_apart apart]
  have local_ : (a.loc.dev != thisDev) = false := by rw [here]; rfl
  unfold State.rmw
  simp only []
  rw [local_, seen, ← is, old, State.poke_memory here (.inl region) folded, if_neg Bool.false_ne_true]

/-- A read-modify-write of memory that writes. -/
theorem State.rmw_writes (agrees : cmp = none ∨ cmp = some (s.oldWord a op)) (answer : V128) :
    ∃ u, s.rmw a op b cmp answer = (s.oldWord a op, u)
      ∧ s.Wrote u a.loc.addr (natToBytes op.size (op.apply (s.oldWord a op) b).toNat) := by
  have passes : (cmp.isSome && cmp != some (s.oldWord a op)) = false := by
    rcases agrees with rfl | rfl
    · rfl
    · simp
  rw [State.rmw_eq here hbm snd answer rfl, passes]
  have wrote := State.store_wrote { s with lags := lagsSeen s.lags pathStrand a.loc.addr op.size }
    (State.writerOf { s with lags := lagsSeen s.lags pathStrand a.loc.addr op.size } a) a.loc.addr
    (natToBytes op.size (op.apply (s.oldWord a op) b).toNat)
  exact ⟨_, rfl, wrote.mem, wrote.full, wrote.flight, wrote.redWords, wrote.blocks⟩

/-- One whose comparand differs writes nothing. -/
theorem State.rmw_reads {c : Word} (differs : c ≠ s.oldWord a op) (answer : V128) :
    s.rmw a op b (some c) answer = (s.oldWord a op, { s with lags := lagsSeen s.lags pathStrand a.loc.addr op.size }) := by
  rw [State.rmw_eq here hbm snd answer rfl, if_pos]
  simpa using differs

end

/-! ## Ends -/

/-- A write that is performed and has a result to return. -/
theorem answers_of_wrote {s u : State} {a : Access} {A : Nat} {bs : List Byte} {d : Dest} (wrote : s.Wrote u A bs) (dest : a.dest = some d)
    (named : d.spec ≠ 41) (v : V128) : answered s (u.performed a v) a v ∧ written s (u.performed a v) A bs := by
  rw [State.performed_value dest named]
  exact ⟨by rw [answered, ← wrote.flight]; rfl, wrote.written⟩

/-- A write that is performed and has none. -/
theorem ends_of_wrote {s u : State} {a : Access} {A : Nat} {bs : List Byte} (wrote : s.Wrote u A bs) (free : s.BlocksFree a.id)
    (dest : a.dest = none) (v : V128) :
    (u.performed a v).flight = (s.flight.filter fun e => e.id != a.id) ∧ written s (u.performed a v) A bs := by
  have free := wrote.blocks a.id free
  rw [State.performed_void (.inl dest), State.dropAccess_flight free, wrote.flight]
  refine ⟨rfl, ?_, ?_⟩
  · rw [State.dropAccess_mem free, wrote.mem]
  · rw [State.dropAccess_full free]
    exact wrote.written.2

/-! ## Effects, operation by operation -/

section
variable {s : State} {a : Access} (answer : V128)

theorem State.effect_atom {op : AtomOp} {b cmp : Word} (is : a.op = .atom op b cmp) :
    s.effect a answer = (s.rmw a op b (if op = .cas then some cmp else none) answer).2.performed a
      ((s.rmw a op b (if op = .cas then some cmp else none) answer).1.setWidth 1024) := by
  simp only [State.effect, is]

theorem State.effect_atomn {op : AtomOp} {b : Word} (is : a.op = .atomn op b) (here : a.loc.dev = thisDev) (hbm : s.region a.loc.addr = .hbm)
    (plain : (s.redWords.any fun r => r.takes a.loc op) = false) : s.effect a answer = (s.rmw a op b none answer).2.performed a 0 := by
  obtain ⟨region, same⟩ : ∃ region, s.region = region := ⟨_, rfl⟩
  rw [same] at hbm
  simp only [State.effect, is, plain, Bool.false_eq_true, if_false, here, if_true, same, hbm]

theorem State.effect_atomn_red {op : AtomOp} {b : Word} (is : a.op = .atomn op b) (takes : (s.redWords.any fun r => r.takes a.loc op) = true) :
    s.effect a answer = (s.redUpdate a.loc.addr a.who.tile b).performed a 0 := by
  simp only [State.effect, is, takes, if_true]

theorem State.effect_joinDec (is : a.op = .joinDec) :
    s.effect a answer = (s.rmw a .add (BitVec.ofInt 64 (-1)) none answer).2.setAccess
      { a with done := true, value := (s.rmw a .add (BitVec.ofInt 64 (-1)) none answer).1.setWidth 1024 } := by
  simp only [State.effect, is]

theorem State.effect_redpReg {ty : Nat} (is : a.op = .redpReg ty) :
    s.effect a answer = (s.redRegister a ty answer).2.setAccess { a with done := true, value := BitVec.ofNat 1024 (s.redRegister a ty answer).1 } := by
  simp only [State.effect, is]

theorem State.effect_redpRel (is : a.op = .redpRel) (here : a.loc.dev = thisDev) (settled : s.foldFor a.loc 8 = s) :
    s.effect a answer = ({ s with redWords := s.redWords.filter fun r => r.addr != a.loc.addr } : State).setAccess { a with done := true } := by
  have kept : (s.redWords.filter fun r => !(a.loc.dev = thisDev && r.addr = a.loc.addr)) = s.redWords.filter fun r => r.addr != a.loc.addr :=
    List.filter_congr fun r _ => by simp [here, bne, beq_eq_decide]
  simp only [State.effect, is, settled, kept]

end

/-! ## Operations -/

theorem lesser_signed (p q : Word) : lesser true p q = decide (p.toInt < q.toInt) := rfl
theorem lesser_unsigned (p q : Word) : lesser false p q = decide (p.toNat < q.toNat) := rfl

/-- The operations of eight bytes that both forms of an atomic have, with what they write. -/
def AtomOp.table (old b : Word) : List (AtomOp × Word) :=
  [(.add, old + b), (.and, old &&& b), (.or, old ||| b), (.xor, old ^^^ b),
    (.min, if old.toInt ≤ b.toInt then old else b), (.max, if b.toInt ≤ old.toInt then old else b),
    (.minn, if old.toNat ≤ b.toNat then old else b), (.maxn, if b.toNat ≤ old.toNat then old else b),
    (.fadd64, BitVec.ofNat 64 (Fmt.f64.add .rne old.toNat b.toNat).1)]

theorem AtomOp.apply_table {old b : Word} {q : AtomOp × Word} (hq : q ∈ AtomOp.table old b) :
    q.1.size = 8 ∧ q.1 ≠ .cas ∧ q.1.apply old b = q.2 := by
  simp only [AtomOp.table, List.mem_cons, List.not_mem_nil, or_false] at hq
  rcases hq with rfl | rfl | rfl | rfl | rfl | rfl | rfl | rfl | rfl <;> refine ⟨rfl, nofun, ?_⟩
  case inr.inr.inr.inr.inl | inr.inr.inr.inr.inr.inl =>
    simp only [AtomOp.apply, lesser_signed, decide_eq_true_eq, ← Int.not_le, ite_not]
  case inr.inr.inr.inr.inr.inr.inl | inr.inr.inr.inr.inr.inr.inr.inl =>
    simp only [AtomOp.apply, lesser_unsigned, decide_eq_true_eq, ← Nat.not_le, ite_not]
  all_goals rfl

theorem natToBytes_four_word (v : Nat) : natToBytes 4 (BitVec.ofNat 64 v).toNat = natToBytes 4 v := by
  refine List.ext_getElem (by simp) fun i h _ => ?_
  rw [natToBytes_getElem, natToBytes_getElem, BitVec.toNat_ofNat]
  refine BitVec.eq_of_toNat_eq ?_
  rw [BitVec.toNat_ofNat, BitVec.toNat_ofNat]
  rw [natToBytes_length] at h
  have few : i = 0 ∨ i = 1 ∨ i = 2 ∨ i = 3 := by omega
  rcases few with rfl | rfl | rfl | rfl <;> omega

theorem memBytes_four_lt (m : List Host.Cell) (A : Nat) : bytesToNat (memBytes m A 4) < 2 ^ 32 := by
  have := bytesToNat_lt (memBytes m A 4)
  rwa [memBytes_length] at this

theorem setWidth_ofNat_of_lt {v : Nat} (h : v < 2 ^ 32) : (BitVec.ofNat 64 v).setWidth 1024 = BitVec.ofNat 1024 v := by
  refine BitVec.eq_of_toNat_eq ?_
  rw [BitVec.toNat_setWidth, BitVec.toNat_ofNat, BitVec.toNat_ofNat]
  omega

/-! ## Atomics -/

section
variable {s : State} {a : Access} {b : Word} (able : Performable s a 8) (snd : sound s a.loc.addr 8) (hbm : s.region a.loc.addr = .hbm)
include able snd hbm

theorem effect_atom_writes {op : AtomOp} {cmp : Word} {d : Dest} (is : a.op = .atom op b cmp) (short : op.size ≤ 8)
    (agrees : op = .cas → cmp = s.oldWord a op) (dest : a.dest = some d) (named : d.spec ≠ 41) :
    answered s (s.effect a 0) a ((s.oldWord a op).setWidth 1024)
      ∧ written s (s.effect a 0) a.loc.addr (natToBytes op.size (op.apply (s.oldWord a op) b).toNat) := by
  have passes : (if op = .cas then some cmp else none) = none ∨ (if op = .cas then some cmp else none) = some (s.oldWord a op) := by
    split
    · next cas => exact .inr (congrArg some (agrees cas))
    · exact .inl rfl
  obtain ⟨u, runs, wrote⟩ := State.rmw_writes (b := b) able.here hbm (sound_of_shorter snd short) passes 0
  rw [State.effect_atom 0 is, runs]
  exact answers_of_wrote wrote dest named _

theorem effect_cas_reads {cmp : Word} {d : Dest} (is : a.op = .atom .cas b cmp) (differs : cmp ≠ s.oldWord a .cas) (dest : a.dest = some d)
    (named : d.spec ≠ 41) : answered s (s.effect a 0) a ((s.oldWord a .cas).setWidth 1024) ∧ unwritten s (s.effect a 0) := by
  rw [State.effect_atom 0 is, if_pos rfl, State.rmw_reads able.here hbm (op := .cas) snd differs, State.performed_value dest named]
  exact ⟨rfl, rfl, rfl⟩

theorem effect_atomn_writes {op : AtomOp} (is : a.op = .atomn op b) (short : op.size ≤ 8) (dest : a.dest = none)
    (apart : ∀ r ∈ s.redWords, r.addr ≠ a.loc.addr) :
    ((s.effect a 0).flight = s.flight.filter fun e => e.id != a.id)
      ∧ written s (s.effect a 0) a.loc.addr (natToBytes op.size (op.apply (s.oldWord a op) b).toNat) := by
  have plain : (s.redWords.any fun r => r.takes a.loc op) = false := by
    simp only [List.any_eq_false]
    intro r hr
    simp [RedWord.takes, apart r hr]
  obtain ⟨u, runs, wrote⟩ := State.rmw_writes (b := b) able.here hbm (sound_of_shorter snd short) (.inl rfl) 0
  rw [State.effect_atomn 0 is able.here hbm plain, runs]
  exact ends_of_wrote wrote able.spilled dest 0

theorem effect_joinDec_writes (is : a.op = .joinDec) :
    answered s (s.effect a 0) a ((s.oldWord a .add).setWidth 1024)
      ∧ written s (s.effect a 0) a.loc.addr (natToBytes 8 (s.oldWord a .add - 1).toNat) := by
  obtain ⟨u, runs, wrote⟩ := State.rmw_writes (b := BitVec.ofInt 64 (-1)) (cmp := none) able.here hbm (op := .add) snd (.inl rfl) 0
  have less : AtomOp.add.apply (s.oldWord a .add) (BitVec.ofInt 64 (-1)) = s.oldWord a .add - 1 := by
    rw [BitVec.sub_eq_add_neg]
    rfl
  rw [State.effect_joinDec 0 is, runs]
  rw [less] at wrote
  exact ⟨by rw [answered, ← wrote.flight]; rfl, wrote.written⟩

end

/-! ## Reservations -/

/-- Bytes laid over others: each where it is named, the rest as they stand. -/
theorem overlaid_filterMap (bs : List Byte) (f : Nat → Option Byte) {n : Nat} (length : bs.length = n) :
    overlaid bs ((List.range n).filterMap fun i => (f i).map fun b => (i, b)) = (List.range n).map fun i => (f i).getD (bs.getD i 0) := by
  have laid (m : Nat) : overlaid bs ((List.range m).filterMap fun i => (f i).map fun b => (i, b))
      = (List.range n).map fun i => if i < m then (f i).getD (bs.getD i 0) else bs.getD i 0 := by
    induction m with
    | zero =>
      refine List.ext_getElem (by simp [overlaid, length]) fun i h _ => ?_
      simp only [List.range_zero, List.filterMap_nil, overlaid, List.foldl_nil] at h ⊢
      simp [h]
    | succ m ih =>
      have step : overlaid bs ((List.range (m + 1)).filterMap fun i => (f i).map fun b => (i, b))
          = match f m with
            | some b => ((List.range n).map fun i => if i < m then (f i).getD (bs.getD i 0) else bs.getD i 0).set m b
            | none => (List.range n).map fun i => if i < m then (f i).getD (bs.getD i 0) else bs.getD i 0 := by
        rw [← ih, List.range_succ, List.filterMap_append, overlaid, List.foldl_append]
        cases h : f m <;> simp [h, overlaid]
      rw [step]
      cases h : f m with
      | none =>
        refine List.map_congr_left fun i _ => ?_
        by_cases last : i = m
        · simp [last, h]
        · simp [show i < m + 1 ↔ i < m by omega]
      | some b =>
        refine List.ext_getElem (by simp) fun i _ _ => ?_
        rw [List.getElem_set]
        by_cases last : i = m
        · simp [last, h]
        · simp [show i ≤ m ↔ i < m by omega, show m ≠ i from Ne.symm last]
  rw [laid n]
  exact List.map_congr_left fun i hi => if_pos (List.mem_range.mp hi)

theorem memBytes_getD {m : List Host.Cell} {A n i : Nat} (inside : i < n) : (memBytes m A n).getD i 0 = memGet m (A + i) := by
  induction n generalizing A i with
  | zero => cases inside
  | succ n ih =>
    cases i with
    | zero => rfl
    | succ i =>
      rw [memBytes, List.getD_cons_succ, ih (by omega)]
      congr 1
      omega

section
variable {s : State} {a : Access} {b : Word} (able : Performable s a 8) (snd : sound s a.loc.addr 8) (hbm : s.region a.loc.addr = .hbm)
include able snd hbm

/-- What a read of memory here finds: memory's bytes, or those of a store of its core that waits. -/
theorem seen_found {n : Nat} (short : n ≤ 8) : bytesToNat (s.seen a n 0) = found s a n := by
  obtain ⟨-, -, apart⟩ := sound_of_shorter snd short
  have local_ : (a.loc.dev != thisDev) = false := by rw [able.here]; rfl
  have base : s.peekAs pathStrand a.loc n = memBytes s.mem a.loc.addr n := by
    rw [State.peekAs, if_pos able.here, State.peek_hbm able.here hbm]
    exact State.viewBytes_apart apart pathStrand
  have own : a.overlay = [] := able.plain.2.1
  unfold State.seen found
  simp only []
  rw [local_, base, own, if_neg Bool.false_ne_true, overlaid_filterMap _ _ (memBytes_length _ _ _)]
  refine congrArg bytesToNat (List.map_congr_left fun i hi => ?_)
  rw [memBytes_getD (List.mem_range.mp hi)]

omit hbm in
theorem readHere_sound {n : Nat} (short : n ≤ 8) : s.readHere a n = s := by
  obtain ⟨-, settled, apart⟩ := sound_of_shorter snd short
  rw [State.readHere, if_pos able.here, State.foldFor_settled settled, State.noteSeen_apart apart]

end

theorem State.pruneWatches_length (s : State) : s.pruneWatches.watches.length ≤ s.watches.length := List.length_filter_le _ _

/-- A home whose filter has room takes a watch, and nothing else changes. -/
theorem State.addWatch_room {s : State} (room : s.watches.length < 4096) (w : Watch) :
    (s.addWatch w).getD s = { s with watches := ((s.addWatch w).getD s).watches } := by
  unfold State.addWatch
  split
  · rfl
  · have short : (s.pruneWatches.watches.filter fun k => s.pruneWatches.homeKey k.line = s.pruneWatches.homeKey w.line).length < 4096 :=
      Nat.lt_of_le_of_lt (Nat.le_trans (List.length_filter_le _ _) s.pruneWatches_length) room
    dsimp only
    rw [if_pos short]
    rfl

theorem State.modStrand_watches (s : State) (x : SlotId) (f : Strand → Strand) : (s.modStrand x f).watches = s.watches := by
  rcases s.modStrand_cases x f with h | ⟨st, h⟩ <;> rw [h]
  rfl

theorem State.endRsv_watches_length (s : State) (x : SlotId) : (s.endRsv x).watches.length ≤ s.watches.length := List.length_filter_le _ _

theorem State.strand?_modStrand {s : State} {x : SlotId} {st : Strand} (here : s.strand? x = some st) (f : Strand → Strand) :
    (s.modStrand x f).strand? x = some (f st) := by
  rw [State.modStrand_of_strand here, State.strand?_setStrand]

theorem State.strand?_endRsv {s : State} {x : SlotId} {st : Strand} (here : s.strand? x = some st) :
    (s.endRsv x).strand? x = some { st with rsv := none } :=
  State.strand?_modStrand here _

theorem State.endRsv_rest (s : State) (x : SlotId) : s.endRsv x = { s with tiles := (s.endRsv x).tiles, watches := (s.endRsv x).watches } := by
  unfold State.endRsv
  rcases s.modStrand_cases x (fun st => { st with rsv := none }) with h | ⟨st, h⟩ <;> rw [h]
  rfl

section
variable {s : State} {a : Access} {b : Word} (able : Performable s a 8) (snd : sound s a.loc.addr 8) (hbm : s.region a.loc.addr = .hbm)
include able snd hbm

theorem effect_ldx {d : Dest} (is : a.op = .ldx) (dest : a.dest = some d) (named : d.spec ≠ 41) (room : s.watches.length < 4096) :
    answered s (s.effect a 0) a (BitVec.ofNat 1024 (found s a 8)) ∧ unwritten s (s.effect a 0)
      ∧ ∀ st, s.strand? a.who = some st → (s.effect a 0).strand? a.who = some { st with rsv := some a.loc } := by
  obtain ⟨r, ends⟩ : ∃ r, r = s.endRsv a.who := ⟨_, rfl⟩
  obtain ⟨q, rest⟩ : ∃ q, q = r.modStrand a.who fun st => { st with rsv := some a.loc } := ⟨_, rfl⟩
  have few : q.watches.length < 4096 := by
    rw [rest, State.modStrand_watches, ends]
    exact Nat.lt_of_le_of_lt (s.endRsv_watches_length a.who) room
  have kept : q.mem = s.mem ∧ q.full = s.full ∧ q.flight = s.flight := by
    rw [rest, State.modStrand_mem, State.modStrand_full, State.modStrand_flight, ends, State.endRsv_rest]
    exact ⟨rfl, rfl, rfl⟩
  obtain ⟨mem, full, flight⟩ := kept
  have effect : s.effect a 0 = ((q.addWatch ⟨thisDev, 1, a.loc.line, a.who.tile, a.who.member, a.loc.addr % 64 / 8, a.id⟩).getD q).setAccess
      { a with done := true, value := BitVec.ofNat 1024 (found s a 8) } := by
    simp only [State.effect, is, readHere_sound able snd (Nat.le_refl 8), seen_found able snd hbm (Nat.le_refl 8), ← ends, ← rest,
      State.performed_value dest named]
  rw [effect, State.addWatch_room few]
  refine ⟨by rw [answered, ← flight]; rfl, ⟨mem, full⟩, fun st here => ?_⟩
  show q.strand? a.who = _
  rw [rest]
  rw [State.strand?_modStrand (ends ▸ State.strand?_endRsv here)]

/-- Whether a watch is the reservation that an stx has to find. -/
def Access.reserves (a : Access) (w : Watch) : Bool :=
  w.dev = thisDev && w.kind = 1 && w.tile = a.who.tile && w.member = a.who.member && decide (w.ctx < a.id)

/-- The state in which no ldx of the strand that issued before the stx reserves any more, and which has given up the reservation that it found. -/
def State.spentFor (s : State) (a : Access) : State :=
  let s1 : State := { s with flight := s.flight.map fun e => e.unreserve a.who a.id }
  if (s.watches.find? a.reserves).isSome then s1.endRsv a.who else s1

omit snd hbm able in
theorem State.spentFor_rest (s : State) (a : Access) :
    s.spentFor a = { s with
      flight := s.flight.map fun e => e.unreserve a.who a.id
      tiles := (s.spentFor a).tiles
      watches := (s.spentFor a).watches } := by
  unfold State.spentFor
  dsimp only
  split
  · rw [State.endRsv_rest]
  · rfl

omit snd hbm in
/-- What an stx comes to at its home. -/
theorem effect_stx (is : a.op = .stx b) {holds : Bool}
    (reserved : (((s.watches.find? a.reserves).map fun w => w.line = a.loc.line && w.word = a.loc.addr % 64 / 8 && s.present a).getD false) = holds) :
    s.effect a 0 = if holds then ((s.spentFor a).poke ((s.spentFor a).writerOf a) (isSup a.who) a.loc (natToBytes 8 b.toNat)).performed a 0
      else (s.spentFor a).performed a 1 := by
  have local_ : (a.loc.dev != thisDev) = false := by rw [able.here]; rfl
  obtain ⟨mine, same⟩ : ∃ mine, s.watches.find? a.reserves = mine := ⟨_, rfl⟩
  have named : (s.watches.find? fun w =>
    w.dev = thisDev && w.kind = 1 && w.tile = a.who.tile && w.member = a.who.member && decide (w.ctx < a.id)) = mine := same
  rw [State.spentFor, same]
  rw [same] at reserved
  simp only [State.effect, is, named, local_, Bool.false_eq_true, if_false]
  cases mine with
  | none => rw [← reserved]; rfl
  | some w => rw [← reserved]; rfl

theorem effect_stx_holds {d : Dest} (is : a.op = .stx b) (dest : a.dest = some d) (named : d.spec ≠ 41) {w : Watch}
    (mine : s.watches.find? a.reserves = some w) (line : w.line = a.loc.line) (word : w.word = a.loc.addr % 64 / 8) (present : s.present a = true) :
    answered { s with flight := s.flight.map fun e => e.unreserve a.who a.id } (s.effect a 0) a 0
      ∧ written s (s.effect a 0) a.loc.addr (natToBytes 8 b.toNat) := by
  have rest := s.spentFor_rest a
  have region : (s.spentFor a).region a.loc.addr = .hbm := (State.region_of_fuses (by rw [rest]) (by rw [rest]) _).trans hbm
  have settled : (s.spentFor a).foldFor a.loc (natToBytes 8 b.toNat).length = s.spentFor a := by
    rw [natToBytes_length]
    exact State.foldFor_settled (by rw [rest]; exact snd.2.1)
  have wrote := (s.spentFor a).store_wrote ((s.spentFor a).writerOf a) a.loc.addr (natToBytes 8 b.toNat)
  rw [effect_stx able is (holds := true) (by rw [mine]; simp [line, word, present]), if_pos rfl, State.poke_memory able.here (.inl region) settled]
  obtain ⟨answers, mem, full⟩ := answers_of_wrote wrote dest named 0
  refine ⟨?_, ?_, ?_⟩
  · rw [answered, answers, rest]
  · rw [mem, rest]
  · have same : (s.spentFor a).full = s.full := by rw [rest]
    rwa [same] at full

omit snd hbm in
theorem effect_stx_fails {d : Dest} (is : a.op = .stx b) (dest : a.dest = some d) (named : d.spec ≠ 41)
    (lost : (((s.watches.find? a.reserves).map fun w => w.line = a.loc.line && w.word = a.loc.addr % 64 / 8 && s.present a).getD false) = false) :
    answered { s with flight := s.flight.map fun e => e.unreserve a.who a.id } (s.effect a 0) a 1 ∧ unwritten s (s.effect a 0) := by
  rw [effect_stx able is lost, if_neg Bool.false_ne_true, State.performed_value dest named, s.spentFor_rest a]
  exact ⟨rfl, rfl, rfl⟩

omit snd hbm in
theorem effect_redpReg_cases {ty : Nat} (is : a.op = .redpReg ty) :
    ∃ c : V128, answered s (s.effect a 0) a c ∧ unwritten s (s.effect a 0)
      ∧ (if ∃ r ∈ s.redWords, r.addr = a.loc.addr then c = 0x42 ∧ (s.effect a 0).redWords = s.redWords
        else if 64 ≤ (s.redWords.filter fun r => s.homeKey ⟨thisDev, r.addr⟩ = s.homeKey a.loc).length
        then c = 0x41 ∧ (s.effect a 0).redWords = s.redWords else c = 0 ∧ (s.effect a 0).redWords = s.redWords ++ [⟨a.loc.addr, ty, [], a.lid⟩]) := by
  have local_ : (a.loc.dev != thisDev) = false := by rw [able.here]; rfl
  have registered : (s.redWords.any fun r => r.addr = a.loc.addr) = true ↔ ∃ r ∈ s.redWords, r.addr = a.loc.addr := by simp
  rw [State.effect_redpReg 0 is, State.redRegister, local_, if_neg Bool.false_ne_true]
  by_cases known : ∃ r ∈ s.redWords, r.addr = a.loc.addr
  · rw [if_pos (registered.mpr known)]
    exact ⟨0x42, rfl, ⟨rfl, rfl⟩, by rw [if_pos known]; exact ⟨rfl, rfl⟩⟩
  · rw [if_neg (mt registered.mp known)]
    by_cases full : 64 ≤ (s.redWords.filter fun r => s.homeKey ⟨thisDev, r.addr⟩ = s.homeKey a.loc).length
    · rw [if_pos full]
      exact ⟨0x41, rfl, ⟨rfl, rfl⟩, by rw [if_neg known, if_pos full]; exact ⟨rfl, rfl⟩⟩
    · rw [if_neg full]
      exact ⟨0, rfl, ⟨rfl, rfl⟩, by rw [if_neg known, if_neg full]; exact ⟨rfl, rfl⟩⟩

omit hbm in
theorem effect_redpRel_released (is : a.op = .redpRel) :
    answered s (s.effect a 0) a a.value ∧ unwritten s (s.effect a 0) ∧ (s.effect a 0).redWords = s.redWords.filter fun r => r.addr != a.loc.addr := by
  rw [State.effect_redpRel 0 is able.here (State.foldFor_settled snd.2.1)]
  exact ⟨rfl, ⟨rfl, rfl⟩, rfl⟩

end

/-! ## Reduction words -/

theorem FlightOp.len_atom (op : AtomOp) (b cmp : Word) : (FlightOp.atom op b cmp).len ≤ 8 := by
  cases op <;> exact Nat.le_of_ble_eq_true rfl

theorem FlightOp.len_atomn (op : AtomOp) (b : Word) : (FlightOp.atomn op b).len ≤ 8 := by
  cases op <;> exact Nat.le_of_ble_eq_true rfl

/-- A reduction word with a value added to a tile's slot. -/
def RedWord.added (r : RedWord) (tile : Nat) (b : Word) : RedWord :=
  { r with slots := assocSet r.slots tile (match assocGet r.slots tile with | some v => redAdd r.ty v b | none => redAdd r.ty 0 b) }

theorem State.redUpdate_one {s : State} {r : RedWord} {addr : Nat} (only : s.redWords = [r]) (word : r.addr = addr) (tile : Nat) (b : Word) :
    (s.redUpdate addr tile b).redWords = [r.added tile b] := by
  simp only [State.redUpdate, only, List.map_cons, List.map_nil, word, if_true]
  rw [← word]
  rfl

theorem RedWord.added_slot (r : RedWord) (tile : Nat) (b : Word) :
    assocGet (r.added tile b).slots tile = some (redAdd r.ty ((assocGet r.slots tile).getD 0) b) := by
  rw [RedWord.added, assocGet_assocSet_same]
  cases assocGet r.slots tile <;> rfl

/-- An atomn of a reduction word's own operation goes to its tile's slot. -/
theorem effect_atomn_slot {s : State} {a : Access} {op : AtomOp} {b : Word} {r : RedWord} (able : Performable s a 8) (is : a.op = .atomn op b)
    (dest : a.dest = none) (only : s.redWords = [r]) (word : r.addr = a.loc.addr) (takes : r.takes a.loc op = true) {f : Word → Word → Word}
    (adds : redAdd r.ty = f) :
    ∃ r' : RedWord, unwritten s (s.effect a 0) ∧ (s.effect a 0).redWords = [r'] ∧ r'.addr = r.addr ∧ r'.ty = r.ty
      ∧ ((s.effect a 0).flight = s.flight.filter fun e => e.id != a.id)
      ∧ assocGet r'.slots a.who.tile = some (f ((assocGet r.slots a.who.tile).getD 0) b) := by
  have free : (s.redUpdate a.loc.addr a.who.tile b).BlocksFree a.id := able.spilled
  rw [State.effect_atomn_red 0 is (by rw [only]; simpa using takes), State.performed_void (.inl dest), State.dropAccess_flight free,
    State.dropAccess_redWords free]
  exact ⟨r.added a.who.tile b, ⟨State.dropAccess_mem free, State.dropAccess_full free⟩, State.redUpdate_one only word _ _, rfl, rfl, rfl,
    adds ▸ RedWord.added_slot r a.who.tile b⟩

/-- Settles O33: each operation's effect at the home, as its rules give it. -/
theorem atomicsPerform : Obligations.AtomicsPerform := by
  refine ⟨fun s a b r able hbm dest _ only word q hq ty is => ?_, fun s a able snd hbm => ?_⟩
  case refine_1 =>
    have short : a.op.len ≤ 8 := by rw [is]; exact FlightOp.len_atomn _ _
    have slot (adds : redAdd r.ty = q.2.2) (takes : r.takes a.loc q.2.1 = true) := effect_atomn_slot able is dest only word takes adds
    have runs := exec_homeAtomic_home able short hbm (by rw [is]; rfl)
    simp only [List.mem_cons, List.not_mem_nil, or_false] at hq
    rcases hq with rfl | rfl | rfl
    · obtain ⟨r', rest⟩ := slot (by rw [ty]; rfl) (by simp [RedWord.takes, able.here, word, ty])
      exact ⟨_, r', runs, rest⟩
    · obtain ⟨r', rest⟩ := slot (by rw [ty]; rfl) (by simp [RedWord.takes, able.here, word, ty])
      exact ⟨_, r', runs, rest⟩
    · obtain ⟨r', rest⟩ := slot (by rw [ty]; rfl) (by simp [RedWord.takes, able.here, word, ty])
      exact ⟨_, r', runs, rest⟩
  case refine_2 =>
    have runs (short : a.op.len ≤ 8) (is : a.op.homeStep = .atomic) := exec_homeAtomic_home able short hbm is
    have eight (op : AtomOp) (size : op.size = 8) : s.oldWord a op = BitVec.ofNat 64 (bytesToNat (memBytes s.mem a.loc.addr 8)) := by
      rw [State.oldWord, size]
    have few := setWidth_ofNat_of_lt (memBytes_four_lt s.mem a.loc.addr)
    have single (b : Word) : natToBytes 4 (AtomOp.fadd32.apply (s.oldWord a .fadd32) b).toNat
        = natToBytes 4 (Fmt.f32.add .rne (bytesToNat (memBytes s.mem a.loc.addr 4)) (b.toNat % 2 ^ 32)).1 := by
      have bits : (s.oldWord a .fadd32).toNat % 2 ^ 32 = bytesToNat (memBytes s.mem a.loc.addr 4) := by
        have := memBytes_four_lt s.mem a.loc.addr
        rw [State.oldWord, BitVec.toNat_ofNat]
        show bytesToNat (memBytes s.mem a.loc.addr 4) % 2 ^ 64 % 2 ^ 32 = _
        omega
      rw [AtomOp.apply, natToBytes_four_word, bits]
    refine ⟨fun b cmp d dest named => ⟨fun q hq is => ?_, fun is => ?_, fun is => ?_, fun is room => ?_, fun w is present mine => ?_, fun is lost => ?_⟩,
      fun b dest _ apart => ⟨fun q hq is => ?_, fun is => ?_⟩, fun is => ?_, fun ty is => ?_, fun is => ?_⟩
    · have table : q.1.size = 8 ∧ q.1 ≠ .cas ∧ q.1.apply (s.oldWord a q.1) b = q.2 := by
        rcases List.mem_cons.mp hq with rfl | listed
        · exact ⟨rfl, nofun, rfl⟩
        · obtain ⟨size, other, applies⟩ := AtomOp.apply_table listed
          exact ⟨size, other, by rw [eight _ size, applies]⟩
      obtain ⟨size, other, applies⟩ := table
      have effect := effect_atom_writes able snd hbm is (by rw [size]) (fun cas => absurd cas other) dest named
      rw [applies, size, eight _ size] at effect
      exact ⟨_, runs (by rw [is]; exact FlightOp.len_atom _ _ _) (by rw [is]; rfl), effect⟩
    · have effect := effect_atom_writes able snd hbm is (by decide) nofun dest named
      rw [show AtomOp.fadd32.size = 4 from rfl, single b] at effect
      refine ⟨_, runs (by rw [is]; exact FlightOp.len_atom _ _ _) (by rw [is]; rfl), ?_, effect.2⟩
      rw [← few]
      exact effect.1
    · refine ⟨_, runs (by rw [is]; exact le_rfl) (by rw [is]; rfl), ?_⟩
      by_cases same : s.oldWord a .cas = cmp
      · obtain ⟨answers, writes⟩ := effect_atom_writes able snd hbm is (by decide) (fun _ => same.symm) dest named
        exact ⟨answers, by rw [if_pos (eight .cas rfl ▸ same)]; exact writes⟩
      · obtain ⟨answers, reads⟩ := effect_cas_reads able snd hbm is (Ne.symm same) dest named
        exact ⟨answers, by rw [if_neg (eight .cas rfl ▸ same)]; exact reads⟩
    · exact ⟨_, runs (by rw [is]; exact le_rfl) (by rw [is]; rfl), effect_ldx able snd hbm is dest named room⟩
    · have stands := runs (by rw [is]; exact le_rfl) (by rw [is]; rfl)
      by_cases there : w.line = a.loc.line ∧ w.word = a.loc.addr % 64 / 8
      · rw [if_pos there]
        exact ⟨_, stands, effect_stx_holds able snd hbm is dest named mine there.1 there.2 present⟩
      · rw [if_neg there]
        refine ⟨_, stands, effect_stx_fails able is dest named ?_⟩
        have mine : s.watches.find? a.reserves = some w := mine
        rw [mine]
        simpa [present] using there
    · refine ⟨_, runs (by rw [is]; exact le_rfl) (by rw [is]; rfl), effect_stx_fails able is dest named ?_⟩
      rcases lost with none | gone
      · rw [List.find?_eq_none.mpr fun w hw => by simp [Access.reserves, none w hw]]
        rfl
      · cases s.watches.find? a.reserves <;> simp [gone]
    · obtain ⟨size, -, applies⟩ := AtomOp.apply_table hq
      have effect := effect_atomn_writes able snd hbm is (by rw [size]) dest apart
      rw [eight _ size, applies, size] at effect
      exact ⟨_, runs (by rw [is]; exact FlightOp.len_atomn _ _) (by rw [is]; rfl), effect⟩
    · have effect := effect_atomn_writes able snd hbm is (by decide) dest apart
      rw [show AtomOp.fadd32.size = 4 from rfl, single b] at effect
      exact ⟨_, runs (by rw [is]; exact FlightOp.len_atomn _ _) (by rw [is]; rfl), effect⟩
    · exact ⟨_, runs (by rw [is]; exact le_rfl) (by rw [is]; rfl), effect_joinDec_writes able snd hbm is⟩
    · obtain ⟨c, effect⟩ := effect_redpReg_cases able is
      exact ⟨_, c, runs (by rw [is]; exact le_rfl) (by rw [is]; rfl), effect⟩
    · exact ⟨_, runs (by rw [is]; exact le_rfl) (by rw [is]; rfl), effect_redpRel_released able snd is⟩

end Sys2Proof.Machine
end

section
/-!
PROOF. ldc and stp at their home (O34): served, or registered there to wait.
-/

namespace Sys2Proof.Machine

set_option Elab.async false

/-! ## Registering at a home -/

theorem State.told_evictWatch (s : State) (w : Watch) : s.Told (s.evictWatch w) := by
  have dropped : s.Told { s with watches := s.watches.filter fun k => k != w } := ⟨rfl, fun _ h => h⟩
  unfold State.evictWatch
  simp only []
  split
  · exact dropped
  · refine dropped.trans (State.told_foldl (fun s e => ?_) _ _)
    split
    · exact s.told_wakeAt _ _
    · exact s.told_modStrand _ _

theorem State.told_pruneWatches (s : State) : s.Told s.pruneWatches := ⟨rfl, fun _ h => h⟩

/-- A watch that a home takes stands there, and memory and what is in flight are as they were. -/
theorem State.told_addWatch {s t : State} {w : Watch} (added : s.addWatch w = some t) :
    s.Told t ∧ ∃ k ∈ t.watches, k.dev = w.dev ∧ k.kind = w.kind ∧ k.ctx = w.ctx := by
  unfold State.addWatch at added
  split at added
  · next listed =>
    cases added
    obtain ⟨k, hk, same⟩ := List.any_eq_true.mp listed
    simp only [Bool.and_eq_true, decide_eq_true_eq] at same
    exact ⟨State.Told.refl s, k, hk, same.1.1.1.1.1, same.1.1.1.1.2, same.2⟩
  · obtain ⟨u, room, rfl⟩ := Option.map_eq_some_iff.mp added
    have told : s.Told u := by
      split at room
      · cases room
        exact s.told_pruneWatches
      · obtain ⟨k, -, rfl⟩ := Option.map_eq_some_iff.mp room
        exact s.told_pruneWatches.trans (State.told_evictWatch _ k)
    exact ⟨told.trans ⟨rfl, fun _ h => h⟩, w, List.mem_append.mpr (.inr (List.mem_singleton.mpr rfl)), rfl, rfl, rfl⟩

theorem State.region_hbm_iff (s : State) (a : Nat) : s.region a = .hbm ↔ a < 0x10000000000 := by
  constructor
  · intro hbm
    by_contra above
    unfold State.region at hbm
    rw [if_neg above] at hbm
    split at hbm
    · simp only [] at hbm
      split at hbm
      · cases hbm
      · split at hbm <;> cases hbm
    · (repeat' split at hbm) <;> cases hbm
  · exact fun below => if_pos below

theorem homeOf_line (a : Nat) : homeOf (a / 64 * 64) = homeOf a := by
  have low (k m : Nat) : a / 64 * 64 / (64 * k) % m = a / (64 * k) % m := by
    rw [← Nat.div_div_eq_div_mul, ← Nat.div_div_eq_div_mul, Nat.mul_div_cancel _ (by decide)]
  exact congrArg₂ Nat.xor (congrArg₂ Nat.xor (low 1 1024) (low 0x400 1024)) (congrArg₂ Nat.xor (low 0x100000 1024) (low 0x40000000 16))

theorem State.homeKey_hbm {s : State} {l : Loc} (here : l.dev = thisDev) (hbm : s.region l.addr = .hbm) : s.homeKey l = (0, homeOf l.addr) := by
  obtain ⟨region, same⟩ : ∃ region, s.region = region := ⟨_, rfl⟩
  unfold State.homeKey
  rw [same] at hbm ⊢
  simp only [here, hbm, bne_self_eq_false, Bool.false_eq_true, if_false]

theorem State.homeKey_of_fuses {s t : State} (rows : t.fusedRows = s.fusedRows) (cols : t.fusedCols = s.fusedCols) (l : Loc) :
    t.homeKey l = s.homeKey l := by
  simp only [State.homeKey, State.region_of_fuses rows cols]

/-- A home takes no watch only while every entry of its filter is pending. -/
theorem State.addWatch_none {s : State} {w : Watch} (none : s.addWatch w = none) :
    4096 ≤ (s.pruneWatches.watches.filter fun k => s.pruneWatches.homeKey k.line = s.pruneWatches.homeKey w.line).length
      ∧ ∀ k ∈ s.pruneWatches.watches.filter fun k => s.pruneWatches.homeKey k.line = s.pruneWatches.homeKey w.line, ¬ k.kind < 2 := by
  unfold State.addWatch at none
  split at none
  · cases none
  · have full := Option.map_eq_none_iff.mp none
    split at full
    · cases full
    · next many =>
      refine ⟨Nat.not_lt.mp many, fun k hk low => ?_⟩
      have least := List.find?_eq_none.mp (Option.map_eq_none_iff.mp full) k hk
      simp [low] at least

/-- The room that an ldc or a stp finds at its home. -/
theorem State.room_of_asks {s : State} {a : Access} (room : s.hasRoom a = true) (asks : a.op = .ldc ∨ ∃ v, a.op = .stp v) :
    (s.pruneWatches.watches.filter fun k => s.homeKey k.line = s.homeKey a.loc).length < 4096 ∨ s.waitsAtHome a = true
      ∨ ∃ k ∈ s.pruneWatches.watches.filter fun k => s.homeKey k.line = s.homeKey a.loc, k.kind < 2 := by
  have found : (decide ((s.pruneWatches.watches.filter fun k => s.homeKey k.line = s.homeKey a.loc).length < 4096) || s.waitsAtHome a
      || (s.pruneWatches.watches.filter fun k => s.homeKey k.line = s.homeKey a.loc).any fun k => decide (k.kind < 2)) = true := by
    rcases asks with is | ⟨v, is⟩ <;> simpa only [State.hasRoom, is, Bool.or_true, Bool.not_true, Bool.false_or] using room
  simpa only [Bool.or_eq_true, decide_eq_true_eq, List.any_eq_true, or_assoc] using found

/-- An access that must wait is registered at its home, which has room for it. -/
theorem waits_waitAt {s : State} {a : Access} (able : Performable s a 8) (hbm : s.region a.loc.addr = .hbm)
    (asks : a.op = .ldc ∨ ∃ v, a.op = .stp v) {kind : Nat} (waiting : 2 ≤ kind) :
    unwritten s (s.waitAt a kind) ∧ (s.waitAt a kind).waitsAtHome a = true ∧ (s.waitAt a kind).flight = s.flight := by
  obtain ⟨w, is⟩ : ∃ w : Watch, w = ⟨thisDev, kind, a.loc.line, a.who.tile, a.who.member, a.loc.addr % 64 / 8, a.id⟩ := ⟨_, rfl⟩
  rw [State.waitAt, ← is]
  cases h : s.addWatch w with
  | some t =>
    obtain ⟨told, k, hk, dev, kind_, ctx⟩ := State.told_addWatch h
    have rest := told.rest
    refine ⟨⟨by rw [Option.getD_some, rest], by rw [Option.getD_some, rest]⟩, ?_, by rw [Option.getD_some, rest]⟩
    rw [is] at dev kind_ ctx
    exact List.any_eq_true.mpr ⟨k, hk, by simp [dev, kind_, ctx, waiting]⟩
  | none =>
    refine ⟨⟨rfl, rfl⟩, ?_, rfl⟩
    have full := State.addWatch_none h
    have key : s.pruneWatches.homeKey w.line = s.homeKey a.loc := by
      have line : w.line = a.loc.line := by rw [is]
      have below : a.loc.line.addr < 0x10000000000 := Nat.lt_of_le_of_lt (Nat.div_mul_le_self _ _) ((s.region_hbm_iff _).mp hbm)
      have at_line := State.homeKey_hbm (s := s.pruneWatches) (l := a.loc.line) able.here ((State.region_hbm_iff _ _).mpr below)
      rw [line, at_line, State.homeKey_hbm able.here hbm]
      exact congrArg _ (homeOf_line _)
    have same : (fun k : Watch => decide (s.pruneWatches.homeKey k.line = s.homeKey a.loc)) = fun k => decide (s.homeKey k.line = s.homeKey a.loc) :=
      funext fun k => by rw [State.homeKey_of_fuses (s := s) (t := s.pruneWatches) rfl rfl]
    rw [key, same] at full
    rcases State.room_of_asks able.room asks with few | waits | ⟨k, hk, low⟩
    · exact absurd few (Nat.not_lt.mpr full.1)
    · exact waits
    · exact absurd low (full.2 k hk)

/-! ## Served, or not -/

section
variable {s : State} {a : Access} {kind : Nat}

theorem State.queuedBefore_of_first (first : ∀ e ∈ s.watches, e.kind = kind ∧ e.line = a.loc.line ∧ e.word = a.loc.addr / 8 % 8 → e.dev = thisDev ∧ e.ctx = a.id) :
    s.queuedBefore a kind = false := by
  rw [State.queuedBefore, List.any_eq_false]
  intro e he there
  have listed : e ∈ s.watches := (List.takeWhile_sublist _).subset he
  have before := List.mem_takeWhile_imp he
  simp only [Bool.and_eq_true, decide_eq_true_eq] at there
  obtain ⟨⟨k, line⟩, word⟩ := there
  obtain ⟨dev, ctx⟩ := first e listed ⟨k, line, by omega⟩
  simp [dev, k, ctx] at before

theorem State.queuedBefore_of_behind {e : Watch} {r : List Watch} (watches : s.watches = e :: r)
    (there : e.kind = kind ∧ e.line = a.loc.line ∧ e.word = a.loc.addr / 8 % 8) (other : ¬ (e.dev = thisDev ∧ e.ctx = a.id)) :
    s.queuedBefore a kind = true := by
  obtain ⟨k, line, word⟩ := there
  have before : (!(e.dev = thisDev && e.kind = kind && e.ctx = a.id)) = true := by
    simp only [Bool.not_eq_true', Bool.and_eq_false_iff, decide_eq_false_iff_not]
    by_cases dev : e.dev = thisDev
    · exact .inr fun ctx => other ⟨dev, ctx⟩
    · exact .inl (.inl dev)
  have place : e.word = a.loc.addr % 64 / 8 := by omega
  rw [State.queuedBefore, watches, List.takeWhile_cons, if_pos before, List.any_cons]
  simp [k, line, place]

/-- The strands that an access may be of: the one in its slot, and those in context blocks, of its number. -/
def State.OwnerOf (s : State) (a : Access) (st : Strand) : Prop := (s.strand? a.who = some st ∨ ∃ p ∈ s.spills, p.strand = st) ∧ st.uid = a.uid

theorem State.outOfPlace_iff : s.outOfPlace a = true ↔
    ∃ st, s.OwnerOf a st ∧ st.chunk ≠ none ∧ ∃ l, s.launch? st.lid = some l ∧ l.lanePos ≠ st.lane := by
  have out (st : Strand) : (st.uid = a.uid && st.chunk.isSome && ((s.launch? st.lid).map fun l => decide (l.lanePos ≠ st.lane)).getD false) = true
      ↔ st.uid = a.uid ∧ st.chunk ≠ none ∧ ∃ l, s.launch? st.lid = some l ∧ l.lanePos ≠ st.lane := by
    cases h : s.launch? st.lid <;> simp [Option.isSome_iff_ne_none, and_assoc]
  have slot (f : Strand → Bool) : ((s.strand? a.who).map f).getD false = true ↔ ∃ st, s.strand? a.who = some st ∧ f st = true := by
    cases s.strand? a.who <;> simp
  unfold State.outOfPlace
  simp only [Bool.or_eq_true, slot, List.any_eq_true, out]
  constructor
  · rintro (⟨st, here, uid, rest⟩ | ⟨p, hp, uid, rest⟩)
    · exact ⟨st, ⟨.inl here, uid⟩, rest⟩
    · exact ⟨p.strand, ⟨.inr ⟨p, hp, rfl⟩, uid⟩, rest⟩
  · rintro ⟨st, ⟨here | ⟨p, hp, rfl⟩, uid⟩, rest⟩
    · exact .inl ⟨st, here, uid, rest⟩
    · exact .inr ⟨p, hp, uid, rest⟩

theorem State.outOfPlace_of_placed (placed : ∀ st, s.OwnerOf a st → st.chunk = none ∨ ∀ l ∈ s.launches, l.lid = st.lid → l.lanePos = st.lane) :
    s.outOfPlace a = false := by
  rw [Bool.eq_false_iff]
  intro out
  obtain ⟨st, owner, lane, l, launch, early⟩ := State.outOfPlace_iff.mp out
  rcases placed st owner with plain | there
  · exact lane plain
  · exact early (there l (List.mem_of_find?_eq_some launch) (by simpa using List.find?_some launch))

end

/-! ## Their effects -/

theorem State.emptyWord_flight (s : State) (w : Option SlotId) (k : Nat) : (s.emptyWord w k).flight = s.flight := by
  rw [State.emptyWord, (State.told_notify _ _ _ _).rest]

section
variable {s : State} {a : Access} (able : Performable s a 8) (snd : sound s a.loc.addr 8) (hbm : s.region a.loc.addr = .hbm)
include able

omit able in
theorem State.fullAt_here (here : a.loc.dev = thisDev) (plain : a.ovFull = none) :
    s.fullAt a 0 = s.isFull a.loc.addr := by
  have local_ : (a.loc.dev != thisDev) = false := by rw [here]; rfl
  rw [State.fullAt, plain]
  simp [local_]

include snd hbm

/-- An ldc at its home: the word taken and left empty, or the request registered. -/
theorem effect_ldc (is : a.op = .ldc) : s.effect a 0
    = if (s.isFull a.loc.addr && !s.queuedBefore a 2 && !s.outOfPlace a) = true
      then (s.emptyWord (s.writerOf a) (a.loc.addr / 8)).performed a (BitVec.ofNat 1024 (found s a 8)) else s.waitAt a 2 := by
  obtain ⟨outside, -, plain⟩ := able.plain
  simp only [State.effect, is, readHere_sound able snd (Nat.le_refl 8), outside, Bool.false_eq_true, if_false, State.fullAt_here able.here plain,
    seen_found able snd hbm (Nat.le_refl 8), able.here, if_true]

/-- A stp at its home: the word written and left full, or the request registered. -/
theorem effect_stp {v : Word} (is : a.op = .stp v) : s.effect a 0
    = if (s.isFull a.loc.addr || s.queuedBefore a 3 || s.outOfPlace a) = true then s.waitAt a 3
      else (s.store (s.writerOf a) a.loc.addr (natToBytes 8 v.toNat)).performed a 0 := by
  obtain ⟨-, -, plain⟩ := able.plain
  have settled : s.foldFor a.loc 8 = s := State.foldFor_settled snd.2.1
  have pokes : s.poke (s.writerOf a) (isSup a.who) a.loc (natToBytes 8 v.toNat) = s.store (s.writerOf a) a.loc.addr (natToBytes 8 v.toNat) :=
    State.poke_memory able.here (.inl hbm) (by rw [natToBytes_length]; exact settled) _ _
  simp only [State.effect, is, settled, State.fullAt_here able.here plain, pokes]

end

/-- Settles O34: ldc and stp find their word, and what stands before them there, and are served or registered. -/
theorem fullEmptyWords : Obligations.FullEmptyWords := by
  intro s a able snd hbm aligned run w there first behind waits owner placed early
  have full : s.isFull a.loc.addr = true ↔ w ∈ s.full := by simp [State.isFull, w]
  have later (k : Nat) (h : behind k) : s.queuedBefore a k = true := by
    obtain ⟨e, r, watches, at_, other⟩ := h
    exact State.queuedBefore_of_behind watches at_ other
  have out (h : early) : s.outOfPlace a = true := State.outOfPlace_iff.mpr h
  refine ⟨fun d is dest named => ⟨fun holds ahead turn => ?_, fun must => ?_⟩, fun v is dest _ => ⟨fun must => ?_, fun holds ahead turn => ?_⟩⟩
  all_goals have runs := exec_fullEmptyRetest_home able (by rw [is]; exact le_rfl) hbm (by rw [is]; rfl)
  · have serves : (s.isFull a.loc.addr && !s.queuedBefore a 2 && !s.outOfPlace a) = true := by
      rw [full.mpr holds, State.queuedBefore_of_first ahead, State.outOfPlace_of_placed turn]
      rfl
    rw [effect_ldc able snd hbm is, if_pos serves, State.performed_value dest named] at runs
    refine ⟨_, runs, ?_, State.emptyWord_mem _ _ _, fun k => ?_⟩
    · rw [answered, ← s.emptyWord_flight (s.writerOf a) (a.loc.addr / 8)]
      rfl
    · show k ∈ (s.emptyWord (s.writerOf a) (a.loc.addr / 8)).full ↔ _
      rw [State.emptyWord_full, List.mem_filter, bne_iff_ne]
  · have stays : (s.isFull a.loc.addr && !s.queuedBefore a 2 && !s.outOfPlace a) ≠ true := by
      rcases must with empty | h | h
      · simp [Bool.eq_false_iff.mpr (mt full.mp empty)]
      · simp [later 2 h]
      · simp [out h]
    rw [effect_ldc able snd hbm is, if_neg stays] at runs
    exact ⟨_, runs, waits_waitAt able hbm (.inl is) (Nat.le_refl 2)⟩
  · have stays : (s.isFull a.loc.addr || s.queuedBefore a 3 || s.outOfPlace a) = true := by
      rcases must with taken | h | h
      · simp [full.mpr taken]
      · simp [later 3 h]
      · simp [out h]
    rw [effect_stp able snd hbm is, if_pos stays] at runs
    exact ⟨_, runs, waits_waitAt able hbm (.inr ⟨v, is⟩) (by decide)⟩
  · have serves : (s.isFull a.loc.addr || s.queuedBefore a 3 || s.outOfPlace a) ≠ true := by
      rw [Bool.eq_false_iff.mpr (mt full.mp holds), State.queuedBefore_of_first ahead, State.outOfPlace_of_placed turn]
      decide
    rw [effect_stp able snd hbm is, if_neg serves] at runs
    have ends := ends_of_wrote (s.store_wrote (s.writerOf a) a.loc.addr (natToBytes 8 v.toNat)) able.spilled dest 0
    exact ⟨_, runs, ends.2, ends.1⟩

end Sys2Proof.Machine
end

section
/-!
PROOF. redp.reg and redp.rel (O23): the request, the hold, and what its answer comes to.
-/

namespace Sys2Proof.Machine

set_option Elab.async false

/-! ## The owner of an access -/

theorem slots_ne_of_strands {s : State} {x y : SlotId} (differ : s.strand? x ≠ s.strand? y) : x.tile ≠ y.tile ∨ x.member ≠ y.member := by
  by_contra same
  rw [not_or, not_not, not_not] at same
  exact differ (by rw [State.strand?, State.strand?, same.1, same.2])

/-- A strand that awaits no result of an access is left by what is done for the access's owner. -/
theorem State.strand?_modOwner {s : State} {id : Nat} {x : SlotId} {st : Strand} (free : s.BlocksFree id) (here : s.strand? x = some st)
    (unmarked : ∀ l ∈ st.longs, l.id ≠ id) (who : SlotId) (f : Strand → Strand) : (s.modOwner id who f).strand? x = some st := by
  unfold State.modOwner
  dsimp only
  split
  · next marked =>
    obtain ⟨k, there, mine⟩ := Option.map_eq_some_iff.mp marked
    obtain ⟨l, hl, is⟩ := List.any_eq_true.mp mine
    have other : s.strand? who ≠ s.strand? x := by
      intro same
      rw [same, here] at there
      cases there
      exact unmarked l hl (by simpa using is)
    rw [State.modStrand_of_strand there, State.strand?_setStrand_other _ _ (slots_ne_of_strands other), here]
  · rw [State.modSpilled_none, here]
    intro p hp
    simp only [Bool.and_eq_false_iff, List.any_eq_false, decide_eq_true_eq]
    exact .inr (free p hp)

theorem State.strand?_dropAccess {s : State} {e : Access} {x : SlotId} {st : Strand} (free : s.BlocksFree e.id) (here : s.strand? x = some st)
    (unmarked : ∀ l ∈ st.longs, l.id ≠ e.id) : (s.dropAccess e).strand? x = some st :=
  (State.strand?_of_tiles (show (s.dropAccess e).tiles
    = (s.modOwner e.id e.who fun st => { st with longs := st.longs.filter fun l => l.id != e.id }).tiles from rfl) x).trans
    (State.strand?_modOwner free here unmarked e.who _)

/-! ## The two words -/

/-- What redp's words name. -/
def redpUses (a : Spec) : Uses := { srcs := [(0, false, a)], access := true, aborts := true }

section
variable {s : State} {st : Strand} {m : Bool} {op : FlightOp} {a : Spec} (clear : s.Clear st (redpUses a))
include clear

/-- The answer 0 completes the word. -/
theorem redp_completes {id : Nat} {e : Access} (held : st.run = .held (.home id)) (flies : (s.flight.find? fun k => k.id = id) = some e)
    (done : e.done = true) (zero : e.value = 0) (unmarked : ∀ l ∈ st.longs, l.id ≠ e.id) (free : s.BlocksFree e.id) :
    s.redp m op a = .next ((s.dropAccess e).setStrand s.cur (st.after m (st.regs.pc + 4))) := by
  refine (State.issue_clear clear m _).trans ?_
  simp only [held, flies, done, zero, Bool.not_true, Bool.false_eq_true, if_false, if_true]
  rw [State.finish_ok (State.strand?_dropAccess free clear.here unmarked)]

/-- Any other answer is the code of the resource fault. -/
theorem redp_fails {id : Nat} {e : Access} (held : st.run = .held (.home id)) (flies : (s.flight.find? fun k => k.id = id) = some e)
    (done : e.done = true) (code : e.value ≠ 0) :
    s.redp m op a = .next (((s.dropAccess e).faultTurn s.cur 4 (codeWord e.value.toNat (st.rs a).toNat) st.regs.pc).modStrand s.cur fun st =>
      st.afterMark m) := by
  refine (State.issue_clear clear m _).trans ?_
  simp only [held, flies, done, code, Bool.not_true, Bool.false_eq_true, if_false]
  rfl

/-- A word that is issued sends its request and holds its strand. -/
theorem redp_sends {p : Loc} {tr : Leaf} (ready : st.run = .ready) (aligned : (st.rs a).toNat % 8 = 0)
    (place : s.translate s.cur.tile st.regs.ptroot st.sup (st.rs a) .rw = .at_ p tr) :
    s.redp m op a = .next ((s.send s.cur st op p none 4 false false (some tr)).setStrand s.cur
      { st.awaiting s.nextId none false with run := .held (.home s.nextId), mark := m }) := by
  refine (State.issue_clear clear m _).trans ?_
  simp only [ready, State.globalAddr_at aligned place, Got.act]
  rw [State.finish_hold (State.strand?_send clear.here st op p none 4 false false (some tr)) m (by nofun)]

end

/-! ## The fault of an answer -/

theorem Strand.afterMark_held {st : Strand} {k : Hold} (held : st.run = .held k) (m : Bool) : st.afterMark m = st := by
  rw [Strand.afterMark, held]

theorem Strand.afterMark_out {st : Strand} (out : st.run = .out) (m : Bool) : st.afterMark m = st := by
  rw [Strand.afterMark, out]

theorem Strand.afterMark_ready {st : Strand} (ready : st.run = .ready) (returned : st.longs = []) (m : Bool) : st.afterMark m = st := by
  rw [Strand.afterMark, ready, returned]
  simp

theorem State.strand?_modStrand_map (s : State) (x : SlotId) (f : Strand → Strand) : (s.modStrand x f).strand? x = (s.strand? x).map f := by
  cases here : s.strand? x with
  | none => rw [State.modStrand, here, here, Option.map_none]
  | some st => rw [State.strand?_modStrand here, Option.map_some]

theorem State.abortTx_outside {s : State} {x : SlotId} {st : Strand} (here : s.strand? x = some st) (outside : st.inTx = false) (reason : BitVec 8)
    (addr : Word) : s.abortTx x reason addr = s := by
  cases tx : st.tx with
  | none => exact State.abortTx_closed here tx reason addr
  | some t =>
    have empty : t.levels = [] := by simpa [Strand.inTx, Strand.depth, tx] using outside
    simp [State.abortTx, here, tx, empty]

/-- A strand without results to come that takes a fault does not park. -/
theorem faultTurn_afterMark {s : State} {x : SlotId} {st st' : Strand} (here : s.strand? x = some st) (returned : st.longs = [])
    (outside : st.inTx = false) {code : Nat} (detail epc : Word) (m : Bool)
    (after : (s.faultTurn x code detail epc).strand? x = some st') : st'.afterMark m = st' := by
  rw [State.faultTurn, here] at after
  simp only [] at after
  split at after
  · rw [State.takeFault, here] at after
    simp only [returned, List.isEmpty_nil, Bool.not_true, Bool.false_or] at after
    split at after
    · rw [State.strand?_setStrand] at after
      cases after
      exact Strand.afterMark_held rfl m
    · split at after
      · rw [State.takeSup] at after
        split at after
        · rw [State.strand?_modStrand_map, State.abortTx_outside here outside, State.strand?_dropRsv here] at after
          cases after
          refine Strand.afterMark_ready ?_ ?_ m
          · rfl
          · exact returned
        · rw [State.strand?, (State.tile_fence _ _).2] at after
          cases after
      · rw [State.takeUser, State.strand?_modTile_same _ _ _ fun t => t.queueEvent_strands _, State.strand?_modStrand_map] at after
        obtain ⟨k, -, rfl⟩ := Option.map_eq_some_iff.mp after
        exact Strand.afterMark_out rfl m
  · rw [State.strand?_setStrand] at after
    cases after
    exact Strand.afterMark_held rfl m

theorem State.modStrand_fixed {s : State} {x : SlotId} {f : Strand → Strand} (fixed : ∀ st, s.strand? x = some st → f st = st) :
    (s.modStrand x f).strand? x = s.strand? x := by
  rw [State.strand?_modStrand_map]
  cases here : s.strand? x with
  | none => rfl
  | some st => rw [Option.map_some, fixed st here]

/-- Memory is this, and no strand lies in a context block. -/
def Parts.Bare (m : List Host.Cell) (p : Parts) : Prop := p.mem = m ∧ p.spills = []

/-- With no context block a change of strands there changes nothing. -/
theorem Parts.bare_bears (m : List Host.Cell) : Parts.Bears (Parts.Bare m) where
  spilled s sel f h := by
    have none : s.spills = [] := h.2
    rw [State.modSpilled_none (by rw [none]; exact fun _ hp => absurd hp List.not_mem_nil)]
    exact h
  map p f h := ⟨h.1, by rw [h.2]; rfl⟩
  filter p f h := ⟨h.1, by rw [h.2]; rfl⟩

/-! ## The request performed -/

theorem State.modStrand_rest (s : State) (x : SlotId) (f : Strand → Strand) : s.modStrand x f = { s with tiles := (s.modStrand x f).tiles } := by
  rcases s.modStrand_cases x f with h | ⟨st, h⟩ <;> rw [h]
  rfl

/-- What sending an access changes. -/
theorem State.send_rest (s : State) (x : SlotId) (st : Strand) (op : FlightOp) (l : Loc) (dest : Option Dest) (kind : Nat) (rel acq : Bool)
    (tr : Option Leaf) : s.send x st op l dest kind rel acq tr = { s with
      tiles := (s.send x st op l dest kind rel acq tr).tiles
      flight := (s.send x st op l dest kind rel acq tr).flight
      nextId := (s.send x st op l dest kind rel acq tr).nextId } := by
  unfold State.send
  simp only []
  rw [State.modStrand_rest]
  rfl

/-- What the home does for redp's request changes that access and the reduction words alone. -/
theorem State.effect_redp_rest {s : State} {a : Access} (redp : a.op = .redpRel ∨ ∃ ty, a.op = .redpReg ty) (here : a.loc.dev = thisDev)
    (settled : s.foldFor a.loc 8 = s) :
    s.effect a 0 = { s with flight := (s.effect a 0).flight, redWords := (s.effect a 0).redWords } := by
  rcases redp with is | ⟨ty, is⟩
  · rw [State.effect_redpRel 0 is here settled]
    rfl
  · rw [State.effect_redpReg 0 is, State.redRegister]
    (repeat' split) <;> rfl

/-- The request of a redp word as it flies. -/
def redpRequest (s : State) (st : Strand) (op : FlightOp) (p : Loc) (tr : Leaf) : Access :=
  ⟨s.nextId, s.cur, st.lid, st.sid, st.uid, op, p, none, 4, false, false, [], none, false, false, 0, some tr⟩

/-- A device whose only access in flight is a redp request to memory here may perform it. -/
theorem performable_redp {s t : State} {st : Strand} {op : FlightOp} {p : Loc} {tr : Leaf} (redp : op = .redpRel ∨ ∃ ty, op = .redpReg ty)
    (flight : t.flight = [redpRequest s st op p tr]) (here : p.dev = thisDev) (whole : ∀ w ∈ wordsOf p.addr 8, w ∉ t.badWords ∧ w ∉ t.weakWords)
    (none : t.spills = []) : Performable t (redpRequest s st op p tr) 8 where
  flies := by rw [flight]; simp
  ready := by
    have first : (t.flight.takeWhile fun e => e.id != (redpRequest s st op p tr).id) = [] := by rw [flight]; simp
    rcases redp with rfl | ⟨ty, rfl⟩ <;> (rw [State.readyNow, first]; rfl)
  room := by rcases redp with rfl | ⟨ty, rfl⟩ <;> rfl
  plain := ⟨rfl, rfl, rfl⟩
  here := here
  whole := whole
  spilled := by rw [none]; exact fun _ h => absurd h List.not_mem_nil

section
variable {s : State} {st : Strand} {m : Bool} {op : FlightOp} {a : Spec} {p : Loc} {tr : Leaf} (clear : s.Clear st (redpUses a))
  (redp : op = .redpRel ∨ ∃ ty, op = .redpReg ty) (ready : st.run = .ready) (plain : st.chunk = none) (aligned : (st.rs a).toNat % 8 = 0)
  (place : s.translate s.cur.tile st.regs.ptroot st.sup (st.rs a) .rw = .at_ p tr)
include clear ready plain aligned place

/-- The word as it is issued: what flies, how its strand is held, and what else may differ. -/
theorem redp_issued : ∃ t : State, s.redp m op a = .next t ∧ t.flight = s.flight ++ [redpRequest s st op p tr]
    ∧ t.strand? s.cur = some { st with run := .held (.home s.nextId), mark := m }
    ∧ t = { s with tiles := t.tiles, flight := t.flight, nextId := t.nextId } := by
  have outside : st.inTx = false := clear.outside rfl
  refine ⟨_, redp_sends clear ready aligned place, ?_, ?_, ?_⟩
  · rw [State.setStrand_flight, State.send_flight _ _ _ _ _ _ _ _ _ outside plain]
    rfl
  · rw [State.strand?_setStrand]
    simp [Strand.awaiting]
  · rw [State.send_rest]
    rfl

include redp

/-- Sent to memory here with nothing before it, answered with 0 and executed again, the word is complete. -/
theorem redp_runs (here : p.dev = thisDev) (hbm : s.region p.addr = .hbm) (snd : sound s p.addr 8) (idle : s.flight = []) (bare : s.spills = [])
    (unmarked : ∀ l ∈ st.longs, l.id ≠ s.nextId) {words : List RedWord}
    (serves : ∀ t : State, t.redWords = s.redWords → Performable t (redpRequest s st op p tr) 8 → sound t p.addr 8 →
      answered t (t.effect (redpRequest s st op p tr) 0) (redpRequest s st op p tr) 0 ∧ unwritten t (t.effect (redpRequest s st op p tr) 0)
        ∧ (t.effect (redpRequest s st op p tr) 0).redWords = words) :
    ∃ t u v : State, s.redp m op a = .next t ∧ exec (.homeAtomic s.nextId .ok 0) t = .next u ∧ u.redp m op a = .next v ∧ unwritten s v
      ∧ v.strand? s.cur = some ({ st with mark := m }.after m (st.regs.pc + 4)) ∧ v.flight = [] ∧ v.redWords = words := by
  obtain ⟨t, issued, flies, held, rest⟩ := redp_issued (m := m) (op := op) clear ready plain aligned place
  rw [idle, List.nil_append] at flies
  have still : sound t p.addr 8 := by rw [rest]; exact snd
  have able := performable_redp redp flies here still.1 (by rw [rest, bare])
  have region : t.region p.addr = .hbm := (State.region_of_fuses (by rw [rest]) (by rw [rest]) _).trans hbm
  obtain ⟨answers, writes, red⟩ := serves t (by rw [rest]) able still
  have performs := exec_homeAtomic_home able (by rcases redp with rfl | ⟨ty, rfl⟩ <;> exact le_rfl) region
    (by rcases redp with rfl | ⟨ty, rfl⟩ <;> rfl)
  have kept := State.effect_redp_rest (s := t) (a := redpRequest s st op p tr) redp here (State.foldFor_settled still.2.1)
  generalize t.effect (redpRequest s st op p tr) 0 = u at answers writes red performs kept
  have cur : u.cur = s.cur := by rw [kept, rest]
  have again : u.Clear { st with run := .held (.home s.nextId), mark := m } (redpUses a) := by
    have strand : u.strand? u.cur = t.strand? s.cur := by rw [cur]; exact State.strand?_of_tiles (by rw [kept]) _
    exact { clear with here := strand.trans held, chunk := by rw [Strand.chunkStop, plain] }
  have free (id : Nat) : u.BlocksFree id := by
    have none : u.spills = [] := by rw [kept, rest, bare]
    rw [State.BlocksFree, none]
    exact fun _ h => absurd h List.not_mem_nil
  have landed : u.flight = [{ redpRequest s st op p tr with done := true, value := 0 }] := by
    rw [answers, flies, List.map_cons, List.map_nil, if_pos rfl]
  have ends := redp_completes (m := m) (op := op) again rfl (e := { redpRequest s st op p tr with done := true, value := 0 })
    (by rw [landed]; simp [redpRequest]) rfl rfl unmarked (free _)
  refine ⟨t, u, _, issued, performs, ends, ⟨?_, ?_⟩, ?_, ?_, ?_⟩
  · show (u.dropAccess _).mem = s.mem
    rw [State.dropAccess_mem (free _), writes.1, rest]
  · show (u.dropAccess _).full = s.full
    rw [State.dropAccess_full (free _), writes.2, rest]
  · rw [cur, State.strand?_setStrand]
    rfl
  · show (u.dropAccess _).flight = []
    rw [State.dropAccess_flight (free _), landed]
    simp
  · show (u.dropAccess _).redWords = words
    rw [State.dropAccess_redWords (free _), red]

end

/-- Settles O23: a redp word sends its request and is held; the answer 0 completes it, any other is the fault's code. -/
theorem reductionWords : Obligations.ReductionWords := by
  intro s st m ty a clear ea completes fails sends runs
  have clear : s.Clear st (redpUses a) := clear
  have outside : st.inTx = false := clear.outside rfl
  have ends (i : Instr) (op : FlightOp) (is : ∀ t : State, exec i t = t.redp m op a) : completes i := by
    intro id e held flies done zero unmarked free
    have free : s.BlocksFree e.id := free
    refine ⟨_, (is s).trans (redp_completes clear held flies done zero unmarked free), State.dropAccess_flight free, State.strand?_setStrand _ _ _,
      State.dropAccess_mem free⟩
  have faults (i : Instr) (op : FlightOp) (is : ∀ t : State, exec i t = t.redp m op a) : fails i := by
    intro id e held flies done code returned bare
    have free : s.BlocksFree e.id := by rw [State.BlocksFree, bare]; exact fun _ h => absurd h List.not_mem_nil
    have here := State.strand?_dropAccess free clear.here (by rw [returned]; exact fun _ h => absurd h List.not_mem_nil)
    have on : (s.dropAccess e).On (Parts.Bare s.mem) := ⟨State.dropAccess_mem free, (State.dropAccess_spills free).trans bare⟩
    refine ⟨_, (is s).trans (redp_fails clear held flies done code), ?_, ?_⟩
    · rw [State.modStrand_mem]
      exact (State.on_faultTurn (Parts.bare_bears s.mem) on).1
    · rw [State.modStrand_fixed fun st' after => faultTurn_afterMark here returned outside _ _ m after]
      rfl
  have issues (i : Instr) (op : FlightOp) (is : ∀ t : State, exec i t = t.redp m op a) : sends i op := by
    intro p tr ready plain aligned place
    obtain ⟨t, issued, flies, held, -⟩ := redp_issued (m := m) (op := op) clear ready plain aligned place
    exact ⟨t, (is s).trans issued, flies, held⟩
  have serves (i : Instr) (op : FlightOp) (is : ∀ t : State, exec i t = t.redp m op a) (redp : op = .redpRel ∨ ∃ ty, op = .redpReg ty)
      (words : Nat → List RedWord) (answers : ∀ (t : State) (p : Loc) (tr : Leaf), t.redWords = s.redWords →
        Performable t (redpRequest s st op p tr) 8 → sound t p.addr 8 →
        answered t (t.effect (redpRequest s st op p tr) 0) (redpRequest s st op p tr) 0 ∧ unwritten t (t.effect (redpRequest s st op p tr) 0)
          ∧ (t.effect (redpRequest s st op p tr) 0).redWords = words p.addr) : runs i words := by
    intro p tr ready plain aligned place here hbm snd idle bare unmarked
    obtain ⟨t, u, v, issued, performed, complete, rest⟩ := redp_runs (m := m) clear redp ready plain aligned place here hbm snd idle bare unmarked
      fun t words able still => answers t p tr words able still
    exact ⟨t, u, v, (is s).trans issued, performed, (is u).trans complete, rest⟩
  refine ⟨ends _ (.redpReg ty.toNat) fun _ => rfl, ends _ .redpRel fun _ => rfl, faults _ (.redpReg ty.toNat) fun _ => rfl, faults _ .redpRel fun _ => rfl,
    issues _ _ fun _ => rfl, issues _ _ fun _ => rfl, fun none => serves (.redpReg m ty a) (.redpReg ty.toNat) (fun _ => rfl) (.inr ⟨_, rfl⟩)
      (fun A => [⟨A, ty.toNat, [], st.lid⟩]) ?_,
    serves (.redpRel m a) .redpRel (fun _ => rfl) (.inl rfl) (fun A => s.redWords.filter fun r => r.addr != A) ?_⟩
  · intro t p tr words able still
    obtain ⟨c, answers, writes, registers⟩ := effect_redpReg_cases able (ty := ty.toNat) rfl
    rw [words, none] at registers
    simp only [List.not_mem_nil, false_and, exists_false, if_false, List.filter_nil, List.length_nil, List.nil_append,
      show ¬ 64 ≤ 0 by decide] at registers
    obtain ⟨rfl, registered⟩ := registers
    exact ⟨answers, writes, registered⟩
  · intro t p tr words able still
    obtain ⟨answers, writes, released⟩ := effect_redpRel_released able still rfl
    exact ⟨answers, writes, released.trans (by rw [words]; rfl)⟩

end Sys2Proof.Machine
end

section
/-!
PROOF. Semaphores and lock rings: what a tile holds beside its strands and its weir is as it was when readers have been told of a write.
-/

namespace Sys2Proof.Machine

set_option Elab.async false

/-! ## A part of a tile that no notice of a write touches -/

/-- The part `f` of a tile is neither its weir nor its strands. -/
def Tile.Apart {α : Type} (f : Tile → α) : Prop := ∀ (t : Tile) w k, f { t with weir := w, strands := k } = f t

section
variable {α : Type} {f : Tile → α} (apart : Tile.Apart f) (n : Nat)
include apart

omit apart in
theorem State.tile_modTile_apart (s : State) (k : Nat) {g : Tile → Tile} (same : ∀ t, f (g t) = f t) : f ((s.modTile k g).tile n) = f (s.tile n) := by
  by_cases h : k = n
  · rw [h, State.tile_modTile, same]
  · rw [State.tile_modTile_other _ _ h]

theorem State.tile_setStrand_apart (s : State) (x : SlotId) (st : Strand) : f ((s.setStrand x st).tile n) = f (s.tile n) :=
  State.tile_modTile_apart n s x.tile fun t => apart t t.weir _

theorem State.tile_modStrand_apart (s : State) (x : SlotId) (g : Strand → Strand) : f ((s.modStrand x g).tile n) = f (s.tile n) := by
  rcases s.modStrand_cases x g with h | ⟨st, h⟩ <;> rw [h]
  exact State.tile_setStrand_apart apart n s x st

theorem State.tile_dropWeir_apart (s : State) (x : SlotId) : f ((s.dropWeir x).tile n) = f (s.tile n) :=
  State.tile_modTile_apart n s x.tile fun t => apart t _ t.strands

omit apart in
theorem State.tile_foldl_apart {β : Type} {g : State → β → State} (step : ∀ s b, f ((g s b).tile n) = f (s.tile n)) (l : List β) (s : State) :
    f ((l.foldl g s).tile n) = f (s.tile n) := by
  induction l generalizing s with
  | nil => rfl
  | cons b r ih => exact (ih _).trans (step s b)

theorem State.tile_wakeAt_apart (s : State) (x : SlotId) (addr : Word) : f ((s.wakeAt x addr).tile n) = f (s.tile n) := by
  refine State.tile_foldl_apart n (fun s y => ?_) _ s
  dsimp only
  split
  · split
    · exact State.tile_modStrand_apart apart n s y _
    · exact (State.tile_dropWeir_apart apart n _ y).trans (State.tile_modStrand_apart apart n s y _)
  · exact State.tile_modStrand_apart apart n s y _

theorem State.tile_notifyLine_apart (s : State) (w : Option SlotId) (l : Loc) : f ((s.notifyLine w l).tile n) = f (s.tile n) := by
  refine (State.tile_foldl_apart n (fun s p => State.tile_foldl_apart n (fun s m => State.tile_wakeAt_apart apart n s _ _) _ s) _ _).trans ?_
  show f ((assocGet (s.tiles.map fun p => (p.1, p.2.hitLine p.1 w (s.laneOf w) l)) n).getD Tile.initial) = f ((assocGet s.tiles n).getD Tile.initial)
  rw [assocGet_map s.tiles fun n t => t.hitLine n w (s.laneOf w) l]
  cases assocGet s.tiles n with
  | none => rfl
  | some t => exact apart t _ _

end

/-! ## The place of a tile's control region -/

theorem State.physRow_lt (s : State) {e : Nat} (h : e < 128) : s.physRow e < 132 := by
  unfold State.physRow
  dsimp only
  split <;> omega

theorem State.rowOn_physRow (s : State) {e : Nat} (h : e < 128) : s.rowOn (s.physRow e) = true ∧
    32 * (s.physRow e / 33) + (if s.physRow e % 33 < s.fusedRows.getD (s.physRow e / 33) 32 then s.physRow e % 33 else s.physRow e % 33 - 1) = e := by
  have lt := s.physRow_lt h
  obtain ⟨f, hf⟩ : ∃ f, f = s.fusedRows.getD (e / 32) 32 := ⟨_, rfl⟩
  have die : s.physRow e / 33 = e / 32 := by
    unfold State.physRow
    dsimp only
    split <;> omega
  have row : s.physRow e % 33 = if e % 32 < f then e % 32 else e % 32 + 1 := by
    rw [hf]
    unfold State.physRow
    dsimp only
    split <;> omega
  unfold State.rowOn
  rw [die, row, ← hf]
  simp only [lt, decide_true, Bool.true_and, bne_iff_ne, ne_eq]
  by_cases low : e % 32 < f
  · rw [if_pos low, if_pos low]
    omega
  · rw [if_neg low, if_neg (by omega)]
    omega

/-- A tile that exists is the one at its own coordinates (R4). -/
theorem State.tileAt_self (s : State) {t : Nat} (h : t < 1536) : s.tileAt (s.tileRow t) (s.tileCol t) = some t := by
  obtain ⟨on, back⟩ := s.rowOn_physRow (e := t / 12) (by omega)
  obtain ⟨c, hc⟩ : ∃ c, c = s.fusedCol (s.tileRow t) := ⟨_, rfl⟩
  have col : s.tileCol t = if t % 12 < c then t % 12 else t % 12 + 1 := by rw [hc]; rfl
  have inside : s.tileCol t < 13 ∧ s.tileCol t ≠ c := by rw [col]; split <;> omega
  unfold State.tileAt
  rw [← hc]
  dsimp only
  rw [if_pos (by simp [State.tileRow, on, inside])]
  unfold State.tileRow
  rw [back, col]
  rw [Option.some.injEq]
  by_cases low : t % 12 < c
  · rw [if_pos low, if_pos low]
    omega
  · rw [if_neg low, if_neg (by omega)]
    omega

theorem State.tileCol_lt (s : State) (t : Nat) : s.tileCol t < 16 := by
  unfold State.tileCol
  dsimp only
  split <;> omega

/-- What a byte of a tile's window entry names: the scratchpad below, the control region above. -/
theorem State.region_window (s : State) {t off : Nat} (h : t < 1536) (inside : off < 0x200000) :
    s.region (s.padBase t + off) = if off < 0x100000 then .pad t (off % 0x100000) else .ctrl t (off % 0x100000) := by
  have row : s.tileRow t < 132 := s.physRow_lt (by omega)
  have col := s.tileCol_lt t
  have here := s.tileAt_self h
  have base : s.padBase t = 0x10000000000 + (s.tileRow t * 16 + s.tileCol t) * 0x200000 := rfl
  have place : (s.padBase t + off - 0x10000000000) / 0x200000 = s.tileRow t * 16 + s.tileCol t := by omega
  have off' : (s.padBase t + off - 0x10000000000) % 0x200000 = off := by omega
  have mega : (s.padBase t + off - 0x10000000000) % 0x100000 = off % 0x100000 := by omega
  have rows : (s.tileRow t * 16 + s.tileCol t) / 16 = s.tileRow t := by omega
  have cols : (s.tileRow t * 16 + s.tileCol t) % 16 = s.tileCol t := by omega
  unfold State.region
  rw [if_neg (by omega), if_pos (by omega)]
  dsimp only
  rw [place, off', rows, cols, here]
  dsimp only
  rw [mega]

theorem State.region_ctrl (s : State) {t off : Nat} (h : t < 1536) (inside : off < 0x100000) :
    s.region (s.ctrlLoc t off).addr = .ctrl t off := by
  show s.region (s.padBase t + 0x100000 + off) = _
  rw [Nat.add_assoc, State.region_window s h (by omega), if_neg (by omega)]
  congr 1
  omega

/-! ## Semaphores -/

theorem bytesToNat_natToBytes (n v : Nat) : bytesToNat (natToBytes n v) = v % 256 ^ n := by
  induction n generalizing v with
  | zero => rw [Nat.pow_zero, Nat.mod_one]; rfl
  | succ n ih =>
    have split : bytesToNat (natToBytes (n + 1) v) = v % 256 + 256 * (v / 256 % 256 ^ n) :=
      congrArg₂ (· + 256 * ·) (BitVec.toNat_ofNat ..) (ih _)
    rw [split, Nat.pow_succ', Nat.mod_mul]

/-- A strand outside a transaction sees its tile's own count. -/
theorem State.semCount_plain {s : State} {x : SlotId} {st : Strand} (outside : st.inTx = false) (plain : st.chunk = none) (tile : x.tile < 1536)
    {k : Nat} (low : k < 32) : s.semCount x st k = (s.tile x.tile).sem.getD k 0 := by
  have word : s.ctrlWord x.tile (8 * k) = ((s.tile x.tile).sem.getD k 0).setWidth 64 := by
    unfold State.ctrlWord
    dsimp only
    rw [if_pos (by omega)]
    congr 2
    omega
  have region := s.region_ctrl tile (off := 8 * k) (by omega)
  have bytes : s.peek (s.ctrlLoc x.tile (8 * k)) 4 = natToBytes 4 ((s.tile x.tile).sem.getD k 0).toNat := by
    unfold State.peek
    rw [if_neg (by simp [State.ctrlLoc]), region]
    dsimp only
    have at_ : ∀ i < 4, (8 * k + i) / 8 * 8 = 8 * k ∧ (8 * k + i) % 8 = i := by omega
    have : ∀ i ∈ List.range 4, (natToBytes 8 (s.ctrlWord x.tile ((8 * k + i) / 8 * 8)).toNat).getD ((8 * k + i) % 8) 0
        = (natToBytes 8 ((s.tile x.tile).sem.getD k 0).toNat).getD i 0 := by
      intro i hi
      obtain ⟨h1, h2⟩ := at_ i (by simpa using hi)
      rw [h1, h2, word, BitVec.toNat_setWidth, Nat.mod_eq_of_lt (by omega)]
    rw [List.map_congr_left this]
    rfl
  unfold State.semCount
  dsimp only
  have small : ((s.tile x.tile).sem.getD k 0).toNat % 256 ^ 4 = ((s.tile x.tile).sem.getD k 0).toNat := Nat.mod_eq_of_lt (BitVec.isLt _)
  rw [bytes, Strand.ownBytes_closed outside plain, overlaid, List.foldl_nil, bytesToNat_natToBytes, small, BitVec.ofNat_toNat, BitVec.setWidth_eq]

/-- Setting a semaphore sets it alone, and leaves a calm strand and memory. -/
theorem State.setSem_tile (s : State) (w : Option SlotId) (t k : Nat) (v : BitVec 32) :
    ((s.setSem w t k v).tile t).sem = (s.tile t).sem.setIfInBounds k v := by
  unfold State.setSem
  rw [State.tile_notifyLine_apart (f := Tile.sem) fun _ _ _ => rfl]
  rw [State.tile_modTile]

theorem State.strand_modTile_same (s : State) (x : SlotId) (n : Nat) {g : Tile → Tile} (same : ∀ t, (g t).strands = t.strands) :
    (s.modTile n g).strand? x = s.strand? x := by
  unfold State.strand?
  by_cases h : n = x.tile
  · rw [h, State.tile_modTile, same]
  · rw [State.tile_modTile_other _ _ h]

theorem State.strand_setSem {s : State} {x : SlotId} {st : Strand} (here : s.strand? x = some st) (calm : st.Calm) (w : Option SlotId) (t k : Nat)
    (v : BitVec 32) : (s.setSem w t k v).strand? x = some st := by
  have there := (s.strand_modTile_same x t (g := fun x => { x with sem := x.sem.setIfInBounds k v }) fun _ => rfl).trans here
  unfold State.setSem
  exact State.strand_notifyLine there calm _ _

theorem State.near_setSem (s : State) (w : Option SlotId) (t k : Nat) (v : BitVec 32) : s.Near (s.setSem w t k v) :=
  State.Near.trans (s.near_modTile t _) (State.near_notifyLine _ _ _)

theorem State.unwritten_setSem (s : State) (w : Option SlotId) (t k : Nat) (v : BitVec 32) : unwritten s (s.setSem w t k v) :=
  ⟨(s.near_setSem w t k v).mem, (s.near_setSem w t k v).full⟩

theorem setIfInBounds_getD {α : Type} {n k : Nat} {v : Vector α n} {d a : α} (low : k < n) (is : a = v.getD k d) : v.setIfInBounds k a = v := by
  rw [is]
  ext i hi
  by_cases h : k = i <;> simp [Vector.getD, low, h, hi]

theorem ofNat_pred {c : BitVec 32} (positive : c ≠ 0) : BitVec.ofNat 32 (c.toNat - 1) = c - 1 := by
  have : c.toNat ≠ 0 := fun h => positive (BitVec.eq_of_toNat_eq h)
  apply BitVec.eq_of_toNat_eq
  rw [BitVec.toNat_ofNat, BitVec.toNat_sub]
  simp
  omega

theorem Strand.putS_pc (st : Strand) (d : Spec) (v : Word) : (st.putS d v).regs.pc = st.regs.pc := by
  unfold Strand.putS Strand.modRegs Regs.setS
  dsimp only
  repeat' split
  all_goals rfl

/-- The outcome of a word that has set a semaphore and its strand. -/
theorem finish_sem {s u : State} {st : Strand} {m : Bool} {k : Nat} {v : BitVec 32} (mine : u.strand? s.cur = some st)
    (sem : (u.tile s.cur.tile).sem = (s.tile s.cur.tile).sem.setIfInBounds k v) (same : unwritten s u) :
    ∃ t : State, (Host.Outcome.next (s.finish s.cur m (.ok u)) : Host.Outcome State Fault Refusal) = .next t
      ∧ (t.tile s.cur.tile).sem = (s.tile s.cur.tile).sem.setIfInBounds k v
      ∧ t.strand? s.cur = some (st.after m (st.regs.pc + 4)) ∧ unwritten s t := by
  rw [State.finish_ok mine]
  refine ⟨_, rfl, ?_, State.strand?_setStrand .., same⟩
  rw [State.tile_setStrand_apart (f := Tile.sem) fun _ _ _ => rfl, sem]

/-- Settles O38: a strand outside a transaction reads its tile's own count and sets it, and what its readers are told leaves counts, strand and memory. -/
theorem semaphores : Obligations.Semaphores := by
  intro s st m d a k closed plain ready tile
  dsimp only
  have outside : st.inTx = false := by simp [Strand.inTx, Strand.depth, closed]
  have calm := Strand.calm_of_ready ready plain
  have buffered := Strand.buffered_closed outside plain
  have count : s.semCount s.cur st k.toNat = _ := State.semCount_plain outside plain tile k.isLt
  obtain ⟨c, hc⟩ : ∃ c, c = (s.tile s.cur.tile).sem.getD k.toNat 0 := ⟨_, rfl⟩
  rw [← hc] at count ⊢
  refine ⟨fun clear goes => ?post, fun clear waits => ?hold, fun clear => ?try_⟩
  case post =>
    have entry : exec (.sempost m k a) s = .next (s.finish s.cur m (.ok (s.setSem (some s.cur) s.cur.tile k.toNat
        (BitVec.ofNat 32 (Nat.min (c.toNat + (st.rs a).toNat % 2 ^ 32) (2 ^ 32 - 1)))))) := by
      refine (State.issue_clear clear m _).trans ?_
      simp only [goes, Bool.false_eq_true, if_false, State.semRead, State.semWrite, buffered, Got.act, count]
    rw [entry]
    exact finish_sem (State.strand_setSem clear.here calm ..) (State.setSem_tile ..) (State.unwritten_setSem ..)
  case hold =>
    refine (State.issue_clear clear m _).trans ?_
    simp only [waits, if_true]
    rw [State.finish_hold clear.here m (fun _ _ => Hold.noConfusion)]
  case try_ =>
    have entry : exec (.semtry m d k) s = .next (s.finish s.cur m (if c = 0 then .ok (s.modStrand s.cur fun st => st.putS d 0)
        else .ok ((s.setSem (some s.cur) s.cur.tile k.toNat (c - 1)).modStrand s.cur fun st => st.putS d (c.setWidth 64)))) := by
      have cur : (s.setSem (some s.cur) s.cur.tile k.toNat (c - 1)).cur = s.cur := by rw [State.near_setSem]
      refine (State.issue_clear clear m _).trans ?_
      simp only [State.semRead, State.semWrite, buffered, Bool.false_eq_true, if_false, Got.act, count, State.upd, cur]
    rw [entry, BitVec.ofNat_toNat, ← Strand.putS_pc st d (c.setWidth 64)]
    by_cases zero : c = 0
    · rw [if_pos zero, State.modStrand_of_strand clear.here]
      refine finish_sem ?_ ?_ ⟨rfl, rfl⟩
      · rw [State.strand?_setStrand, zero]
        rfl
      · rw [State.tile_setStrand_apart (f := Tile.sem) fun _ _ _ => rfl]
        refine (setIfInBounds_getD k.isLt (d := 0) ?_).symm
        rw [← hc, zero]
        rfl
    · have mine := State.strand_setSem clear.here calm (some s.cur) s.cur.tile k.toNat (c - 1)
      rw [if_neg zero, State.modStrand_of_strand mine]
      refine finish_sem (State.strand?_setStrand ..) ?_ (State.unwritten_setSem s (some s.cur) s.cur.tile k.toNat (c - 1))
      rw [State.tile_setStrand_apart (f := Tile.sem) fun _ _ _ => rfl, State.setSem_tile, ofNat_pred zero]

end Sys2Proof.Machine
end

section
/-!
PROOF. Lock rings: a change of a ring leaves every other part of its tile but what the readers of its status line are told.
-/

namespace Sys2Proof.Machine

set_option Elab.async false

theorem Ring.complete_eq_settle (r : Ring) : r.complete = settle r := by
  unfold Ring.complete settle
  simp only [Bool.and_eq_true, bne_iff_ne, decide_eq_true_eq]

/-! ## A ring set by a strand -/

theorem State.near_setRing (s : State) (x : SlotId) (k : Nat) (r : Ring) : s.Near (s.setRing x k r) := by
  unfold State.setRing State.putRing
  dsimp only
  split
  · exact s.near_modTile _ _
  · exact (s.near_modTile _ _).trans (State.near_notifyLine _ _ _)

theorem State.setRing_tile (s : State) (x : SlotId) (k : Nat) (r : Ring) :
    ((s.setRing x k r).tile x.tile).rings = (s.tile x.tile).rings.setIfInBounds k r := by
  unfold State.setRing State.putRing
  dsimp only
  split
  · rw [State.tile_modTile]
  · rw [State.tile_notifyLine_apart (f := Tile.rings) fun _ _ _ => rfl, State.tile_modTile]

theorem State.strand_setRing {s : State} {x : SlotId} {st : Strand} (here : s.strand? x = some st) (calm : st.Calm) (y : SlotId) (k : Nat) (r : Ring) :
    (s.setRing y k r).strand? x = some st := by
  have there := (s.strand_modTile_same x y.tile (g := fun t => { t with rings := t.rings.setIfInBounds k r }) fun _ => rfl).trans here
  unfold State.setRing State.putRing
  dsimp only
  split
  · exact there
  · exact State.strand_notifyLine there calm _ _

/-- `t` is what a word comes to that makes ring `k` of its tile `r` and completes. -/
def ringBecomes (s : State) (st : Strand) (m : Bool) (k : Nat) (r : Ring) (t : State) : Prop :=
  (t.tile s.cur.tile).rings = (s.tile s.cur.tile).rings.setIfInBounds k r ∧ t.strand? s.cur = some (st.after m (st.regs.pc + 4)) ∧ unwritten s t

theorem finish_setRing {s : State} {st : Strand} (here : s.strand? s.cur = some st) (calm : st.Calm) (m : Bool) (k : Nat) (r : Ring) :
    ringBecomes s st m k r (s.finish s.cur m (.ok (s.setRing s.cur k r))) := by
  rw [State.finish_ok (State.strand_setRing here calm ..)]
  refine ⟨?_, State.strand?_setStrand .., (s.near_setRing ..).mem, (s.near_setRing ..).full⟩
  rw [State.tile_setStrand_apart (f := Tile.rings) fun _ _ _ => rfl, State.setRing_tile]

theorem finish_sameRing {s : State} {st : Strand} (here : s.strand? s.cur = some st) (m : Bool) {k : Nat} {r : Ring}
    (is : (s.tile s.cur.tile).rings[k]? = some r) : ringBecomes s st m k r (s.finish s.cur m (.ok s)) := by
  rw [State.finish_ok here]
  refine ⟨?_, State.strand?_setStrand .., rfl, rfl⟩
  rw [State.tile_setStrand_apart (f := Tile.rings) fun _ _ _ => rfl]
  obtain ⟨low, is⟩ := Vector.getElem?_eq_some_iff.mp is
  exact (setIfInBounds_getD low (d := r) (by rw [← is]; simp [Vector.getD, low])).symm

/-! ## Faults of a ring word -/

/-- The resource fault with a code of Table 5.5 and an address. -/
def ringFaultOf (s : State) (st : Strand) (code addr : Nat) : Host.Outcome State Fault Refusal :=
  .next (s.faultTurn s.cur 4 (BitVec.ofNat 64 (code * 2 ^ 56 + addr % 2 ^ 56)) st.regs.pc)

theorem codeWord_mod (code addr : Nat) : codeWord code (addr % 2 ^ 56) = BitVec.ofNat 64 (code * 2 ^ 56 + addr % 2 ^ 56) :=
  codeWord_of_lt code (Nat.mod_lt _ (by decide))

theorem issue_ringFault {s : State} {st : Strand} {u : Uses} {body : Strand → Act} {code addr : Nat} (clear : s.Clear st u) (m : Bool)
    (raises : body st = ringFault code addr) : s.issue m u body = ringFaultOf s st code addr := by
  rw [ringFaultOf, ← codeWord_mod]
  exact State.issue_faults clear m raises

theorem issue_ringFaultIn {s : State} {st : Strand} {u : Uses} {body : Strand → Act} {code addr : Nat} (clear : s.Clear st u) (m : Bool)
    (raises : body st = .faultIn s 4 (codeWord code (addr % 2 ^ 56))) : s.issue m u body = ringFaultOf s st code addr := by
  rw [ringFaultOf, ← codeWord_mod, State.issue_clear clear, raises]
  simp only [State.finish, clear.here]
  rfl

theorem State.physRing_undeclared {s : State} {x : SlotId} {st : Strand} {n : Nat} (undeclared : st.nlocks ≤ n) : s.physRing x st n = none :=
  if_neg (by omega)

/-! ## lkcfg -/

/-- A ring as lkcfg makes it from a descriptor. -/
def configured (w : Word) : Ring := ⟨true, w.setWidth 63, 0, 0, 0, 0, 0, 0, []⟩

/-- A descriptor that Table 5.3 allows. -/
def ringDescGood (w : Word) : Prop :=
  w &&& 0xFFFFE0E0E0F00000 = 0 ∧ 2 ≤ (configured w).nstg ∧ (configured w).nstg ≤ 16 ∧ 1 ≤ (configured w).dist
    ∧ (configured w).dist ≤ (configured w).nstg ∧ 8 ≤ (configured w).slog2 ∧ (configured w).slog2 ≤ 18
    ∧ (configured w).base % 2 ^ (configured w).slog2 = 0

theorem ringDescBad_eq_false_iff (w : Word) : ringDescBad w = false ↔ ringDescGood w := by
  unfold ringDescBad ringDescGood
  simp only [Bool.or_eq_false_iff, bne_eq_false_iff_eq, decide_eq_false_iff_not, not_lt, Bool.not_eq_true, and_assoc]
  rfl

theorem Strand.outsidePad_inside {st : Strand} {lo n : Nat} (from_ : st.regs.padlo.toNat ≤ lo) (upto : lo + n ≤ st.regs.padlo.toNat + st.padLen) :
    st.outsidePad lo (lo + n - 1) = none := by
  unfold Strand.outsidePad
  rw [if_pos]
  simp
  omega

section
variable {s : State} {st : Strand} {a : Spec} {ring : BitVec 3} {k : Nat} {r : Ring}
  (clear : s.Clear st { srcs := [(0, false, a)], access := true, aborts := true }) (aligned : (st.rs a).toNat % 8 = 0)
include clear aligned

theorem exec_lkcfg_undeclared (m : Bool) (undeclared : s.physRing s.cur st ring.toNat = none) :
    exec (.lkcfg m ring a) s = ringFaultOf s st 0x20 (st.rs a).toNat :=
  issue_ringFault clear m (by simp [aligned, undeclared])

variable (phys : s.physRing s.cur st ring.toNat = some k) (is : (s.tile s.cur.tile).rings.getD k Ring.initial = r)
include phys is

theorem exec_lkcfg_members (m : Bool) (members : r.pmem ≠ 0 ∨ r.cmem ≠ 0) : exec (.lkcfg m ring a) s = ringFaultOf s st 0x26 (st.rs a).toNat := by
  have any : (r.pmem ||| r.cmem) ≠ 0 := by
    intro h
    rcases BitVec.or_eq_zero_iff.mp h with ⟨p, c⟩
    exact members.elim (· p) (· c)
  refine issue_ringFault clear m ?_
  simp only [aligned, bne_self_eq_false, Bool.false_eq_true, if_false, phys, is]
  exact if_pos (bne_iff_ne.mpr any)

variable (pmem : r.pmem = 0) (cmem : r.cmem = 0) (plain : (st.rs a).toNat < 2 ^ 20)
include pmem cmem plain

/-- lkcfg of a ring without members judges the descriptor that it reads. -/
theorem exec_lkcfg_reads (m : Bool) {w : Word} {bs : List Byte} (read : s.padRead s.cur st (st.rs a) 8 = .got bs s)
    (word : w = BitVec.ofNat 64 (bytesToNat bs)) :
    exec (.lkcfg m ring a) s = s.issue m { srcs := [(0, false, a)], access := true, aborts := true } fun st =>
      if ringDescBad w then .faultIn s 4 (codeWord 0x27 ((st.rs a).toNat % 2 ^ 56))
      else match st.outsidePad (configured w).base ((configured w).base + (configured w).nstg * 2 ^ (configured w).slog2 - 1) with
        | some v => .faultIn s 6 v
        | none => .ok (s.setRing s.cur k (configured w)) := by
  have low : (st.rs a).getLsbD 23 = false := by
    rw [BitVec.getLsbD, Nat.testBit_lt_two_pow]
    omega
  rw [State.issue_clear clear]
  refine (State.issue_clear clear m _).trans ?_
  simp only [aligned, bne_self_eq_false, Bool.false_eq_true, if_false, phys, is, pmem, cmem, low, Bool.false_and, read, Got.act, ← word]
  rfl

theorem exec_lkcfg_bad (m : Bool) {w : Word} {bs : List Byte} (read : s.padRead s.cur st (st.rs a) 8 = .got bs s)
    (word : w = BitVec.ofNat 64 (bytesToNat bs)) (bad : ¬ ringDescGood w) :
    exec (.lkcfg m ring a) s = ringFaultOf s st 0x27 (st.rs a).toNat := by
  rw [exec_lkcfg_reads clear aligned phys is pmem cmem plain m read word]
  refine issue_ringFaultIn clear m ?_
  rw [← ringDescBad_eq_false_iff, Bool.not_eq_false] at bad
  rw [if_pos bad]

theorem exec_lkcfg_good (m : Bool) {w : Word} {bs : List Byte} (read : s.padRead s.cur st (st.rs a) 8 = .got bs s)
    (word : w = BitVec.ofNat 64 (bytesToNat bs)) (good : ringDescGood w) (from_ : st.regs.padlo.toNat ≤ (configured w).base)
    (upto : (configured w).base + (configured w).nstg * 2 ^ (configured w).slog2 ≤ st.regs.padlo.toNat + st.padLen) :
    exec (.lkcfg m ring a) s = .next (s.finish s.cur m (.ok (s.setRing s.cur k (configured w)))) := by
  have inside := Strand.outsidePad_inside from_ upto
  rw [exec_lkcfg_reads clear aligned phys is pmem cmem plain m read word, State.issue_clear clear]
  rw [← ringDescBad_eq_false_iff] at good
  simp only [good, Bool.false_eq_true, if_false]
  push_cast at inside
  rw [inside]

end

/-! ## lkadv -/

section
variable {s : State} {st : Strand} {ring : BitVec 3} {k : Nat} {r : Ring} (clear : s.Clear st { aborts := true })
include clear

theorem exec_lkadv_fails (m : Bool) {c : Nat} (check : s.ringCheck s.cur st ring.toNat = .error c) : exec (.lkadv m ring) s = ringFaultOf s st c 0 :=
  issue_ringFault clear m (by rw [check])

theorem exec_lkadv_arrives (m : Bool) (phys : s.physRing s.cur st ring.toNat = some k) (check : s.ringCheck s.cur st ring.toNat = .ok r) :
    exec (.lkadv m ring) s = .next (s.finish s.cur m (.ok (s.setRing s.cur k (r.arrive s.cur.member st.uid)))) := by
  refine (State.issue_clear clear m _).trans ?_
  simp only [check, phys]

end

section
variable {s : State} {x : SlotId} {st : Strand} {n k : Nat} {r : Ring} (phys : s.physRing x st n = some k)
  (is : (s.tile x.tile).rings.getD k Ring.initial = r)
include phys is

/-- ringcheck of a physical ring gives the first code that applies. -/
theorem State.ringCheck_of_phys : s.ringCheck x st n = if r.cfg = false then .error 0x21
    else if r.isMem x.member st.uid = false then .error 0x22
    else if r.isOpen x.member st.uid = false then .error 0x23 else .ok r := by
  unfold State.ringCheck ringCheckIn
  simp only [phys, is, Bool.not_eq_true']

end

theorem Ring.arrive_eq (r : Ring) (x u : Nat) :
    r.arrive x u = settle (if r.isProd x u then { r with parr := r.parr ||| bitOf x } else { r with carr := r.carr ||| bitOf x }) :=
  Ring.complete_eq_settle _

/-- A stage is open to members of a configured ring alone. -/
theorem Ring.isOpen_member {r : Ring} {x u : Nat} (h : r.isOpen x u = true) : r.cfg = true ∧ r.isMem x u = true := by
  unfold Ring.isOpen at h
  simp only [Bool.and_eq_true, Bool.or_eq_true] at h
  obtain ⟨⟨cfg, -⟩, side⟩ := h
  exact ⟨cfg, Bool.or_eq_true_iff.mpr (side.imp And.left And.left)⟩

/-! ## lkjoin -/

section
variable {s : State} {st : Strand} {a : Spec} {ring : BitVec 3} {k : Nat} {r : Ring} (clear : s.Clear st { srcs := [(0, false, a)], aborts := true })
include clear

theorem exec_lkjoin_undeclared (m : Bool) (undeclared : s.physRing s.cur st ring.toNat = none) :
    exec (.lkjoin m ring a) s = ringFaultOf s st 0x20 0 :=
  issue_ringFault clear m (by simp only [undeclared])

variable (phys : s.physRing s.cur st ring.toNat = some k) (is : (s.tile s.cur.tile).rings.getD k Ring.initial = r)
include phys is

/-- lkjoin of a ring that is there: the first code that applies, or the change of the ring. -/
theorem exec_lkjoin_there (m : Bool) : exec (.lkjoin m ring a) s = s.issue m { srcs := [(0, false, a)], aborts := true } fun st =>
    if !r.cfg then ringFault 0x21 0
    else if 2 < (st.rs a).toNat then ringFault 0x28 0
    else if (st.rs a).toNat < 2 && r.isMem s.cur.member st.uid then ringFault 0x25 0
    else if (st.rs a).toNat < 2 then .ok (s.setRing s.cur k (r.join ((st.rs a).toNat = 1) s.cur.member st.uid))
    else if r.isMem s.cur.member st.uid then .ok (s.setRing s.cur k (r.leave s.cur.member st.uid))
    else .ok s := by
  rw [State.issue_clear clear]
  refine (State.issue_clear clear m _).trans ?_
  simp only [phys, is]

variable (cfg : r.cfg = true)
include cfg

theorem exec_lkjoin_joins (m cons : Bool) (sel : st.rs a = if cons then 1 else 0) (mem : r.isMem s.cur.member st.uid = false) :
    exec (.lkjoin m ring a) s = .next (s.finish s.cur m (.ok (s.setRing s.cur k (r.join cons s.cur.member st.uid)))) := by
  rw [exec_lkjoin_there clear phys is m, State.issue_clear clear, cfg, mem, sel]
  cases cons <;> rfl

theorem exec_lkjoin_leaves (m : Bool) (sel : st.rs a = 2) (mem : r.isMem s.cur.member st.uid = true) :
    exec (.lkjoin m ring a) s = .next (s.finish s.cur m (.ok (s.setRing s.cur k (r.leave s.cur.member st.uid)))) := by
  rw [exec_lkjoin_there clear phys is m, State.issue_clear clear, cfg, mem, sel]
  rfl

theorem exec_lkjoin_stays (m : Bool) (sel : st.rs a = 2) (mem : r.isMem s.cur.member st.uid = false) :
    exec (.lkjoin m ring a) s = .next (s.finish s.cur m (.ok s)) := by
  rw [exec_lkjoin_there clear phys is m, State.issue_clear clear, cfg, mem, sel]
  rfl

end

/-! ## lkpos -/

theorem exec_lkpos_undeclared {s : State} {st : Strand} {d : Spec} {ring : BitVec 3} (clear : s.Clear st (useD d)) (m : Bool)
    (undeclared : s.physRing s.cur st ring.toNat = none) : exec (.lkpos m d ring) s = ringFaultOf s st 0x20 0 :=
  issue_ringFault clear m (by simp only [undeclared])

theorem exec_lkpos_there {s : State} {st : Strand} {d : Spec} {ring : BitVec 3} {k : Nat} {r : Ring} (clear : s.Clear st (useD d)) (m : Bool)
    (closed : st.buffered = false) (phys : s.physRing s.cur st ring.toNat = some k) (is : (s.tile s.cur.tile).rings.getD k Ring.initial = r) :
    exec (.lkpos m d ring) s = .next (s.completes m (st.putS d (r.posWord s.cur.member st.uid k))) := by
  refine (State.issue_clear clear m _).trans ?_
  simp only [phys, is, closed, Bool.false_eq_true, if_false, Got.act, State.upd, State.modStrand_of_strand clear.here]
  exact congrArg _ (State.finish_put s m _)

/-- The value of a flag at a bit's place. -/
def flagAt (b : Bool) (i : Nat) : Nat := if b then 2 ^ i else 0

/-- The word of Table 5.6 from its fields. -/
def posFields (mem cons isOpen arr : Bool) (phys idx stage gen : Nat) : Nat :=
  2 ^ 63 + flagAt mem 62 + flagAt cons 61 + flagAt isOpen 60 + flagAt arr 59 + phys * 2 ^ 56 + idx * 2 ^ 52 + stage * 2 ^ 32 + gen

section
variable {mem cons isOpen arr : Bool} {phys idx stage gen : Nat} (hphys : phys < 8) (hidx : idx < 16) (hstage : stage < 2 ^ 20) (hgen : gen < 2 ^ 32)
include hphys hidx hstage hgen

/-- The fields lie apart, so each is read back. -/
theorem posFields_read : posFields mem cons isOpen arr phys idx stage gen < 2 ^ 64
    ∧ posFields mem cons isOpen arr phys idx stage gen / 2 ^ 63 = 1
    ∧ posFields mem cons isOpen arr phys idx stage gen / 2 ^ 62 % 2 = mem.toNat
    ∧ posFields mem cons isOpen arr phys idx stage gen / 2 ^ 61 % 2 = cons.toNat
    ∧ posFields mem cons isOpen arr phys idx stage gen / 2 ^ 60 % 2 = isOpen.toNat
    ∧ posFields mem cons isOpen arr phys idx stage gen / 2 ^ 59 % 2 = arr.toNat
    ∧ posFields mem cons isOpen arr phys idx stage gen / 2 ^ 56 % 8 = phys
    ∧ posFields mem cons isOpen arr phys idx stage gen / 2 ^ 52 % 16 = idx
    ∧ posFields mem cons isOpen arr phys idx stage gen / 2 ^ 32 % 2 ^ 20 = stage
    ∧ posFields mem cons isOpen arr phys idx stage gen % 2 ^ 32 = gen := by
  have flag : ∀ (b : Bool) (i : Nat), flagAt b i = b.toNat * 2 ^ i := by intro b i; cases b <;> simp [flagAt]
  have le : ∀ b : Bool, b.toNat ≤ 1 := by decide
  have h1 := le mem
  have h2 := le cons
  have h3 := le isOpen
  have h4 := le arr
  unfold posFields
  rw [flag, flag, flag, flag]
  refine ⟨?_, ?_, ?_, ?_, ?_, ?_, ?_, ?_, ?_, ?_⟩ <;> omega

end

theorem getLsbD_ofNat_of_field {n i : Nat} {b : Bool} (low : n < 2 ^ 64) (bit : n / 2 ^ i % 2 = b.toNat) :
    (BitVec.ofNat 64 n).getLsbD i = b := by
  rw [BitVec.getLsbD, BitVec.toNat_ofNat, Nat.mod_eq_of_lt low, Nat.testBit_eq_decide_div_mod_eq, bit]
  cases b <;> rfl

theorem Ring.posWord_eq {r : Ring} (cfg : r.cfg = true) (x u phys : Nat) :
    r.posWord x u phys = BitVec.ofNat 64 (posFields (r.isMem x u) (r.isCons x u) (r.isOpen x u) (r.arrived x u) (phys % 8) (r.idx x u % 16)
      (r.stage x u % 2 ^ 20) (if r.isCons x u then r.cgen else r.pgen).toNat) := by
  unfold Ring.posWord posFields flagAt
  rw [if_neg (by simp [cfg])]

/-- What lkpos reads of a configured ring, field by field. -/
theorem Ring.posWord_fields {r : Ring} (cfg : r.cfg = true) (x u phys : Nat) :
    let v := r.posWord x u phys
    v.toNat / 2 ^ 63 = 1 ∧ v.getLsbD 62 = r.isMem x u ∧ v.getLsbD 61 = r.isCons x u ∧ v.getLsbD 60 = r.isOpen x u ∧ v.getLsbD 59 = r.arrived x u
      ∧ v.toNat / 2 ^ 56 % 8 = phys % 8 ∧ (v.toNat / 2 ^ 52 % 16 = r.idx x u % 16 ∧ v.toNat / 2 ^ 32 % 2 ^ 20 = r.stage x u % 2 ^ 20)
      ∧ v.toNat % 2 ^ 32 = (if r.isCons x u then r.cgen else r.pgen).toNat := by
  obtain ⟨low, f63, f62, f61, f60, f59, f56, f52, f32, f0⟩ := posFields_read (mem := r.isMem x u) (cons := r.isCons x u) (isOpen := r.isOpen x u)
    (arr := r.arrived x u) (phys := phys % 8) (idx := r.idx x u % 16) (stage := r.stage x u % 2 ^ 20)
    (gen := (if r.isCons x u then r.cgen else r.pgen).toNat) (by omega) (by omega) (by omega) (BitVec.isLt _)
  dsimp only
  rw [Ring.posWord_eq cfg, BitVec.toNat_ofNat, Nat.mod_eq_of_lt low]
  exact ⟨f63, getLsbD_ofNat_of_field low f62, getLsbD_ofNat_of_field low f61, getLsbD_ofNat_of_field low f60, getLsbD_ofNat_of_field low f59, f56,
    ⟨f52, f32⟩, f0⟩

theorem Ring.and_ones (v : BitVec 24) : v &&& 0xFFFFFF = v := BitVec.and_allOnes

/-- A strand that leaves takes its bits with it, unless another strand of its slot still stands in the ring. -/
theorem Ring.leave_last {r : Ring} {x u : Nat} (last : ∀ o ∈ r.owners.filter fun o => o != (x, u), o.1 ≠ x) :
    r.leave x u = settle { r with
      pmem := r.pmem &&& ~~~ bitOf x
      parr := r.parr &&& ~~~ bitOf x
      cmem := r.cmem &&& ~~~ bitOf x
      carr := r.carr &&& ~~~ bitOf x
      owners := r.owners.filter fun o => o != (x, u) } := by
  have none : ((r.owners.filter fun o => o != (x, u)).any fun o => decide (o.1 = x)) = false := by
    rw [List.any_eq_false]
    exact fun o ho => by simpa using last o ho
  unfold Ring.leave
  dsimp only
  rw [none, Ring.complete_eq_settle]
  rfl

theorem Ring.leave_shared {r : Ring} {x u : Nat} (shared : ∃ o ∈ r.owners.filter fun o => o != (x, u), o.1 = x) :
    r.leave x u = settle { r with owners := r.owners.filter fun o => o != (x, u) } := by
  have some : ((r.owners.filter fun o => o != (x, u)).any fun o => decide (o.1 = x)) = true := by
    rw [List.any_eq_true]
    exact shared.imp fun o ho => ⟨ho.1, by simpa using ho.2⟩
  unfold Ring.leave
  dsimp only
  rw [some, Ring.complete_eq_settle]
  simp only [if_true, Ring.and_ones]

/-- Settles O39: a ring word judges the ring by ringcheck's first code, and else sets the ring alone. -/
theorem lockRings : Obligations.LockRings := by
  intro s st m d a ring closed plain ready
  have outside : st.inTx = false := by simp [Strand.inTx, Strand.depth, closed]
  have calm := Strand.calm_of_ready ready plain
  have buffered := Strand.buffered_closed outside plain
  refine ⟨fun few => ?_, fun k r phys is => ?_⟩
  · have undeclared := State.physRing_undeclared (s := s) (x := s.cur) few
    exact ⟨fun ⟨clear, aligned⟩ => exec_lkcfg_undeclared clear aligned m undeclared,
      fun clear => exec_lkadv_fails clear m (by rw [State.ringCheck, undeclared, ringCheckIn]),
      fun clear => exec_lkjoin_undeclared clear m undeclared, fun clear => exec_lkpos_undeclared clear m undeclared⟩
  have there : (s.tile s.cur.tile).rings.getD k Ring.initial = r := by
    obtain ⟨low, is⟩ := Vector.getElem?_eq_some_iff.mp is
    rw [← is]
    simp [Vector.getD, low]
  have check := State.ringCheck_of_phys phys there
  refine ⟨fun ⟨clear, aligned⟩ => ⟨exec_lkcfg_members clear aligned phys there m, fun p pmem cmem low address fine => ?cfg⟩,
    fun clear => ⟨?uncfg, ?stranger, ?shut, ?open_⟩, fun clear => ?join, fun clear => ?pos⟩
  case cfg =>
    have read := State.padRead_sound outside plain address rfl fine
    exact ⟨exec_lkcfg_bad clear aligned phys there pmem cmem low m read rfl, fun good from_ upto =>
      ⟨_, exec_lkcfg_good clear aligned phys there pmem cmem low m read rfl good from_ upto, finish_setRing clear.here calm m k _⟩⟩
  case uncfg => exact fun cfg => exec_lkadv_fails clear m (by rw [check, if_pos cfg])
  case stranger =>
    intro cfg prod cons
    have mem : r.isMem s.cur.member st.uid = false := Bool.or_eq_false_iff.mpr ⟨prod, cons⟩
    exact exec_lkadv_fails clear m (by rw [check, if_neg (by simp [cfg]), if_pos mem])
  case shut =>
    intro cfg side shut
    have mem : r.isMem s.cur.member st.uid = true := Bool.or_eq_true_iff.mpr side
    have closed : r.isOpen s.cur.member st.uid = false := shut
    exact exec_lkadv_fails clear m (by rw [check, if_neg (by simp [cfg]), if_neg (by simp [mem]), if_pos closed])
  case open_ =>
    intro isOpen
    have isOpen : r.isOpen s.cur.member st.uid = true := isOpen
    obtain ⟨cfg, mem⟩ := Ring.isOpen_member isOpen
    refine ⟨_, exec_lkadv_arrives clear m phys
      (by rw [check, if_neg (by simp [cfg]), if_neg (by simp [mem]), if_neg (by simp [isOpen])]), ?_⟩
    have set := finish_setRing clear.here calm m k (r.arrive s.cur.member st.uid)
    rw [Ring.arrive_eq] at set ⊢
    exact set
  case join =>
    have body := exec_lkjoin_there clear phys there m
    refine ⟨fun cfg => ?_, fun cfg big => ?_, fun cfg small side => ?_, fun cfg prod cons => ?outsider, fun cfg sel side => ?member⟩
    · rw [body]
      exact issue_ringFault clear m (by rw [if_pos (by simp [cfg])])
    · rw [body]
      exact issue_ringFault clear m (by rw [if_neg (by simp [cfg]), if_pos big])
    · have mem : r.isMem s.cur.member st.uid = true := Bool.or_eq_true_iff.mpr side
      rw [body]
      exact issue_ringFault clear m (by rw [if_neg (by simp [cfg]), if_neg (by omega), if_pos (by simp [small, mem])])
    case outsider =>
      have mem : r.isMem s.cur.member st.uid = false := Bool.or_eq_false_iff.mpr ⟨prod, cons⟩
      exact ⟨fun sel => ⟨_, exec_lkjoin_joins clear phys there cfg m false sel mem, finish_setRing clear.here calm m k _⟩,
        fun sel => ⟨_, exec_lkjoin_joins clear phys there cfg m true sel mem, finish_setRing clear.here calm m k _⟩,
        fun sel => ⟨_, exec_lkjoin_stays clear phys there cfg m sel mem, finish_sameRing clear.here m is⟩⟩
    case member =>
      have mem : r.isMem s.cur.member st.uid = true := Bool.or_eq_true_iff.mpr side
      have leaves := exec_lkjoin_leaves clear phys there cfg m sel mem
      have set := finish_setRing clear.here calm m k (r.leave s.cur.member st.uid)
      refine ⟨fun last => ⟨_, leaves, ?_⟩, fun shared => ⟨_, leaves, ?_⟩⟩
      · rw [Ring.leave_last last] at set ⊢
        exact set
      · rw [Ring.leave_shared shared] at set ⊢
        exact set
  case pos =>
    refine ⟨_, exec_lkpos_there clear m buffered phys there, fun cfg => by simp [Ring.posWord, cfg], fun cfg => ?_⟩
    exact Ring.posWord_fields cfg s.cur.member st.uid k

end Sys2Proof.Machine
end

section
/-!
PROOF. The transaction words: levels opened, closed and left, and what an abort of the whole transaction leaves.
-/

namespace Sys2Proof.Machine

set_option Elab.async false

/-! ## Transactions of a strand -/

theorem Strand.inTx_open {st : Strand} {x : Tx} {l : TxLevel} {r : List TxLevel} (tx : st.tx = some x) (levels : x.levels = l :: r) : st.inTx = true := by
  simp [Strand.inTx, Strand.depth, tx, levels]

theorem Strand.goOn_ready {st : Strand} (ready : st.run = .ready) : st.goOn = .ready := by simp [Strand.goOn, ready]

/-- A strand that may issue, after the mark of its word. -/
theorem Strand.afterMark_standing {st : Strand} (ready : st.run = .ready) (m : Bool) : st.afterMark m = { st with run := standing m st } := by
  by_cases waits : m = true ∧ st.longs ≠ []
  · have parks : standing m st = .parked := if_pos ⟨.inl waits.1, waits.2⟩
    rw [parks, Strand.afterMark, ready]
    exact if_pos (by simp [waits])
  · have stays : standing m st = st.run := by rw [ready]; exact if_neg (by simpa [ready] using waits)
    have unmarked : ¬ (m && !st.longs.isEmpty) = true := by simpa using waits
    rw [stays]
    show st.afterMark m = st
    unfold Strand.afterMark
    rw [ready]
    exact if_neg unmarked

/-- The standing looks at the mark, the strand's own standing and what it awaits. -/
theorem standing_congr {st st' : Strand} (run : st'.run = st.run) (longs : st'.longs = st.longs) (m : Bool) : standing m st' = standing m st := by
  unfold standing
  rw [run, longs]

/-- The same of a strand that a word has set elsewhere. -/
theorem Strand.afterMark_moved {st st' : Strand} (ready : st.run = .ready) (run : st'.run = .ready) (longs : st'.longs = st.longs) (m : Bool) :
    st'.afterMark m = { st' with run := standing m st } := by
  rw [Strand.afterMark_standing run, standing_congr (run.trans ready.symm) longs]

/-- Where a strand goes on that a word has set elsewhere. -/
theorem finish_placed {s t : State} {x : SlotId} {st : Strand} (mine : t.strand? x = some st) (m : Bool) :
    s.finish x m (.placed t) = t.setStrand x (st.afterMark m) := State.modStrand_of_strand mine _

/-! ## Aborts -/

/-- The strand that an abort of its transaction leaves, before the mark of the word. -/
def Strand.thrown (st : Strand) (l : TxLevel) (reason : BitVec 8) (addr : Word) : Strand :=
  { st with run := st.goOn, tx := none, abortReq := none, redo := none, regs := { st.regs with pc := l.tgt, skipn := 0, txReason := reason, txaddr := addr } }

section
variable {s : State} {x : SlotId} {st : Strand} (here : s.strand? x = some st) {t : Tx} (tx : st.tx = some t) {l : TxLevel}
  (outer : t.levels.getLast? = some l) (plain : st.chunk = none) (reason : BitVec 8) (addr : Word)
include here tx outer plain

theorem State.abortTx_open : s.abortTx x reason addr
    = { ((s.setStrand x (st.thrown l reason addr)).dropWeir x) with flight := s.flight.map fun a => if a.who = x then a.abandoned else a } := by
  have is : st.thrown l reason addr = { st with
      run := st.goOn, tx := none, abortReq := none, redo := none, chunk := st.chunk.map fun c => c.endWith (s.readLines x)
      regs := { st.regs with pc := l.tgt, skipn := 0, txReason := reason, txaddr := addr } } := by
    unfold Strand.thrown
    rw [plain]
    rfl
  rw [is]
  unfold State.abortTx
  simp only [here, tx, outer]
  rfl

theorem State.strand?_abortTx : (s.abortTx x reason addr).strand? x = some (st.thrown l reason addr) := by
  rw [State.abortTx_open here tx outer plain]
  exact (State.strand_dropWeir _ x x).trans (State.strand?_setStrand ..)

theorem State.abortTx_weir : ∀ e ∈ ((s.abortTx x reason addr).tile x.tile).weir, e.member ≠ x.member := by
  rw [State.abortTx_open here tx outer plain]
  intro e he
  have he : e ∈ (((s.setStrand x (st.thrown l reason addr)).dropWeir x).tile x.tile).weir := he
  rw [State.dropWeir, State.tile_modTile] at he
  simpa using (List.mem_filter.mp he).2

end

/-- The end of a word that aborts its transaction. -/
theorem finish_abort {s : State} {st : Strand} (here : s.strand? s.cur = some st) {t : Tx} (tx : st.tx = some t) {l : TxLevel}
    (outer : t.levels.getLast? = some l) (plain : st.chunk = none) (ready : st.run = .ready) (m : Bool) (reason : BitVec 8) (addr : Word) :
    aborts s m st l reason addr (.next (s.finish s.cur m (.placed (s.abortTx s.cur reason addr)))) := by
  have mine := State.strand?_abortTx here tx outer plain reason addr
  have keeps := s.abortTx_keeps s.cur reason addr
  rw [finish_placed mine]
  refine ⟨_, rfl, ?_, ⟨keeps.1, keeps.2.1⟩, ?_⟩
  · rw [State.strand?_setStrand]
    exact congrArg some (Strand.afterMark_moved ready (Strand.goOn_ready ready) (by rfl) m)
  · rw [State.setStrand, State.tile_modTile]
    exact State.abortTx_weir here tx outer plain reason addr

/-! ## The words of an open transaction -/

section
variable {s : State} {st : Strand} (clear : s.Clear st {}) {x : Tx} (tx : st.tx = some x) {l : TxLevel} {r : List TxLevel} (levels : x.levels = l :: r)
include clear tx levels

/-- txb in an open transaction. -/
theorem exec_txb_open (m : Bool) (disp : BitVec 18) : exec (.txb m disp) s = .next (s.finish s.cur m
    (if 4 ≤ (l :: r).length then .placed (s.abortTx s.cur 4 st.regs.pc)
      else if 256 ≤ x.nextTag then .placed (s.abortTx s.cur 3 0)
      else .ok (s.put { st with tx := some { x with
        levels := ⟨st.regs.pc + BitVec.ofInt 64 (4 * disp.toInt), none, x.nextTag, x.nextTag⟩ :: l :: r, nextTag := x.nextTag + 1 } }))) := by
  refine (State.issue_clear clear m _).trans ?_
  simp only [Strand.inTx_open tx levels]
  rw [tx]
  dsimp only
  rw [levels, dispTarget_eq]

theorem exec_oth_open (m : Bool) (disp : BitVec 18) : exec (.oth m disp) s = .next (s.finish s.cur m
    (if 256 ≤ x.nextTag then .placed (s.abortTx s.cur 3 0)
      else .ok (s.put { st with tx := some { x with
        levels := { l with next := some (st.regs.pc + BitVec.ofInt 64 (4 * disp.toInt)), alt := x.nextTag } :: r, nextTag := x.nextTag + 1 } }))) := by
  refine (State.issue_clear clear m _).trans ?_
  simp only [Strand.inTx_open tx levels]
  rw [tx]
  dsimp only
  rw [levels]
  dsimp only
  rw [dispTarget_eq]

theorem exec_txe_inner (m : Bool) (inner : r ≠ []) : exec (.txe m) s = .next (s.finish s.cur m (.ok (s.put { st with tx := some { x with levels := r } }))) := by
  refine (State.issue_clear clear m _).trans ?_
  obtain ⟨k, q, rfl⟩ := List.exists_cons_of_ne_nil inner
  simp only [tx, levels]

theorem exec_retry_open (m : Bool) : exec (.retry m) s = .next (s.finish s.cur m (.placed (s.retryAt s.cur))) := by
  refine (State.issue_clear clear m _).trans ?_
  simp only [Strand.inTx_open tx levels, if_true]

end

/-! ## retry -/

section
variable {s : State} {y : SlotId} {st : Strand} (here : s.strand? y = some st) {x : Tx} (tx : st.tx = some x) (plain : st.chunk = none)
  (ready : st.run = .ready)
include here tx ready

theorem State.retryAt_alternative {k q : List TxLevel} {e : TxLevel} {p : Word} (levels : x.levels = k ++ e :: q) (without : ∀ l ∈ k, l.next = none)
    (next : e.next = some p) : s.retryAt y = s.setStrand y { st with
      run := .ready
      tx := some { x with levels := { e with next := none } :: q, wset := x.wset.filter fun w => decide (w.tag < e.alt) }
      regs := { st.regs with pc := p, skipn := 0 } } := by
  have rest : (x.levels.dropWhile fun l => l.next.isNone) = e :: q := by
    rw [levels, List.dropWhile_append_of_pos fun l hl => by simp [without l hl]]
    exact List.dropWhile_cons_of_neg (by simp [next])
  unfold State.retryAt
  simp only [here, tx, rest, next, Strand.goOn_ready ready]
  rfl

include plain

theorem State.retryAt_sleeps (without : ∀ l ∈ x.levels, l.next = none) (reads : ∃ e ∈ (s.tile y.tile).weir, e.member = y.member)
    (fresh : ∀ e ∈ (s.tile y.tile).weir, e.member = y.member → e.hit = false) :
    s.retryAt y = (s.setStrand y { st with run := .asleep, mark := false, tx := some { x with levels := [], wset := [], tg := none } }).modTile y.tile fun tl =>
      { tl with weir := tl.weir.map fun e => if e.member = y.member then { e with sleep := true } else e } := by
  have rest : (x.levels.dropWhile fun l => l.next.isNone) = [] := List.dropWhile_eq_nil_iff.mpr fun l hl => by simp [without l hl]
  have some_ : (((s.tile y.tile).weir.filter fun e => e.member = y.member).isEmpty) = false := by
    obtain ⟨e, he, mine⟩ := reads
    exact List.isEmpty_eq_false_iff_exists_mem.mpr ⟨e, List.mem_filter.mpr ⟨he, by simpa using mine⟩⟩
  have none_ : ((s.tile y.tile).weir.filter fun e => e.member = y.member).filter (·.hit) = [] := by
    rw [List.filter_eq_nil_iff]
    intro e he
    obtain ⟨he, mine⟩ := List.mem_filter.mp he
    simpa using fresh e he (by simpa using mine)
  unfold State.retryAt
  simp only [here, tx, rest, some_, none_, plain, Strand.goOn_ready ready, Option.map_none]
  rfl

end

/-! ## Words that go on -/

/-- A word that only sets its strand goes on with it. -/
theorem goesOn_put (s : State) (m : Bool) (st : Strand) : goesOn s m st (.next (s.finish s.cur m (.ok (s.put st)))) := by
  rw [State.finish_put]
  exact ⟨_, rfl, State.strand?_setStrand .., rfl, rfl⟩

theorem unwritten_dropRsv (s : State) (x : SlotId) : unwritten s (s.dropRsv x) := ⟨(s.near_dropRsv x).mem, (s.near_dropRsv x).full⟩

theorem exec_txb_first {s : State} {st : Strand} (clear : s.Clear st {}) (closed : st.tx = none) (plain : st.chunk = none) (m : Bool) (disp : BitVec 18) :
    goesOn s m { st with rsv := none, tx := some ⟨st.regs.pc, [⟨st.regs.pc + BitVec.ofInt 64 (4 * disp.toInt), none, 0, 0⟩], 1, [], none⟩ }
      (exec (.txb m disp) s) := by
  have dropped : (s.dropRsv s.cur).strand? s.cur = some { st with rsv := none } := State.strand?_endRsv clear.here
  have cur : (s.dropRsv s.cur).cur = s.cur := by rw [s.near_dropRsv s.cur]
  have entry : exec (.txb m disp) s = .next (s.finish s.cur m (.ok ((s.dropRsv s.cur).setStrand s.cur { st with
      rsv := none, tx := some ⟨st.regs.pc, [⟨st.regs.pc + BitVec.ofInt 64 (4 * disp.toInt), none, 0, 0⟩], 1, [], none⟩ }))) := by
    refine (State.issue_clear clear m _).trans ?_
    simp only [Strand.inTx_closed closed, plain, Option.map_none, Option.getD_none, Bool.false_eq_true, if_false, State.upd, cur,
      State.modStrand_of_strand dropped, dispTarget_eq]
  rw [entry, State.finish_ok (State.strand?_setStrand ..)]
  exact ⟨_, rfl, State.strand?_setStrand .., unwritten_dropRsv s s.cur⟩

theorem txaReason_eq (v : Word) : (0x80 ||| (v.setWidth 7).setWidth 8 : BitVec 8) = BitVec.ofNat 8 (0x80 + v.toNat % 0x80) := by
  apply BitVec.eq_of_toNat_eq
  have or_ : ∀ n < 128, 128 ||| n = 128 + n := by decide
  have low : v.toNat % 128 < 128 := Nat.mod_lt _ (by decide)
  simp only [BitVec.toNat_or, BitVec.toNat_setWidth, BitVec.toNat_ofNat, BitVec.reduceToNat]
  rw [show v.toNat % 2 ^ 7 % 2 ^ 8 = v.toNat % 128 by omega, or_ _ low]
  omega

/-- Outside a transaction a word of one raises code 0x40 (Table 11.7). -/
theorem issue_noTx {s : State} {st : Strand} {u : Uses} {body : Strand → Act} (clear : s.Clear st u) (m : Bool) (raises : body st = noTx) :
    s.issue m u body = .next (s.faultTurn s.cur 4 (BitVec.ofNat 64 (0x40 * 2 ^ 56)) st.regs.pc) :=
  State.issue_faults clear m raises

/-- txa in an open transaction. -/
theorem exec_txa_open {s : State} {st : Strand} {a : Spec} (clear : s.Clear st { srcs := [(0, false, a)] }) {x : Tx} (tx : st.tx = some x) {l : TxLevel}
    {r : List TxLevel} (levels : x.levels = l :: r) (m : Bool) :
    exec (.txa m a) s = .next (s.finish s.cur m (.placed (if r = [] then s.abortTx s.cur (BitVec.ofNat 8 (0x80 + (st.rs a).toNat % 0x80)) st.regs.pc
      else s.put { st with
        run := .ready
        tx := some { x with levels := r, wset := x.wset.filter fun e => decide (e.tag < l.chk) }
        regs := { st.regs with pc := l.tgt, skipn := 0, txReason := BitVec.ofNat 8 (0x80 + (st.rs a).toNat % 0x80), txaddr := st.regs.pc } }))) := by
  refine (State.issue_clear clear m _).trans ?_
  rw [← txaReason_eq]
  cases r with
  | nil => simp only [tx, levels, if_true]
  | cons k q => simp only [tx, levels, reduceCtorEq, if_false]

/-- Settles O35: in an open transaction a word moves its levels, or it aborts by abortTx, and the mark of the word then parks the strand. -/
theorem transactionWords : Obligations.TransactionWords := by
  intro s st m d a disp plain ready
  refine ⟨fun clear => ⟨fun closed => ?first, fun x l r tx levels => ?opened⟩, fun clear => ⟨fun closed => ?outside, fun x l r tx levels => ?txa⟩, fun clear => ?txst⟩
  case first =>
    have outside := Strand.inTx_closed closed
    exact ⟨exec_txb_first clear closed plain m disp, issue_noTx clear m (by rw [outside]), issue_noTx clear m (by rw [closed]),
      issue_noTx clear m (by rw [outside]; rfl)⟩
  case opened =>
    have abort := fun {o : TxLevel} (outer : x.levels.getLast? = some o) => finish_abort clear.here tx outer plain ready m
    have txb := exec_txb_open clear tx levels m disp
    have oth := exec_oth_open clear tx levels m disp
    refine ⟨fun few tags => ?_, fun o outer many => ?_, fun tags => ?_, fun inner => ?_, fun o outer tags => ⟨fun few => ?_, ?_⟩,
      fun k e q p levels' without next => ?_, fun without reads fresh => ?_⟩
    · rw [txb, if_neg (by simpa using few), if_neg (by omega)]
      exact goesOn_put s m _
    · rw [txb, if_pos (by simpa using many)]
      exact abort outer 4 st.regs.pc
    · rw [oth, if_neg (by omega)]
      exact goesOn_put s m _
    · rw [exec_txe_inner clear tx levels m inner]
      exact goesOn_put s m _
    · rw [txb, if_neg (by simpa using few), if_pos tags]
      exact abort outer 3 0
    · rw [oth, if_pos tags]
      exact abort outer 3 0
    · rw [exec_retry_open clear tx levels, State.retryAt_alternative clear.here tx ready levels' without next, finish_placed (State.strand?_setStrand ..)]
      refine ⟨_, rfl, ⟨rfl, rfl⟩, ?_⟩
      rw [State.strand?_setStrand]
      exact congrArg some (Strand.afterMark_moved ready (by rfl) (by rfl) m)
    · have mine := (State.strand_modTile_same (s.setStrand s.cur { st with run := .asleep, mark := false, tx := some { x with levels := [], wset := [], tg := none } })
        s.cur s.cur.tile (g := fun tl => { tl with weir := tl.weir.map fun e => if e.member = s.cur.member then { e with sleep := true } else e })
        fun _ => rfl).trans (State.strand?_setStrand ..)
      rw [exec_retry_open clear tx levels, State.retryAt_sleeps clear.here tx plain ready without reads fresh, finish_placed mine]
      exact ⟨_, rfl, ⟨rfl, rfl⟩, State.strand?_setStrand ..⟩
  case outside => exact issue_noTx clear m (by rw [closed])
  case txa =>
    rw [exec_txa_open clear tx levels]
    refine ⟨fun inner => ?_, fun inner => ?_⟩
    · rw [if_pos inner]
      exact finish_abort clear.here tx (by rw [levels, inner]; rfl) plain ready m _ _
    · rw [if_neg inner, State.put, finish_placed (State.strand?_setStrand ..), State.setStrand_setStrand]
      exact congrArg (fun k => Host.Outcome.next (s.setStrand s.cur k)) (Strand.afterMark_moved ready (by rfl) (by rfl) m)
  case txst => exact State.alu_clear clear m d _

end Sys2Proof.Machine
end

section
/-!
PROOF. What ends an open or sleeping transaction between instructions, and what a fault makes of one.
-/

namespace Sys2Proof.Machine

set_option Elab.async false

/-- An abort between words. -/
theorem aborts_between {s : State} {x : SlotId} {st : Strand} (here : s.strand? x = some st) {t : Tx} (tx : st.tx = some t) {l : TxLevel}
    (outer : t.levels.getLast? = some l) (plain : st.chunk = none) (reason : BitVec 8) (addr : Word) :
    aborts { s with cur := x } false st l reason addr (.next (s.abortTx x reason addr)) := by
  have keeps := s.abortTx_keeps x reason addr
  have same : st.thrown l reason addr = aborted false st l reason addr := by
    unfold Strand.thrown aborted standing Strand.goOn
    simp
  exact ⟨_, rfl, by rw [← same]; exact State.strand?_abortTx here tx outer plain reason addr, ⟨keeps.1, keeps.2.1⟩,
    State.abortTx_weir here tx outer plain reason addr⟩

theorem State.lostLine_one {s : State} {x : SlotId} {e : Weir} (mine : ((s.tile x.tile).weir.filter fun e => e.member = x.member) = [e])
    (hit : e.hit = true) (awake : e.sleep = false) : s.lostLine x = some (BitVec.ofNat 64 (s.lineAddr e.sp e.line)) := by
  have lost : ((s.tile x.tile).weir.filter fun e => e.member = x.member && e.hit && !e.sleep) = [e] := by
    have split : ((s.tile x.tile).weir.filter fun e => e.member = x.member && e.hit && !e.sleep)
        = ((s.tile x.tile).weir.filter fun e => e.member = x.member).filter fun e => e.hit && !e.sleep := by
      rw [List.filter_filter]
      exact List.filter_congr fun k _ => by
        rw [Bool.and_assoc, Bool.and_comm]
    rw [split, mine]
    simp [hit, awake]
  unfold State.lostLine
  rw [lost]
  rfl

/-- The last level of a transaction stands only in an open one. -/
theorem Strand.inTx_outer {st : Strand} {t : Tx} {l : TxLevel} (tx : st.tx = some t) (outer : t.levels.getLast? = some l) : st.inTx = true := by
  cases levels : t.levels with
  | nil => rw [levels] at outer; cases outer
  | cons k q => exact Strand.inTx_open tx levels

/-! ## Wakes -/

/-- The strand that a wake leaves at its txb (R220). -/
def Strand.woken (st : Strand) (tx : Tx) (addr : Word) : Strand :=
  { st with run := standing st.mark st, tx := none, regs := { st.regs with pc := tx.txpc, skipn := 0, txReason := 8, txaddr := addr } }

theorem Strand.wake_asleep {st : Strand} {tx : Tx} (asleep : st.run = .asleep) (open_ : st.tx = some tx) (plain : st.chunk = none) (addr : Word) :
    st.wake addr = st.woken tx addr := by
  have on : st.onward = standing st.mark st := by
    unfold Strand.onward standing
    rw [asleep]
    simp
  unfold Strand.wake Strand.freshChunk Strand.woken
  simp only [asleep, open_, plain, on]
  rfl

theorem State.wakeAt_alone {s : State} {x : SlotId} {st : Strand} (here : s.strand? x = some st) {tx : Tx} (open_ : st.tx = some tx)
    (alone : st.wave = none) (plain : st.chunk = none) (asleep : st.run = .asleep) (addr : Word) :
    (s.wakeAt x addr).strand? x = some (st.woken tx addr) := by
  have only : s.sleepers x = [x] := by
    unfold State.sleepers
    rw [here]
    simp only [Option.bind_some, alone]
  unfold State.wakeAt
  rw [only, List.foldl_cons, List.foldl_nil]
  simp only [State.modStrand_of_strand here, State.strand?_setStrand, Strand.wake_asleep asleep open_ plain]
  exact (State.strand_dropWeir _ x x).trans (State.strand?_setStrand ..)

theorem unwritten_wakeAt (s : State) (x : SlotId) (addr : Word) : unwritten s (s.wakeAt x addr) := ⟨(s.near_wakeAt x addr).mem, (s.near_wakeAt x addr).full⟩

/-- The fold finds a member that is least. -/
theorem foldl_min_mem (f : Weir → Nat) (a : Weir) (r : List Weir) :
    ∃ e ∈ a :: r, (r.map f).foldl Nat.min (f a) = f e ∧ ∀ k ∈ a :: r, f e ≤ f k := by
  induction r generalizing a with
  | nil => exact ⟨a, List.mem_cons_self, rfl, fun k hk => by simp_all⟩
  | cons b r ih =>
    rcases Nat.le_total (f a) (f b) with le | le
    · obtain ⟨e, he, is, least⟩ := ih a
      refine ⟨e, ?_, ?_, ?_⟩
      · rcases List.mem_cons.mp he with rfl | he
        · exact List.mem_cons_self
        · exact List.mem_cons_of_mem _ (List.mem_cons_of_mem _ he)
      · rw [List.map_cons, List.foldl_cons, ← is]
        exact congrArg (fun v => (r.map f).foldl Nat.min v) (Nat.min_eq_left le)
      · have := least a List.mem_cons_self
        intro k hk
        rcases List.mem_cons.mp hk with rfl | hk
        · exact this
        · rcases List.mem_cons.mp hk with rfl | hk
          · exact this.trans le
          · exact least k (List.mem_cons_of_mem _ hk)
    · obtain ⟨e, he, is, least⟩ := ih b
      refine ⟨e, List.mem_cons_of_mem _ he, ?_, ?_⟩
      · rw [List.map_cons, List.foldl_cons, ← is]
        exact congrArg (fun v => (r.map f).foldl Nat.min v) (Nat.min_eq_right le)
      · intro k hk
        rcases List.mem_cons.mp hk with rfl | hk
        · exact (least b List.mem_cons_self).trans le
        · exact least k hk

/-! ## Faults inside a transaction -/

section
variable {s : State} {x : SlotId} {st : Strand} (here : s.strand? x = some st) {t : Tx} (tx : st.tx = some t) {l : TxLevel}
  (outer : t.levels.getLast? = some l) (plain : st.chunk = none)
include here tx outer plain

theorem State.strand?_abortTx_dropRsv (reason : BitVec 8) (addr : Word) :
    ((s.abortTx x reason addr).dropRsv x).strand? x = some { st.thrown l reason addr with rsv := none } :=
  State.strand?_endRsv (State.strand?_abortTx here tx outer plain reason addr)

omit here plain in
theorem Strand.tgt1_open : st.tgt1 = some l.tgt := by
  unfold Strand.tgt1
  rw [tx, Option.bind_some, outer]
  rfl

theorem takeSup_open (enabled : st.ie = true) (code : Nat) (detail epc : Word) : (s.takeSup x st code detail epc).strand? x
    = some { ({ st.thrown l 5 st.regs.pc with rsv := none } : Strand).enterAt l.tgt (st.tvec + 64) with
      scause := BitVec.ofNat 64 (code % 256), sdetail := detail } := by
  unfold State.takeSup
  simp only [Strand.tgt1_open tx outer, enabled, if_true, Option.getD_some,
    State.modStrand_of_strand (State.strand?_abortTx_dropRsv here tx outer plain 5 st.regs.pc), State.strand?_setStrand]
  rfl

theorem takeUser_open (async : Bool) (code : Nat) (detail epc : Word) : (s.takeUser x st async code detail epc).strand? x
    = some { st.thrown l 5 st.regs.pc with
      rsv := none
      run := .out
      tepc := l.tgt
      tcause := BitVec.ofNat 64 (code % 256 + if async then 256 else 0)
      tdetail := detail } := by
  unfold State.takeUser
  simp only [Strand.tgt1_open tx outer, Option.getD_some,
    State.modStrand_of_strand (State.strand?_abortTx_dropRsv here tx outer plain 5 st.regs.pc)]
  exact (State.strand?_modTile_same _ _ _ fun t => t.queueEvent_strands _).trans (State.strand?_setStrand ..)

end

/-- Settles O37: the abort, the wake and the fault of a strand whose transaction is open or asleep, each by what it makes of that one strand. -/
theorem transactionEnds : Obligations.TransactionEnds := by
  intro s x st tx here open_ alone plain
  refine ⟨fun l outer => ⟨fun r asked => ?asked, fun e none mine hit awake => ?lost, fun code detail epc sup ie returned stored => ?sup,
    fun code detail epc user returned stored => ?user⟩, fun asleep => ⟨?wakes, fun ⟨e, he, sleeps, hit⟩ => ?hits⟩⟩
  case asked =>
    have outcome : exec (.txConflict x) s = .next (s.abortTx x r.1 r.2) := by
      show execTxConflict x s = _
      unfold execTxConflict
      simp only [here, Strand.inTx_outer open_ outer, asked, Bool.not_true, Bool.false_eq_true, if_false]
    rw [outcome]
    exact aborts_between here open_ outer plain r.1 r.2
  case lost =>
    have outcome : exec (.txConflict x) s = .next (s.abortTx x 1 (BitVec.ofNat 64 (s.lineAddr e.sp e.line))) := by
      show execTxConflict x s = _
      unfold execTxConflict
      simp only [here, Strand.inTx_outer open_ outer, none, State.lostLine_one mine hit awake, Bool.not_true, Bool.false_eq_true, if_false]
    rw [outcome]
    exact aborts_between here open_ outer plain 1 _
  case sup =>
    rw [State.takeFault_sup here sup returned stored, takeSup_open here open_ outer plain ie]
    exact ⟨_, rfl, rfl, rfl, rfl, rfl, rfl, rfl, rfl⟩
  case user =>
    have taken : s.takeFault x false code detail epc = s.takeUser x st false code detail epc := by
      simp [State.takeFault, here, returned, stored, user]
    rw [taken, takeUser_open here open_ outer plain]
    exact ⟨_, rfl, rfl, rfl, rfl, rfl, rfl, rfl, rfl, rfl, rfl⟩
  case wakes =>
    have outcome : exec (.wakeWithNoWrite x) s = .next (s.wakeAt x 0) := by
      show execWakeWithNoWrite x s = _
      unfold execWakeWithNoWrite
      simp only [here, asleep, plain, Option.isNone_none, decide_true, Bool.and_true, if_true]
    exact ⟨_, outcome, State.wakeAt_alone here open_ alone plain asleep 0, unwritten_wakeAt ..⟩
  case hits =>
    obtain ⟨he, mine⟩ := List.mem_filter.mp he
    obtain ⟨hits, is⟩ : ∃ hits, ((s.tile x.tile).weir.filter fun e => e.member = x.member && e.sleep && e.hit) = hits := ⟨_, rfl⟩
    have member : ∀ k, k ∈ hits ↔ k ∈ (s.tile x.tile).weir.filter (fun e => e.member = x.member) ∧ k.sleep = true ∧ k.hit = true := by
      intro k
      rw [← is, List.mem_filter, List.mem_filter, and_assoc]
      simp only [Bool.and_eq_true, and_assoc]
    cases hits with
    | nil => exact absurd ((member e).mpr ⟨List.mem_filter.mpr ⟨he, mine⟩, sleeps, hit⟩) List.not_mem_nil
    | cons a r =>
      obtain ⟨k, hk, value, least⟩ := foldl_min_mem (fun e => s.lineAddr e.sp e.line) a r
      have outcome : exec (.txWake x) s = .next (s.wakeAt x (BitVec.ofNat 64 (s.lineAddr k.sp k.line))) := by
        show execTxWake x s = _
        unfold execTxWake
        simp only [here, is, List.map_cons, asleep, if_true, value]
      obtain ⟨mine, sleeps, hit⟩ := (member k).mp hk
      exact ⟨_, k, outcome, mine, sleeps, hit, State.wakeAt_alone here open_ alone plain asleep _, unwritten_wakeAt ..,
        fun j hj sleeps hit => least j ((member j).mpr ⟨hj, sleeps, hit⟩)⟩

end Sys2Proof.Machine
end

section
/-!
PROOF. Accesses inside a transaction, and its commit: a store goes to the write set, a load's line to the read set, and the outermost txe performs
the whole write set in one step.
-/

namespace Sys2Proof.Machine

set_option Elab.async false

/-! ## Lines -/

/-- An access that its size aligns lies in one line. -/
theorem linesOf_aligned {p : Loc} {n : Nat} (size : n = 1 ∨ n = 2 ∨ n = 4 ∨ n = 8) (aligned : p.addr % n = 0) : linesOf p n = [⟨p.dev, p.addr / 64 * 64⟩] := by
  have one : (p.addr + n + 63) / 64 - p.addr / 64 = 1 := by rcases size with rfl | rfl | rfl | rfl <;> omega
  unfold linesOf
  rw [one]
  rfl

theorem lineOps_aligned {p : Loc} {bs : List Byte} (size : bs.length = 1 ∨ bs.length = 2 ∨ bs.length = 4 ∨ bs.length = 8)
    (aligned : p.addr % bs.length = 0) (leaf : Option Leaf) :
    lineOps p bs leaf = [(⟨p.dev, p.addr / 64 * 64⟩, [.store (p.addr % 64) bs leaf])] := by
  have off : p.addr - p.addr / 64 * 64 = p.addr % 64 := by omega
  have drop : p.addr / 64 * 64 - p.addr = 0 := by omega
  have fits : bs.length ≤ 64 - p.addr % 64 := by rcases size with h | h | h | h <;> rw [h] at aligned ⊢ <;> omega
  unfold lineOps
  rw [linesOf_aligned size aligned]
  simp only [List.map_cons, List.map_nil, off, drop, List.drop_zero, List.take_of_length_le fits]

/-! ## Read sets and write sets -/

section
variable {s : State} {x : SlotId} {st : Strand} (here : s.strand? x = some st) {t : Tx} (tx : st.tx = some t) {k : TxLevel}
  (outer : t.levels.getLast? = some k) (line : Loc)
include here tx outer

theorem State.addWrite_held {ops : List WOp} {w : List WEntry} (held : addEntry t.wset (t.nextTag - 1) line ops = some w) :
    s.addWrite x false line ops = .got () (s.setStrand x { st with tx := some { t with wset := w } }) := by
  unfold State.addWrite
  simp only [here, Strand.inTx_outer tx outer]
  rw [tx]
  simp only [Tx.tag, held]

theorem State.addWrite_full {ops : List WOp} (full : addEntry t.wset (t.nextTag - 1) line ops = none) :
    s.addWrite x false line ops = .stop (.placed (s.abortTx x 3 (BitVec.ofNat 64 (s.lineAddr false line)))) := by
  unfold State.addWrite
  simp only [here, Strand.inTx_outer tx outer]
  rw [tx]
  simp only [Tx.tag, full]

variable (fresh : ∀ e ∈ (s.tile x.tile).weir.filter (fun e => e.member = x.member), e.line ≠ line)
include fresh

theorem State.addRead_room (room : ((s.tile x.tile).weir.filter fun e => e.member = x.member).length < 64) :
    s.addRead x false false line = .got () (s.modTile x.tile fun t => { t with weir := t.weir ++ [⟨false, x.member, false, false, false, line⟩] }) := by
  have new : (((s.tile x.tile).weir.filter fun e => e.member = x.member).any fun e => e.line = line && e.sp = false) = false := by
    rw [List.any_eq_false]
    exact fun e he => by simp [fresh e he]
  unfold State.addRead
  simp only [here, Strand.inTx_outer tx outer, if_true, new, Bool.false_eq_true, if_false]
  rw [if_neg (by omega)]

theorem State.addRead_full (full : 64 ≤ ((s.tile x.tile).weir.filter fun e => e.member = x.member).length) :
    s.addRead x false false line = .stop (.placed (s.abortTx x 2 (BitVec.ofNat 64 (s.lineAddr false line)))) := by
  have new : (((s.tile x.tile).weir.filter fun e => e.member = x.member).any fun e => e.line = line && e.sp = false) = false := by
    rw [List.any_eq_false]
    exact fun e he => by simp [fresh e he]
  unfold State.addRead
  simp only [here, Strand.inTx_outer tx outer, if_true, new, Bool.false_eq_true, if_false]
  rw [if_pos full]

end

/-! ## stg and ldg in a transaction -/

/-- A load enters flight with the bytes that its own strand's write set gives it. -/
theorem State.send_load_flight (s : State) (x : SlotId) (st : Strand) {n : Nat} (some_byte : n ≠ 0) (signed : Bool) (l : Loc) (dest : Option Dest)
    (kind : Nat) (rel acq : Bool) (tr : Option Leaf) :
    (s.send x st (.load n signed) l dest kind rel acq tr).flight = s.flight ++ [⟨s.nextId, x, st.lid, st.sid, st.uid, .load n signed, l, dest, kind,
      rel, acq, st.ownBytes l n, wFull st.wset l.line (l.addr % 64 / 8), st.inTx, false, 0, tr⟩] := by
  simp [State.send, State.countWork, State.modStrand_flight, State.modStrand_nextId, some_byte]

theorem State.send_weir (s : State) (x : SlotId) (st : Strand) (op : FlightOp) (l : Loc) (dest : Option Dest) (kind : Nat) (rel acq : Bool)
    (tr : Option Leaf) (n : Nat) : ((s.send x st op l dest kind rel acq tr).tile n).weir = (s.tile n).weir := by
  have counted (u : State) (lid lines : Nat) : ((u.countWork x.tile lid 0 lines).tile n).weir = (u.tile n).weir :=
    State.tile_modTile_apart (f := Tile.weir) n u x.tile fun _ => rfl
  refine (counted _ st.lid (linesOf l op.len).length).trans ?_
  rcases s.modStrand_cases x (fun st => match dest with
    | some d => { st with longs := st.longs ++ [⟨s.nextId, d, acq⟩] }
    | none => st) with h | ⟨k, h⟩
  · exact congrArg (fun u : State => (u.tile n).weir) h
  · exact (congrArg (fun u : State => (u.tile n).weir) h).trans (State.tile_modTile_apart (f := Tile.weir) n s x.tile fun _ => rfl)

section
variable {s : State} {st : Strand} {m : Bool} {d a : Spec} {off : BitVec 9} {z : BitVec 3} {p : Loc} {tr : Leaf} {t : Tx} {k : TxLevel}
  (tx : st.tx = some t) (outer : t.levels.getLast? = some k) (aligned : (eaScalar (st.rs a) off z).toNat % sizeOf z = 0)
  (lies : p.addr % sizeOf z = 0)
include tx outer aligned lies

theorem exec_stg_inTx (clear : s.Clear st (useStore false d a))
    (place : s.translate s.cur.tile st.regs.ptroot st.sup (eaScalar (st.rs a) off z) .write = .at_ p tr) :
    exec (.stg m d a off z) s = .next (s.finish s.cur m ((s.addWrite s.cur false ⟨p.dev, p.addr / 64 * 64⟩
      [.store (p.addr % 64) (natToBytes (sizeOf z) (st.rs d).toNat) (some tr)]).act fun _ s => .ok s)) := by
  have buffered : st.buffered = true := by simp [Strand.buffered, Strand.inTx_outer tx outer]
  have ops := lineOps_aligned (p := p) (bs := natToBytes (sizeOf z) (st.rs d).toNat) (by simpa using sizeOf_cases z) (by simpa using lies) (some tr)
  rw [exec_stg clear aligned place, State.storeGlobal, if_pos buffered, State.holdStore, ops]
  rfl

theorem stg_inTx_held (clear : s.Clear st (useStore false d a))
    (place : s.translate s.cur.tile st.regs.ptroot st.sup (eaScalar (st.rs a) off z) .write = .at_ p tr) {w : List WEntry}
    (held : addEntry t.wset (t.nextTag - 1) ⟨p.dev, p.addr / 64 * 64⟩
      [.store (p.addr % 64) (natToBytes (sizeOf z) (st.rs d).toNat) (some tr)] = some w) :
    ∃ u : State, exec (.stg m d a off z) s = .next u ∧ unwritten s u ∧ u.flight = s.flight
      ∧ u.strand? s.cur = some ({ st with tx := some { t with wset := w } }.after m (st.regs.pc + 4)) := by
  rw [exec_stg_inTx tx outer aligned lies clear place, State.addWrite_held clear.here tx outer _ held]
  exact ⟨_, congrArg _ (State.finish_ok (State.strand?_setStrand ..) m), ⟨rfl, rfl⟩, rfl, State.strand?_setStrand ..⟩

theorem stg_inTx_full (plain : st.chunk = none) (ready : st.run = .ready) (clear : s.Clear st (useStore false d a))
    (place : s.translate s.cur.tile st.regs.ptroot st.sup (eaScalar (st.rs a) off z) .write = .at_ p tr)
    (full : addEntry t.wset (t.nextTag - 1) ⟨p.dev, p.addr / 64 * 64⟩
      [.store (p.addr % 64) (natToBytes (sizeOf z) (st.rs d).toNat) (some tr)] = none) :
    aborts s m st k 3 (BitVec.ofNat 64 (s.lineAddr false ⟨p.dev, p.addr / 64 * 64⟩)) (exec (.stg m d a off z) s) := by
  rw [exec_stg_inTx tx outer aligned lies clear place, State.addWrite_full clear.here tx outer _ full]
  exact finish_abort clear.here tx outer plain ready m 3 _

variable (clear : s.Clear st (useLoad false d a true))
  (place : s.translate s.cur.tile st.regs.ptroot st.sup (eaScalar (st.rs a) off z) .read = .at_ p tr)
include clear place

theorem exec_ldg_inTx (plain : s.resvAt p = none) :
    exec (.ldg m d a off z) s = .next (s.finish s.cur m ((s.addRead s.cur false false ⟨p.dev, p.addr / 64 * 64⟩).act fun _ t =>
      .ok (t.send t.cur st (.load (sizeOf z) (!z.getLsbD 0)) p (some ⟨false, d⟩) 0 false false (some tr)))) := by
  have buffered : st.buffered = true := by simp [Strand.buffered, Strand.inTx_outer tx outer]
  have lines := linesOf_aligned (sizeOf_cases z) lies
  refine (State.issue_clear clear m _).trans ?_
  simp only [State.globalAddr_at aligned place, Got.act, plain, Option.isSome_none, Bool.false_and, Bool.false_eq_true, if_false, State.watchReads, buffered,
    if_true, lines]
  rfl

theorem ldg_inTx_enters (plain : s.resvAt p = none)
    (fresh : ∀ e ∈ (s.tile s.cur.tile).weir.filter (fun e => e.member = s.cur.member), e.line ≠ ⟨p.dev, p.addr / 64 * 64⟩)
    (room : ((s.tile s.cur.tile).weir.filter fun e => e.member = s.cur.member).length < 64) :
    ∃ (u : State) (y : Access), exec (.ldg m d a off z) s = .next u ∧ unwritten s u ∧ u.flight = s.flight ++ [y]
      ∧ y.op = .load (sizeOf z) (!z.getLsbD 0) ∧ y.loc = p ∧ y.dest = some ⟨false, d⟩ ∧ y.inTx = true ∧ y.overlay = st.ownBytes p (sizeOf z)
      ∧ (u.tile s.cur.tile).weir = (s.tile s.cur.tile).weir ++ [⟨false, s.cur.member, false, false, false, ⟨p.dev, p.addr / 64 * 64⟩⟩] := by
  have lined := State.strand_modTile_same s s.cur s.cur.tile
    (g := fun t => { t with weir := t.weir ++ [⟨false, s.cur.member, false, false, false, ⟨p.dev, p.addr / 64 * 64⟩⟩] }) fun _ => rfl
  rw [exec_ldg_inTx tx outer aligned lies clear place plain, State.addRead_room clear.here tx outer _ fresh room]
  obtain ⟨v, is⟩ : ∃ v, v = s.modTile s.cur.tile fun t =>
    { t with weir := t.weir ++ [⟨false, s.cur.member, false, false, false, ⟨p.dev, p.addr / 64 * 64⟩⟩] } := ⟨_, rfl⟩
  have here := lined.trans clear.here
  rw [← is] at here ⊢
  have cur : v.cur = s.cur := by rw [is]; rfl
  have flight : v.flight = s.flight := by rw [is]; rfl
  have same : unwritten s v := by rw [is]; exact ⟨rfl, rfl⟩
  have weir : (v.tile s.cur.tile).weir = (s.tile s.cur.tile).weir ++ [⟨false, s.cur.member, false, false, false, ⟨p.dev, p.addr / 64 * 64⟩⟩] := by
    rw [is, State.tile_modTile]
  have some_byte : sizeOf z ≠ 0 := by rcases sizeOf_cases z with h | h | h | h <;> omega
  have sent := State.strand?_send here st (.load (sizeOf z) (!z.getLsbD 0)) p (some ⟨false, d⟩) 0 false false (some tr)
  show ∃ u y, Host.Outcome.next (s.finish s.cur m (.ok (v.send v.cur st (.load (sizeOf z) (!z.getLsbD 0)) p (some ⟨false, d⟩) 0 false false (some tr)))) = .next u ∧ _
  rw [cur, State.finish_ok sent]
  have flies := State.send_load_flight v s.cur st some_byte (!z.getLsbD 0) p (some ⟨false, d⟩) 0 false false (some tr)
  rw [flight] at flies
  refine ⟨_, _, rfl, ⟨?_, ?_⟩, flies, rfl, rfl, rfl, Strand.inTx_outer tx outer, rfl, ?_⟩
  · exact (State.setStrand_mem ..).trans ((State.send_mem ..).trans same.1)
  · exact (State.setStrand_full ..).trans ((State.send_full ..).trans same.2)
  · rw [State.setStrand, State.tile_modTile]
    exact (State.send_weir ..).trans weir

theorem ldg_inTx_full (unchunked : st.chunk = none) (ready : st.run = .ready) (plain : s.resvAt p = none)
    (fresh : ∀ e ∈ (s.tile s.cur.tile).weir.filter (fun e => e.member = s.cur.member), e.line ≠ ⟨p.dev, p.addr / 64 * 64⟩)
    (full : 64 ≤ ((s.tile s.cur.tile).weir.filter fun e => e.member = s.cur.member).length) :
    aborts s m st k 2 (BitVec.ofNat 64 (s.lineAddr false ⟨p.dev, p.addr / 64 * 64⟩)) (exec (.ldg m d a off z) s) := by
  rw [exec_ldg_inTx tx outer aligned lies clear place plain, State.addRead_full clear.here tx outer _ fresh full]
  exact finish_abort clear.here tx outer unchunked ready m 2 _

omit lies in
theorem exec_ldg_resv {r : Nat} (resv : s.resvAt p = some r) :
    exec (.ldg m d a off z) s = .next (s.finish s.cur m (.placed (s.abortTx s.cur 7 st.regs.pc))) := by
  refine (State.issue_clear clear m _).trans ?_
  simp only [State.globalAddr_at aligned place, Got.act, resv, Strand.inTx_outer tx outer]

end

/-! ## The commit -/

/-- `u` is what the first writes of a commit have made of `s`: its places, the committing strand and reduction words are as they were. -/
structure State.Commits (s u : State) (x : SlotId) (st : Strand) (mem : List Host.Cell) : Prop where
  rows : u.fusedRows = s.fusedRows
  cols : u.fusedCols = s.fusedCols
  unreduced : u.redWords = []
  mine : u.strand? x = some st
  mem : u.mem = mem

/-- The bytes that an effect of a write-set entry writes, if it is a store. -/
def WOp.bytes (e : WEntry) : WOp → Option (Nat × List Byte)
  | .store off bs _ => some (e.line.addr + off, bs)
  | _ => none

/-- The writes of a write-set entry, in order. -/
def WEntry.writes (e : WEntry) : List (Nat × List Byte) := e.ops.filterMap (WOp.bytes e)

/-- Every effect of the entry is a store to HBM of this device. -/
def WEntry.Stores (s : State) (e : WEntry) : Prop :=
  e.line.dev = thisDev ∧ ∀ o ∈ e.ops, ∃ off bs leaf, o = .store off bs leaf ∧ s.region (e.line.addr + off) = .hbm

section
variable {s u : State} {x : SlotId} {st : Strand} {mem : List Host.Cell} (calm : st.Calm)
include calm

theorem State.Commits.store (so_far : s.Commits u x st mem) (A : Nat) (bs : List Byte) :
    s.Commits (u.store (some x) A bs) x st (memSetBytes mem A bs) := by
  have near := ((u.lagWrite pathStrand 0 A bs.length []).putBytes A bs).near_notify (some x) ⟨thisDev, A⟩ bs.length
  have lag := u.lagWrite_eq pathStrand 0 A bs.length []
  refine ⟨?_, ?_, (u.store_wrote ..).redWords.trans so_far.unreduced, State.strand_store so_far.mine calm .., ?_⟩
  · rw [State.store, near, State.putBytes_fusedRows, lag, so_far.rows]
  · rw [State.store, near, State.putBytes_fusedCols, lag, so_far.cols]
  · rw [State.store_mem, so_far.mem]

theorem State.Commits.ops {e : WEntry} (here : e.line.dev = thisDev) (ops : List WOp)
    (stores : ∀ o ∈ ops, ∃ off bs leaf, o = WOp.store off bs leaf ∧ s.region (e.line.addr + off) = .hbm) (so_far : s.Commits u x st mem) :
    s.Commits (ops.foldl (fun s o => match o with
      | .store off bs _ => s.poke (some x) (isSup x) ⟨e.line.dev, e.line.addr + off⟩ bs
      | .empty w _ => if e.line.dev = thisDev then s.emptyWord (some x) (e.line.addr / 8 + w) else s
      | .pin b => s.modCell e.line.addr fun c => c.setPins b (c.pins b + 1)) u) x st
      ((ops.filterMap (WOp.bytes e)).foldl (fun k p => memSetBytes k p.1 p.2) mem) := by
  induction ops generalizing u mem with
  | nil => exact so_far
  | cons o r ih =>
    obtain ⟨off, bs, leaf, rfl, hbm⟩ := stores _ List.mem_cons_self
    rw [List.foldl_cons, List.filterMap_cons]
    refine ih (fun o ho => stores o (List.mem_cons_of_mem _ ho)) ?_
    have there : u.region (e.line.addr + off) = .hbm := (State.region_of_fuses so_far.rows so_far.cols _).trans hbm
    dsimp only
    rw [here, State.poke_hbm there so_far.unreduced]
    exact so_far.store calm _ bs

theorem State.Commits.entry {e : WEntry} (stores : e.Stores s) (so_far : s.Commits u x st mem) :
    s.Commits (u.applyEntry x e) x st (e.writes.foldl (fun k p => memSetBytes k p.1 p.2) mem) := by
  have counted : s.Commits (u.countWork x.tile (((u.strand? x).map (·.lid)).getD 0) 0 1) x st mem :=
    ⟨so_far.rows, so_far.cols, so_far.unreduced, (State.strand?_countWork ..).trans so_far.mine, so_far.mem⟩
  unfold State.applyEntry
  split
  · exact counted.ops calm stores.1 e.ops stores.2
  · exact so_far.ops calm stores.1 e.ops stores.2

theorem State.Commits.all (ws : List WEntry) (stores : ∀ e ∈ ws, e.Stores s) (so_far : s.Commits u x st mem) :
    s.Commits (ws.foldl (fun s e => s.applyEntry x e) u) x st ((ws.flatMap WEntry.writes).foldl (fun k p => memSetBytes k p.1 p.2) mem) := by
  induction ws generalizing u mem with
  | nil => exact so_far
  | cons e r ih =>
    rw [List.foldl_cons, List.flatMap_cons, List.foldl_append]
    exact ih (fun e he => stores e (List.mem_cons_of_mem _ he)) (so_far.entry calm (stores e List.mem_cons_self))

end

/-- What a commit leaves of its strand, of memory and of its tile's weir. -/
theorem State.commitTx_spec {s : State} {x : SlotId} {st : Strand} (here : s.strand? x = some st) (calm : st.Calm) (unreduced : s.redWords = [])
    (t : Tx) (stores : ∀ e ∈ t.wset, e.Stores s) :
    (s.commitTx x t).strand? x = some { st with tx := none, abortReq := none }
      ∧ (s.commitTx x t).mem = (t.wset.flatMap WEntry.writes).foldl (fun k p => memSetBytes k p.1 p.2) s.mem
      ∧ ∀ e ∈ ((s.commitTx x t).tile x.tile).weir, e.member ≠ x.member := by
  have done := State.Commits.all (s := s) calm t.wset stores ⟨rfl, rfl, unreduced, here, rfl⟩
  unfold State.commitTx
  dsimp only
  rw [State.modStrand_of_strand done.mine]
  refine ⟨(State.strand_dropWeir _ x x).trans (State.strand?_setStrand ..), done.mem, fun e he => ?_⟩
  rw [State.dropWeir, State.tile_modTile] at he
  simpa using (List.mem_filter.mp he).2

section
variable {s : State} {st : Strand} (clear : s.Clear st {}) {x : Tx} (tx : st.tx = some x) {l : TxLevel} (levels : x.levels = [l])
  (unasked : st.abortReq = none)
include clear tx levels unasked

theorem exec_txe_lost (m : Bool) {e : Weir} (mine : ((s.tile s.cur.tile).weir.filter fun e => e.member = s.cur.member) = [e]) (hit : e.hit = true)
    (awake : e.sleep = false) :
    exec (.txe m) s = .next (s.finish s.cur m (.placed (s.abortTx s.cur 1 (BitVec.ofNat 64 (s.lineAddr e.sp e.line))))) := by
  have found : (s.tile s.cur.tile).weir.find? (fun e => e.member = s.cur.member && e.hit && !e.sleep) = some e := by
    have split := List.find?_filter (xs := (s.tile s.cur.tile).weir) (p := fun e => decide (e.member = s.cur.member)) (q := fun e => e.hit && !e.sleep)
    have alone : [e].find? (fun e => e.hit && !e.sleep) = some e := by simp [hit, awake]
    rw [mine, alone] at split
    rw [split]
    congr 1
    funext k
    simp [Bool.and_assoc]
  refine (State.issue_clear clear m _).trans ?_
  simp only [tx, levels, unasked, found]

theorem exec_txe_commits (m : Bool) (kept : ∀ e ∈ (s.tile s.cur.tile).weir.filter (fun e => e.member = s.cur.member), e.hit = false)
    (quiet : s.commitWaits s.cur = false) (plain : st.chunk = none) :
    exec (.txe m) s = .next (s.finish s.cur m (.ok (s.commitTx s.cur x))) := by
  have none_ : (s.tile s.cur.tile).weir.find? (fun e => e.member = s.cur.member && e.hit && !e.sleep) = none := by
    rw [List.find?_eq_none]
    intro e he
    by_cases mine : e.member = s.cur.member
    · simp [kept e (List.mem_filter.mpr ⟨he, by simpa using mine⟩)]
    · simp [mine]
  refine (State.issue_clear clear m _).trans ?_
  simp only [tx, levels, unasked, none_, quiet, plain, Option.isSome_none, Bool.false_eq_true, if_false]

end

/-- Settles O36: inside a transaction an access touches its read set or write set alone, and its commit is the fold of the write set's stores, each
of which leaves places, reduction words and the committing strand as they were. -/
theorem transactionCommit : Obligations.TransactionCommit := by
  refine ⟨fun s st m x l d a off z p tr ready plain tx outer => ?access, fun s st m x l clear ready plain unasked tx levels => ⟨fun kept quiet unreduced stores => ?commit, fun e mine hit awake => ?lost⟩⟩
  case access =>
    intro n ea line mine place aligned lies
    have ea' : ea = eaScalar (st.rs a) off z := (eaScalar_eq ..).symm
    clear_value ea
    subst ea'
    refine ⟨fun clear at_ => ⟨fun w held => stg_inTx_held tx outer aligned lies clear at_ held, stg_inTx_full tx outer aligned lies plain ready clear at_⟩,
      fun clear at_ => ⟨fun none fresh => ⟨ldg_inTx_enters tx outer aligned lies clear at_ none fresh,
        ldg_inTx_full tx outer aligned lies clear at_ plain ready none fresh⟩, fun k resv => ?_⟩⟩
    rw [exec_ldg_resv tx outer aligned clear at_ resv]
    exact finish_abort clear.here tx outer plain ready m 7 _
  case commit =>
    obtain ⟨after, mem, weir⟩ := State.commitTx_spec clear.here (Strand.calm_of_ready ready plain) unreduced x stores
    rw [exec_txe_commits clear tx levels unasked m kept quiet plain, State.finish_ok after]
    refine ⟨_, rfl, ?_, ?_, ?_⟩
    · exact mem
    · rw [State.strand?_setStrand, ← unasked]
    · rw [State.setStrand, State.tile_modTile]
      exact weir
  case lost =>
    rw [exec_txe_lost clear tx levels unasked m mine hit awake]
    exact finish_abort clear.here tx (by rw [levels]; rfl) plain ready m 1 _

end Sys2Proof.Machine
end

section
/-!
PROOF. ChannelWords does not hold of every state: cpstat of a strand that keeps a chunk but is in no deterministic mode.
-/

namespace Sys2Proof.Machine

set_option Elab.async false

/-- A strand with STATUS.DET clear that keeps a chunk: its scratchpad and control reads go to the chunk's read set (R299). -/
def chunked : Strand := { Strand.initial with chunk := some ⟨Regs.initial, none, 0, [], [], false, false⟩ }

/-- It stands in the slot that acts. -/
def chunkedAlone : State := { State.reset with tiles := [(0, { Tile.initial with strands := [(16, chunked)] })], cur := ⟨0, .a, 0⟩ }

/-- How many lines the chunk of the executing strand has read. -/
def State.chunkReads (s : State) : Option Nat := ((s.strand? s.cur).bind (·.chunk)).map (·.reads.length)

theorem chunkReads_cpstat : (match exec (.cpstat false 41 0) chunkedAlone with
    | .next t => t.chunkReads
    | _ => none) = some 1 := by
  decide +kernel

theorem clear_chunkedAlone : chunkedAlone.Clear chunked (useD 41) where
  here := rfl
  mode := .inr rfl
  declared := by decide +kernel
  settled := by decide +kernel
  outside := fun h => absurd h (by decide)
  chunk := rfl
  order := fun h => absurd h (by decide)
  parity := by decide +kernel

/-- Refutes O40: cpstat of a strand that keeps a chunk adds the channels' line to the chunk's read set, also where STATUS.DET is 0, so more than the
destination changes. -/
theorem not_channelWords : ¬ Obligations.ChannelWords := by
  intro h
  obtain ⟨-, -, -, -, stat, -⟩ := h chunkedAlone chunked false 41 41 0 0 0 (by decide)
  obtain ⟨v, runs, -⟩ := stat clear_chunkedAlone rfl rfl
  have reads := chunkReads_cpstat
  rw [runs, Strand.putS_z] at reads
  revert reads
  decide +kernel

end Sys2Proof.Machine
end

section
/-!
PROOF. TransferSteps does not hold of every state: a halt whose owner lies in a context block writes that block.
-/

namespace Sys2Proof.Machine

set_option Elab.async false

/-- One element of 8 bytes. -/
def oneElement : Fields := ((Vector.replicate 42 0).setIfInBounds 2 8 |>.setIfInBounds 3 1 |>.setIfInBounds 4 1)

/-- Its transfer from the scratchpad's first bytes to others, by a strand of slot 1. -/
def spilledCopy : Transfer := ⟨0, ⟨0, .m, 1⟩, 0, 7, 0, 0, false, oneElement, 8, 0, 8, 0x100, 0, true, false, [], [], [], false, none⟩

/-- The strand in its context block at address 0, whose STATUS word memory does not hold any more. -/
def spilledOwner : Spilled := ⟨⟨0, .m, 1⟩, 0, { Strand.initial with uid := 7, det := true }, none⟩

/-- The device on which the source's word holds an uncorrectable error. -/
def haltingCopy : State :=
  { State.reset with
    tiles := [(0, { Tile.initial with chans := Tile.initial.chans.setIfInBounds 0 { Chan.initial with queue := [spilledCopy] } })]
    spills := [spilledOwner]
    badWords := [0x10000000000 / 8] }

/-! ## The halt -/

theorem readElement_haltingCopy (c : Chan) : haltingCopy.readElement c 0 spilledCopy false 0
    = (.ok (haltingCopy.peekAs pathCopy ⟨thisDev, 0x10000000000⟩ 8, spilledCopy, some ⟨thisDev, 0x10000000000⟩), haltingCopy) := by
  have unlined : Fields.lineEn spilledCopy.fields = false := by decide +kernel
  have size : Fields.esize spilledCopy.fields = 8 := by decide +kernel
  have place : haltingCopy.sideLoc 0 spilledCopy spilledCopy.srcKind (spilledCopy.addr false spilledCopy.x) .read
      = (.ok ⟨thisDev, 0x10000000000⟩, haltingCopy) := by
    unfold State.sideLoc
    rw [if_pos (by decide)]
    have at_ : haltingCopy.padBase 0 + (spilledCopy.addr false spilledCopy.x).toNat % 2 ^ 20 = 0x10000000000 := by decide +kernel
    rw [at_]
  unfold State.readElement
  simp only [unlined, Bool.false_eq_true, if_false, size, place]
  rfl

theorem copyCheck_haltingCopy : haltingCopy.copyCheck spilledCopy ⟨thisDev, 0x10000000000⟩ 8 (fun _ => true) .ok
    = .fails 0 (haltingCopy.logCopy 2 spilledCopy ⟨thisDev, 0x10000000000⟩) := by
  have words : (wordsOf 0x10000000000 8).filter (fun _ => true) = [0x10000000000 / 8] := by decide +kernel
  unfold State.copyCheck
  rw [if_pos rfl]
  dsimp only
  rw [words]
  have noWeak : haltingCopy.fixWords (8 * (0x10000000000 / 8)) 8 (BitVec.ofNat 5 spilledCopy.who.member) = haltingCopy :=
    State.fixWords_of_noWeak (fun _ _ => List.not_mem_nil) _
  rw [List.foldl_cons, List.foldl_nil, noWeak]
  have bad : [0x10000000000 / 8].find? haltingCopy.badWords.contains = some (0x10000000000 / 8) := by decide +kernel
  rw [bad]
  rfl

theorem exec_haltingCopy : exec (.copyElement 0 0 false ⟨.ok, false⟩ 0) haltingCopy
    = .next ((haltingCopy.logCopy 2 spilledCopy ⟨thisDev, 0x10000000000⟩).haltChan 0 0 spilledCopy 0x60 false 0) := by
  have active : (haltingCopy.chan 0 0).active = some spilledCopy := by decide +kernel
  have goes : (!spilledCopy.started || decide (Fields.total spilledCopy.fields ≤ spilledCopy.x)
      || (spilledCopy.dstKind = 12 && Fields.payload spilledCopy.fields < spilledCopy.packet.length + 8)
      || !haltingCopy.sideServed 0 spilledCopy false || !haltingCopy.sideServed 0 spilledCopy true) = false := by decide +kernel
  have size : Fields.esize spilledCopy.fields = 8 := by decide +kernel
  have place : spilledCopy.addr false spilledCopy.x + BitVec.ofNat 64 0 = 0 := by decide +kernel
  show execCopyElement 0 0 false ⟨.ok, false⟩ 0 haltingCopy = _
  unfold execCopyElement
  simp only [active, goes, Bool.false_eq_true, if_false, readElement_haltingCopy, size, copyCheck_haltingCopy, place]

/-! ## The block that the delivery writes -/

/-- A spilled strand as its block has it, with one delivery more. -/
def State.delivered (s : State) (p : Spilled) (code : Nat) (detail : Word) : Spilled :=
  { s.blockNow p with strand := { (s.blockNow p).strand with asyncs := (s.blockNow p).strand.asyncs ++ [(code, detail)] } }

/-- A delivery to a strand that lies in the one context block writes that block. -/
theorem State.deliver_spilled_mem {s : State} {p : Spilled} (spills : s.spills = [p]) (away : s.strand? p.at_ = none) (sid : Word) (lid code : Nat)
    (detail : Word) :
    (s.deliver p.at_ p.strand.uid sid lid code detail).mem = memSetBytes s.mem (s.delivered p code detail).base (s.delivered p code detail).block := by
  have lives : s.lives p.at_ p.strand.uid = true := by simp [State.lives, spills]
  have chosen : s.spills.filter (fun q => decide (q.at_ = p.at_) && decide (q.strand.uid = p.strand.uid)) = [p] := by simp [spills]
  unfold State.delivered State.deliver
  rw [if_pos lives, State.modUid, away, if_neg (by simp), State.modSpilled, chosen]
  rw [List.map_cons, List.map_nil, List.foldl_cons, List.foldl_nil, State.putBytes_mem]

/-- The channel's state when its halt is delivered. -/
def haltedCopy : State :=
  (haltingCopy.logCopy 2 spilledCopy ⟨thisDev, 0x10000000000⟩).setChan none 0 0
    { (haltingCopy.logCopy 2 spilledCopy ⟨thisDev, 0x10000000000⟩).chan 0 0 with
      halted := true, cause := BitVec.ofNat 8 0x60, cpfa := 0, cpfx := BitVec.ofNat 64 (spilledCopy.x % 2 ^ 32), line := [] }

theorem spills_haltedCopy : haltedCopy.spills = [spilledOwner] := by decide +kernel
theorem strand_haltedCopy : haltedCopy.strand? spilledOwner.at_ = none := by decide +kernel

theorem haltChan_haltingCopy : (haltingCopy.logCopy 2 spilledCopy ⟨thisDev, 0x10000000000⟩).haltChan 0 0 spilledCopy 0x60 false 0
    = haltedCopy.free.2.deliver spilledOwner.at_ spilledOwner.strand.uid 0 0 15 haltedCopy.free.1 := by
  have awake : ∀ p ∈ haltedCopy.spills, (decide (p.at_ = spilledCopy.who) && decide (p.strand.uid = spilledCopy.uid) && p.strand.sleeps) = false := by
    rw [spills_haltedCopy]
    decide +kernel
  have same := State.modSpilled_none awake fun p => { p with strand := p.strand.wake 0 }
  have away : haltedCopy.strand? spilledCopy.who = none := strand_haltedCopy
  have sleepless : ((haltedCopy.strand? spilledCopy.who).map fun st => decide (st.uid = spilledCopy.uid) && st.sleeps).getD false = false := by rw [away]; rfl
  have v : haltedCopy = (haltingCopy.logCopy 2 spilledCopy ⟨thisDev, 0x10000000000⟩).setChan none 0 0
    { (haltingCopy.logCopy 2 spilledCopy ⟨thisDev, 0x10000000000⟩).chan 0 0 with
      halted := true, cause := BitVec.ofNat 8 0x60, cpfa := 0, cpfx := BitVec.ofNat 64 (spilledCopy.x % 2 ^ 32), line := [] } := rfl
  unfold State.haltChan
  simp only []
  rw [← v, sleepless]
  simp only [Bool.false_eq_true, if_false, if_true, same]
  rfl

/-- The STATUS word of the block, which was 0 in memory, is 4 after the delivery. -/
theorem status_haltingCopy : memGet ((haltingCopy.logCopy 2 spilledCopy ⟨thisDev, 0x10000000000⟩).haltChan 0 0 spilledCopy 0x60 false 0).mem 440 = 4 := by
  have spills : haltedCopy.free.2.spills = [spilledOwner] := spills_haltedCopy
  have away : haltedCopy.free.2.strand? spilledOwner.at_ = none := strand_haltedCopy
  have mem : haltedCopy.free.2.mem = [] := by decide +kernel
  obtain ⟨bs, is⟩ : ∃ bs, bs = (haltedCopy.free.2.delivered spilledOwner 15 haltedCopy.free.1).block := ⟨_, rfl⟩
  have base : (haltedCopy.free.2.delivered spilledOwner 15 haltedCopy.free.1).base = 0 := by decide +kernel
  have status : bs[440]? = some 4 := by rw [is]; decide +kernel
  obtain ⟨inside, status⟩ := List.getElem?_eq_some_iff.mp status
  rw [haltChan_haltingCopy, State.deliver_spilled_mem spills away, mem, ← is, base, show 440 = 0 + 440 from rfl, memGet_memSetBytes_inside rfl 0 bs inside]
  exact status

/-- Refutes O41: where a transfer's owner lies in a context block, the delivery of its halt writes the block again, here its STATUS word, which memory
had lost; memory is not as it was. -/
theorem not_transferSteps : ¬ Obligations.TransferSteps := by
  intro h
  obtain ⟨goes, -⟩ := h haltingCopy 0 0 spilledCopy [] 0 (by decide) (by decide) (by decide +kernel)
  obtain ⟨-, moves⟩ := goes (by decide +kernel) rfl
  obtain ⟨reads, -⟩ := moves rfl
  obtain ⟨-, reads⟩ := reads (by decide +kernel) rfl rfl rfl (by decide +kernel) (by decide +kernel) (.inl (by decide))
  obtain ⟨-, reads⟩ := reads (.inl (by decide +kernel))
  obtain ⟨bad, -⟩ := reads ⟨thisDev, 0x10000000000⟩ haltingCopy (by decide +kernel)
  obtain ⟨t, runs, mem, -⟩ := bad (0x10000000000 / 8) rfl (by decide +kernel)
  have lost : memGet t.mem 440 = 0 := by rw [mem]; rfl
  have is : t = _ := (Host.Outcome.next.inj (runs.symm.trans exec_haltingCopy))
  rw [is, status_haltingCopy] at lost
  exact absurd lost (by decide)

end Sys2Proof.Machine
end

section
/-!
PROOF. Vector registers: an element of what is packed is the element that was packed, and each vector word by the elements of its result.
-/

namespace Sys2Proof.Machine

set_option Elab.async false

/-! ## Elements -/

/-- Digit `i` of what is packed. -/
theorem packElems_digit (w : Nat) (xs : List Nat) (i : Nat) : packElems w xs / 2 ^ (8 * w * i) % 2 ^ (8 * w) = xs.getD i 0 % 2 ^ (8 * w) := by
  induction xs generalizing i with
  | nil => simp [packElems]
  | cons x r ih =>
    have pos : 0 < 2 ^ (8 * w) := Nat.two_pow_pos _
    cases i with
    | zero => rw [packElems, Nat.mul_zero, Nat.pow_zero, Nat.div_one, Nat.add_mul_mod_self_left, Nat.mod_mod]; rfl
    | succ i =>
      have step : packElems w (x :: r) / 2 ^ (8 * w * (i + 1)) = packElems w r / 2 ^ (8 * w * i) := by
        rw [packElems, Nat.mul_succ, Nat.add_comm (8 * w * i), Nat.pow_add, ← Nat.div_div_eq_div_mul, Nat.add_mul_div_left _ _ pos,
          Nat.div_eq_of_lt (Nat.mod_lt _ pos), Nat.zero_add]
      rw [step, ih]
      rfl

/-- A digit that lies in the low bits is one of what they hold. -/
theorem mod_div_mod (a : Nat) {k n m : Nat} (inside : k + n ≤ m) : a % 2 ^ m / 2 ^ k % 2 ^ n = a / 2 ^ k % 2 ^ n := by
  obtain ⟨r, rfl⟩ : ∃ r, m = k + r := ⟨m - k, by omega⟩
  rw [Nat.pow_add, Nat.mod_mul_right_div_self]
  exact Nat.mod_mod_of_dvd _ (Nat.pow_dvd_pow 2 (by omega))

theorem elem_lt (v : V128) (w i : Nat) : V128.elem v w i < 2 ^ (8 * w) := Nat.mod_lt _ (Nat.two_pow_pos _)

/-- An element inside the register of what is packed into it. -/
theorem elem_ofElems {w i : Nat} (inside : i < 128 / w) (xs : List Nat) : V128.elem (ofElems w xs) w i = xs.getD i 0 % 2 ^ (8 * w) := by
  have room : w * (i + 1) ≤ 128 := (Nat.mul_le_mul_left w inside).trans (Nat.mul_div_le 128 w)
  rw [Nat.mul_succ] at room
  unfold V128.elem ofElems
  rw [BitVec.toNat_ofNat, mod_div_mod _ (by rw [Nat.mul_assoc]; omega), packElems_digit]

theorem getD_map_range {n i : Nat} (low : i < n) (f : Nat → Nat) : ((List.range n).map f).getD i 0 = f i := by
  simp [List.getD, low]

/-- An element of a register that is built element by element. -/
theorem elem_ofElems_range {w i : Nat} (inside : i < 128 / w) (f : Nat → Nat) :
    V128.elem (ofElems w ((List.range (128 / w)).map f)) w i = f i % 2 ^ (8 * w) := by
  rw [elem_ofElems inside, getD_map_range inside]

theorem elem_mapElems {w i : Nat} (inside : i < 128 / w) (f : Nat → Nat) (a : V128) :
    V128.elem (mapElems w f a) w i = f (V128.elem a w i) % 2 ^ (8 * w) := elem_ofElems_range inside _

theorem elem_zipElems {w i : Nat} (inside : i < 128 / w) (f : Nat → Nat → Nat) (a b : V128) :
    V128.elem (zipElems w f a b) w i = f (V128.elem a w i) (V128.elem b w i) % 2 ^ (8 * w) := elem_ofElems_range inside _

/-! ## The end of a vector word -/

theorem State.valu_clear {s : State} {st : Strand} {u : Uses} (clear : s.Clear st u) (m : Bool) (d : Spec) (f : Strand → V128) :
    s.valu m u d f = .next (s.completes m (st.putV d (f st))) := by
  rw [State.valu, State.issue_clear clear, State.finish_put]

/-! ## Integers by their sign (R156) -/

theorem IntTy.read_emod (k : IntTy) (x : Nat) : k.read x % ((2 ^ k.bits : Nat) : Int) = (x : Int) % ((2 ^ k.bits : Nat) : Int) := by
  unfold IntTy.read
  dsimp only
  split <;> simp

/-- An integer wrapped that is a natural modulo 2^n. -/
theorem IntTy.wrap_of_emod {k : IntTy} {v : Int} {n : Nat} (same : v % ((2 ^ k.bits : Nat) : Int) = (n : Int) % ((2 ^ k.bits : Nat) : Int)) :
    k.wrap v = n % 2 ^ k.bits := by
  unfold IntTy.wrap
  rw [same, ← Int.natCast_emod, Int.toNat_natCast]

theorem IntTy.wrap_add (k : IntTy) (x y : Nat) : k.wrap (k.read x + k.read y) = (x + y) % 2 ^ k.bits :=
  IntTy.wrap_of_emod (by rw [Int.add_emod, k.read_emod, k.read_emod, ← Int.add_emod]; push_cast; rfl)

theorem IntTy.wrap_mul (k : IntTy) (x y : Nat) : k.wrap (k.read x * k.read y) = (x * y) % 2 ^ k.bits :=
  IntTy.wrap_of_emod (by rw [Int.mul_emod, k.read_emod, k.read_emod, ← Int.mul_emod]; push_cast; rfl)

theorem IntTy.wrap_sub (k : IntTy) {x y : Nat} (fits : y < 2 ^ k.bits) : k.wrap (k.read x - k.read y) = (x + (2 ^ k.bits - y)) % 2 ^ k.bits := by
  refine IntTy.wrap_of_emod ?_
  rw [Int.sub_emod, k.read_emod, k.read_emod, ← Int.sub_emod, Nat.cast_add, Nat.cast_sub fits.le]
  rw [show (x : Int) + (((2 ^ k.bits : Nat) : Int) - y) = x - y + ((2 ^ k.bits : Nat) : Int) by omega, Int.add_emod_right]

/-- The value of bits read with a sign. -/
theorem IntTy.read_signed {k : IntTy} (signed : k.signed = true) {x : Nat} (fits : x < 2 ^ k.bits) :
    k.read x = if 2 ^ (k.bits - 1) ≤ x then (x : Int) - 2 ^ k.bits else (x : Int) := by
  unfold IntTy.read
  dsimp only
  rw [Nat.mod_eq_of_lt fits, signed]
  simp

theorem IntTy.read_unsigned {k : IntTy} (unsigned : k.signed = false) {x : Nat} (fits : x < 2 ^ k.bits) : k.read x = x := by
  unfold IntTy.read
  dsimp only
  rw [Nat.mod_eq_of_lt fits, unsigned]
  simp

/-- A shift count of n or more leaves the sign alone, as one of n - 1 does. -/
theorem div_two_pow_min {v : Int} {n : Nat} (low : -(2 ^ (n - 1) : Int) ≤ v) (high : v < (2 ^ (n - 1) : Int)) (c : Nat) :
    v / ((2 ^ Nat.min c (n - 1) : Nat) : Int) = v / 2 ^ c := by
  rcases Nat.le_total c (n - 1) with le | le
  · rw [show Nat.min c (n - 1) = c from Nat.min_eq_left le]
    push_cast
    rfl
  · rw [show Nat.min c (n - 1) = n - 1 from Nat.min_eq_right le]
    have grows : (2 ^ (n - 1) : Int) ≤ 2 ^ c := by exact_mod_cast Nat.pow_le_pow_right (by decide) le
    push_cast
    rcases Int.lt_or_le v 0 with neg | nonneg
    · rw [Int.ediv_eq_neg_one_of_neg_of_le neg (by omega), Int.ediv_eq_neg_one_of_neg_of_le neg (by omega)]
    · rw [Int.ediv_eq_zero_of_lt nonneg high, Int.ediv_eq_zero_of_lt nonneg (by omega)]

theorem vity_bits (t : BitVec 3) : (vity t).bits = 8 * 2 ^ (t.toNat % 4) := by
  show 8 * 2 ^ ((8 + t.toNat) % 4) = _
  rw [show (8 + t.toNat) % 4 = t.toNat % 4 by omega]

theorem vity_bytes (t : BitVec 3) : (vity t).bits / 8 = 2 ^ (t.toNat % 4) := by rw [vity_bits]; omega

theorem vity_signed (t : BitVec 3) : (vity t).signed = decide (t.toNat < 4) := by
  show decide (8 + t.toNat < 12) = _
  congr 1
  rw [eq_iff_iff]
  omega

/-- An integer from its bits, read with their sign. -/
def signedOf (x n : Nat) : Int := if 2 ^ (n - 1) ≤ x then (x : Int) - 2 ^ n else (x : Int)

theorem shlElem_eq (k : IntTy) (x c : Nat) : shlElem k x c = x * 2 ^ c % 2 ^ k.bits := by
  unfold shlElem
  split
  · next wide =>
    exact (Nat.mod_eq_zero_of_dvd (dvd_mul_of_dvd_right (Nat.pow_dvd_pow 2 wide) x)).symm
  · rfl

theorem signedOf_bounds {x n : Nat} (positive : 0 < n) (fits : x < 2 ^ n) : -(2 ^ (n - 1) : Int) ≤ signedOf x n ∧ signedOf x n < (2 ^ (n - 1) : Int) := by
  have double : 2 ^ n = 2 * 2 ^ (n - 1) := by rw [← Nat.pow_succ']; congr 1; omega
  unfold signedOf
  have cast : ((2 : Int) ^ n) = ((2 ^ n : Nat) : Int) := by push_cast; rfl
  have cast' : ((2 : Int) ^ (n - 1)) = ((2 ^ (n - 1) : Nat) : Int) := by push_cast; rfl
  rw [cast, cast']
  split <;> omega

theorem shrElem_signed {k : IntTy} (signed : k.signed = true) (positive : 0 < k.bits) {x : Nat} (fits : x < 2 ^ k.bits) (c : Nat) :
    shrElem k x c = (signedOf x k.bits / 2 ^ c % 2 ^ k.bits).toNat := by
  have read : k.read x = signedOf x k.bits := k.read_signed signed fits
  obtain ⟨low, high⟩ := signedOf_bounds positive fits
  unfold shrElem
  rw [if_pos signed, read, div_two_pow_min low high]
  unfold IntTy.wrap
  push_cast
  rfl

theorem shrElem_unsigned {k : IntTy} (unsigned : k.signed = false) {x : Nat} (fits : x < 2 ^ k.bits) (c : Nat) : shrElem k x c = x / 2 ^ c := by
  unfold shrElem
  rw [if_neg (by simp [unsigned])]
  split
  · next wide => exact (Nat.div_eq_of_lt (fits.trans_le (Nat.pow_le_pow_right (by decide) wide))).symm
  · rfl

theorem intOf_bits : ∀ t : BitVec 4, 8 ≤ t.toNat → (intOf t.toNat).bits = 8 * typeWidth t := by decide

/-- The element that vext writes. -/
theorem extElem_eq (t : BitVec 4) (v : V128) (i : Nat) : extElem t v i
    = if 8 ≤ t.toNat ∧ t.toNat < 12 then BitVec.ofInt 64 (signedOf (V128.elem v (typeWidth t) i) (8 * typeWidth t))
      else BitVec.ofNat 64 (V128.elem v (typeWidth t) i) := by
  have fits := elem_lt v (typeWidth t) i
  unfold extElem
  dsimp only
  by_cases int : 8 ≤ t.toNat
  · have bits := intOf_bits t int
    rw [if_pos int]
    rw [← bits] at fits ⊢
    by_cases small : t.toNat < 12
    · rw [if_pos ⟨int, small⟩, IntTy.read_signed (by simp [intOf, small]) fits]
      rfl
    · rw [if_neg (fun h => small h.2), IntTy.read_unsigned (by simp [intOf, small]) fits, BitVec.ofInt_natCast]
  · rw [if_neg int, if_neg (fun h => int h.1)]

/-- A word whose result is short, by the elements that it gives. -/
def givesElems (s : State) (m : Bool) (st : Strand) (d : Spec) (w : Nat) (r : Nat → Nat) (o : Host.Outcome State Fault Refusal) : Prop :=
  ∃ v : V128, o = .next (s.completes m (st.putV d v)) ∧ ∀ i < 128 / w, V128.elem v w i = r i

section
variable {s : State} {st : Strand} {u : Uses} (clear : s.Clear st u) (m : Bool) (d : Spec)
include clear

theorem valu_gives {f : Strand → V128} {w : Nat} {r : Nat → Nat} (elems : ∀ i < 128 / w, V128.elem (f st) w i = r i) :
    givesElems s m st d w r (s.valu m u d f) := ⟨_, State.valu_clear clear m d f, elems⟩

end

theorem elem_shuffle {i : Nat} (inside : i < 32) (f : Nat → Bool × Nat) (a b : V128) :
    V128.elem (shuffle f a b) 4 i = V128.elem (if (f i).1 then b else a) 4 (f i).2 := by
  refine (elem_ofElems_range (w := 4) inside _).trans (Nat.mod_eq_of_lt (elem_lt _ 4 _))

theorem viadd_elem (t : BitVec 3) (a b : V128) {f : Int → Int → Int} {g : Nat → Nat → Nat}
    (same : ∀ x y, x < 2 ^ (vity t).bits → y < 2 ^ (vity t).bits → (vity t).wrap (f ((vity t).read x) ((vity t).read y)) = g x y % 2 ^ (vity t).bits) :
    ∀ i < 128 / 2 ^ (t.toNat % 4), V128.elem (zipElems ((vity t).bits / 8) (fun x y => (vity t).wrap (f ((vity t).read x) ((vity t).read y))) a b)
      (2 ^ (t.toNat % 4)) i = g (V128.elem a (2 ^ (t.toNat % 4)) i) (V128.elem b (2 ^ (t.toNat % 4)) i) % 2 ^ (8 * 2 ^ (t.toNat % 4)) := by
  intro i inside
  rw [vity_bytes, elem_zipElems inside]
  rw [same _ _ (by rw [vity_bits]; exact elem_lt ..) (by rw [vity_bits]; exact elem_lt ..), vity_bits, Nat.mod_mod]

theorem vshl_elem (t : BitVec 3) (a b : V128) : ∀ i < 128 / 2 ^ (t.toNat % 4), V128.elem (zipElems ((vity t).bits / 8) (shlElem (vity t)) a b)
    (2 ^ (t.toNat % 4)) i
      = V128.elem a (2 ^ (t.toNat % 4)) i * 2 ^ V128.elem b (2 ^ (t.toNat % 4)) i % 2 ^ (8 * 2 ^ (t.toNat % 4)) := by
  intro i inside
  rw [vity_bytes, elem_zipElems inside, shlElem_eq, vity_bits, Nat.mod_mod]

theorem vshr_elem (t : BitVec 3) (a b : V128) : ∀ i < 128 / 2 ^ (t.toNat % 4), V128.elem (zipElems ((vity t).bits / 8) (shrElem (vity t)) a b)
    (2 ^ (t.toNat % 4)) i
      = if t.toNat < 4 then (signedOf (V128.elem a (2 ^ (t.toNat % 4)) i) (8 * 2 ^ (t.toNat % 4)) / 2 ^ V128.elem b (2 ^ (t.toNat % 4)) i
          % 2 ^ (8 * 2 ^ (t.toNat % 4))).toNat
        else V128.elem a (2 ^ (t.toNat % 4)) i / 2 ^ V128.elem b (2 ^ (t.toNat % 4)) i := by
  intro i inside
  have fits := elem_lt a (2 ^ (t.toNat % 4)) i
  have positive : 0 < (vity t).bits := by rw [vity_bits]; positivity
  rw [vity_bytes, elem_zipElems inside]
  rw [← vity_bits] at fits ⊢
  by_cases small : t.toNat < 4
  · rw [if_pos small, shrElem_signed (by rw [vity_signed]; simpa using small) positive fits]
    refine Nat.mod_eq_of_lt ?_
    have pos : (0 : Int) < 2 ^ (vity t).bits := by positivity
    have below := Int.emod_lt_of_pos (signedOf (V128.elem a (2 ^ (t.toNat % 4)) i) (vity t).bits / 2 ^ V128.elem b (2 ^ (t.toNat % 4)) i) pos
    rw [Int.toNat_lt (Int.emod_nonneg _ pos.ne')]
    exact_mod_cast below
  · rw [if_neg small, shrElem_unsigned (by rw [vity_signed]; simpa using small) fits]
    exact Nat.mod_eq_of_lt ((Nat.div_le_self _ _).trans_lt fits)

theorem vperm_elem (a b : V128) : ∀ i < 128 / 1, V128.elem (mapElems 1 (fun k => if 128 ≤ k then 0 else V128.elem a 1 k) b) 1 i
    = if V128.elem b 1 i < 128 then V128.elem a 1 (V128.elem b 1 i) else 0 := by
  intro i inside
  rw [elem_mapElems inside]
  by_cases low : V128.elem b 1 i < 128
  · rw [if_pos low, if_neg (by omega)]
    exact Nat.mod_eq_of_lt (elem_lt ..)
  · rw [if_neg low, if_pos (by omega), Nat.zero_mod]

theorem vbcast_elem (w x : Nat) : ∀ i < 128 / w, V128.elem (ofElems w (List.replicate (128 / w) x)) w i = x % 2 ^ (8 * w) := by
  intro i inside
  rw [elem_ofElems inside]
  simp [List.getD, inside]

/-- Settles O44: each result by its elements, and the elements by the integers that they are. -/
theorem vectorIntegerAndMoves : Obligations.VectorIntegerAndMoves := by
  intro s st m t t4 d a b idx
  dsimp only
  have bits := vity_bits t
  have bytes := vity_bytes t
  refine ⟨fun clear => ⟨?add, ?sub, ?mul, ?shl, ?shr, ?and, ?or, ?xor, ?perm, ?zlo, ?zhi, ?even, ?odd⟩, fun clear => ?bcast, fun clear => ?mov, fun clear => ?ext⟩
  case add => exact valu_gives clear m d (viadd_elem t _ _ fun x y _ _ => (vity t).wrap_add x y)
  case sub => exact valu_gives clear m d (viadd_elem t _ _ (g := fun x y => x + (2 ^ (8 * 2 ^ (t.toNat % 4)) - y)) fun x y _ hy => by rw [← bits]; exact (vity t).wrap_sub hy)
  case mul => exact valu_gives clear m d (viadd_elem t _ _ fun x y _ _ => (vity t).wrap_mul x y)
  case shl => exact valu_gives clear m d (vshl_elem t _ _)
  case shr => exact valu_gives clear m d (vshr_elem t _ _)
  case and => exact State.valu_clear clear m d _
  case or => exact State.valu_clear clear m d _
  case xor => exact State.valu_clear clear m d _
  case perm => exact valu_gives clear m d (vperm_elem _ _)
  case zlo => exact valu_gives clear m d fun i inside => by rw [elem_shuffle inside]; rfl
  case zhi => exact valu_gives clear m d fun i inside => by rw [elem_shuffle inside]; rfl
  case even => exact valu_gives clear m d fun i inside => by rw [elem_shuffle inside]
  case odd => exact valu_gives clear m d fun i inside => by rw [elem_shuffle inside]
  case bcast => exact valu_gives clear m d (vbcast_elem _ _)
  case mov => exact State.valu_clear clear m d _
  case ext =>
    exact ⟨(State.alu_clear clear m d _).trans (by rw [extElem_eq]; rfl), (State.alu_clear clear m d _).trans (by rw [extElem_eq]; rfl)⟩

end Sys2Proof.Machine
end

section
/-!
PROOF. Vector floating point: the draws of stochastic rounding lane by lane, and the elements of each rounded result.
-/

namespace Sys2Proof.Machine

set_option Elab.async false

/-! ## The draws (R136) -/

/-- How many of the first `n` elements of `w` bytes draw on lane `j`. -/
def drawsOn (w n j : Nat) : Nat := ((List.range n).filter fun i => laneOf w i = j).length

theorem drawsOn_succ (w n j : Nat) : drawsOn w (n + 1) j = drawsOn w n j + if laneOf w n = j then 1 else 0 := by
  unfold drawsOn
  rw [List.range_succ, List.filter_append, List.length_append]
  congr 1
  by_cases h : laneOf w n = j <;> simp [h]

/-- One draw of a stochastic rounding. -/
def drawStep (w : Nat) (f : Nat → RMode → Nat) (p : List Nat × Vector (BitVec 32) 32) (i : Nat) : List Nat × Vector (BitVec 32) 32 :=
  let x := lfsrNext (p.2.getD (laneOf w i) 0)
  (p.1 ++ [f i (.rs x)], p.2.setIfInBounds (laneOf w i) x)

theorem vector_getD_set {α : Type} {n : Nat} (v : Vector α n) {i : Nat} (low : i < n) (x d : α) (j : Nat) :
    (v.setIfInBounds i x).getD j d = if i = j then x else v.getD j d := by
  by_cases hj : j < n
  · simp [Vector.getD, hj, Array.getElem_setIfInBounds]
  · rw [if_neg (by omega)]
    simp [Vector.getD, hj]

/-- After `n` draws: each element in its order, each lane advanced once for each of its elements. -/
theorem draws_spec {w n : Nat} (lanes : ∀ i < n, laneOf w i < 32) (f : Nat → RMode → Nat) (lf : Vector (BitVec 32) 32) :
    ((List.range n).foldl (drawStep w f) ([], lf)).1
        = (List.range n).map (fun i => f i (.rs (Nat.iterate lfsrNext (drawsOn w i (laneOf w i) + 1) (lf.getD (laneOf w i) 0))))
      ∧ ∀ j, ((List.range n).foldl (drawStep w f) ([], lf)).2.getD j 0 = Nat.iterate lfsrNext (drawsOn w n j) (lf.getD j 0) := by
  induction n with
  | zero => exact ⟨rfl, fun j => rfl⟩
  | succ n ih =>
    obtain ⟨elems, regs⟩ := ih fun i hi => lanes i (by omega)
    rw [List.range_succ, List.foldl_append, List.map_append]
    obtain ⟨p, is⟩ : ∃ p, (List.range n).foldl (drawStep w f) ([], lf) = p := ⟨_, rfl⟩
    rw [is] at elems regs ⊢
    have next : lfsrNext (p.2.getD (laneOf w n) 0) = Nat.iterate lfsrNext (drawsOn w n (laneOf w n) + 1) (lf.getD (laneOf w n) 0) := by
      rw [regs, Function.iterate_succ_apply']
    refine ⟨?_, fun j => ?_⟩
    · show p.1 ++ [f n (.rs _)] = _
      rw [elems, next]
      rfl
    · show (p.2.setIfInBounds (laneOf w n) _).getD j 0 = _
      rw [vector_getD_set _ (lanes n (by omega)), drawsOn_succ]
      by_cases same : laneOf w n = j
      · rw [if_pos same, if_pos same, next, same]
      · rw [if_neg same, if_neg same, regs]
        rfl

/-- The widths of a vector element. -/
def VecWidth (w : Nat) : Prop := w = 1 ∨ w = 2 ∨ w = 4 ∨ w = 8

theorem laneOf_lt {w i : Nat} (width : VecWidth w) (inside : i < 128 / w) : laneOf w i < 32 := by
  rcases width with rfl | rfl | rfl | rfl <;> unfold laneOf <;> split <;> omega

/-- An element is preceded on its lane by the earlier elements of its 4 bytes. -/
theorem drawsOn_before {w : Nat} (width : VecWidth w) : ∀ i < 128 / w, drawsOn w i (laneOf w i) = i % Nat.max 1 (4 / w) := by
  rcases width with rfl | rfl | rfl | rfl <;> decide +kernel

/-- The elements and the LFSRs of a rounded result, in the mode of each element. -/
theorem drawElems_spec {w n : Nat} (width : VecWidth w) (few : n ≤ 128 / w) (st : Strand) (rnd : BitVec 2) (f : Nat → RMode → Nat) :
    (drawElems (st.vmode rnd) w n f st.regs.lfsr).1 = (List.range n).map (fun i => f i (elemMode st rnd w i))
      ∧ drawn st rnd w n (drawElems (st.vmode rnd) w n f st.regs.lfsr).2 := by
  cases mode : st.vmode rnd with
  | some r =>
    refine ⟨?_, fun j _ => by simp [mode, drawElems]⟩
    simp only [drawElems, elemMode, mode]
  | none =>
    obtain ⟨elems, regs⟩ := draws_spec (fun i hi => laneOf_lt width (by omega)) f st.regs.lfsr (n := n)
    refine ⟨elems.trans (List.map_congr_left fun i hi => ?_), fun j _ => ?_⟩
    · have inside : i < 128 / w := by have := List.mem_range.mp hi; omega
      simp only [elemMode, mode, drawsOn_before width i inside]
    · rw [if_pos mode]
      exact regs j

/-! ## The end of a word of Table 1.12 (R292) -/

theorem finish_tally (s : State) (m : Bool) (st st' : Strand) :
    s.finish s.cur m (.ok ((s.tally st).put st')) = (s.countWork s.cur.tile st.lid 1 0).completes m st' :=
  State.finish_put (s.countWork s.cur.tile st.lid 1 0) m st'

section
variable {s : State} {st : Strand} {u : Uses} (clear : s.Clear st u) (m : Bool) (d : Spec)
include clear

theorem State.vfpu_clear (f : Strand → V128) :
    s.vfpu m u d f = .next ((s.countWork s.cur.tile st.lid 1 0).completes m (st.putV d (f st))) := by
  rw [State.vfpu, State.issue_clear clear, finish_tally]

/-- A word that rounds each of its n elements of w bytes and packs them as elements of wd bytes. -/
theorem State.vround_clear (fp : Bool) (rnd : BitVec 2) (w n wd : Nat) (f : Strand → Nat → RMode → Nat) :
    s.vround fp m u rnd w n wd d f = .next ((if fp then s.countWork s.cur.tile st.lid 1 0 else s).completes m
      ((st.setLfsr (drawElems (st.vmode rnd) w n (f st) st.regs.lfsr).2).putV d (ofElems wd (drawElems (st.vmode rnd) w n (f st) st.regs.lfsr).1))) := by
  rw [State.vround, State.issue_clear clear]
  cases fp
  · exact congrArg _ (State.finish_put s m _)
  · exact congrArg _ (finish_tally s m st _)

end

theorem vecWidth_fmtOf (t : BitVec 2) : VecWidth (fmtOf t.toNat).bytes := by
  revert t
  unfold VecWidth
  decide

/-- A rounded word of a type, by its elements. -/
theorem vround_rounds {s : State} {st : Strand} {u : Uses} (clear : s.Clear st u) (m : Bool) (d : Spec) (rnd : BitVec 2) {w : Nat} (width : VecWidth w)
    (f : Strand → Nat → RMode → Nat) :
    ∃ (v : V128) (lf : Vector (BitVec 32) 32), s.vround true m u rnd w (128 / w) w d f
        = .next ((s.countWork s.cur.tile st.lid 1 0).completes m ((st.setLfsr lf).putV d v))
      ∧ (∀ i < 128 / w, V128.elem v w i = f st i (elemMode st rnd w i) % 2 ^ (8 * w)) ∧ drawn st rnd w (128 / w) lf := by
  obtain ⟨elems, lanes⟩ := drawElems_spec width le_rfl st rnd (f st)
  refine ⟨_, _, State.vround_clear clear m d true rnd w (128 / w) w f, fun i inside => ?_, lanes⟩
  rw [elems, elem_ofElems_range inside]

/-- A word of Table 1.12 that rounds nothing, by its elements. -/
theorem vfpu_gives {s : State} {st : Strand} {u : Uses} (clear : s.Clear st u) (m : Bool) (d : Spec) {f : Strand → V128} {w : Nat} {r : Nat → Nat}
    (elems : ∀ i < 128 / w, V128.elem (f st) w i = r i) :
    ∃ v : V128, s.vfpu m u d f = .next ((s.countWork s.cur.tile st.lid 1 0).completes m (st.putV d v)) ∧ ∀ i < 128 / w, V128.elem v w i = r i :=
  ⟨_, State.vfpu_clear clear m d f, elems⟩

/-! ## Signs -/

theorem two_mul_signBit (t : BitVec 2) : 2 * (fmtOf t.toNat).signBit = 2 ^ (8 * (fmtOf t.toNat).bytes) := by
  revert t
  decide

/-- A bit above a number is set by xor as by a sum. -/
theorem xor_two_pow_of_lt {k x : Nat} (low : x < 2 ^ k) : x ^^^ 2 ^ k = 2 ^ k + x := by
  refine Nat.eq_of_testBit_eq fun i => ?_
  rw [Nat.testBit_xor, Nat.testBit_two_pow]
  rcases Nat.lt_trichotomy i k with below | rfl | above
  · rw [Nat.testBit_two_pow_add_gt below]
    simp [below.ne']
  · rw [Nat.testBit_two_pow_add_eq]
    simp
  · have grows : 2 ^ (k + 1) ≤ 2 ^ i := Nat.pow_le_pow_right (by decide) above
    rw [Nat.pow_succ] at grows
    rw [Nat.testBit_lt_two_pow (by omega), Nat.testBit_lt_two_pow (by omega)]
    simp [above.ne]

/-- Inverting the sign bit of an element. -/
theorem xor_signBit {b k x : Nat} (power : b = 2 ^ k) (fits : x < 2 * b) : x ^^^ b = if b ≤ x then x - b else x + b := by
  subst power
  split
  · next high =>
    have low : x - 2 ^ k < 2 ^ k := by omega
    have back := congrArg (· ^^^ 2 ^ k) (xor_two_pow_of_lt low)
    rw [Nat.xor_assoc, Nat.xor_self, Nat.xor_zero, show 2 ^ k + (x - 2 ^ k) = x by omega] at back
    exact back.symm
  · next low => rw [xor_two_pow_of_lt (by omega), Nat.add_comm]

theorem negBits_eq (t : BitVec 2) {x : Nat} (fits : x < 2 ^ (8 * (fmtOf t.toNat).bytes)) : (fmtOf t.toNat).negBits x
    = if ((fmtOf t.toNat).read x).isNan then (fmtOf t.toNat).nan else x ^^^ (fmtOf t.toNat).signBit := by
  unfold Fmt.negBits
  rw [xor_signBit (b := (fmtOf t.toNat).signBit) rfl (by rw [two_mul_signBit]; exact fits)]

/-- Settles O42: each word rounds each element once, in the mode that the element draws, or chooses it. -/
theorem vectorFloat : Obligations.VectorFloat := by
  intro s st m rnd t d a b
  have width := vecWidth_fmtOf t
  have rounds := fun {u : Uses} (clear : s.Clear st u) (f : Strand → Nat → RMode → Nat) => vround_rounds clear m d rnd width f
  refine ⟨fun clear => ⟨rounds clear _, rounds clear _, rounds clear _, rounds clear _, ?min, ?max⟩, fun clear => ⟨rounds clear _, rounds clear _, rounds clear _⟩,
    fun clear => ⟨rounds clear _, rounds clear _, rounds clear _, rounds clear _, ?abs, ?neg⟩⟩
  case min => exact vfpu_gives clear m d fun i inside => elem_zipElems inside _ _ _
  case max => exact vfpu_gives clear m d fun i inside => elem_zipElems inside _ _ _
  case abs => exact vfpu_gives clear m d fun i inside => elem_mapElems inside _ _
  case neg => exact vfpu_gives clear m d fun i inside => by rw [elem_mapElems inside, negBits_eq t (elem_lt ..)]

end Sys2Proof.Machine
end

section
/-!
PROOF. Vector comparison, selection, reduction and conversion: a level of the reduction pairs its leaves, so the fold is the tree of R141.
-/

namespace Sys2Proof.Machine

set_option Elab.async false

/-! ## The tree -/

section
variable {α : Type} (op : α → α → α)

/-- One level over leaves in order. -/
theorem pairUp_range (m : Nat) (x : Nat → α) :
    pairUp op ((List.range (2 * m)).map x) = (List.range m).map fun i => op (x (2 * i)) (x (2 * i + 1)) := by
  induction m generalizing x with
  | zero => rfl
  | succ m ih =>
    have leaves : (List.range (2 * (m + 1))).map x = x 0 :: x 1 :: (List.range (2 * m)).map fun i => x (i + 2) := by
      rw [show 2 * (m + 1) = 2 * m + 1 + 1 by omega, List.range_succ_eq_map, List.map_cons, List.map_map, List.range_succ_eq_map, List.map_cons, List.map_map]
      rfl
    rw [leaves, pairUp, ih, List.range_succ_eq_map, List.map_cons, List.map_map]
    rfl

/-- The tree over the pairs of its leaves. -/
theorem tree_pairs (x : Nat → α) (k i : Nat) : tree op (fun i => op (x (2 * i)) (x (2 * i + 1))) k i = tree op x (k + 1) i := by
  induction k generalizing i with
  | zero => rfl
  | succ k ih =>
    show op _ _ = op _ _
    rw [ih, ih]

/-- Enough levels over 2^k leaves leave the tree's value alone. -/
theorem treeOf_range {n k : Nat} (enough : k ≤ n) (x : Nat → α) : treeOf op n ((List.range (2 ^ k)).map x) = [tree op x k 0] := by
  induction n generalizing k x with
  | zero =>
    obtain rfl : k = 0 := by omega
    rfl
  | succ n ih =>
    cases k with
    | zero => exact ih (Nat.zero_le n) x
    | succ k => rw [treeOf, Nat.pow_succ', pairUp_range, ih (by omega), tree_pairs]

end

/-! ## Words -/

theorem vecWidth_typeWidth (t : BitVec 4) : VecWidth (typeWidth t) := by
  revert t
  unfold VecWidth
  decide

theorem State.redTo_clear {s : State} {st : Strand} {d a : Spec} (clear : s.Clear st (useRed d a)) (m : Bool) (f : Strand → Word) :
    s.redTo m d a f = .next ((s.countWork s.cur.tile st.lid 1 0).completes m (st.putS d (f st))) := by
  rw [State.redTo, State.issue_clear clear, finish_tally]

/-- The leaves of a reduction of a type: its elements, widened. -/
def redLeaf (t : BitVec 2) (v : V128) (i : Nat) : Nat :=
  if fmtOf t.toNat = workFmt t then V128.elem v (fmtOf t.toNat).bytes i
  else ((workFmt t).write .rne ((fmtOf t.toNat).read (V128.elem v (fmtOf t.toNat).bytes i))).1

theorem redLeaves (t : BitVec 2) : 128 / (fmtOf t.toNat).bytes = 2 ^ Nat.log2 (128 / (fmtOf t.toNat).bytes) ∧ Nat.log2 (128 / (fmtOf t.toNat).bytes) ≤ 6 := by
  revert t
  decide

theorem vred_clear {s : State} {st : Strand} {d a : Spec} (clear : s.Clear st (useRed d a)) (m : Bool) (t : BitVec 2) (op : Fmt → Nat → Nat → Nat) :
    s.vred m t d a op = .next ((s.countWork s.cur.tile st.lid 1 0).completes m (st.putS d
      (BitVec.ofNat 64 (tree (op (workFmt t)) (redLeaf t (st.rv a)) (Nat.log2 (128 / (fmtOf t.toNat).bytes)) 0)))) := by
  obtain ⟨leaves, few⟩ := redLeaves t
  have folds : treeOf (op (workFmt t)) 6 (widened t (st.rv a)) = [tree (op (workFmt t)) (redLeaf t (st.rv a)) (Nat.log2 (128 / (fmtOf t.toNat).bytes)) 0] := by
    rw [← treeOf_range _ few, ← leaves]
    rfl
  rw [State.vred, State.redTo_clear clear, folds]
  rfl

theorem vtsum_clear {s : State} {st : Strand} {d a : Spec} (clear : s.Clear st (useRed d a)) (m : Bool) {p : Nat × Nat}
    (is : p = tree (fun (y z : Nat × Nat) => pairAdd y.1 y.2 z.1 z.2) (fun i => (V128.elem (st.rv a) 4 i, 0)) 5 0) :
    exec (.vtsum m d a) s = .next ((s.countWork s.cur.tile st.lid 1 0).completes m (st.putS d (BitVec.ofNat 64 (p.2 * 2 ^ 32 + p.1)))) := by
  have folds : treeOf (fun (y z : Nat × Nat) => pairAdd y.1 y.2 z.1 z.2) 5 ((List.range 32).map fun i => (V128.elem (st.rv a) 4 i, 0)) = [p] := by
    rw [is, show 32 = 2 ^ 5 by decide, treeOf_range _ le_rfl]
  clear is
  refine (State.redTo_clear clear m _).trans ?_
  dsimp only
  rw [folds]
  rfl

theorem vcvt_clear {s : State} {st : Strand} {d a : Spec} (clear : s.Clear st (vuseA d a)) (m : Bool) (dt t : BitVec 4) (rnd : BitVec 2) :
    ∃ (v : V128) (lf : Vector (BitVec 32) 32), exec (.vcvt m dt t rnd d a) s = .next (s.completes m ((st.setLfsr lf).putV d v))
      ∧ drawn st rnd (typeWidth t) (128 / Nat.max (typeWidth t) (typeWidth dt)) lf
      ∧ ∀ i < 128 / typeWidth dt, V128.elem v (typeWidth dt) i = if i < 128 / Nat.max (typeWidth t) (typeWidth dt)
        then convElem dt t (elemMode st rnd (typeWidth t) i) (V128.elem (st.rv a) (typeWidth t) i) % 2 ^ (8 * typeWidth dt) else 0 := by
  have few : 128 / Nat.max (typeWidth t) (typeWidth dt) ≤ 128 / typeWidth t :=
    Nat.div_le_div_left (Nat.le_max_left _ _) (by rcases vecWidth_typeWidth t with h | h | h | h <;> omega)
  obtain ⟨elems, lanes⟩ := drawElems_spec (vecWidth_typeWidth t) few st rnd fun i md => convElem dt t md (V128.elem (st.rv a) (typeWidth t) i)
  refine ⟨_, _, State.vround_clear clear m d false rnd _ _ _ _, lanes, fun i inside => ?_⟩
  rw [elems, elem_ofElems inside]
  by_cases low : i < 128 / Nat.max (typeWidth t) (typeWidth dt)
  · rw [if_pos low, getD_map_range low]
  · rw [if_neg low]
    simp [List.getD, low]

/-- Settles O43: comparisons and selections by their elements, reductions as the tree over their leaves. -/
theorem vectorCompareReduce : Obligations.VectorCompareReduce := by
  intro s st m cnd t2 rnd t dt d a b
  refine ⟨fun clear => vfpu_gives clear m d fun i inside => ?cmp, fun clear => vfpu_gives clear m d fun i inside => ?sel,
    fun clear => ⟨vred_clear clear m t2 fun f x y => (f.add .rne x y).1, vred_clear clear m t2 fun f x y => (f.minmax false x y).1,
      vred_clear clear m t2 fun f x y => (f.minmax true x y).1, ?sum⟩, fun clear => vcvt_clear clear m dt t rnd⟩
  case sum =>
    intro p
    exact vtsum_clear clear m (Eq.refl p)
  case cmp =>
    have pos := Nat.two_pow_pos (8 * typeWidth t)
    rw [elem_zipElems inside, Nat.mod_eq_of_lt]
    split <;> omega
  case sel =>
    rw [elem_ofElems_range inside, Nat.mod_eq_of_lt]
    split <;> exact elem_lt ..

end Sys2Proof.Machine
end

section
/-!
PROOF. The conversion unit: the planes of a block read back as its elements, and each word of it by its elements.
-/

namespace Sys2Proof.Machine

set_option Elab.async false

/-! ## Numbers of digits -/

/-- A bit of a number that a list of bits makes, the first lowest. -/
theorem testBit_foldr_bits {α : Type} (f : α → Bool) (xs : List α) (j : Nat) :
    (xs.foldr (fun v y => (if f v then 1 else 0) + 2 * y) 0).testBit j = ((xs[j]?).map f).getD false := by
  induction xs generalizing j with
  | nil => simp
  | cons x xs ih =>
    rw [List.foldr_cons]
    cases j with
    | zero => cases h : f x <;> simp [Nat.testBit_zero, h]
    | succ j =>
      rw [Nat.testBit_succ, List.getElem?_cons_succ, ← ih]
      congr 1
      split <;> omega

theorem foldr_bits_lt {α : Type} (f : α → Bool) (xs : List α) : xs.foldr (fun v y => (if f v then 1 else 0) + 2 * y) 0 < 2 ^ xs.length := by
  induction xs with
  | nil => simp
  | cons x xs ih =>
    rw [List.foldr_cons, List.length_cons, Nat.pow_succ]
    split <;> omega

/-- A bit of a number that digits of n bits make, the first lowest. -/
theorem testBit_foldr_digits {n j : Nat} (low : j < n) {f : Nat → Nat} (fits : ∀ k, f k < 2 ^ n) (ks : List Nat) (k : Nat) :
    (ks.foldr (fun k x => f k + 2 ^ n * x) 0).testBit (n * k + j) = ((ks[k]?).map fun k => (f k).testBit j).getD false := by
  induction ks generalizing k with
  | nil => simp
  | cons x ks ih =>
    rw [List.foldr_cons, Nat.add_comm (f x), Nat.testBit_two_pow_mul_add _ (fits x)]
    cases k with
    | zero => simp [low]
    | succ k =>
      rw [if_neg (by rw [Nat.mul_succ]; omega), show n * (k + 1) + j - n = n * k + j by rw [Nat.mul_succ]; omega, ih, List.getElem?_cons_succ]

/-- The number of the lowest bits of a number. -/
theorem foldr_testBit (v p : Nat) : (List.range p).foldr (fun k x => (if v.testBit k then 1 else 0) + 2 * x) 0 = v % 2 ^ p := by
  refine Nat.eq_of_testBit_eq fun k => ?_
  rw [testBit_foldr_bits, Nat.testBit_mod_two_pow]
  by_cases low : k < p <;> simp [low]

/-! ## Blocks -/

theorem IntTy.read_mod (t : IntTy) (x : Nat) : t.read (x % 2 ^ t.bits) = t.read x := by
  simp only [IntTy.read, Nat.mod_mod]

theorem testBit_planesOf {p k j : Nat} (plane : k < p) {vs : List Nat} (block : vs.length = 128) (low : j < 128) :
    (planesOf p vs).testBit (128 * k + j) = (vs.getD j 0).testBit k := by
  have fits (k : Nat) : vs.foldr (fun v y => (if v.testBit k then 1 else 0) + 2 * y) 0 < 2 ^ 128 := block ▸ foldr_bits_lt (·.testBit k) vs
  rw [planesOf, testBit_foldr_digits low fits, List.getElem?_range plane, Option.map_some, Option.getD_some, testBit_foldr_bits (fun v : Nat => v.testBit k),
    List.getElem?_eq_getElem (by omega), Option.map_some, Option.getD_some, List.getD_eq_getElem _ _ (by omega)]

/-- The planes of a block's elements give them back (R137). -/
theorem blockElem_planesOf {p j : Nat} {vs : List Nat} (block : vs.length = 128) (low : j < 128) :
    blockElem p (planesOf p vs) j = (⟨p, true⟩ : IntTy).read (vs.getD j 0) := by
  rw [← IntTy.read_mod, ← foldr_testBit, blockElem]
  refine congrArg _ (List.foldr_ext _ _ _ fun k hk x => ?_)
  rw [testBit_planesOf (List.mem_range.mp hk) block low]

/-! ## plane and unplane -/

/-- The elements of a block's group. -/
def blockVals (g : Nat) : List FVal := (List.range 128).map fun j => Fmt.f32.read (g / 2 ^ (32 * j) % 2 ^ 32)

theorem planeBlock_nan {p g : Nat} (nan : ∃ x ∈ blockVals g, x.isNan = true) : planeBlock p g = (0, 0xFF) := by
  have any : (blockVals g).any FVal.isNan = true := List.any_eq_true.mpr nan
  exact if_pos any

theorem planeBlock_plain {p g : Nat} (plain : ¬∃ x ∈ blockVals g, x.isNan = true) :
    planeBlock p g = (planesOf p ((blockVals g).map (planeElem p (planeScale p (blockVals g)))), BitVec.ofInt 8 (planeScale p (blockVals g) + 127)) := by
  have any : ¬(blockVals g).any FVal.isNan = true := fun nan => plain (List.any_eq_true.mp nan)
  exact if_neg any

/-- What the block of 128 binary32 elements holds. -/
theorem planeBlock_spec (p g : Nat) :
    if ∃ x ∈ blockVals g, x.isNan = true then (planeBlock p g).1 = 0 ∧ (planeBlock p g).2 = 0xFF
    else (planeBlock p g).2 = BitVec.ofInt 8 (planeScale p (blockVals g) + 127)
      ∧ ∀ j < 128, blockElem p (planeBlock p g).1 j
        = (⟨p, true⟩ : IntTy).read (planeElem p (planeScale p (blockVals g)) ((blockVals g).getD j (.nan false))) := by
  split
  case isTrue nan => rw [planeBlock_nan nan]; exact ⟨rfl, rfl⟩
  case isFalse plain =>
    have block : (blockVals g).length = 128 := by simp [blockVals]
    rw [planeBlock_plain plain]
    refine ⟨rfl, fun j low => ?_⟩
    rw [blockElem_planesOf (by simp [block]) low, List.getD_eq_getElem _ _ (by simp [block, low]), List.getElem_map, List.getD_eq_getElem _ _ (by rwa [block])]

theorem unplaneBlock_elem (p g : Nat) (e : Byte) {j : Nat} (low : j < 128) : unplaneBlock p g e / 2 ^ (32 * j) % 2 ^ 32
    = if e = 0xFF then 0x7FC00000 else
      (Fmt.f32.round .rne (decide (blockElem p g j < 0)) (blockElem p g j).natAbs ((e.toNat : Int) - 127) false).1 % 2 ^ 32 := by
  have digit := packElems_digit 4 ((List.range 128).map fun j =>
    if e = 0xFF then Fmt.f32.nan
    else
      let v := blockElem p g j
      (Fmt.f32.round .rne (decide (v < 0)) v.natAbs ((e.toNat : Int) - 127) false).1) j
  rw [getD_map_range low] at digit
  refine digit.trans ?_
  split <;> rfl

theorem Regs.pc_setV (r : Regs) (x : Spec) (v : V128) : (r.setV x v).pc = r.pc := by
  unfold Regs.setV
  dsimp only
  split_ifs <;> rfl

theorem Strand.pc_putGroup (st : Strand) (g : Spec) (n x : Nat) : (st.putGroup g n x).regs.pc = st.regs.pc :=
  List.foldlRecOn (motive := fun r : Regs => r.pc = st.regs.pc) (List.range n) _ rfl fun r same _ _ => (r.pc_setV _ _).trans same

theorem State.store_cur (s : State) (w : Option SlotId) (A : Nat) (bs : List Byte) : (s.store w A bs).cur = s.cur := by
  have near := State.near_notify ((s.lagWrite pathStrand 0 A bs.length []).putBytes A bs) w ⟨thisDev, A⟩ bs.length
  have lag := s.lagWrite_eq pathStrand 0 A bs.length []
  rw [State.store, near, lag]
  rfl

section
variable {s : State} {st : Strand} {d a b : Spec} {p : Nat} (m : Bool) (pm1 : BitVec 5)

theorem plane_clear (clear : s.Clear st (useGroups d (planeRegs (pm1.toNat + 1)) a 4 b)) (outside : st.inTx = false) (plain : st.chunk = none) (ready : st.run = .ready)
    (address : s.padAddr s.cur st (st.rs b) 1 = .ok p) (pad : s.region (s.padBase s.cur.tile + p) = .pad s.cur.tile p)
    (fine : sound s (s.padBase s.cur.tile + p) 1) :
    exec (.plane m pm1 d a b) s = .next (((s.store (some s.cur) (s.padBase s.cur.tile + p) [(planeBlock (pm1.toNat + 1) (st.groupVal a 4)).2]).setStrand s.cur
      ((st.putGroup d (planeRegs (pm1.toNat + 1)) (planeBlock (pm1.toNat + 1) (st.groupVal a 4)).1).after m (st.regs.pc + 4)))) := by
  obtain ⟨words, settled, -⟩ := fine
  obtain ⟨r, is⟩ : ∃ r, planeBlock (pm1.toNat + 1) (st.groupVal a 4) = r := ⟨_, rfl⟩
  have stored := State.storePad_ok (bs := [r.2]) (ea := st.rs b) outside plain (Nat.mod_one _) address rfl pad (State.foldFor_settled settled) fun _ =>
    ⟨State.fixWords_of_noWeak (fun w hw => (words w hw).2) _, State.badIn_eq_none fun w hw => (words w hw).1⟩
  have performed : s.padWrite s.cur st (st.rs b) [r.2] = .got () (s.store (some s.cur) (s.padBase s.cur.tile + p) [r.2]) := by
    rwa [State.storePad, if_neg (by simp [Nat.mod_one])] at stored
  have here := State.strand_store clear.here (Strand.calm_of_ready ready plain) (some s.cur) (s.padBase s.cur.tile + p) [r.2] pathStrand 0 []
  refine (State.issue_clear clear m _).trans ?_
  dsimp only
  rw [is, performed, Got.act, State.upd, State.store_cur, State.modStrand_of_strand here, State.finish_ok (State.strand?_setStrand ..), State.setStrand_setStrand,
    Strand.pc_putGroup]

theorem unplane_clear (clear : s.Clear st (useGroups d 4 a (planeRegs (pm1.toNat + 1)) b)) (outside : st.inTx = false) (plain : st.chunk = none)
    (address : s.padAddr s.cur st (st.rs b) 1 = .ok p) (fine : sound s (s.padBase s.cur.tile + p) 1) :
    exec (.unplane m pm1 d a b) s = .next (s.completes m (st.putGroup d 4
      (unplaneBlock (pm1.toNat + 1) (st.groupVal a (planeRegs (pm1.toNat + 1))) (memGet s.mem (s.padBase s.cur.tile + p))))) := by
  have read := State.padRead_sound outside plain address rfl fine
  refine (State.issue_clear clear m _).trans ?_
  rw [read, Got.act, State.upd, State.modStrand_of_strand clear.here]
  exact congrArg _ (State.finish_put s m _)

end

/-! ## P2 weights, bscale and srnd -/

theorem p2enc_elem (t : BitVec 2) (v : V128) : ∀ i < 128,
    V128.elem (ofElems 1 (((List.range (128 / (fmtOf t.toNat).bytes)).map fun i => p2Encode ((fmtOf t.toNat).elem v i))
      ++ List.replicate (128 - 128 / (fmtOf t.toNat).bytes) 0x88)) 1 i
    = if i < 128 / (fmtOf t.toNat).bytes then p2Encode ((fmtOf t.toNat).read (V128.elem v (fmtOf t.toNat).bytes i)) % 256 else 0x88 := by
  intro i inside
  obtain ⟨n, is⟩ : ∃ n, n = 128 / (fmtOf t.toNat).bytes := ⟨_, rfl⟩
  rw [elem_ofElems (by omega), ← is]
  split
  · next low =>
    rw [List.getD_append _ _ _ _ (by simpa using low), getD_map_range low]
    rfl
  · next high =>
    rw [List.getD_append_right _ _ _ _ (by simpa using high), List.length_map, List.length_range, List.getD_replicate _ (by omega)]
    rfl

theorem p2dec_elem (x : Nat) (small : x < 256) : p2Weight x = p2Term (x / 16) + p2Term (x % 16) := by
  rw [p2Weight, Nat.mod_eq_of_lt (a := x / 16) (by omega)]

/-- Settles O45: each word of the conversion unit by its elements. -/
theorem conversionUnit : Obligations.ConversionUnit := by
  intro s st m pm1 t2 t d a b p
  refine ⟨fun clear closed plain ready address pad fine => ?plane, fun clear closed plain address fine => ?unplane, fun clear => ⟨?enc, ?dec, ?srnd⟩, fun clear => ?scale⟩
  case plane =>
    refine ⟨_, _, _, plane_clear m pm1 clear (Strand.inTx_closed closed) plain ready address pad fine, ?_, State.strand?_setStrand .., planeBlock_spec ..⟩
    rw [State.setStrand_mem, State.store_mem]
  case unplane =>
    exact ⟨_, unplane_clear m pm1 clear (Strand.inTx_closed closed) plain address fine, fun j low => unplaneBlock_elem _ _ _ low⟩
  case enc => exact ⟨_, State.valu_clear clear m d _, p2enc_elem t2 _⟩
  case dec =>
    refine ⟨_, State.valu_clear clear m d _, fun i inside => ?_⟩
    rw [elem_ofElems_range inside, p2dec_elem _ (elem_lt ..)]
  case srnd =>
    have width : VecWidth (if t = 1 then Fmt.f64 else Fmt.f32).bytes := by
      unfold VecWidth
      split <;> decide
    obtain ⟨elems, lanes⟩ := drawElems_spec width le_rfl st 3 fun i md => _
    refine ⟨_, _, State.vround_clear clear m d false 3 _ _ _ _, lanes, fun i inside => ?_⟩
    rw [elems, elem_ofElems_range inside]
    rfl
  case scale =>
    refine ⟨_, State.valu_clear clear m d _, fun i inside => ?_⟩
    rw [elem_ofElems_range inside]
    rfl

end Sys2Proof.Machine
end

section
/-!
PROOF. SchedulingSteps does not hold of every state: a launch that is resident on a tile and stands evicted from it as well gets its place back
before a slot takes its task, and what it gets back may lie where the task's stack was to be.
-/

namespace Sys2Proof.Machine

set_option Elab.async false

/-- A kernel with a stack of 64 bytes and no region. -/
def stackHeader : Header := ⟨false, 0, 1, 0, 0, 8, 8, 0, 0, 0, 64, 64, none⟩
def stackLaunch : Launch := ⟨1, 0, 0, false, 0, 0, false, 1, ⟨0, 0, 0, 0, 0, stackHeader, [], true, true⟩, 0, 0, 0, 0, 0⟩

/-- Its standing on tile 0, where it holds slot 1. -/
def stackResident : Resident := ⟨1, 0, 0, [], [1], [], 0, 0, 0⟩

/-- Its task that waits there. -/
def stackTask : Task := ⟨1, .m, 0, .forked (Vector.replicate 8 0) 0, 0⟩

/-- The launch once more, as evicted from the tile with the first 64 bytes of the scratchpad. -/
def stackEvicted : Evicted := ⟨0, ⟨1, 0, 64, [], [], [], 0, 0, 0⟩, 0, []⟩

def twofoldLaunch : State :=
  { State.reset with
    tiles := [(0, { Tile.initial with resid := [stackResident], deque := [stackTask] })]
    launches := [stackLaunch]
    evicted := [stackEvicted] }

/-- The slot takes nothing: the bytes that the launch has got back take the stack's place. -/
theorem takes_twofoldLaunch : ((twofoldLaunch.taskFor ⟨0, .m, 1⟩).bind fun p => twofoldLaunch.takeTask ⟨0, .m, 1⟩ p.1 p.2 0) = none := by
  have task : twofoldLaunch.taskFor ⟨0, .m, 1⟩ = some (stackLaunch, stackTask) := by decide +kernel
  have taken : (padRange (0, 0 + 64) && ((twofoldLaunch.backFor 0 1).takenRanges 0 1).all (apart (0, 0 + 64))) = false := by decide +kernel
  rw [task, Option.bind_some]
  unfold State.takeTask
  exact if_neg (Bool.eq_false_iff.mp taken)

/-- Refutes O51: a launch both resident on a tile and evicted from it, whose evicted place overlaps the stack that its task is given. -/
theorem not_schedulingSteps : ¬ Obligations.SchedulingSteps := by
  intro h
  obtain ⟨-, takes, -⟩ := h
  obtain ⟨t, st, runs, -, seated, -⟩ := takes twofoldLaunch ⟨0, .m, 1⟩ 0 stackResident stackTask stackLaunch (by decide +kernel) (by decide) (by decide +kernel)
    (by decide +kernel) (by decide +kernel) rfl (by decide) (by decide +kernel)
  have stays : exec (.dequeTake ⟨0, .m, 1⟩ 0) twofoldLaunch = .next twofoldLaunch := by
    show Host.Outcome.next _ = _
    rw [takes_twofoldLaunch]
    rfl
  obtain rfl : twofoldLaunch = t := Host.Outcome.next.inj (stays.symm.trans runs)
  have empty : twofoldLaunch.strand? ⟨0, .m, 1⟩ = none := by decide +kernel
  exact absurd (empty.symm.trans seated) nofun

end Sys2Proof.Machine
end

section
/-!
PROOF. SluiceSteps does not hold of every state: the answer to a commit whose strand lies in a context block writes that block.
-/

namespace Sys2Proof.Machine

set_option Elab.async false

/-- A change of a strand that lies in the one context block writes that block. -/
theorem State.modUid_spilled_mem {s : State} {p : Spilled} (spills : s.spills = [p]) (away : s.strand? p.at_ = none) (f : Strand → Strand) :
    (s.modUid p.at_ p.strand.uid f).mem = memSetBytes s.mem p.base ({ s.blockNow p with strand := f (s.blockNow p).strand } : Spilled).block := by
  have chosen : s.spills.filter (fun q => decide (q.at_ = p.at_) && decide (q.strand.uid = p.strand.uid)) = [p] := by simp [spills]
  have base : (s.blockNow p).base = p.base := by
    unfold State.blockNow
    dsimp only
    split <;> rfl
  unfold State.modUid State.modSpilled
  rw [away, if_neg (by simp), chosen, List.map_cons, List.map_nil, List.foldl_cons, List.foldl_nil, State.putBytes_mem]
  dsimp only
  rw [base]

/-- A sheet at whose sluice a commit of nothing waits, asked for by the strand in the context block. -/
def askedSheet : Sheet := ⟨1, 1, 1, [], [], [.commit [] (some ⟨⟨0, .m, 1⟩, 7, 0⟩) none none], none⟩

/-- The strand of S36's context block at address 0, whose STATUS word memory does not hold, waits for the sluice. -/
def askedSluice : State := { State.reset with sheets := [askedSheet], spills := [spilledOwner] }

/-- The device when the batch is published and the strand is to be answered. -/
def publishedSluice : State := ((askedSluice.modSheet 1 fun sh => { sh with ops := [] }).publishBatch 1 []).1

theorem exec_askedSluice : exec (.publicationStep 1) askedSluice = .next (publishedSluice.answerAt ⟨⟨0, .m, 1⟩, 7, 0⟩ Strand.completeHeld) := by
  have sheet : askedSluice.sheet? 1 = some askedSheet := by decide +kernel
  have judged : (askedSluice.modSheet 1 fun sh => { sh with ops := [] }).batchBad askedSheet [] = none := by decide +kernel
  show execPublicationStep 1 askedSluice = _
  unfold execPublicationStep
  rw [sheet]
  simp only [askedSheet] at judged ⊢
  simp only [List.any_nil, Bool.and_false, Bool.false_eq_true, if_false, judged]
  rfl

/-- The STATUS word of the block, which was 0 in memory, is 4 after the answer. -/
theorem status_askedSluice : memGet (publishedSluice.answerAt ⟨⟨0, .m, 1⟩, 7, 0⟩ Strand.completeHeld).mem 440 = 4 := by
  have spills : publishedSluice.spills = [spilledOwner] := by decide +kernel
  have away : publishedSluice.strand? spilledOwner.at_ = none := by decide +kernel
  have mem : publishedSluice.mem = [] := by decide +kernel
  have written := State.modUid_spilled_mem spills away fun st => if st.run.atSluice then st.completeHeld else st
  obtain ⟨bs, is⟩ : ∃ bs, bs = ({ publishedSluice.blockNow spilledOwner with
    strand := (fun st : Strand => if st.run.atSluice then st.completeHeld else st) (publishedSluice.blockNow spilledOwner).strand } : Spilled).block := ⟨_, rfl⟩
  have status : bs[440]? = some 4 := by rw [is]; decide +kernel
  obtain ⟨inside, status⟩ := List.getElem?_eq_some_iff.mp status
  rw [← is, mem] at written
  refine (congrArg (memGet · 440) written).trans ?_
  exact (memGet_memSetBytes_inside rfl spilledOwner.base bs inside).trans status

/-- Refutes O49: where the strand that asked for a commit lies in a context block, its answer writes the block again, here its STATUS word, which memory
had lost; memory is not as it was. -/
theorem not_sluiceSteps : ¬ Obligations.SluiceSteps := by
  intro h
  obtain ⟨-, commits, -⟩ := h askedSluice askedSheet (by decide +kernel)
  obtain ⟨t, runs, ⟨mem, -⟩, -⟩ := commits [] (some ⟨⟨0, .m, 1⟩, 7, 0⟩) none none [] rfl (by decide +kernel) (fun c hc => absurd hc List.not_mem_nil) rfl rfl
    List.nodup_nil List.nodup_nil
  obtain rfl := Host.Outcome.next.inj (exec_askedSluice.symm.trans runs)
  have lost := (congrArg (memGet · 440) mem).symm.trans status_askedSluice
  exact absurd lost (by decide +kernel)

end Sys2Proof.Machine
end

section
/-!
PROOF. MatrixSteps does not hold of every state: a block that reads a reduction word folds it first, which writes the word.
-/

namespace Sys2Proof.Machine

set_option Elab.async false

/-- An operation of no rows and one column over two blocks, whose column lies in the first bytes of the scratchpad. -/
def foldedOp : MatOp := ⟨(Vector.replicate 5 Rec.initial).setIfInBounds 0 ⟨0, 0x1000000⟩ |>.setIfInBounds 1 ⟨0, 0x1000001⟩, []⟩

/-- The engine that runs it for a strand of slot 1 of the A-core; a reduction word with a 1 to be added stands in the scratchpad's first word. -/
def foldedMatrix : State :=
  { State.reset with
    tiles := [(0, { Tile.initial with
      mat := { Matrix.initial with owner := some 7, running := some foldedOp }
      strands := [(17, { Strand.initial with uid := 7 })] })]
    redWords := [⟨0x10000000000, 11, [(0, 1)], 0⟩] }

/-- Memory after the block: the word has been folded. -/
theorem folds_foldedMatrix {t : State} (runs : exec (.matrixBlockApply 0 .ok) foldedMatrix = .next t) : memGet t.mem 0x10000000000 = 1 := by
  have mem : (match exec (.matrixBlockApply 0 .ok) foldedMatrix with | .next u => memGet u.mem 0x10000000000 | _ => 0) = 1 := by decide +kernel
  rwa [runs] at mem

/-- Refutes O47: a block that reads a reduction word with something to be added, which it folds; memory is not as it was. -/
theorem not_matrixSteps : ¬ Obligations.MatrixSteps := by
  intro h
  obtain ⟨-, steps⟩ := h
  obtain ⟨-, applies⟩ := steps foldedMatrix 0 foldedOp
  obtain ⟨t, runs, ⟨mem, -⟩, -⟩ := applies (by decide +kernel) rfl (by decide +kernel) (by decide +kernel) (by decide +kernel) rfl rfl (by decide +kernel)
  have folded := folds_foldedMatrix runs
  rw [mem] at folded
  exact absurd folded (by decide +kernel)

end Sys2Proof.Machine
end

section
/-!
PROOF. Network does not hold of every state: the fault of a timeout to a contributor that lies in a context block writes that block.
-/

namespace Sys2Proof.Machine

set_option Elab.async false

/-- A router of tile 0's place that lacks its own tile's input. -/
def lateRouter : RNode := ⟨0, 0, (0, 0), 0, 0, 0, []⟩

/-- Its group, to which the strand in the context block has contributed. -/
def lateGroup : RGroup := ⟨0, 0, 0, [], [], [], [(0, ⟨⟨0, .m, 1⟩, 7, 0, 0⟩)], [], none, false⟩

/-- The strand of S36's context block at address 0, whose STATUS word memory does not hold, waits for its sum. -/
def lateSum : State := { State.reset with rnodes := [lateRouter], rgroups := [lateGroup], spills := [spilledOwner] }

/-- The device when the status word is written and the fault is to be delivered. -/
def statusOfLateSum : State :=
  ({ lateSum.dropGroup 0 0 with rnodes := [], packets := [] } : State).groupStatus lateRouter.rec0 lateRouter.rec1 (BitVec.ofNat 64 (2 + 2 ^ 32 * 1))

theorem exec_lateSum : exec (.routerTimeout 0 0 0) lateSum = .next (statusOfLateSum.deliver ⟨0, .m, 1⟩ 7 0 0 14 0) := by
  have node : lateSum.rnodes.find? (fun n => n.die = 0 && n.group = 0 && n.place = (0 / 16, 0 % 16)) = some lateRouter := by decide +kernel
  have group : lateSum.group? 0 0 = some lateGroup := by decide +kernel
  have dest : lateSum.tileAt (recRow lateRouter.rec0) (recCol lateRouter.rec0) = some 0 := by decide +kernel
  have missing : ((lateSum.inputsOf lateRouter.rec0 lateRouter.rec1 lateRouter.place).filter fun k => (assocGet lateRouter.inputs k).isNone).length = 1 := by
    decide +kernel
  show execRouterTimeout 0 0 0 lateSum = _
  unfold execRouterTimeout
  have settled : lateGroup.settled = true := by decide
  have rnodes : (lateSum.dropGroup 0 0).rnodes.filter (fun k => !(decide (k.die = 0) && decide (k.group = 0))) = [] := by decide +kernel
  have packets (f : Packet → Bool) : (lateSum.dropGroup 0 0).packets.filter f = [] := rfl
  have max : Nat.max 1 1 = 1 := Nat.max_self 1
  simp only [node, group, dest, missing, Option.getD_some, settled, rnodes, packets, max, if_true, List.append_nil]
  show Host.Outcome.next (State.timeoutFault (State.finishGroup statusOfLateSum [] _) 0 (some ⟨⟨0, .m, 1⟩, 7, 0, 0⟩) 0) = _
  rw [State.finishGroup, List.foldl_nil]
  obtain ⟨u, is⟩ : ∃ u, u = statusOfLateSum := ⟨_, rfl⟩
  rw [← is]
  rfl

/-- The STATUS word of the block, which was 0 in memory, is 4 after the delivery. -/
theorem status_lateSum : memGet (statusOfLateSum.deliver ⟨0, .m, 1⟩ 7 0 0 14 0).mem 440 = 4 := by
  have spills : statusOfLateSum.spills = [spilledOwner] := by decide +kernel
  have away : statusOfLateSum.strand? spilledOwner.at_ = none := by decide +kernel
  have canonical : Memory.wf statusOfLateSum.mem = true := by decide +kernel
  have base : (statusOfLateSum.delivered spilledOwner 14 0).base = 0 := by decide +kernel
  have written := State.deliver_spilled_mem spills away 0 0 14 0
  rw [base] at written
  obtain ⟨bs, is⟩ : ∃ bs, bs = (statusOfLateSum.delivered spilledOwner 14 0).block := ⟨_, rfl⟩
  have status : bs[440]? = some 4 := by rw [is]; decide +kernel
  obtain ⟨inside, status⟩ := List.getElem?_eq_some_iff.mp status
  rw [← is] at written
  refine (congrArg (memGet · 440) written).trans ?_
  exact (memGet_memSetBytes_inside canonical 0 bs inside).trans status

/-- Refutes O53: where the contributor that takes the fault of a timeout lies in a context block, the delivery writes the block again, here its STATUS
word, which memory had lost; the group's status word is not all that is written. -/
theorem not_network : ¬ Obligations.Network := by
  intro h
  obtain ⟨-, -, -, expires, -⟩ := h
  obtain ⟨t, runs, ⟨mem, -⟩, -⟩ := expires lateSum 0 0 0 0 lateRouter lateGroup (by decide +kernel) (by decide +kernel) rfl (by decide +kernel) rfl
    ⟨0, 0, by decide +kernel⟩
  obtain rfl := Host.Outcome.next.inj (exec_lateSum.symm.trans runs)
  have lost := (congrArg (memGet · 440) mem).symm.trans status_lateSum
  exact absurd lost (by decide +kernel)

end Sys2Proof.Machine
end

section
/-!
PROOF. RingsAndTurnouts does not hold of every state: a record that a state lists twice counts for each entry that bears the tag.
-/

namespace Sys2Proof.Machine

set_option Elab.async false

/-- A valid, armed record of tag 1 and threshold 5, and an entry of the same tag that is not valid. -/
def countedRecord : Turnout := ⟨0xC000000000000001, 0x500000000, Vector.replicate 8 0⟩
def staleRecord : Turnout := ⟨1, 0, Vector.replicate 8 0⟩

/-- A device that lists record 0 twice. -/
def twiceListed : State := { State.reset with turnouts := [(0, countedRecord), (0, staleRecord)] }

/-- Refutes O55: one tag that arrives counts twice in a record that the state lists twice, once as an entry that is not valid. -/
theorem not_ringsAndTurnouts : ¬ Obligations.RingsAndTurnouts := by
  intro h
  obtain ⟨-, -, -, -, -, counts, -⟩ := h twiceListed 0 (by decide)
  obtain ⟨adds, -⟩ := counts 2 0 1 countedRecord (by decide) (by decide +kernel) (by decide +kernel) (by decide +kernel) (by decide +kernel) (by decide +kernel)
    (by decide +kernel)
  obtain ⟨t, runs, -, -, once, -⟩ := adds (by decide +kernel)
  have twice : (match exec (.turnoutCount 2 1) twiceListed with | .next u => (u.turnout 0).w1 | _ => 0) = 0x500000002 := by decide +kernel
  rw [runs] at twice
  have once : (t.turnout 0).w1 = 0x500000001 := by
    rw [once]
    decide +kernel
  exact absurd (once.symm.trans twice) (by decide)

end Sys2Proof.Machine
end

section
/-!
PROOF. CommandsAndCompletion does not hold of every state: the read of a formula record fills the translation buffers of the engine tile, which may
then be the first tile that holds the formula's launch.
-/

namespace Sys2Proof.Machine

set_option Elab.async false

/-- Launch 7 with 4 KiB of text, and its place on a tile: the A-, B- and C-slots. -/
def boundLaunch : Launch :=
  { lid := 7, cmd := 0, prio := 0, det := false, cls := 0, asid := 0, ending := false, status := 1
    image := ⟨0, 0, 0, 0, 4096, ⟨false, 0, 1, 0, 1, 32, 32, 0, 0, 0, 0, 0, none⟩, [], true, true⟩
    waves := 1, lanes := 0, taskLanes := 0, lanePos := 0, cellbase := 0 }
def boundPlace : Resident := ⟨7, 0, 0, [], [0, 8, 16], [], 0, 0, 0⟩

def boundCell : Cell := ⟨12, 0, true, false, false, 0, 1, 1, 0, 0, 0, 0, 0x1000, 0x2000, 64, 0, [], [], [], none⟩

/-- The words of a BIND of cell 12 to the formula record at 0x10000, for launch 7. -/
def bindWords : List Word := [0x0300000000000000, 0, 12, 0x10000, 7, 0, 0, 0]

/-- The launch stands on tile 1, and its place on tile 0, whose state has never been written, is evicted; a root and a leaf of 1 GiB in memory. -/
def binding : State :=
  { State.reset with
    ctl := { Ctl.initial with ready := true }
    mem := [(0, 1), (1, 0x10), (0x1000, 0x3F), (0x1005, 0xF0), (0x1006, 0xFF)]
    cmdRings := [{ CmdRing.initial 1 with rcfg := 0x8300000000000040, tail := 1, slots := [(0, bindWords)] }]
    cells := [boundCell]
    sheets := [⟨1, 5, 5, [], [], [], none⟩]
    launches := [boundLaunch]
    tiles := [(1, { Tile.initial with resid := [boundPlace] })]
    evicted := [⟨0, boundPlace, 0, []⟩] }

/-- The home of the formula that an outcome's sheet asks for. -/
def askedHome : Host.Outcome State Fault Refusal → Option Nat
  | .next u => match u.sheets with
    | ⟨_, _, _, _, _, [.edit (some f) _ _ _ _ _], _⟩ :: _ => some f.home
    | _ => none
  | _ => none

/-- Ring 1's command stands to be dispatched. -/
theorem dispatchable_binding : Dispatchable binding 1 (bindWords.map fun x => x.toNat) none where
  num := by decide
  on := by decide +kernel
  head := by decide +kernel
  wait := .inl (by decide +kernel)
  turn := by decide +kernel
  runs := by decide +kernel
  compl := .inl (by decide +kernel)

/-- Refutes O57: a BIND whose record is read through a buffer that the engine tile did not have yet; the formula's home is then that tile, where the
launch's place is evicted, and not the one that the device held first. -/
theorem not_commandsAndCompletion : ¬ Obligations.CommandsAndCompletion := by
  intro h
  obtain ⟨commands, -⟩ := h
  obtain ⟨-, -, bind, -⟩ := commands binding 1 _ none dispatchable_binding (by decide +kernel) (by decide +kernel)
  obtain ⟨-, binds⟩ := bind (by decide +kernel)
  obtain ⟨-, bound⟩ := binds boundLaunch boundCell (by decide +kernel) (by decide +kernel)
  have asked := bound (by decide +kernel) (by decide +kernel) (by decide +kernel) (List.replicate 8 0) 1 (by decide +kernel) (by decide +kernel)
    (by decide +kernel) (by decide +kernel) (by decide +kernel)
  have home : askedHome (exec (.bind 1) binding) = some 0 := by decide +kernel
  rw [asked] at home
  exact absurd home (by decide +kernel)

end Sys2Proof.Machine
end

section
/-!
PROOF. SystemRegisters does not hold of every state: a write of CPCTL changes the channel's status word, which wakes who sleeps on its line, also when
that is the executing strand.
-/

namespace Sys2Proof.Machine

set_option Elab.async false

/-- A supervisor that sleeps within a transaction whose levels are closed, with 1 in the register 43. -/
def sleepingSup : Strand := { Strand.initial with sup := true, sid := 1, run := .asleep, tx := some ⟨0, [], 0, [], none⟩ }

/-- A channel that has halted. -/
def haltedChan : Chan := { Chan.initial with halted := true }

/-- It stands in the slot that acts, with the line of its tile's channels watched; the first channel has halted. -/
def sleepingAlone : State :=
  { State.reset with
    cur := ⟨0, .a, 0⟩
    tiles := [(0, { Tile.initial with
      strands := [(16, sleepingSup)]
      weir := [⟨false, 16, true, false, true, State.reset.ctrlLoc 0 0x800⟩]
      chans := Tile.initial.chans.setIfInBounds 0 haltedChan })] }

/-- Whether the executing strand is in a transaction. -/
def State.curInTx (s : State) : Option Bool := (s.strand? s.cur).map (·.tx.isSome)

theorem wakes_cpctl : (match exec (.sysw false 0x058#12 43) sleepingAlone with
    | .next t => t.curInTx
    | _ => none) = some false := by
  decide +kernel

theorem clear_sleepingAlone : sleepingAlone.Clear sleepingSup
    { srcs := [(0, false, 43)], priv := if userRefused (0x058#12).toNat true then some ((0x058#12).setWidth 64) else none, aborts := true } where
  here := rfl
  mode := .inl rfl
  declared := by decide +kernel
  settled := by decide +kernel
  outside := fun _ => rfl
  chunk := rfl
  order := fun h => absurd h (by decide)
  parity := by decide +kernel

/-- Refutes O58: a write of CPCTL that lets a halted channel go on wakes the strand that executes it, which watches the channels' line, so more than
the channel changes. -/
theorem not_systemRegisters : ¬ Obligations.SystemRegisters := by
  intro h
  obtain ⟨-, -, -, -, -, -, -, -, -, -, channels, -⟩ := h sleepingAlone sleepingSup false 41 43
  obtain ⟨-, -, resumes, -⟩ := channels 0 (by decide)
  have runs := resumes (by decide +kernel) (by decide +kernel) clear_sleepingAlone rfl
  have woken := wakes_cpctl
  rw [show sysNum 0x058 0 = 0x058#12 from rfl] at runs
  rw [runs] at woken
  revert woken
  decide +kernel

end Sys2Proof.Machine
end

section
/-!
PROOF. What supervisors do beside their instructions (spec/15 R306 to R309, R318, R321, R322, R325, R326): tlbinv, selftest, the event queue, the
firmware's answers to events, and the clearing of banks.
-/

namespace Sys2Proof.Machine

set_option Elab.async false

/-! ## tlbinv (R58, R325) -/

/-- The state without the entries that a tlbinv selects. -/
def State.flushed (s : State) (sel : Leaf → Bool) : State :=
  { s with
    tiles := s.tiles.map fun p => (p.1, { p.2 with tlb := p.2.tlb.filter fun l => !sel l })
    rows := s.rows.map fun p => (p.1, { p.2 with tlb := p.2.tlb.filter fun l => !sel l }) }

theorem State.strand?_flushed (s : State) (sel : Leaf → Bool) (x : SlotId) : (s.flushed sel).strand? x = s.strand? x := by
  have tile := assocGet_map s.tiles (fun _ (t : Tile) => { t with tlb := t.tlb.filter fun l => !sel l }) x.tile
  simp only [State.strand?, State.tile, State.flushed, tile]
  cases assocGet s.tiles x.tile <;> rfl

theorem State.usesLeaf_iff {s : State} {mark : Nat} {gone : List Leaf} :
    s.usesLeaf mark gone = true
      ↔ ∃ l ∈ gone, (∃ e ∈ s.flight, e.id < mark ∧ e.done = false ∧ e.trans = some l) ∨ l ∈ s.heldLeaves := by
  have uses (e : Access) : (decide (e.id < mark) && !e.done && ((e.trans.map fun l => gone.contains l).getD false)) = true
      ↔ ∃ l ∈ gone, e.id < mark ∧ e.done = false ∧ e.trans = some l := by
    cases trans : e.trans <;> simp [and_assoc, and_comm]
  simp only [State.usesLeaf, Bool.or_eq_true, List.any_eq_true, uses, List.contains_iff_mem]
  constructor
  · rintro (⟨e, mem, l, lost, old, open_, trans⟩ | ⟨l, held, lost⟩)
    · exact ⟨l, lost, .inl ⟨e, mem, old, open_, trans⟩⟩
    · exact ⟨l, lost, .inr held⟩
  · rintro ⟨l, lost, ⟨e, mem, old, open_, trans⟩ | held⟩
    · exact .inl ⟨e, mem, l, lost, old, open_, trans⟩
    · exact .inr ⟨l, held, lost⟩

/-- A leaf of an access that is not performed, or of a store that is held back, is one that was used. -/
theorem State.mem_usedLeaves {s : State} {l : Leaf} :
    l ∈ s.usedLeaves ↔ (∃ e ∈ s.flight, e.done = false ∧ e.trans = some l) ∨ l ∈ s.heldLeaves := by
  simp only [State.usedLeaves, List.mem_append, List.mem_filterMap]
  refine or_congr_left (exists_congr fun e => and_congr_right fun _ => ?_)
  cases e.done <;> simp

section
variable {s : State} {st : Strand} {i : Instr} {m : Bool} {srcs : List (Nat × Bool × Spec)} {sel : Strand → Leaf → Bool}
variable (clear : s.Clear st { srcs := srcs, priv := wordDetail i, aborts := true })
include clear

theorem State.tlbinv_done (ready : st.run = .ready) (noFlight : ∀ e ∈ s.flight, e.done = false → ∀ l, e.trans = some l → sel st l = false)
    (noHeld : ∀ l ∈ s.heldLeaves, sel st l = false) : s.tlbinv i m srcs sel = .next ((s.flushed (sel st)).completes m st) := by
  have unused : s.usesLeaf s.nextId ((s.allLeaves ++ s.usedLeaves).filter (sel st)) = false := by
    rw [← Bool.not_eq_true, State.usesLeaf_iff]
    rintro ⟨l, lost, ⟨e, mem, -, open_, leaf⟩ | held⟩
    · simp [noFlight e mem open_ l leaf] at lost
    · simp [noHeld l held] at lost
  refine State.issue_effect clear ?_
  simp only [ready, unused]
  exact State.finish_same ((s.strand?_flushed (sel st) s.cur).trans clear.here) m

theorem State.tlbinv_waits (ready : st.run = .ready) {l : Leaf}
    (used : (∃ e ∈ s.flight, e.done = false ∧ e.id < s.nextId ∧ e.trans = some l) ∨ l ∈ s.heldLeaves) (picks : sel st l = true) :
    ∃ gone, l ∈ gone ∧ s.tlbinv i m srcs sel
      = .next ((s.flushed (sel st)).setStrand s.cur { st with run := .held (.tlbinv s.nextId gone), mark := m }) := by
  have lost : l ∈ (s.allLeaves ++ s.usedLeaves).filter (sel st) := by
    refine List.mem_filter.mpr ⟨List.mem_append_right _ (State.mem_usedLeaves.mpr ?_), picks⟩
    exact used.imp_left fun ⟨e, mem, open_, _, leaf⟩ => ⟨e, mem, open_, leaf⟩
  have uses : s.usesLeaf s.nextId ((s.allLeaves ++ s.usedLeaves).filter (sel st)) = true :=
    State.usesLeaf_iff.mpr ⟨l, lost, used.imp_left fun ⟨e, mem, open_, old, leaf⟩ => ⟨e, mem, old, open_, leaf⟩⟩
  refine ⟨_, lost, State.issue_effect clear ?_⟩
  simp only [ready, uses]
  exact State.finish_hold ((s.strand?_flushed (sel st) s.cur).trans clear.here) m (fun _ _ h => by cases h)

theorem State.tlbinv_over {mark : Nat} {gone : List Leaf} (held : st.run = .held (.tlbinv mark gone))
    (noFlight : ∀ e ∈ s.flight, e.id < mark → e.done = false → ∀ l, e.trans = some l → l ∉ gone) (noHeld : ∀ l ∈ s.heldLeaves, l ∉ gone) :
    s.tlbinv i m srcs sel = .next (s.completes m st) := by
  have unused : s.usesLeaf mark gone = false := by
    rw [← Bool.not_eq_true, State.usesLeaf_iff]
    rintro ⟨l, lost, ⟨e, mem, old, open_, trans⟩ | kept⟩
    · exact noFlight e mem old open_ l trans lost
    · exact noHeld l kept lost
  refine State.issue_effect clear ?_
  simp only [held, unused]
  exact State.finish_same clear.here m

theorem State.tlbinv_stays {mark : Nat} {gone : List Leaf} (held : st.run = .held (.tlbinv mark gone)) {l : Leaf} (lost : l ∈ gone)
    (used : (∃ e ∈ s.flight, e.id < mark ∧ e.done = false ∧ e.trans = some l) ∨ l ∈ s.heldLeaves) :
    s.tlbinv i m srcs sel = .next (s.setStrand s.cur { st with mark := m }) := by
  have uses : s.usesLeaf mark gone = true := State.usesLeaf_iff.mpr ⟨l, lost, used⟩
  refine State.issue_effect clear ?_
  simp only [held, uses]
  rw [← held]
  refine (State.finish_hold clear.here m fun _ _ h => by cases h).trans ?_
  rw [← held]

end

/-- What each form of tlbinv comes to, by what it selects. -/
theorem tlbinv_spec {s : State} {st : Strand} {m : Bool} {i : Instr} {srcs : List (Nat × Bool × Spec)} {pick : Strand → Leaf → Bool}
    {sel : Leaf → Bool} (same : pick st = sel) (runs : exec i s = s.tlbinv i m srcs pick)
    (clear : s.Clear st { srcs := srcs, priv := wordDetail i, aborts := true }) :
    (st.run = .ready → (∀ e ∈ s.flight, e.done = false → ∀ l, e.trans = some l → sel l = false) → (∀ l ∈ s.heldLeaves, sel l = false) →
      exec i s = .next ((s.flushed sel).completes m st))
    ∧ (st.run = .ready → ∀ l, ((∃ e ∈ s.flight, e.done = false ∧ e.id < s.nextId ∧ e.trans = some l) ∨ l ∈ s.heldLeaves) → sel l = true →
      ∃ gone, l ∈ gone ∧ exec i s = .next ((s.flushed sel).setStrand s.cur { st with run := .held (.tlbinv s.nextId gone), mark := m }))
    ∧ ∀ mark gone, st.run = .held (.tlbinv mark gone) →
      ((∀ e ∈ s.flight, e.id < mark → e.done = false → ∀ l, e.trans = some l → l ∉ gone) → (∀ l ∈ s.heldLeaves, l ∉ gone) →
        exec i s = .next (s.completes m st))
      ∧ ∀ l ∈ gone, ((∃ e ∈ s.flight, e.id < mark ∧ e.done = false ∧ e.trans = some l) ∨ l ∈ s.heldLeaves) →
        exec i s = .next (s.setStrand s.cur { st with mark := m }) := by
  subst same
  rw [runs]
  exact ⟨State.tlbinv_done clear, fun ready l used picks => State.tlbinv_waits clear ready used picks,
    fun mark gone held => ⟨State.tlbinv_over clear held, fun l lost used => State.tlbinv_stays clear held lost used⟩⟩

/-! ## selftest (R321, R326) -/

theorem word_selftest (m : Bool) (d a : Spec) : ∃ w : BitVec 32, encode (.selftest m d a) = some w := ⟨_, rfl⟩

section
variable {s : State} {st : Strand} {m : Bool} {d a : Spec}
variable (clear : s.Clear st { srcs := [(0, false, a)], dst := some (false, d), priv := wordDetail (.selftest m d a), aborts := true })
include clear

theorem exec_selftest_busy (ready : st.run = .ready) (small : (st.rs a).toNat < 1024)
    (busy : s.holdsLaunch s.cur.tile = true ∨ (s.tile s.cur.tile).testing = true) :
    exec (.selftest m d a) s = .next (s.completes m (st.putS d 0x4000000000000000)) := by
  have busy : (s.holdsLaunch s.cur.tile || (s.tile s.cur.tile).testing) = true := by simpa using busy
  refine State.issue_effect clear ?_
  rw [if_neg (by simp [ready]), if_neg (by omega), if_pos busy, State.upd, State.modStrand_of_strand clear.here]
  exact State.finish_put ..

theorem exec_selftest_starts (ready : st.run = .ready) (small : (st.rs a).toNat < 1024) (noLaunch : s.holdsLaunch s.cur.tile = false)
    (idle : (s.tile s.cur.tile).testing = false) :
    exec (.selftest m d a) s = .next ((s.setTile s.cur.tile { s.tile s.cur.tile with
      testing := true
      testCmd := none
      testMask := if st.rs a = 0 then 0x3FF else BitVec.ofNat 10 (st.rs a).toNat }).setStrand s.cur
        { st with run := .held .selftest, mark := m }) := by
  have zero : (st.rs a).setWidth 10 = 0 ↔ st.rs a = 0 := by
    rw [← BitVec.toNat_inj, ← BitVec.toNat_inj, BitVec.toNat_setWidth, Nat.mod_eq_of_lt small]
    rfl
  refine State.issue_effect clear ?_
  rw [if_neg (by simp [ready]), if_neg (by omega), if_neg (by simp [noLaunch, idle])]
  simp only [zero]
  rw [BitVec.ofNat_toNat]
  refine State.finish_hold ?_ m (fun _ _ h => by cases h)
  refine Eq.trans ?_ clear.here
  exact State.strand?_modTile_same s s.cur s.cur.tile fun _ => rfl

theorem exec_selftest_illegal (ready : st.run = .ready) (large : 1024 ≤ (st.rs a).toNat) :
    ∃ w : BitVec 32, encode (.selftest m d a) = some w ∧
      exec (.selftest m d a) s = .next (s.faultTurn s.cur 1 (BitVec.ofNat 64 (6 * 2 ^ 32 + w.toNat)) st.regs.pc) := by
  obtain ⟨w, word⟩ := word_selftest m d a
  refine ⟨w, word, State.issue_faults clear m ?_⟩
  have detail : ((wordDetail (.selftest m d a)).getD 0).toNat = w.toNat := by
    have wide : w.toNat < 2 ^ 64 := Nat.lt_trans w.isLt (by decide)
    simpa [wordDetail, word] using wide
  rw [if_neg (by simp [ready]), if_pos large, detail]

theorem exec_selftest_over (held : st.run = .held .selftest) (ended : (s.tile s.cur.tile).testing = false) :
    exec (.selftest m d a) s = .next (s.completes m (st.putS d (BitVec.ofNat 64 (2 ^ 63 + (s.tile s.cur.tile).testFail.toNat)))) := by
  have answer (f : BitVec 10) : 0x8000000000000000 ||| f.setWidth 64 = BitVec.ofNat 64 (2 ^ 63 + f.toNat) := by
    have small := f.isLt
    have wide := Nat.two_pow_add_eq_or_of_lt (show f.toNat < 2 ^ 63 by omega) 1
    refine BitVec.eq_of_toNat_eq ?_
    rw [BitVec.toNat_or, BitVec.toNat_setWidth, Nat.mod_eq_of_lt (by omega), BitVec.toNat_ofNat, Nat.mod_eq_of_lt (by omega)]
    exact wide.symm
  refine State.issue_effect clear ?_
  rw [if_pos held, ended, State.upd, State.modStrand_of_strand clear.here]
  rw [← answer]
  exact State.finish_put ..

end

/-! ## Events (R306, R307, R309) -/

theorem exec_eventTake {s : State} {n : Nat} {st : Strand} (here : s.strand? ⟨n, .m, 0⟩ = some st) (sup : st.sup = true) (ie : st.ie = true)
    (ready : st.run = .ready) (waits : (s.tile n).events ≠ []) :
    exec (.eventTake n) s = .next (s.setStrand ⟨n, .m, 0⟩ { st with
      sepc := st.regs.pc
      sskipn := st.regs.skipn
      ie := false
      regs := { st.regs with pc := st.tvec, skipn := 0 } }) := by
  refine congrArg Host.Outcome.next ?_
  simp only [supSlot, here]
  rw [if_pos (by simp [sup, ie, ready, waits]), Strand.enterAt, ← ready]

theorem exec_seventRead_none {s : State} {n : Nat} (empty : (s.tile n).events = []) : exec (.seventRead n) s = .next (s.setTile n (s.tile n)) := by
  refine congrArg Host.Outcome.next ?_
  simp only [empty, State.modTile, Tile.popEvent]

/-- The state with the oldest event of a tile taken. -/
def State.popped (s : State) (n : Nat) (e : Event) (l : List Event) : State :=
  s.setTile n { s.tile n with sevdet := e.detail, events := l ++ (s.tile n).waiting.take 1, waiting := (s.tile n).waiting.drop 1 }

theorem exec_seventRead_cons {s : State} {n : Nat} {e : Event} {l : List Event} (events : (s.tile n).events = e :: l) :
    exec (.seventRead n) s = .next (match s.launches.find? fun k => e.entry.getLsbD 62 && e.cmd = some k.cmd with
      | some k => (s.popped n e l).endLaunch k.lid (BitVec.ofNat 64 (2 + 2 ^ 8 * (e.entry.toNat / 2 ^ 40 % 2 ^ 8)))
      | none => s.popped n e l) := by
  refine congrArg Host.Outcome.next ?_
  simp only [events, State.modTile, Tile.popEvent]
  rfl

/-! ## The firmware's answers (R309, R322) -/

theorem low38_eq_iff (v w : Word) : v &&& 0x3FFFFFFFFF = w &&& 0x3FFFFFFFFF ↔ v.toNat % 2 ^ 38 = w.toNat % 2 ^ 38 := by
  rw [← BitVec.toNat_inj, BitVec.toNat_and, BitVec.toNat_and, show (0x3FFFFFFFFF : Word).toNat = 2 ^ 38 - 1 from rfl,
    Nat.and_two_pow_sub_one_eq_mod, Nat.and_two_pow_sub_one_eq_mod]

theorem State.strand?_of_selected {s : State} {n : Nat} {y : SlotId} {st : Strand} (selected : s.selected n = some (y, st)) :
    s.strand? y = some st := by
  unfold State.selected at selected
  split at selected
  · cases selected
  · split at selected
    case h_1 k here =>
      split at selected
      · cases selected
        exact here
      · cases selected
    case h_2 => cases selected

theorem State.service_other_toNat {s : State} {st : Strand} (t : Nat) (noTrap : st.tcause.toNat ≠ 0x20) (noBreak : st.tcause.toNat ≠ 0x21)
    (noLimit : st.tcause.toNat = 5 → st.regs.slim.toNat ≤ st.stackBot) : s.service t st = .endLaunch := by
  refine State.service_other t (fun h => noTrap (by rw [h]; rfl)) (fun h => noBreak (by rw [h]; rfl)) fun ⟨five, above⟩ => ?_
  have := noLimit (by rw [five]; rfl)
  omega

/-! ## Banks (R317, R318) -/

theorem State.bankOf_modBank (s : State) (b : BankId) (f : Bank → Bank) : (s.modBank b f).bankOf b = f (s.bankOf b) := by
  cases b <;> simp [State.modBank, State.bankOf]

theorem State.modSelBank_of_sel {s : State} {n : Nat} {b : BankId} (sel : bankSel n (s.tile n).mcsel = some b) (f : Bank → Bank) :
    s.modSelBank n f = s.modBank b f := by
  simp only [State.modSelBank, sel]

theorem exec_bankClears {s : State} {n : Nat} {b : BankId} (sel : bankSel n (s.tile n).mcsel = some b) (v : Word) :
    ∃ t u : State, exec (.mcstatusClear n 0) s = .next t ∧ exec (.mccountClear n) s = .next u
      ∧ t.bankOf b = { Bank.initial with corr := (s.bankOf b).corr, unc := (s.bankOf b).unc }
      ∧ u.bankOf b = { s.bankOf b with corr := 0, unc := 0 } ∧ (v ≠ 0 → exec (.mcstatusClear n v) s = .next s) := by
  refine ⟨s.modBank b Bank.clear, s.modBank b _, ?_, congrArg _ (State.modSelBank_of_sel sel _), State.bankOf_modBank .., State.bankOf_modBank ..,
    fun nonzero => congrArg _ (if_neg nonzero)⟩
  exact congrArg Host.Outcome.next ((if_pos rfl).trans (State.modSelBank_of_sel sel _))

/-! ## The obligation -/

/-- Settles O59: each form of tlbinv is one removal with one wait, and every other step is its function's branch. -/
theorem supervisorSteps : Obligations.SupervisorSteps := by
  refine ⟨fun s st m d a => ⟨?tlbinv, ?selftest⟩, fun s n v => ⟨?takes, exec_seventRead_none, ?reads, ?served, ?resumed, ?banks⟩⟩
  case tlbinv =>
    refine List.forall_mem_cons.mpr ⟨tlbinv_spec ?page rfl, List.forall_mem_cons.mpr ⟨tlbinv_spec ?asid rfl,
      List.forall_mem_cons.mpr ⟨tlbinv_spec rfl rfl, fun _ none_ => absurd none_ List.not_mem_nil⟩⟩⟩
    case page =>
      funext l
      simp [Leaf.maps, eG, Bool.and_assoc]
    case asid =>
      funext l
      simp [eG]
  case selftest =>
    intro clear
    exact ⟨exec_selftest_busy clear, exec_selftest_starts clear, exec_selftest_illegal clear, exec_selftest_over clear⟩
  case takes => exact fun st here sup ie ready waits => exec_eventTake here sup ie ready waits
  case reads =>
    intro e l events
    rw [exec_seventRead_cons events]
    refine ⟨fun none_ => ?_, fun k gone found => ?_⟩
    · have noLaunch : (s.launches.find? fun k => e.entry.getLsbD 62 && e.cmd = some k.cmd) = none := by
        rw [List.find?_eq_none]
        rcases none_ with off | apart
        · intro k _
          rw [off, Bool.false_and]
          exact Bool.false_ne_true
        · intro k mem
          simp [apart k mem]
      rw [noLaunch]
      rfl
    · simp only [gone, Bool.true_and, found]
      rfl
  case served =>
    intro y st selected out names
    have here := State.strand?_of_selected selected
    have acts := State.trunOf_selected selected out ((low38_eq_iff _ _).mpr names)
    refine ⟨fun ends noTrap noBreak noLimit => ?ends, fun noEnd aligned => ⟨fun limit above => ?stack, fun trap => ?trap, fun brk free => ?brk⟩⟩
    case ends =>
      refine congrArg Host.Outcome.next ?_
      simp only [acts, State.service_other_toNat n noTrap noBreak noLimit, ends]
      rfl
    case stack =>
      rw [exec_trunResume acts noEnd aligned (State.service_stack n limit above)]
      exact congrArg Host.Outcome.next (State.modStrand_of_strand here _)
    case trap =>
      have answer := exec_trunResume acts noEnd aligned (State.service_trap n trap)
      rw [State.modStrand_of_strand here] at answer
      refine ⟨fun one => ?_, fun two => ?_, fun noOne noTwo => ?_⟩
      · rw [answer, if_pos one]
        rfl
      · rw [answer, if_neg (by rw [two]; decide), if_pos two]
        rfl
      · rw [answer, if_neg noOne, if_neg noTwo]
        rfl
    case brk =>
      have noDebugger : s.debugging = false := Bool.eq_false_iff.mpr fun h => free (by simpa [State.debugging] using h)
      have served : s.service n st = .resume fun st => st := by rw [State.service_break n brk, noDebugger]; rfl
      rw [exec_trunResume acts noEnd aligned served]
      exact congrArg Host.Outcome.next (State.modStrand_resume here id)
  case resumed =>
    intro y st here debugger debug out brk aligned
    have held : s.breakHeld st = true := (State.breakHeld_iff out).mpr ⟨⟨debugger, debug⟩, brk⟩
    refine congrArg Host.Outcome.next ?_
    simp only [here, held, aligned]
    exact State.modStrand_resume here id
  case banks => exact fun b sel => exec_bankClears sel v

end Sys2Proof.Machine
end

section
/-!
PROOF. The cell instructions (spec/13 R255, R268, R275 to R280): what each asks of its sluice or changes of its cell, and the code 0x70 of each.
-/

namespace Sys2Proof.Machine

set_option Elab.async false

theorem State.issue_body {s : State} {st : Strand} {u : Uses} {body : Strand → Act} {act : Act} (clear : s.Clear st u) (m : Bool)
    (comes : body st = act) : s.issue m u body = .next (s.finish s.cur m act) := by
  rw [State.issue_clear clear, comes]

/-! ## What a word names (R255) -/

section
variable {s : State} {st : Strand} {k f n : Nat} {a : Word} {x : Cell}

theorem State.cellNumber_refused
    (refused : s.declared st = none ∨ (s.declared st = some (k, f, n) ∧ (a.toNat % 2 ^ 24 < f ∨ f + n ≤ a.toNat % 2 ^ 24))) :
    s.cellNumber st a = .stop (.fault 4 (BitVec.ofNat 64 (0x70 * 2 ^ 56 + a.toNat % 2 ^ 24))) := by
  have detail : codeWord 0x70 (cellOperand a) = BitVec.ofNat 64 (0x70 * 2 ^ 56 + a.toNat % 2 ^ 24) := by
    have low : cellOperand a % 0x100000000000000 = a.toNat % 2 ^ 24 := by unfold cellOperand; omega
    rw [codeWord, low]
    rfl
  rw [← detail]
  rcases refused with none_ | ⟨declares, outside⟩
  · simp only [State.cellNumber, none_]
  · simp only [State.cellNumber, declares, Bool.or_eq_true, decide_eq_true_eq]
    exact if_pos outside

theorem State.namedCell_found (declares : s.declared st = some (k, f, n)) (low : f ≤ a.toNat % 2 ^ 24) (high : a.toNat % 2 ^ 24 < f + n)
    (found : s.cell? (a.toNat % 2 ^ 24) = some x) : s.namedCell st a = .got x s := by
  simp only [State.namedCell, State.cellNumber_declared declares low high, Got.bind]
  simp only [State.theCell, found]

theorem State.num_of_cell? {c : Nat} (found : s.cell? c = some x) : x.num = c := by simpa using List.find?_some found

theorem State.cell?_num {c : Nat} (found : s.cell? c = some x) : s.cell? x.num = some x := by rw [State.num_of_cell? found, found]

theorem State.sheetNumber_refused
    (refused : s.declared st = none ∨ (s.declared st = some (k, f, n) ∧ a.toNat / 2 ^ 32 % 2 ^ 12 ≠ k)) :
    s.sheetNumber st a = .stop (.fault 4 (BitVec.ofNat 64 (0x70 * 2 ^ 56 + a.toNat / 2 ^ 32 % 2 ^ 12 * 2 ^ 32))) := by
  have detail : codeWord 0x70 (sheetOperand a * 2 ^ 32) = BitVec.ofNat 64 (0x70 * 2 ^ 56 + a.toNat / 2 ^ 32 % 2 ^ 12 * 2 ^ 32) := by
    have low : sheetOperand a * 2 ^ 32 % 0x100000000000000 = a.toNat / 2 ^ 32 % 2 ^ 12 * 2 ^ 32 := by unfold sheetOperand; omega
    rw [codeWord, low]
    rfl
  rw [← detail]
  rcases refused with none_ | ⟨declares, other⟩
  · simp only [State.sheetNumber, none_]
  · simp only [State.sheetNumber, declares]
    exact if_pos other

end

/-! ## A cell's entry set (R256) -/

theorem Cell.pins_setPins (x : Cell) (b : Bool) (n : Nat) : (x.setPins b n).pins b = n := by cases b <;> rfl
theorem Cell.num_setPins (x : Cell) (b : Bool) (n : Nat) : (x.setPins b n).num = x.num := by cases b <;> rfl

/-- The device with one cell's entry set, nobody told of it yet. -/
def State.celled (s : State) (y : Cell) : State := { s with cells := s.cells.map fun z => if z.num = y.num then y else z }

theorem State.putCell_new {s : State} {x y : Cell} (found : s.cell? x.num = some x) (same : y.num = x.num) (new : x ≠ y) :
    s.putCell y = (s.celled y).notifyLine none ⟨cellDev, y.num⟩ := by
  rw [State.putCell, same, if_neg (by simpa [found] using new), ← same]
  rfl

/-- What setting a cell leaves: beside the cells, what a write's notice changes. -/
theorem State.told_putCell {s : State} {x y : Cell} (found : s.cell? x.num = some x) (same : y.num = x.num) (new : x ≠ y) :
    (s.celled y).Told (s.putCell y) := by
  rw [State.putCell_new found same new]
  exact State.told_notifyLine ..

theorem State.strand?_putCell {s : State} {p : SlotId} {st : Strand} (here : s.strand? p = some st) (calm : st.Calm) (y : Cell) :
    (s.putCell y).strand? p = some st := by
  rw [State.putCell]
  split
  · exact here
  · exact State.strand_notifyLine (s := s.celled y) here calm ..

/-! ## Long results of the sluice -/

/-- The outcome of a word with a long result that is known, and with the cells as given. -/
def State.AnswersLong (s : State) (st : Strand) (m : Bool) (d : Spec) (acq : Bool) (v : Word) (cells : List Cell)
    (o : Host.Outcome State Fault Refusal) : Prop :=
  (d = 41 → ∃ t : State, o = .next t ∧ unwritten s t ∧ t.flight = s.flight ∧ t.cells = cells ∧ t.strand? s.cur = some (st.after m (st.regs.pc + 4)))
  ∧ (d ≠ 41 → ∃ (t : State) (y : Access), o = .next t ∧ unwritten s t ∧ t.flight = s.flight ++ [y] ∧ y.id = s.nextId ∧ y.done = true
    ∧ y.dest = some ⟨false, d⟩ ∧ y.value = v.setWidth 1024 ∧ t.cells = cells
    ∧ t.strand? s.cur = some ({ st with longs := st.longs ++ [(⟨s.nextId, ⟨false, d⟩, acq⟩ : Long)] }.after m (st.regs.pc + 4)))

/-- The entry in flight of a long result whose value is known. -/
def State.knownResult (u : State) (st : Strand) (d : Spec) (acq : Bool) (v : Word) : Access :=
  ⟨u.nextId, u.cur, st.lid, st.sid, st.uid, .result, ⟨thisDev, 0⟩, some ⟨false, d⟩, 0, false, acq, [], none, st.inTx, true, v.setWidth 1024, none⟩

/-- A long result whose value is known, and that is not for z. -/
theorem State.sendWord_named {u : State} {st : Strand} {d : Spec} (here : u.strand? u.cur = some st) (named : d ≠ 41) (acq : Bool) (v : Word) :
    u.sendWord st d acq v = { u.setStrand u.cur { st with longs := st.longs ++ [⟨u.nextId, ⟨false, d⟩, acq⟩] } with
      flight := u.flight ++ [u.knownResult st d acq v]
      nextId := u.nextId + 1 } := by
  rw [State.sendWord, State.sendValue, if_neg (by exact named), State.modStrand_of_strand here]
  rfl

theorem State.answersLong_sendWord {s u : State} {st : Strand} (m : Bool) (d : Spec) (acq : Bool) (v : Word)
    (told : ({ s with cells := u.cells } : State).Told u) (here : u.strand? s.cur = some st) :
    s.AnswersLong st m d acq v u.cells (.next (s.finish s.cur m (.ok (u.sendWord st d acq v)))) := by
  have cur : u.cur = s.cur := by rw [told.rest]
  have written : unwritten s u := by rw [told.rest]; exact ⟨rfl, rfl⟩
  have flight : u.flight = s.flight := by rw [told.rest]
  have next : u.nextId = s.nextId := by rw [told.rest]
  refine ⟨fun z => ?_, fun named => ?_⟩
  · rw [State.sendWord, State.sendValue, if_pos z, State.finish_ok here]
    exact ⟨_, rfl, written, flight, rfl, State.strand?_setStrand ..⟩
  · have sent := State.sendWord_named (by rw [cur]; exact here) named acq v
    have marked : (u.sendWord st d acq v).strand? s.cur = some { st with longs := st.longs ++ [⟨s.nextId, ⟨false, d⟩, acq⟩] } := by
      rw [sent, cur, ← next]
      exact State.strand?_setStrand u s.cur _
    rw [State.finish_ok marked]
    refine ⟨_, u.knownResult st d acq v, rfl, ?_, ?_, next, rfl, rfl, rfl, ?_, State.strand?_setStrand ..⟩
    · rw [sent]
      exact written
    · rw [State.setStrand_flight, sent, flight]
    · rw [State.setStrand_cells, sent]
      rfl

/-- A word that sets its cell and gives an address as a long result. -/
theorem State.answersLong_given {s : State} {st : Strand} {x y : Cell} (plain : st.chunk = none) (ready : st.run = .ready)
    (there : s.cell? x.num = some x) (here : s.strand? s.cur = some st) (same : y.num = x.num) (new : x ≠ y) (m : Bool) (d : Spec) (acq : Bool)
    (v : Word) : s.AnswersLong st m d acq v (s.cells.map fun z => if z.num = y.num then y else z)
      (.next (s.finish s.cur m (.ok ((s.putCell y).sendWord st d acq v)))) := by
  have told := State.told_putCell there same new
  have cells : (s.putCell y).cells = s.cells.map fun z => if z.num = y.num then y else z := by rw [told.rest]; rfl
  rw [← cells]
  refine State.answersLong_sendWord m d acq v ?_ (State.strand?_putCell here (Strand.calm_of_ready ready plain) y)
  rw [cells]
  exact told

/-! ## What waits at a sluice -/

/-- The outcome in which the strand is held at the sluice of a sheet, which has one operation more. -/
def State.AsksSluice (s : State) (st : Strand) (m : Bool) (num : Nat) (op : SluiceOp) (o : Host.Outcome State Fault Refusal) : Prop :=
  ∃ (t : State) (e : Nat) (l : List Long), o = .next t ∧ unwritten s t
    ∧ t.strand? s.cur = some { st with run := .held (.edit e), mark := m, longs := st.longs ++ l }
    ∧ t.sheets = s.sheets.map fun z => if z.num = num then { z with ops := z.ops ++ [op] } else z

theorem State.asksSluice_hold {s u : State} {st : Strand} (m : Bool) (num e : Nat) (op : SluiceOp) {l : List Long}
    (here : u.strand? s.cur = some { st with longs := st.longs ++ l }) (written : unwritten s u) (sheets : u.sheets = s.sheets) :
    s.AsksSluice st m num op (.next (s.finish s.cur m (.hold (u.askSluice num op) (.edit e)))) := by
  rw [State.finish_hold (t := u.askSluice num op) here m fun _ _ h => by cases h]
  refine ⟨_, e, l, rfl, written, State.strand?_setStrand .., ?_⟩
  rw [← sheets]
  rfl

/-! ## Words on a cell that is there -/

section
variable {s : State} {st : Strand} {m : Bool} {d a b : Spec} {k f n : Nat} {x : Cell}
variable (closed : st.tx = none) (plain : st.chunk = none) (ready : st.run = .ready)
variable (declares : s.declared st = some (k, f, n)) (low : f ≤ (st.rs a).toNat % 2 ^ 24) (high : (st.rs a).toNat % 2 ^ 24 < f + n)
variable (found : s.cell? ((st.rs a).toNat % 2 ^ 24) = some x)
include ready

include declares low high found

theorem exec_cbind_asks (clear : s.Clear st { srcs := [(0, false, a), (1, false, b)], access := true, aborts := true }) {w : List Nat}
    (aligned : (st.rs b).toNat % 64 = 0) (record : s.recordParts s.cur st (st.rs b) 8 8 = .got w s) (good : formulaBad w = false)
    (inline : w.getD 1 0 / 2 ^ 63 = 0) (text : s.inText st.lid (formulaOf w (inlinePrecs w) st.lid s.cur.tile (st.rs b)).entry = true)
    (holds : s.holdsKind s.cur.tile st.lid (formulaOf w (inlinePrecs w) st.lid s.cur.tile (st.rs b)).core = true) :
    s.AsksSluice st m x.sheet (.edit (some (formulaOf w (inlinePrecs w) st.lid s.cur.tile (st.rs b))) x.num (st.rs b)
      (some ⟨s.cur, st.uid, st.lid⟩) none none) (exec (.cbind m a b) s) := by
  have cell : s.theCell ((st.rs a).toNat % 2 ^ 24) = .got x s := by simp only [State.theCell, found]
  have runs : exec (.cbind m a b) s = .next (s.finish s.cur m (.hold (s.askSluice x.sheet
      (.edit (some (formulaOf w (inlinePrecs w) st.lid s.cur.tile (st.rs b))) x.num (st.rs b) (some (s.asker st)) none none)) (.edit x.num))) := by
    refine State.issue_body clear m ?_
    rw [if_neg (by rw [Strand.atSluice_ready ready]; exact Bool.false_ne_true), State.cellNumber_declared declares low high]
    have noMore : s.recordParts s.cur st (BitVec.ofNat 64 (w.getD 2 0 % 2 ^ 56)) 4 0 = .got [] s := rfl
    simp only [Got.act, aligned, record, good, inline, Nat.zero_ne_one, decide_false, Bool.and_false, Bool.false_eq_true, if_false, noMore, cell, text,
      holds]
    rfl
  rw [runs]
  exact State.asksSluice_hold m x.sheet x.num _ (l := []) (by rw [List.append_nil]; exact clear.here) ⟨rfl, rfl⟩ rfl

theorem exec_cunbind_asks (clear : s.Clear st { srcs := [(0, false, a)], aborts := true }) :
    s.AsksSluice st m x.sheet (.edit none x.num 0 (some ⟨s.cur, st.uid, st.lid⟩) none none) (exec (.cunbind m a) s) := by
  have runs : exec (.cunbind m a) s = .next (s.finish s.cur m (.hold (s.askSluice x.sheet (.edit none x.num 0 (some (s.asker st)) none none))
      (.edit x.num))) := by
    refine State.issue_body clear m ?_
    rw [if_neg (by rw [Strand.atSluice_ready ready]; exact Bool.false_ne_true), State.namedCell_found declares low high found]
    rfl
  rw [runs]
  exact State.asksSluice_hold m x.sheet x.num _ (l := []) (by rw [List.append_nil]; exact clear.here) ⟨rfl, rfl⟩ rfl

include plain

theorem exec_cwopen_answers (clear : s.Clear st { useSluice d a with aborts := true }) (input : x.input = true) (shut : x.opened = false)
    (free : s.shadowHeld x = false) :
    s.AnswersLong st m d false (x.buf (!x.cur)) (s.cells.map fun z => if z.num = x.num then { x with opened := true } else z)
      (exec (.cwopen m d a) s) := by
  have runs : exec (.cwopen m d a) s
      = .next (s.finish s.cur m (.ok ((s.putCell { x with opened := true }).sendWord st d false (x.buf (!x.cur))))) := by
    refine State.issue_body clear m ?_
    rw [State.namedCell_found declares low high found]
    simp only [Got.act, State.openAnswer, input, shut, free]
    rfl
  have new : x ≠ { x with opened := true } := fun h => by
    have := congrArg Cell.opened h
    rw [shut] at this
    cases this
  rw [runs]
  exact State.answersLong_given (y := { x with opened := true }) plain ready (State.cell?_num found) clear.here rfl new m d false _

include closed

theorem exec_cpin_answers (clear : s.Clear st (useSluice d a)) (fresh : x.state = 0) (noTask : s.taskGen st x = none) (room : x.pins x.cur < 65535) :
    s.AnswersLong st m d true (x.buf x.cur)
      (s.cells.map fun z => if z.num = (x.setPins x.cur (x.pins x.cur + 1)).num then x.setPins x.cur (x.pins x.cur + 1) else z)
      (exec (.cpin m d a) s) := by
  have runs : exec (.cpin m d a) s = .next (s.finish s.cur m
      (.ok ((s.putCell (x.setPins x.cur (x.pins x.cur + 1))).sendWord st d true (x.buf x.cur)))) := by
    refine State.issue_body clear m ?_
    rw [if_neg (by simp [Strand.waitsSolo_plain plain]), State.namedCell_found declares low high found]
    have full : x.pins x.cur ≠ 65535 := by omega
    simp only [Got.act, Strand.inTx_closed closed, noTask, Cell.pinAnswer, fresh, Cell.takePin, full]
    rfl
  have new : x ≠ x.setPins x.cur (x.pins x.cur + 1) := fun h => by
    have pins := congrArg (·.pins x.cur) h
    rw [Cell.pins_setPins] at pins
    omega
  rw [runs]
  exact State.answersLong_given plain ready (State.cell?_num found) clear.here (x.num_setPins ..) new m d true _

end

/-- The bits of a cell's status word (Table 13.8). -/
theorem State.statWord_fields (s : State) (x : Cell) : (s.statWord x).toNat / 2 ^ 62 = x.state.toNat ∧ (s.statWord x).getLsbD 61 = x.input
    ∧ (s.statWord x).getLsbD 60 = x.opened ∧ (s.statWord x).toNat / 2 ^ 40 % 2 ^ 16 = x.rank % 2 ^ 16
    ∧ (s.statWord x).toNat % 2 ^ 32 = x.version % 2 ^ 32 := by
  have state := x.state.isLt
  unfold State.statWord
  generalize ((s.sheet? x.sheet).map fun (sh : Sheet) => sh.edits.any fun e => e.cell = x.num).getD false = pend
  have small : x.state.toNat * 2 ^ 62 + (if x.input then 2 ^ 61 else 0) + (if x.opened then 2 ^ 60 else 0) + (if pend then 2 ^ 59 else 0)
      + x.rank % 2 ^ 16 * 2 ^ 40 + x.version % 2 ^ 32 < 2 ^ 64 := by
    split <;> split <;> split <;> omega
  rw [BitVec.toNat_ofNat, Nat.mod_eq_of_lt small]
  refine ⟨?_, getLsbD_ofNat_of_field small ?_, getLsbD_ofNat_of_field small ?_, ?_, ?_⟩
  all_goals
    cases x.input <;> cases x.opened <;> cases pend <;> simp only [if_true, if_false, Bool.false_eq_true, Bool.toNat_true, Bool.toNat_false] <;> omega

section
variable {s : State} {st : Strand} {m : Bool} {d a b : Spec} {k f n : Nat} {x : Cell}
variable (closed : st.tx = none) (plain : st.chunk = none) (ready : st.run = .ready)
variable (declares : s.declared st = some (k, f, n))
include declares

section
variable (low : f ≤ (st.rs a).toNat % 2 ^ 24) (high : (st.rs a).toNat % 2 ^ 24 < f + n) (found : s.cell? ((st.rs a).toNat % 2 ^ 24) = some x)
include low high found

include closed plain in
theorem exec_cstat_answers (clear : s.Clear st (useSluice d a)) : s.AnswersLong st m d false (s.statWord x) s.cells (exec (.cstat m d a) s) := by
  have runs : exec (.cstat m d a) s = .next (s.finish s.cur m (.ok (s.sendWord st d false (s.statWord x)))) := by
    refine State.issue_body clear m ?_
    rw [if_neg (by simp [Strand.waitsSolo_plain plain]), State.namedCell_found declares low high found]
    simp only [Got.act, Strand.inTx_closed closed]
    rfl
  rw [runs]
  exact State.answersLong_sendWord m d false _ (State.Told.refl s) clear.here

theorem exec_cdone_finishes (clear : s.Clear st { srcs := [(0, false, a)], aborts := true })
    (mine : st.regs.cellgen.toNat / 2 ^ 32 = 2 ^ 31 + x.num) (released : s.releaseWaits = false) :
    ∃ t : State, exec (.cdone m a) s = .next t ∧ unwritten s t
      ∧ t.strand? s.cur = some ({ st with regs := { st.regs with cellgen := st.regs.cellgen &&& 0x7FFFFFFFFFFFFFFF } }.after m (st.regs.pc + 4))
      ∧ t.sheets = s.sheets.map fun z => if z.num = x.sheet then { z with seeds := z.seeds.map fun q =>
        if q.cell = x.num ∧ q.gen = st.regs.cellgen.toNat % 2 ^ 32 then { q with finished := true } else q } else z := by
  have num := State.num_of_cell? found
  have task : (st.regs.cellgen.toNat / 2 ^ 63 = 0 || st.regs.cellgen.toNat / 2 ^ 32 % 2 ^ 24 != x.num) = false := by
    simp only [Bool.or_eq_false_iff, decide_eq_false_iff_not, bne_eq_false_iff_eq]
    omega
  have there : (s.releaseCells st).strand? s.cur = some st := clear.here
  obtain ⟨u, is⟩ : ∃ u : State, u = (s.releaseCells st).setStrand s.cur
      { st with regs := { st.regs with cellgen := st.regs.cellgen &&& 0x7FFFFFFFFFFFFFFF } } := ⟨_, rfl⟩
  have here : u.strand? s.cur = some { st with regs := { st.regs with cellgen := st.regs.cellgen &&& 0x7FFFFFFFFFFFFFFF } } := by
    rw [is, State.strand?_setStrand]
  have runs : exec (.cdone m a) s = .next (s.finish s.cur m (.ok (u.modSheet x.sheet fun sh => { sh with seeds := sh.seeds.map fun q =>
      if q.cell = x.num && q.gen = st.regs.cellgen.toNat % 2 ^ 32 then { q with finished := true } else q }))) := by
    refine State.issue_body clear m ?_
    rw [State.namedCell_found declares low high found]
    simp only [Got.act, task, released, Bool.false_eq_true, if_false, State.upd]
    rw [show (s.releaseCells st).cur = s.cur from rfl, State.modStrand_of_strand there, is]
    rfl
  rw [runs, State.finish_ok (t := u.modSheet x.sheet _) here]
  refine ⟨_, rfl, by rw [is]; exact ⟨rfl, rfl⟩, State.strand?_setStrand .., ?_⟩
  have sheets : u.sheets = s.sheets := by rw [is]; rfl
  simp only [State.setStrand_sheets, State.modSheet, sheets, Bool.and_eq_true, decide_eq_true_eq]

end

theorem exec_cgen_answers (closed : st.tx = none) (plain : st.chunk = none) {sh : Sheet} (names : (st.rs a).toNat / 2 ^ 32 % 2 ^ 12 = k)
    (found : s.sheet? k = some sh) (clear : s.Clear st (useSluice d a)) :
    s.AnswersLong st m d false (BitVec.ofNat 64 (sh.settled * 2 ^ 32 + sh.gen % 2 ^ 32)) s.cells (exec (.cgen m d a) s) := by
  have sheet : s.namedSheet st (st.rs a) = .got sh s := by
    simp only [State.namedSheet, State.sheetNumber_declared declares names, Got.bind, State.theSheet, found]
  have runs : exec (.cgen m d a) s = .next (s.finish s.cur m (.ok (s.sendWord st d false sh.genWord))) := by
    refine State.issue_body clear m ?_
    rw [if_neg (by simp [Strand.waitsSolo_plain plain]), sheet]
    simp only [Got.act, Strand.inTx_closed closed]
    rfl
  rw [runs]
  exact State.answersLong_sendWord m d false _ (State.Told.refl s) clear.here

theorem exec_ccommit_asks (ready : st.run = .ready) {sh : Sheet} (names : (st.rs a).toNat / 2 ^ 32 % 2 ^ 12 = k) (found : s.sheet? k = some sh)
    (clear : s.Clear st { srcs := [(0, false, a), (1, false, b)], dst := some (false, d), long := true, access := true, aborts := true })
    {v : Nat} {cs : List Nat} (aligned : (st.rs b).toNat % 8 = 0) (released : s.releaseWaits = false)
    (count : s.recordPart s.cur st (st.rs b) 8 = .got v s) (small : v ≤ 64) (batch : s.recordParts s.cur st (st.rs b + 8) 4 v = .got cs s) :
    s.AsksSluice st m sh.num (.commit cs (some ⟨s.cur, st.uid, st.lid⟩) (some s.nextId) none) (exec (.ccommit m d a b) s) := by
  obtain ⟨u, is⟩ : ∃ u : State, u = (s.sendResult st d false).2.releaseCells st := ⟨_, rfl⟩
  have here : u.strand? s.cur = some { st with longs := st.longs ++ [⟨s.nextId, ⟨false, d⟩, false⟩] } := by
    rw [is]
    exact State.strand?_send clear.here st .result ⟨thisDev, 0⟩ (some ⟨false, d⟩) 0 false false none
  have runs : exec (.ccommit m d a b) s = .next (s.finish s.cur m (.hold (u.askSluice sh.num
      (.commit cs (some ⟨s.cur, st.uid, st.lid⟩) (some s.nextId) none)) (.edit 0))) := by
    refine State.issue_body clear m ?_
    rw [if_neg (by rw [Strand.atSluice_ready ready]; exact Bool.false_ne_true), State.sheetNumber_declared declares names]
    have few : ¬ 64 < v := by omega
    simp only [Got.act, aligned, released, count, small, if_true, batch, State.theSheet, found, few, if_false]
    rw [is]
    simp only [State.asker, State.sendResult, State.send_cur]
    rfl
  rw [runs]
  have rest := s.send_rest s.cur st .result ⟨thisDev, 0⟩ (some ⟨false, d⟩) 0 false false none
  refine State.asksSluice_hold m sh.num 0 _ here ?_ ?_ <;> rw [is, State.sendResult, rest]
  · exact ⟨rfl, rfl⟩
  · rfl

end

/-! ## cunpin (R280) -/

/-- What follows an operation of a sheet that has no task and whose cells nobody waits for. -/
theorem State.settle_quiet {u : State} {x : SlotId} {st : Strand} {n : Nat} {sh : Sheet} (found : u.sheet? n = some sh) (noSeeds : sh.seeds = [])
    (noWaits : u.cellWaits = []) (here : u.strand? x = some st) (calm : st.Calm) :
    unwritten u (u.settle n) ∧ (u.settle n).cells = u.cells ∧ (u.settle n).strand? x = some st := by
  have still : u.cascade n = u := by simp only [State.cascade, found, noSeeds, List.foldl_nil]
  obtain ⟨f, is⟩ : ∃ f : Sheet → Sheet, f = fun sh => { sh with settled := sh.settledNow } := ⟨_, rfl⟩
  have modified : unwritten u (u.modGens n f) ∧ (u.modGens n f).cells = u.cells ∧ (u.modGens n f).strand? x = some st
      ∧ (u.modGens n f).cellWaits = [] := by
    rw [State.modGens]
    split
    · exact ⟨⟨rfl, rfl⟩, rfl, here, noWaits⟩
    · have told := (u.modSheet n f).told_notifyLine none ⟨sheetDev, n⟩
      refine ⟨?_, ?_, State.strand_notifyLine (s := u.modSheet n f) here calm .., ?_⟩ <;> rw [told.rest]
      · exact ⟨rfl, rfl⟩
      · rfl
      · exact noWaits
  obtain ⟨written, cells, there, none_⟩ := modified
  have settles : u.settle n = u.modGens n f := by
    rw [State.settle, still, ← is, State.answerWaits, none_, List.foldl_nil]
  rw [settles]
  exact ⟨written, cells, there⟩

theorem exec_cunpin_unpins {s : State} {st : Strand} {a b : Spec} {k f n : Nat} {x : Cell} {sh : Sheet} (plain : st.chunk = none)
    (ready : st.run = .ready) (declares : s.declared st = some (k, f, n)) (low : f ≤ (st.rs a).toNat % 2 ^ 24)
    (high : (st.rs a).toNat % 2 ^ 24 < f + n) (found : s.cell? ((st.rs a).toNat % 2 ^ 24) = some x)
    (clear : s.Clear st { srcs := [(0, false, a), (1, false, b)], aborts := true }) (m : Bool) (noWaits : s.cellWaits = [])
    (sheet : s.sheet? x.sheet = some sh) (noSeeds : sh.seeds = []) (apart : x.buf0 ≠ x.buf1) {p : Loc} {l : Leaf}
    (place : s.translate s.cur.tile st.regs.ptroot st.sup (st.rs b) .read = .at_ p l) {which : Bool} (names : x.buf which = st.rs b)
    (pinned : 0 < x.pins which) :
    ∃ t : State, exec (.cunpin m a b) s = .next t ∧ unwritten s t
      ∧ (t.cells = s.cells.map fun z => if z.num = (x.setPins which (x.pins which - 1)).num then x.setPins which (x.pins which - 1) else z)
      ∧ t.strand? s.cur = some (st.after m (st.regs.pc + 4)) := by
  obtain ⟨y, isY⟩ : ∃ y : Cell, y = x.setPins which (x.pins which - 1) := ⟨_, rfl⟩
  have num : y.num = x.num := by rw [isY, Cell.num_setPins]
  have new : x ≠ y := fun h => by
    have pins := congrArg (·.pins which) h
    simp only [isY, Cell.pins_setPins] at pins
    omega
  have buffer : (if st.rs b = x.buf0 then some false else if st.rs b = x.buf1 then some true else none) = some which := by
    rw [← names]
    cases which
    · exact if_pos rfl
    · exact (if_neg fun h => apart h.symm).trans (if_pos rfl)
  have runs : exec (.cunpin m a b) s = .next (s.finish s.cur m (.ok ((s.putCell y).settle x.sheet))) := by
    refine State.issue_body clear m ?_
    rw [State.cellNumber_declared declares low high]
    simp only [Got.act, place, State.theCell, found, buffer, Nat.pos_iff_ne_zero.mp pinned, if_false, isY]
  have told := State.told_putCell (State.cell?_num found) num new
  have calm := Strand.calm_of_ready ready plain
  have sheet : (s.putCell y).sheet? x.sheet = some sh := by rw [told.rest]; exact sheet
  obtain ⟨written, cells, here⟩ := State.settle_quiet sheet noSeeds (by rw [told.rest]; exact noWaits) (State.strand?_putCell clear.here calm y) calm
  rw [runs, State.finish_ok here]
  have set : unwritten s (s.putCell y) := by rw [told.rest]; exact ⟨rfl, rfl⟩
  refine ⟨_, rfl, ⟨written.1.trans set.1, written.2.trans set.2⟩, ?_, State.strand?_setStrand ..⟩
  · rw [State.setStrand_cells, cells, told.rest, isY]
    rfl

/-! ## Code 0x70 (R255, R274) -/

section
variable {s : State} {st : Strand} {a : Spec} {k f n : Nat}

/-- Every word on a cell that its launch does not declare. -/
theorem exec_cell_undeclared (plain : st.chunk = none) (ready : st.run = .ready) (m : Bool) (d b : Spec)
    (refused : s.declared st = none ∨ (s.declared st = some (k, f, n) ∧ ((st.rs a).toNat % 2 ^ 24 < f ∨ f + n ≤ (st.rs a).toNat % 2 ^ 24))) :
    ∀ q ∈ [(Instr.cbind m a b, ({ srcs := [(0, false, a), (1, false, b)], access := true, aborts := true } : Uses)),
        (.cunbind m a, { srcs := [(0, false, a)], aborts := true }), (.cwopen m d a, { useSluice d a with aborts := true }),
        (.cdone m a, { srcs := [(0, false, a)], aborts := true }), (.cpin m d a, useSluice d a), (.cstat m d a, useSluice d a),
        (.cunpin m a b, { srcs := [(0, false, a), (1, false, b)], aborts := true })],
      s.Clear st q.2 → exec q.1 s = .next (s.faultTurn s.cur 4 (BitVec.ofNat 64 (0x70 * 2 ^ 56 + (st.rs a).toNat % 2 ^ 24)) st.regs.pc) := by
  have number := State.cellNumber_refused refused
  have named : s.namedCell st (st.rs a) = .stop (.fault 4 (BitVec.ofNat 64 (0x70 * 2 ^ 56 + (st.rs a).toNat % 2 ^ 24))) := by
    rw [State.namedCell, number]
    rfl
  have free : ¬ st.atSluice = true := by rw [Strand.atSluice_ready ready]; exact Bool.false_ne_true
  have solo : ¬ st.waitsSolo = true := by rw [Strand.waitsSolo_plain plain]; exact Bool.false_ne_true
  simp only [List.forall_mem_cons, List.not_mem_nil, false_implies, implies_true, and_true]
  refine ⟨?_, ?_, ?_, ?_, ?_, ?_, ?_⟩ <;> intro clear <;> refine State.issue_faults clear m ?_
  · rw [if_neg free, number]
    rfl
  · rw [if_neg free, named]
    rfl
  · rw [named]
    rfl
  · rw [named]
    rfl
  · rw [if_neg solo, named]
    rfl
  · rw [if_neg solo, named]
    rfl
  · rw [number]
    rfl

/-- Every word on a sheet that its launch does not declare. -/
theorem exec_sheet_undeclared (plain : st.chunk = none) (ready : st.run = .ready) (m : Bool) (d b : Spec)
    (refused : s.declared st = none ∨ (s.declared st = some (k, f, n) ∧ (st.rs a).toNat / 2 ^ 32 % 2 ^ 12 ≠ k)) :
    ∀ q ∈ [(Instr.ccommit m d a b,
          ({ srcs := [(0, false, a), (1, false, b)], dst := some (false, d), long := true, access := true, aborts := true } : Uses)),
        (.cgen m d a, useSluice d a)],
      s.Clear st q.2
        → exec q.1 s = .next (s.faultTurn s.cur 4 (BitVec.ofNat 64 (0x70 * 2 ^ 56 + (st.rs a).toNat / 2 ^ 32 % 2 ^ 12 * 2 ^ 32)) st.regs.pc) := by
  have number := State.sheetNumber_refused refused
  simp only [List.forall_mem_cons, List.not_mem_nil, false_implies, implies_true, and_true]
  refine ⟨fun clear => State.issue_faults clear m ?_, fun clear => State.issue_faults clear m ?_⟩
  · rw [if_neg (by rw [Strand.atSluice_ready ready]; exact Bool.false_ne_true), number]
    rfl
  · rw [if_neg (by rw [Strand.waitsSolo_plain plain]; exact Bool.false_ne_true), State.namedSheet, number]
    rfl

end

/-- Settles O48: each word on a declared cell or sheet asks the sluice, answers, or sets the cell's entry; each names its cell or sheet first. -/
theorem cellWords : Obligations.CellWords := by
  intro s st m d a b k f n x sh
  refine fun closed plain ready => ⟨fun declares low high found => ⟨?bind, ?unbind, ?opens, ?pins, ?done, ?unpins⟩,
    fun declares names found => ⟨?commits, ?gens⟩, exec_cell_undeclared plain ready m d b, exec_sheet_undeclared plain ready m d b⟩
  case bind => exact fun clear w aligned record good inline => exec_cbind_asks ready declares low high found clear aligned record good inline
  case unbind => exact exec_cunbind_asks ready declares low high found
  case opens => exact exec_cwopen_answers plain ready declares low high found
  case pins =>
    exact fun clear => ⟨exec_cpin_answers closed plain ready declares low high found clear,
      s.statWord x, exec_cstat_answers closed plain declares low high found clear, s.statWord_fields x⟩
  case done => exact exec_cdone_finishes declares low high found
  case unpins =>
    intro clear noWaits sheet noSeeds apart ⟨p, l, place⟩ which names pinned
    exact exec_cunpin_unpins plain ready declares low high found clear m noWaits sheet noSeeds apart place names pinned
  case commits =>
    intro clear v cs aligned released count small batch
    exact exec_ccommit_asks declares ready names found clear aligned released count small batch
  case gens => exact exec_cgen_answers declares closed plain names found

end Sys2Proof.Machine
end

section
/-!
PROOF. Strands that leave their slot: no operation of a leaving seats a strand anywhere, and none sends a continuation (spec/12 R253).
-/

namespace Sys2Proof.Machine

set_option Elab.async false

theorem assocGet_filter_key {α : Type} (l : List (Nat × α)) (k j : Nat) :
    assocGet (l.filter fun p => p.1 != k) j = if j = k then none else assocGet l j := by
  induction l with
  | nil => simp [assocGet]
  | cons p r ih =>
    by_cases key : p.1 = k
    · rw [List.filter_cons_of_neg (by simpa using key), ih, assocGet, key]
      by_cases same : j = k
      · rw [if_pos same, if_pos same]
      · rw [if_neg same, if_neg same, if_neg (Ne.symm same)]
    · rw [List.filter_cons_of_pos (by simpa using key), assocGet, assocGet, ih]
      by_cases here : p.1 = j
      · rw [if_pos here, if_pos here, if_neg (here ▸ key)]
      · rw [if_neg here, if_neg here]

theorem assocGet_map_none {α β : Type} {l : List (Nat × α)} {k : Nat} (none_ : assocGet l k = none) (f : Nat × α → β) :
    assocGet (l.map fun p => (p.1, f p)) k = none := by
  induction l with
  | nil => rfl
  | cons p r ih =>
    rw [assocGet] at none_
    rw [List.map_cons, assocGet]
    split at none_
    · cases none_
    · next other => rw [if_neg other, ih none_]

/-! ## States in which no slot has been taken -/

/-- Every slot that s leaves empty t leaves empty, and the same continuations are on their way. -/
structure State.Seats (s t : State) : Prop where
  empty : ∀ x, s.strand? x = none → t.strand? x = none
  transit : t.transit = s.transit

theorem State.Seats.refl (s : State) : s.Seats s := ⟨fun _ h => h, rfl⟩

theorem State.Seats.trans {s t u : State} (h : s.Seats t) (k : t.Seats u) : s.Seats u :=
  ⟨fun x none_ => k.empty x (h.empty x none_), k.transit.trans h.transit⟩

theorem State.seats_of_tiles {s t : State} (tiles : t.tiles = s.tiles) (transit : t.transit = s.transit) : s.Seats t :=
  ⟨fun x none_ => (State.strand?_of_tiles tiles x).trans none_, transit⟩

/-- The same where what comes before changes neither tiles nor continuations. -/
theorem State.Seats.after {s t u : State} (h : t.Seats u) (tiles : t.tiles = s.tiles) (transit : t.transit = s.transit) : s.Seats u :=
  (State.seats_of_tiles tiles transit).trans h

/-- The same where what comes after changes neither. -/
theorem State.Seats.before {s t u : State} (h : s.Seats t) (tiles : u.tiles = t.tiles) (transit : u.transit = t.transit) : s.Seats u :=
  h.trans (State.seats_of_tiles tiles transit)

theorem State.seats_foldl {α : Type} {f : State → α → State} (step : ∀ s a, State.Seats s (f s a)) (l : List α) (s : State) : s.Seats (l.foldl f s) := by
  induction l generalizing s with
  | nil => exact State.Seats.refl s
  | cons a r ih => exact (step s a).trans (ih _)

section
variable (s : State)

theorem State.seats_modTile (n : Nat) {f : Tile → Tile} (same : ∀ t, (f t).strands = t.strands) : s.Seats (s.modTile n f) :=
  ⟨fun x none_ => (s.strand?_modTile_same x n same).trans none_, rfl⟩

theorem State.seats_mapTiles {f : Tile → Tile} (same : ∀ t, (f t).strands = t.strands) :
    s.Seats { s with tiles := s.tiles.map fun p => (p.1, f p.2) } := by
  refine ⟨fun x none_ => Eq.trans ?_ none_, rfl⟩
  simp only [State.strand?, State.tile, assocGet_map s.tiles (fun _ t => f t) x.tile]
  cases assocGet s.tiles x.tile with
  | none => rfl
  | some t => exact congrArg (assocGet · x.member) (same t)

theorem State.seats_modStrand (x : SlotId) (f : Strand → Strand) : s.Seats (s.modStrand x f) := by
  refine ⟨fun y none_ => ?_, by rw [State.modStrand_rest]⟩
  by_cases same : x.tile = y.tile ∧ x.member = y.member
  · have empty := (s.strand_congr same.1 same.2).trans none_
    rw [State.modStrand, empty, none_]
  · rw [State.strand_modStrand_other _ _ (by omega), none_]

theorem State.strand?_dropStrand_self (x : SlotId) : (s.dropStrand x).strand? x = none := by
  rw [State.strand?, State.dropStrand, State.tile_modTile, assocGet_filter_key, if_pos rfl]

theorem State.seats_dropStrand (x : SlotId) : s.Seats (s.dropStrand x) := by
  refine ⟨fun y none_ => ?_, rfl⟩
  unfold State.strand? at none_ ⊢
  by_cases same : x.tile = y.tile
  · rw [State.dropStrand, ← same, State.tile_modTile, assocGet_filter_key, same, none_, ite_self]
  · rw [State.dropStrand, State.tile_modTile_other _ _ same, none_]

theorem State.seats_dropWeir (x : SlotId) : s.Seats (s.dropWeir x) := s.seats_modTile x.tile fun _ => rfl

theorem State.seats_wakeAt (x : SlotId) (addr : Word) : s.Seats (s.wakeAt x addr) := by
  refine State.seats_foldl (fun s y => ?_) _ s
  dsimp only
  split
  · split
    · exact s.seats_modStrand y _
    · exact (s.seats_modStrand y _).trans (State.seats_dropWeir _ y)
  · exact s.seats_modStrand y _

theorem State.seats_notifyLine (w : Option SlotId) (l : Loc) : s.Seats (s.notifyLine w l) := by
  unfold State.notifyLine
  refine State.Seats.trans ?_ (State.seats_foldl (fun s p => State.seats_foldl (fun s m => s.seats_wakeAt _ _) _ s) _ _)
  refine ⟨fun x none_ => ?_, rfl⟩
  unfold State.strand? State.tile at none_ ⊢
  rw [assocGet_map s.tiles fun n t => t.hitLine n w (s.laneOf w) l]
  cases tile : assocGet s.tiles x.tile with
  | none => rfl
  | some t =>
    rw [tile] at none_
    have none_ : assocGet t.strands x.member = none := none_
    exact assocGet_map_none none_ _

theorem State.seats_modSpilled (sel : Spilled → Bool) (f : Spilled → Spilled) : s.Seats (s.modSpilled sel f) := by
  unfold State.modSpilled
  extract_lets changed u
  refine State.Seats.after (t := u) (State.seats_foldl (fun s p => ?_) _ _) rfl rfl
  exact State.seats_of_tiles rfl rfl

theorem State.seats_modUid (x : SlotId) (uid : Nat) (f : Strand → Strand) : s.Seats (s.modUid x uid f) := by
  rw [State.modUid]
  split
  · exact s.seats_modStrand x f
  · exact s.seats_modSpilled _ _

theorem State.seats_modMember (w : Nat) (x : SlotId) (f : Strand → Strand) : s.Seats (s.modMember w x f) := by
  rw [State.modMember]
  split
  · exact s.seats_modStrand x f
  · exact s.seats_modSpilled _ _

/-! ## Rings and barriers -/

theorem State.seats_setRing (x : SlotId) (k : Nat) (r : Ring) : s.Seats (s.setRing x k r) := by
  rw [State.setRing, State.putRing]
  split
  · exact s.seats_modTile x.tile fun _ => rfl
  · refine State.Seats.trans ?_ (State.seats_notifyLine _ _ _)
    exact s.seats_modTile x.tile fun _ => rfl

theorem State.seats_leaveRings (x : SlotId) (uid : Nat) : s.Seats (s.leaveRings x uid) := by
  unfold State.leaveRings
  extract_lets u
  have left : s.Seats u := by
    refine State.seats_foldl (fun s k => ?_) _ s
    dsimp only
    split
    · exact s.seats_setRing x k _
    · exact State.Seats.refl s
  clear_value u
  exact left.before rfl rfl

theorem State.seats_setTBar (w : Option SlotId) (n k : Nat) (b : Barrier) : s.Seats (s.setTBar w n k b) := by
  rw [State.setTBar]
  split
  · exact s.seats_modTile n fun _ => rfl
  · refine State.Seats.trans ?_ (State.seats_notifyLine _ _ _)
    exact s.seats_modTile n fun _ => rfl

theorem State.seats_completeTBar (w : Option SlotId) (n k : Nat) : s.Seats (s.completeTBar w n k) := by
  rw [State.completeTBar]
  split
  · refine (s.seats_setTBar w n k _).trans (State.seats_foldl (fun s m => ?_) _ _)
    split
    · exact s.seats_modMember _ _ _
    · exact State.Seats.refl s
  · exact State.Seats.refl s

theorem State.seats_modMemberMat (w : Nat) (x : SlotId) (f : Matrix → Matrix) : s.Seats (s.modMemberMat w x f) := by
  rw [State.modMemberMat]
  split
  · exact s.seats_modSpilled _ _
  · exact s.seats_modTile x.tile fun _ => rfl

theorem State.seats_startGang (w : Nat) (ms : List SlotId) (came : SlotId → Bool) : s.Seats (s.startGang w ms came) := by
  unfold State.startGang
  dsimp only
  generalize (ms.map _ : List (Option Word)) = descs
  generalize (_ && _ : Bool) = ok
  split <;> refine State.seats_foldl (fun s x => ?_) _ s
  · exact (s.seats_modMemberMat w x _).trans (State.seats_modMember _ w x _)
  · split
    · exact (s.seats_modMemberMat w x _).trans (State.seats_modMember _ w x _)
    · exact s.seats_modMember w x _

theorem State.seats_completeRBar (r k : Nat) : s.Seats (s.completeRBar r k) := by
  unfold State.completeRBar
  dsimp only
  split
  · have told (f : Row → Row) : s.Seats (s.modRow r f) := State.seats_of_tiles rfl rfl
    split
    · exact told _
    · split
      · exact (told _).trans (State.seats_foldl (fun s x => s.seats_modMember _ x _) _ _)
      · exact (told _).trans (State.seats_startGang _ _ _ _)
  · exact State.Seats.refl s

theorem State.seats_leaveBars (x : SlotId) (wv : Wave) : s.Seats (s.leaveBars x wv) := by
  unfold State.leaveBars
  dsimp only
  split
  · exact State.seats_foldl (fun s p => (State.seats_completeRBar (s.modRow _ _) _ p).after rfl rfl) _ s
  · exact State.seats_foldl (fun s p => (s.seats_setTBar _ _ p _).trans (State.seats_completeTBar _ _ _ p)) _ s

theorem State.seats_leaveWave (x : SlotId) (w : Nat) : s.Seats (s.leaveWave x w) := by
  unfold State.leaveWave
  split
  · exact State.Seats.refl s
  · exact (State.seats_leaveBars _ x _).after rfl rfl

/-! ## The cell of a task that ends -/

theorem State.seats_putCell (c : Cell) : s.Seats (s.putCell c) := by
  rw [State.putCell]
  split
  · exact State.Seats.refl s
  · exact (State.seats_notifyLine _ _ _).after rfl rfl

theorem State.seats_modCell (n : Nat) (f : Cell → Cell) : s.Seats (s.modCell n f) := by
  rw [State.modCell]
  split
  · exact s.seats_putCell _
  · exact State.Seats.refl s

theorem State.seats_modGens (n : Nat) (f : Sheet → Sheet) : s.Seats (s.modGens n f) := by
  rw [State.modGens]
  split
  · exact State.seats_of_tiles rfl rfl
  · exact (State.seats_notifyLine (s.modSheet n f) _ _).after rfl rfl

theorem State.seats_dropTask (c gen : Nat) : s.Seats (s.dropTask c gen) := by
  unfold State.dropTask
  extract_lets keep
  exact s.seats_mapTiles (f := fun t => { t with deque := t.deque.filter keep, overflow := t.overflow.filter keep }) fun _ => rfl

theorem State.seats_faultSeed (n c h : Nat) : s.Seats (s.faultSeed n c h) := by
  unfold State.faultSeed
  extract_lets u
  refine State.Seats.trans (t := u.dropTask c h) ?_ (State.seats_modCell _ c _)
  exact State.Seats.after (u.seats_dropTask c h) rfl rfl

theorem State.seats_cascade (n : Nat) : s.Seats (s.cascade n) := by
  rw [State.cascade]
  split
  · exact State.Seats.refl s
  · refine State.seats_foldl (fun s q => ?_) _ s
    split
    · exact s.seats_faultSeed n _ _
    · exact State.Seats.refl s

theorem State.seats_dropLong (id : Nat) (x : SlotId) (uid : Nat) : s.Seats (s.dropLong id x uid) :=
  State.Seats.after (State.seats_modUid _ x uid _) rfl rfl

theorem State.seats_finishLong (id : Nat) (v : Word) : s.Seats (s.finishLong id v) := by
  rw [State.finishLong]
  split
  · exact State.Seats.refl s
  · split
    · exact s.seats_dropLong id _ _
    · exact State.seats_of_tiles rfl rfl

theorem State.seats_deliver (x : SlotId) (uid : Nat) (sid : Word) (lid code : Nat) (detail : Word) : s.Seats (s.deliver x uid sid lid code detail) := by
  rw [State.deliver]
  split
  · exact s.seats_modUid x uid _
  · exact s.seats_modTile x.tile fun t => t.queueEvent_strands _

theorem State.seats_answerWaits (n : Nat) : s.Seats (s.answerWaits n) := by
  refine State.seats_foldl (fun s w => ?_) _ s
  split
  · exact State.Seats.refl s
  · split
    · exact State.Seats.refl s
    · have unwait : s.Seats { s with cellWaits := s.cellWaits.filter fun u => u.id != w.id } := State.seats_of_tiles rfl rfl
      dsimp only
      split
      · exact State.Seats.refl s
      · exact unwait.trans ((State.seats_putCell _ _).trans (State.seats_finishLong _ _ _))
      · exact unwait.trans ((State.seats_modUid _ _ _ _).trans ((State.seats_dropLong _ _ _ _).trans (State.seats_deliver _ _ _ _ _ _ _)))

theorem State.seats_settle (n : Nat) : s.Seats (s.settle n) :=
  (s.seats_cascade n).trans ((State.seats_modGens _ n _).trans (State.seats_answerWaits _ n))

theorem State.seats_endTask (g : Word) : s.Seats (s.endTask g) := by
  rw [State.endTask]
  split
  · rw [State.taskFailed]
    split
    · exact State.Seats.refl s
    · exact (s.seats_faultSeed _ _ _).trans (State.seats_settle _ _)
  · exact State.Seats.refl s

/-! ## Leaving -/

theorem State.seats_leaveAs (x : SlotId) (st : Strand) (goes : Bool) : s.Seats (s.leaveAs x st goes) := by
  unfold State.leaveAs
  extract_lets u v w k r
  have rings : s.Seats v := (s.seats_leaveRings x st.uid).trans (u.seats_modTile x.tile fun _ => rfl)
  have given : s.Seats w := by
    clear_value v
    exact rings.before rfl rfl
  have waves : s.Seats k := by
    refine given.trans ?_
    dsimp only [k]
    clear_value w
    split
    · exact w.seats_leaveWave x _
    · exact State.Seats.refl w
  have task : s.Seats r := by
    refine waves.trans ?_
    dsimp only [r]
    clear_value k
    cases goes with
    | true => exact State.Seats.refl k
    | false => exact k.seats_endTask _
  clear_value r
  exact task.before rfl rfl

/-- The slot that a strand leaves is empty, and the continuations on their way are as they were. -/
theorem State.leave_seats {x : SlotId} {st : Strand} (here : s.strand? x = some st) (goes : Bool) :
    (s.leave x goes).strand? x = none ∧ (s.leave x goes).transit = s.transit := by
  have leaves := ((((s.dropRsv x).dropWeir x).dropStrand x)).seats_leaveAs x st goes
  rw [State.leave, here]
  refine ⟨leaves.empty x (State.strand?_dropStrand_self _ x), leaves.transit.trans ?_⟩
  show (s.dropRsv x).transit = s.transit
  rw [State.dropRsv, State.endRsv, State.modStrand_rest]

end

end Sys2Proof.Machine
end

section
/-!
PROOF. fork, join, mig, gang, bar, exit and yield (spec/12 R240, R243, R246, R249 to R254).
-/

namespace Sys2Proof.Machine

set_option Elab.async false

/-! ## What leaves memory as it is -/

/-- Memory and its full words are these, and no strand lies in a context block. -/
def Parts.Still (m : List Host.Cell) (f : List Nat) (p : Parts) : Prop := p.mem = m ∧ p.full = f ∧ p.spills = []

theorem Parts.still_bears (m : List Host.Cell) (f : List Nat) : Parts.Bears (Parts.Still m f) where
  spilled s sel g h := by
    have none_ : s.spills = [] := h.2.2
    rw [State.modSpilled_none (by rw [none_]; exact fun _ hp => absurd hp List.not_mem_nil)]
    exact h
  map p g h := ⟨h.1, h.2.1, by rw [h.2.2]; rfl⟩
  filter p g h := ⟨h.1, h.2.1, by rw [h.2.2]; rfl⟩

theorem State.still_self {s : State} (bare : s.spills = []) : s.On (Parts.Still s.mem s.full) := ⟨rfl, rfl, bare⟩

theorem unwritten_of_still {s t : State} (still : t.On (Parts.Still s.mem s.full)) : unwritten s t := ⟨still.1, still.2.1⟩

/-- The word of a strand that leaves: its slot is empty, and with no strand spilled anywhere nothing in memory has changed. -/
theorem leaves_of_leave {s u : State} {st : Strand} (here : u.strand? s.cur = some st)
    (same : s.spills = [] → u.On (Parts.Still s.mem s.full)) (m goes : Bool) :
    leaves s (s.finish s.cur m (.placed (u.leave s.cur goes))) := by
  have gone := (u.leave_seats here goes).1
  have stands : s.finish s.cur m (.placed (u.leave s.cur goes)) = u.leave s.cur goes := by
    show (u.leave s.cur goes).modStrand s.cur _ = _
    rw [State.modStrand, gone]
  rw [stands]
  exact ⟨gone, fun bare => unwritten_of_still (State.on_leave (Parts.still_bears _ _) (same bare))⟩

/-! ## exit and join (R250, R253) -/

theorem State.exitNow_drained {s : State} {st : Strand} (drained : s.drains st = false) (h : Hold) :
    s.exitNow st h = .placed (s.leave s.cur false) := if_neg (by rw [drained]; exact Bool.false_ne_true)

theorem State.exitNow_waits {s : State} {st : Strand} (waits : ¬ s.drains st = false) (h : Hold) : s.exitNow st h = .hold s h :=
  if_pos (Bool.not_eq_false _ ▸ waits)

section
variable {s : State} {st : Strand}

theorem State.blocksFree_bare (bare : s.spills = []) (id : Nat) : s.BlocksFree id := fun p hp => by rw [bare] at hp; cases hp

theorem State.dropAccess_cur (bare : s.spills = []) (e : Access) : (s.dropAccess e).cur = s.cur := by
  rw [State.dropAccess, State.modOwner_rest (State.blocksFree_bare bare _)]

/-- What a tile holds beside its strands and its weir does not change when an access leaves flight. -/
theorem State.tile_dropAccess_apart (bare : s.spills = []) {α : Type} {f : Tile → α} (apart : Tile.Apart f) (n : Nat) (e : Access) :
    f ((s.dropAccess e).tile n) = f (s.tile n) := by
  obtain ⟨g, tiles⟩ : ∃ g, (s.dropAccess e).tiles = (s.modOwner e.id e.who g).tiles := by
    unfold State.dropAccess
    dsimp only
    exact ⟨_, rfl⟩
  have tile : (s.dropAccess e).tile n = (s.modOwner e.id e.who g).tile n := congrArg (fun l => (assocGet l n).getD Tile.initial) tiles
  rw [tile, State.modOwner]
  split
  · exact State.tile_modStrand_apart apart n s _ _
  · rw [State.modSpilled_none (by rw [bare]; exact fun _ hp => absurd hp List.not_mem_nil)]

/-- An access that is gone holds no strand back. -/
theorem State.drains_dropAccess (bare : s.spills = []) (e : Access) (drained : s.drains st = false) : (s.dropAccess e).drains st = false := by
  have mat := State.tile_dropAccess_apart bare (f := Tile.mat) (fun _ _ _ => rfl) s.cur.tile e
  simp only [State.drains, State.dropAccess_cur bare, mat, Bool.or_eq_false_iff] at drained ⊢
  refine ⟨⟨drained.1.1, ?_⟩, drained.2⟩
  have pending := drained.1.2
  simp only [State.stpPending, State.dropAccess_flight (State.blocksFree_bare bare _), List.any_eq_false] at pending ⊢
  exact fun k hk => pending k (List.mem_of_mem_filter hk)

theorem exec_exit_leaves (clear : s.Clear st { aborts := true }) (m : Bool) (drained : s.drains st = false) :
    ∃ t : State, exec (.exit m) s = .next t ∧ leaves s t :=
  ⟨_, State.issue_body clear m (State.exitNow_drained drained .again), leaves_of_leave clear.here State.still_self m false⟩

theorem exec_exit_waits (clear : s.Clear st { aborts := true }) (m : Bool) (waits : ¬ s.drains st = false) :
    ∃ t : State, exec (.exit m) s = .next t ∧ t.strand? s.cur = some { st with run := .held .again, mark := m } ∧ unwritten s t := by
  have runs : exec (.exit m) s = .next (s.finish s.cur m (.hold s .again)) := State.issue_body clear m (State.exitNow_waits waits .again)
  rw [runs, State.finish_hold clear.here m fun _ _ h => by cases h]
  exact ⟨_, rfl, State.strand?_setStrand .., rfl, rfl⟩

variable {m : Bool} {a : Spec} (clear : s.Clear st { srcs := [(0, false, a)], access := true, aborts := true })
include clear

theorem exec_join_sends (closed : st.tx = none) (plain : st.chunk = none) (ready : st.run = .ready) {p : Loc} {tr : Leaf}
    (aligned : (st.rs a).toNat % 8 = 0) (place : s.translate s.cur.tile st.regs.ptroot st.sup (st.rs a) .rw = .at_ p tr) :
    ∃ t : State, exec (.join m a) s = .next t ∧ unwritten s t ∧ t.strand? s.cur = some { st with run := .held (.home s.nextId), mark := m }
      ∧ t.flight = s.flight ++ [⟨s.nextId, s.cur, st.lid, st.sid, st.uid, .joinDec, p, none, 4, true, true, [], none, false, false, 0, some tr⟩] := by
  have runs : exec (.join m a) s
      = .next (s.finish s.cur m (.hold (s.send s.cur st .joinDec p none 4 true true (some tr)) (.home s.nextId))) := by
    refine State.issue_body clear m ?_
    simp only [ready, State.globalAddr_at aligned place, Got.act]
  rw [runs, State.finish_hold (State.strand?_send clear.here st .joinDec p none 4 true true (some tr)) m (by nofun)]
  refine ⟨_, rfl, ⟨?_, ?_⟩, ?_, ?_⟩
  · rw [State.setStrand_mem, State.send_mem]
  · rw [State.setStrand_full, State.send_full]
  · rw [State.strand?_setStrand]
    simp [Strand.awaiting]
  · rw [State.setStrand_flight, State.send_flight _ _ _ _ _ _ _ _ _ (Strand.inTx_closed closed) plain]

theorem exec_join_left {left : Word} (held : st.run = .held (.joined left)) (drained : s.drains st = false) :
    ∃ t : State, exec (.join m a) s = .next t ∧ leaves s t := by
  refine ⟨_, State.issue_body clear m (act := .placed (s.leave s.cur false)) ?_, leaves_of_leave clear.here State.still_self m false⟩
  simp only [held]
  exact State.exitNow_drained drained _

section
variable {id : Nat} {e : Access} (held : st.run = .held (.home id)) (flies : (s.flight.find? fun e => e.id = id) = some e) (done : e.done = true)
variable (unmarked : ∀ l ∈ st.longs, l.id ≠ id) (bare : s.spills = [])
include flies

include held done in
theorem exec_join_answered : exec (.join m a) s = .next (s.finish s.cur m (if e.value.setWidth 64 - 1 = (0 : Word) then .ok (s.dropAccess e)
    else (s.dropAccess e).exitNow st (.joined (e.value.setWidth 64 - 1)))) := by
  refine State.issue_body clear m ?_
  simp only [held, flies, done]
  rfl

include unmarked bare

/-- The access that has been answered is gone, and nothing else of the strand or of memory has changed. -/
theorem State.dropAccess_here : (s.dropAccess e).strand? s.cur = some st ∧ (s.dropAccess e).On (Parts.Still s.mem s.full) := by
  have eid : e.id = id := by simpa using List.find?_some flies
  exact ⟨State.strand?_dropAccess (State.blocksFree_bare bare _) clear.here (by rw [eid]; exact unmarked),
    State.on_dropAccess (Parts.still_bears _ _) (State.still_self bare)⟩

include held done

theorem exec_join_goesOn (last : e.value.setWidth 64 = (1 : Word)) :
    ∃ t : State, exec (.join m a) s = .next t ∧ unwritten s t ∧ t.strand? s.cur = some (st.after m (st.regs.pc + 4)) := by
  obtain ⟨here, still⟩ := State.dropAccess_here clear flies unmarked bare
  rw [exec_join_answered clear held flies done, if_pos (by rw [last]; rfl), State.finish_ok here]
  exact ⟨_, rfl, unwritten_of_still still, State.strand?_setStrand ..⟩

theorem exec_join_leaves (more : e.value.setWidth 64 ≠ (1 : Word)) (drained : s.drains st = false) :
    ∃ t : State, exec (.join m a) s = .next t ∧ leaves s t := by
  obtain ⟨here, still⟩ := State.dropAccess_here clear flies unmarked bare
  have left : ¬ e.value.setWidth 64 - 1 = (0 : Word) := fun h => more (by rw [BitVec.sub_eq_iff_eq_add] at h; simpa using h)
  rw [exec_join_answered clear held flies done, if_neg left, State.exitNow_drained (State.drains_dropAccess bare e drained),
    State.dropAccess_cur bare]
  exact ⟨_, rfl, leaves_of_leave here (fun _ => still) m false⟩

end

end

/-! ## fork, gang and mig (R249, R251, R252) -/

section
variable {s : State} {st : Strand} {m : Bool} {a : Spec}

theorem exec_fork_pushes (clear : s.Clear st { reads := (sRegs 8).map fun r => (0, r), aborts := true }) (disp : BitVec 18)
    (room : (s.tile s.cur.tile).deque.length < 64) (settled : s.fenceWaits s.cur (fun _ => true) true 3 = false) :
    ∃ t ln, exec (.fork m disp) s = .next t ∧ unwritten s t ∧ t.strand? s.cur = some (st.after m (st.regs.pc + 4))
      ∧ (t.tile s.cur.tile).deque = ⟨st.lid, s.cur.core, st.regs.pc + BitVec.ofInt 64 (4 * disp.toInt),
        .forked (Vector.ofFn fun i => st.regs.s.getD i.val 0) 0, ln⟩ :: (s.tile s.cur.tile).deque := by
  obtain ⟨ln, isLn⟩ : ∃ ln, ln = (s.taskLane st.lid).1 := ⟨_, rfl⟩
  obtain ⟨k, isK⟩ : ∃ k : Task, k = ⟨st.lid, s.cur.core, st.regs.pc + BitVec.ofInt 64 (4 * disp.toInt),
    .forked (Vector.ofFn fun i => st.regs.s.getD i.val 0) 0, ln⟩ := ⟨_, rfl⟩
  have runs : exec (.fork m disp) s = .next (s.finish s.cur m (.ok ((s.taskLane st.lid).2.pushTask s.cur.tile k))) := by
    refine State.issue_body clear m ?_
    have goes : ¬ (decide (64 ≤ (s.tile s.cur.tile).deque.length) || s.fenceWaits s.cur (fun _ => true) true 3) = true := by
      rw [settled, Bool.or_false, decide_eq_true_eq]
      omega
    rw [if_neg goes, isK, isLn, ← dispTarget_eq]
    rfl
  have here : ((s.taskLane st.lid).2.pushTask s.cur.tile k).strand? s.cur = some st :=
    (State.strand?_modTile_same (s.taskLane st.lid).2 s.cur s.cur.tile (f := fun x => { x with deque := k :: x.deque }) fun _ => rfl).trans clear.here
  rw [runs, State.finish_ok here]
  refine ⟨_, ln, rfl, ⟨rfl, rfl⟩, State.strand?_setStrand .., ?_⟩
  rw [State.tile_setStrand_apart (f := Tile.deque) (fun _ _ _ => rfl), State.pushTask, State.tile_modTile, isK]
  rfl

/-- The number of members that a wave record asks for. -/
def gangSize (w : List Nat) : Nat :=
  if decide (w.getD 1 0 / 2 ^ 63 = 1) then ((List.range 13).filter fun i => (BitVec.ofNat 13 (w.getD 1 0 / 2 ^ 48)).getLsbD i).length
  else w.getD 1 0 / 2 ^ 8 % 8 + w.getD 1 0 / 2 ^ 4 % 16 + w.getD 1 0 % 16

/-- The wave that a strand asks for with a record. -/
def State.gangRequest (s : State) (st : Strand) (w : List Nat) (lane : Nat) : WaveReq where
  num := s.nextId
  lid := st.lid
  entry := BitVec.ofNat 64 (w.getD 0 0 % 2 ^ 56)
  args := Vector.ofFn fun i => BitVec.ofNat 64 (w.getD (2 + i.val) 0)
  argkind := 0
  row := decide (w.getD 1 0 / 2 ^ 63 = 1)
  kind := w.getD 1 0 / 2 ^ 61 % 4
  nm := w.getD 1 0 / 2 ^ 8 % 8
  nc := w.getD 1 0 / 2 ^ 4 % 16
  na := w.getD 1 0 % 16
  cols := if decide (w.getD 1 0 / 2 ^ 63 = 1) then some (BitVec.ofNat 13 (w.getD 1 0 / 2 ^ 48)) else none
  rows := (s.tileRow s.cur.tile, s.tileRow s.cur.tile)
  origin := some s.cur.tile
  lane := lane

theorem exec_gang_asks (clear : s.Clear st { srcs := [(0, false, a)], access := true, aborts := true }) {w : List Nat}
    (aligned : (st.rs a).toNat % 8 = 0) (record : s.recordParts s.cur st (st.rs a) 8 10 = .got w s) (good : s.waveBad st w = false) :
    ∃ (t : State) (q : WaveReq), exec (.gang m a) s = .next t ∧ unwritten s t ∧ t.strand? s.cur = some (st.after m (st.regs.pc + 4))
      ∧ t.waveReqs = s.waveReqs ++ [q] ∧ q.num = s.nextId ∧ q.lid = st.lid ∧ q.entry = BitVec.ofNat 64 (w.getD 0 0 % 2 ^ 56)
      ∧ (∀ i < 8, q.args.getD i 0 = BitVec.ofNat 64 (w.getD (2 + i) 0)) ∧ q.origin = some s.cur.tile
      ∧ q.row = decide (w.getD 1 0 / 2 ^ 63 = 1) ∧ q.nm = w.getD 1 0 / 2 ^ 8 % 8 ∧ q.nc = w.getD 1 0 / 2 ^ 4 % 16 ∧ q.na = w.getD 1 0 % 16 := by
  obtain ⟨size, isSize⟩ : ∃ size, size = gangSize w := ⟨_, rfl⟩
  obtain ⟨q, isQ⟩ : ∃ q : WaveReq, q = s.gangRequest st w (s.waveLanes st.lid size).1 := ⟨_, rfl⟩
  obtain ⟨u, isU⟩ : ∃ u : State, u = { (s.waveLanes st.lid size).2 with waveReqs := s.waveReqs ++ [q], nextId := s.nextId + 1 } := ⟨_, rfl⟩
  have runs : exec (.gang m a) s = .next (s.finish s.cur m (.ok u)) := by
    refine State.issue_body clear m ?_
    rw [if_neg (by simp [aligned]), record, Got.act, if_neg (by rw [good]; exact Bool.false_ne_true), isU, isQ, isSize]
    rfl
  have here : u.strand? s.cur = some st := by rw [isU]; exact clear.here
  rw [runs, State.finish_ok here]
  refine ⟨_, q, rfl, ⟨by rw [isU]; rfl, by rw [isU]; rfl⟩, State.strand?_setStrand .., by rw [isU]; rfl, ?_⟩
  rw [isQ]
  refine ⟨rfl, rfl, rfl, fun i small => ?_, rfl, rfl, rfl, rfl, rfl⟩
  simp [State.gangRequest, Vector.getD, small]

section
variable (clear : s.Clear st
  { srcs := [(0, false, a)]
    reads := (sRegs 16 ++ (List.range 8).map fun i => BitVec.ofNat 6 (32 + i)).map fun r => (2, r)
    aborts := true })
include clear

theorem exec_mig_misaligned (row : BitVec 8) (col : BitVec 4) (odd : (st.rs a).toNat % 4 ≠ 0) :
    exec (.mig m row col a) s = .next (s.faultTurn s.cur 7 (st.rs a) st.regs.pc) :=
  State.issue_faults clear m (if_pos (bne_iff_ne.mpr odd))

theorem exec_mig_leaves (row : BitVec 8) (col : BitVec 4) {n : Nat} (aligned : (st.rs a).toNat % 4 = 0)
    (there : s.tileAt row.toNat col.toNat = some n) (holds : s.holdsKind n st.lid s.cur.core.num = true) (drained : s.drains st = false)
    (settled : s.fenceWaits s.cur (fun _ => true) true 3 = false) :
    ∃ (t : State) (k : Task), exec (.mig m row col a) s = .next t ∧ leaves s t ∧ t.transit = s.transit ++ [(n, k)] ∧ k.entry = st.rs a
      ∧ k.lid = st.lid ∧ k.kind = .cont (Vector.ofFn fun i => st.regs.s.getD i.val 0) st.regs.o st.regs.skipn st.regs.cellgen := by
  obtain ⟨u, isU⟩ : ∃ u : State, u = (s.taskLane st.lid).2 := ⟨_, rfl⟩
  obtain ⟨k, isK⟩ : ∃ k : Task, k = ⟨st.lid, s.cur.core, st.rs a,
    .cont (Vector.ofFn fun i => st.regs.s.getD i.val 0) st.regs.o st.regs.skipn st.regs.cellgen, (s.taskLane st.lid).1⟩ := ⟨_, rfl⟩
  have runs : exec (.mig m row col a) s
      = .next (s.finish s.cur m (.placed { u.leave s.cur true with transit := (u.leave s.cur true).transit ++ [(n, k)] })) := by
    refine State.issue_body clear m ?_
    rw [isU, isK]
    simp only [aligned, there, holds, drained, settled]
    rfl
  have here : u.strand? s.cur = some st := by rw [isU]; exact clear.here
  obtain ⟨gone, transit⟩ := u.leave_seats here true
  obtain ⟨t, isT⟩ : ∃ t : State, t = u.leave s.cur true := ⟨_, rfl⟩
  have stands : s.finish s.cur m (.placed { t with transit := t.transit ++ [(n, k)] }) = { t with transit := t.transit ++ [(n, k)] } := by
    show ({ t with transit := t.transit ++ [(n, k)] } : State).modStrand s.cur _ = _
    rw [State.modStrand, show ({ t with transit := t.transit ++ [(n, k)] } : State).strand? s.cur = none from isT ▸ gone]
  refine ⟨_, k, runs, ?_, ?_, by rw [isK], by rw [isK], by rw [isK]⟩
  · rw [← isT, stands]
    refine ⟨isT ▸ gone, fun bare => ?_⟩
    have still : u.On (Parts.Still s.mem s.full) := by rw [isU]; exact State.still_self bare
    exact unwritten_of_still (isT ▸ State.on_leave (Parts.still_bears _ _) still : t.On _)
  · rw [← isT, stands]
    show t.transit ++ _ = _
    rw [isT, transit, isU]
    rfl

end

/-! ## yield (R254) -/

theorem exec_yield_stays (clear : s.Clear st { aborts := true }) (unwanted : s.slotWanted s.cur.tile st.lid s.cur.core = false) :
    exec (.yield m) s = .next (s.completes m st) := by
  refine (State.issue_body clear m ?_).trans (congrArg _ (State.finish_same clear.here m))
  rw [if_neg (by rw [unwanted]; exact Bool.false_ne_true)]

/-- A strand that is able to issue, and in no transaction, as pre-emption leaves it. -/
def Strand.preempted (st : Strand) : Strand := { st with run := .preempted none, rsv := none, preReq := false, abortReq := none, mark := false }

theorem State.strand?_preempt {s : State} {x : SlotId} {st : Strand} (here : s.strand? x = some st) (closed : st.tx = none) (ready : st.run = .ready) :
    (s.preempt x).strand? x = some st.preempted := by
  rw [State.preempt, here]
  dsimp only
  rw [State.abortTx_closed here closed, State.strand?_modStrand (State.strand?_dropRsv here)]
  simp [Strand.keptHold, Strand.keptAsyncs, Strand.inTx_closed closed, ready, Strand.preempted]

theorem exec_yield_leaves (closed : st.tx = none) (plain : st.chunk = none) (clear : s.Clear st { aborts := true })
    (wanted : s.slotWanted s.cur.tile st.lid s.cur.core = true) (ready : st.run = .ready) :
    ∃ t : State, exec (.yield m) s = .next t ∧ unwritten s t ∧ t.strand? s.cur = some { st with
      run := .preempted none
      rsv := none
      preReq := false
      abortReq := none
      yielded := true
      mark := m
      regs := { st.regs with pc := st.regs.pc + 4 } } := by
  obtain ⟨st', isSt'⟩ : ∃ st' : Strand, st' = { st with regs := { st.regs with pc := st.regs.pc + 4 }, chunk := st.chunk.map fun c => { c with count := c.count + 1 } } := ⟨_, rfl⟩
  obtain ⟨u, isU⟩ : ∃ u : State, u = s.setStrand s.cur st' := ⟨_, rfl⟩
  have cur : u.cur = s.cur := by rw [isU]; rfl
  have here : u.strand? s.cur = some st' := by rw [isU]; exact State.strand?_setStrand ..
  have near : s.Near (u.preempt s.cur) := (isU ▸ s.near_setStrand s.cur st' : s.Near u).trans (u.near_preempt s.cur)
  have out := State.strand?_preempt here (by rw [isSt']; exact closed) (by rw [isSt']; exact ready)
  obtain ⟨v, isV⟩ : ∃ v : State, v = u.preempt s.cur := ⟨_, rfl⟩
  rw [← isV] at near out
  have vcur : v.cur = s.cur := by rw [near]
  obtain ⟨st2, isSt2⟩ : ∃ st2 : Strand, st2 = { st'.preempted with mark := m, yielded := true } := ⟨_, rfl⟩
  have leaves : v.upd (fun k => { k with mark := m, yielded := true }) = v.setStrand s.cur st2 := by
    rw [State.upd, vcur, State.modStrand_of_strand out, isSt2]
  have runs : exec (.yield m) s = .next (s.finish s.cur m (.placed (v.setStrand s.cur st2))) := by
    refine State.issue_body clear m ?_
    rw [if_pos wanted, State.upd, State.modStrand_of_strand clear.here, ← isSt', ← isU]
    dsimp only
    rw [cur, ← isV, leaves]
  rw [runs, finish_placed (State.strand?_setStrand ..)]
  have stands : st2.afterMark m = st2 := by rw [isSt2]; rfl
  refine ⟨_, rfl, ⟨near.mem, near.full⟩, ?_⟩
  rw [State.strand?_setStrand, stands, isSt2, isSt', plain]
  rfl

end

/-! ## bar: the release of a wave's members (R240, R243) -/

theorem Strand.releaseBar_releaseBar (st : Strand) : st.releaseBar.releaseBar = st.releaseBar := by
  have stays {k : Strand} (run : k.run = .ready ∨ k.run = .parked ∨ k.run = .preempted none) : k.releaseBar = k := by
    rcases run with run | run | run <;> rw [Strand.releaseBar, run]
  have afterRun (k : Strand) : k.afterBar.run = k.run := by
    unfold Strand.afterBar
    split <;> rfl
  conv_lhs => rw [Strand.releaseBar.eq_def st]
  conv_rhs => rw [Strand.releaseBar.eq_def st]
  split
  · next held =>
    refine stays ?_
    rw [afterRun, Strand.completeHeld, held]
    by_cases parks : (st.mark && !st.longs.isEmpty) = true
    · exact .inr (.inl (if_pos parks))
    · exact .inl (if_neg parks)
  · next held =>
    refine stays (.inr (.inr ?_))
    rw [afterRun, Strand.completeHeld, held]
  · next other kept =>
    rw [Strand.releaseBar]
    split
    · next held => exact absurd held (other _ _ _)
    · next held => exact absurd held (kept _ _ _)
    · rfl

theorem Strand.releaseBar_wave (st : Strand) : st.releaseBar.wave = st.wave := by
  have after (k : Strand) : k.afterBar.wave = k.wave := by
    unfold Strand.afterBar
    split <;> rfl
  have complete : st.completeHeld.wave = st.wave := by
    unfold Strand.completeHeld
    split <;> rfl
  unfold Strand.releaseBar
  split
  · exact (after _).trans complete
  · exact (after _).trans complete
  · rfl

section
variable (s : State)

theorem State.modSpilled_tiles (sel : Spilled → Bool) (f : Spilled → Spilled) : (s.modSpilled sel f).tiles = s.tiles := by
  unfold State.modSpilled
  extract_lets changed u
  exact List.foldlRecOn changed (motive := fun t : State => t.tiles = s.tiles) _ rfl fun t same _ _ => same

theorem State.modSpilled_rows (sel : Spilled → Bool) (f : Spilled → Spilled) : (s.modSpilled sel f).rows = s.rows := by
  unfold State.modSpilled
  extract_lets changed u
  exact List.foldlRecOn changed (motive := fun t : State => t.rows = s.rows) _ rfl fun t same _ _ => same

theorem State.modMember_rows (w : Nat) (x : SlotId) (f : Strand → Strand) : (s.modMember w x f).rows = s.rows := by
  rw [State.modMember]
  split
  · rw [State.modStrand_rest]
  · exact s.modSpilled_rows _ _

theorem State.tile_modMember_apart {α : Type} {f : Tile → α} (apart : Tile.Apart f) (n w : Nat) (x : SlotId) (g : Strand → Strand) :
    f ((s.modMember w x g).tile n) = f (s.tile n) := by
  rw [State.modMember]
  split
  · exact State.tile_modStrand_apart apart n s x g
  · rw [State.tile, State.modSpilled_tiles]
    rfl

/-- The members of a wave at `ys` released from their barrier. -/
def State.release (w : Nat) (ys : List SlotId) : State := ys.foldl (fun s y => s.modMember w y Strand.releaseBar) s

variable {s} {x : SlotId} {st : Strand} {w : Nat}

/-- A release of a slot releases the strand there, or leaves it. -/
theorem State.strand?_modMember_release (here : s.strand? x = some st) (wave : st.wave = some w) (y : SlotId) :
    (s.modMember w y Strand.releaseBar).strand? x = some (if y.tile = x.tile ∧ y.member = x.member then st.releaseBar else st) := by
  by_cases same : y.tile = x.tile ∧ y.member = x.member
  · have there := s.strand_congr same.1 same.2
    rw [if_pos same, State.modMember, there, here, if_pos (show (some st).bind (·.wave) = some w from wave), ← State.strand_congr _ same.1 same.2,
      State.strand?_modStrand (there.trans here)]
  · rw [if_neg same, State.modMember]
    split
    · rw [State.strand_modStrand_other _ _ (by omega), here]
    · exact (State.strand?_of_tiles (s.modSpilled_tiles _ _) x).trans here

theorem State.strand?_release_released (here : s.strand? x = some st.releaseBar) (wave : st.wave = some w) (ys : List SlotId) :
    (s.release w ys).strand? x = some st.releaseBar := by
  refine List.foldlRecOn ys (motive := fun t : State => t.strand? x = some st.releaseBar) _ here fun t released y _ => ?_
  rw [State.strand?_modMember_release released (st.releaseBar_wave.trans wave), Strand.releaseBar_releaseBar, ite_self]

/-- A strand whose slot is among those that are released is released, once. -/
theorem State.strand?_release (here : s.strand? x = some st) (wave : st.wave = some w) {ys : List SlotId} (mine : x ∈ ys) :
    (s.release w ys).strand? x = some st.releaseBar := by
  induction ys generalizing s with
  | nil => cases mine
  | cons y r ih =>
    have next := State.strand?_modMember_release here wave y
    by_cases same : y.tile = x.tile ∧ y.member = x.member
    · rw [if_pos same] at next
      exact State.strand?_release_released next wave r
    · rw [if_neg same] at next
      refine ih next ?_
      rcases List.mem_cons.mp mine with rfl | later
      · exact absurd ⟨rfl, rfl⟩ same
      · exact later

theorem State.release_rows (s : State) (w : Nat) (ys : List SlotId) : (s.release w ys).rows = s.rows :=
  List.foldlRecOn ys (motive := fun t : State => t.rows = s.rows) _ rfl fun t same y _ => (t.modMember_rows w y _).trans same

theorem State.tile_release_apart {α : Type} {f : Tile → α} (apart : Tile.Apart f) (s : State) (n w : Nat) (ys : List SlotId) :
    f ((s.release w ys).tile n) = f (s.tile n) :=
  State.tile_foldl_apart n (fun t y => t.tile_modMember_apart apart n w y _) ys s

end

/-! ## bar: the arrival -/

/-- A strand that has arrived at a physical barrier and waits there. -/
def Strand.arrives (st : Strand) (row : Bool) (p : Nat) (m : Bool) : Strand := { st with run := .held (.bar row p false), mark := m }

section
variable {st : Strand} (plain : st.chunk = none) (row : Bool) (p : Nat) (m : Bool)

theorem Strand.arrives_lastToArrive : (st.arrives row p m).lastToArrive st = st.arrives row p m := rfl

theorem Strand.arrives_afterMark : (st.arrives row p m).afterMark m = st.arrives row p m := Strand.afterMark_held rfl m

include plain

theorem Strand.arrives_calm : (st.arrives row p m).Calm := ⟨fun _ => rfl, plain⟩

/-- The strand whose arrival completes its barrier goes on at the next word. -/
theorem Strand.arrives_released : ((st.arrives row p m).releaseBar.lastToArrive st).afterMark m = ({ st with mark := m } : Strand).after m (st.regs.pc + 4) := by
  by_cases parks : (m && !st.longs.isEmpty) = true
  · simp [Strand.arrives, Strand.releaseBar, Strand.completeHeld, Strand.afterBar, Strand.onward, Strand.lastToArrive, Strand.afterMark, Strand.after, plain, parks]
  · simp [Strand.arrives, Strand.releaseBar, Strand.completeHeld, Strand.afterBar, Strand.onward, Strand.lastToArrive, Strand.afterMark, Strand.after, plain, parks]

end

theorem vector_getD_of_some {α : Type} {n i : Nat} {v : Vector α n} {a : α} (there : v[i]? = some a) (d : α) : v.getD i d = a := by
  rw [Vector.getD, Array.getD_eq_getD_getElem?, Vector.getElem?_toArray, there, Option.getD_some]

/-- A barrier that somebody has arrived at is not empty. -/
theorem or_bitOf_ne_zero (arr : BitVec 24) {k : Nat} (small : k < 24) : arr ||| bitOf k ≠ 0 := fun zero => by
  have bit := congrArg (·.getLsbD k) zero
  simp [bitOf, small] at bit

theorem and_bitOf_ne_zero (arr : BitVec 24) {k : Nat} (small : k < 24) : ((arr ||| bitOf k) &&& bitOf k != 0) = true := by
  refine bne_iff_ne.mpr fun zero => ?_
  have bit := congrArg (·.getLsbD k) zero
  simp [bitOf, small] at bit

theorem SlotId.member_lt {x : SlotId} (slot : x.slot < 8) : x.member < 24 := by
  unfold SlotId.member
  cases x.core <;> simp only [Core.num] <;> omega

theorem slotOf_member {x : SlotId} (slot : x.slot < 8) : slotOf x.tile x.member = x := by
  obtain ⟨tile, core, k⟩ := x
  dsimp only at slot
  have core_ : (8 * core.num + k) / 8 = core.num := by omega
  have slot_ : (8 * core.num + k) % 8 = k := by omega
  rw [slotOf, SlotId.member, core_, slot_]
  cases core <;> rfl

section
variable {s : State} {x : SlotId} {st : Strand} {p : Nat} {b : Barrier}

theorem State.near_setTBar (s : State) (writer : Option SlotId) (t k : Nat) (b : Barrier) : s.Near (s.setTBar writer t k b) := by
  rw [State.setTBar]
  split
  · exact s.near_modTile t _
  · exact (s.near_modTile t _).trans (State.near_notifyLine _ _ _)

theorem State.strand?_setTBar (here : s.strand? x = some st) (calm : st.Calm) (writer : Option SlotId) (t k : Nat) (b : Barrier) :
    (s.setTBar writer t k b).strand? x = some st := by
  have set := (s.strand?_modTile_same x t (f := fun y => { y with tbar := y.tbar.setIfInBounds k b }) fun _ => rfl).trans here
  rw [State.setTBar]
  split
  · exact set
  · exact State.strand_notifyLine set calm _ _

theorem Tile.apart_tbar : Tile.Apart Tile.tbar := fun _ _ _ => rfl

theorem State.tbar_setTBar {t : Nat} (there : (s.tile t).tbar[p]? = some b) (writer : Option SlotId) (c : Barrier) :
    ((s.setTBar writer t p c).tile t).tbar[p]? = some c := by
  have small : p < 4 := by
    by_contra large
    rw [Vector.getElem?_eq_none (by omega)] at there
    cases there
  have set : ((s.modTile t fun y => { y with tbar := y.tbar.setIfInBounds p c }).tile t).tbar[p]? = some c := by
    rw [State.tile_modTile]
    simp [small]
  rw [State.setTBar]
  split
  · exact set
  · rw [State.tile_notifyLine_apart Tile.apart_tbar]
    exact set

/-- What a completed tile barrier comes to: a new generation, and its members released. -/
theorem State.completeTBar_complete {t : Nat} (there : (s.tile t).tbar[p]? = some b) (some_ : b.arr ≠ 0) (complete : b.arr = b.mem)
    (writer : Option SlotId) :
    s.completeTBar writer t p = (s.setTBar writer t p { b with gen := b.gen + 1, arr := 0 }).release (b.wave.getD 0)
      (((List.range 24).filter fun i => b.arr &&& bitOf i != 0).map (slotOf t)) := by
  have reads : (s.tile t).tbar.getD p Barrier.initial = b := vector_getD_of_some there _
  rw [State.completeTBar, reads]
  dsimp only
  rw [if_pos (by rw [decide_eq_true complete, Bool.and_true]; exact bne_iff_ne.mpr some_), State.release, List.foldl_map, List.foldl_filter]

theorem State.completeTBar_incomplete {t : Nat} (there : (s.tile t).tbar[p]? = some b) (open_ : b.arr ≠ b.mem) (writer : Option SlotId) :
    s.completeTBar writer t p = s := by
  have reads : (s.tile t).tbar.getD p Barrier.initial = b := vector_getD_of_some there _
  rw [State.completeTBar, reads]
  exact if_neg (by simp [open_])

end

section
variable {s : State} {st : Strand} {m : Bool} (clear : s.Clear st { aborts := true }) (plain : st.chunk = none) {p : Nat} {b : Barrier} {w : Nat}

section
variable {k2 : BitVec 2} (named : s.barOf st false k2.toNat = some p) (performed : s.barWaits 0 = false) (there : (s.tile s.cur.tile).tbar[p]? = some b)

/-- The tile barrier with the arrival of the executing strand, at which it is held. -/
def State.arrivesTile (s : State) (st : Strand) (m : Bool) (p : Nat) (b : Barrier) : State :=
  (s.setStrand s.cur (st.arrives false p m)).setTBar (some s.cur) s.cur.tile p { b with arr := b.arr ||| bitOf s.cur.member }

include clear named performed there in
theorem exec_barTile_arrives : exec (.barTile m k2) s = .next (s.finish s.cur m (.placed
    (((s.arrivesTile st m p b).completeTBar (some s.cur) s.cur.tile p).modStrand s.cur fun k => k.lastToArrive st))) := by
  refine State.issue_body clear m ?_
  simp only [named, performed]
  rw [if_neg Bool.false_ne_true, State.modStrand_of_strand clear.here]
  have reads : (((s.setStrand s.cur (st.arrives false p m)).tile s.cur.tile).tbar.getD p Barrier.initial) = b := by
    refine vector_getD_of_some ?_ _
    rw [State.tile_setStrand_apart Tile.apart_tbar, there]
  exact congrArg (fun c : Barrier => Act.placed ((((s.setStrand s.cur (st.arrives false p m)).setTBar (some s.cur) s.cur.tile p
    { c with arr := c.arr ||| bitOf s.cur.member }).completeTBar (some s.cur) s.cur.tile p).modStrand s.cur fun k => k.lastToArrive st)) reads

section
include plain

theorem State.arrivesTile_here : (s.arrivesTile st m p b).strand? s.cur = some (st.arrives false p m) :=
  State.strand?_setTBar (State.strand?_setStrand ..) (Strand.arrives_calm plain false p m) _ _ _ _

end

theorem State.arrivesTile_near : s.Near (s.arrivesTile st m p b) := (s.near_setStrand _ _).trans (State.near_setTBar _ _ _ _ _)

include there in
theorem State.arrivesTile_tbar :
    ((s.arrivesTile st m p b).tile s.cur.tile).tbar[p]? = some { b with arr := b.arr ||| bitOf s.cur.member } :=
  State.tbar_setTBar (by rw [State.tile_setStrand_apart Tile.apart_tbar, there]) _ _

include clear plain named performed there

theorem exec_barTile_waits (open_ : b.arr ||| bitOf s.cur.member ≠ b.mem) :
    ∃ t : State, exec (.barTile m k2) s = .next t ∧ unwritten s t ∧ t.strand? s.cur = some { st with run := .held (.bar false p false), mark := m }
      ∧ (t.tile s.cur.tile).tbar[p]? = some { b with arr := b.arr ||| bitOf s.cur.member } := by
  obtain ⟨t, isT⟩ : ∃ t : State, t = s.arrivesTile st m p b := ⟨_, rfl⟩
  have here : t.strand? s.cur = some (st.arrives false p m) := isT ▸ State.arrivesTile_here plain
  have near : s.Near t := isT ▸ State.arrivesTile_near
  have tbar := isT ▸ State.arrivesTile_tbar (st := st) (m := m) there
  rw [exec_barTile_arrives clear named performed there, ← isT, State.completeTBar_incomplete tbar open_, State.modStrand_of_strand here,
    finish_placed (State.strand?_setStrand ..), Strand.arrives_lastToArrive, Strand.arrives_afterMark]
  refine ⟨_, rfl, ⟨near.mem, near.full⟩, State.strand?_setStrand .., ?_⟩
  rw [State.tile_setStrand_apart Tile.apart_tbar, State.tile_setStrand_apart Tile.apart_tbar, tbar]

theorem exec_barTile_completes (wave : st.wave = some w) (own : b.wave = some w) (slot : s.cur.slot < 8) (last : b.arr ||| bitOf s.cur.member = b.mem) :
    ∃ t : State, exec (.barTile m k2) s = .next t ∧ (s.spills = [] → unwritten s t)
      ∧ t.strand? s.cur = some (({ st with mark := m } : Strand).after m (st.regs.pc + 4))
      ∧ (t.tile s.cur.tile).tbar[p]? = some { b with arr := 0, gen := b.gen + 1 } := by
  have small := SlotId.member_lt slot
  obtain ⟨t, isT⟩ : ∃ t : State, t = s.arrivesTile st m p b := ⟨_, rfl⟩
  have here : t.strand? s.cur = some (st.arrives false p m) := isT ▸ State.arrivesTile_here plain
  have still : s.spills = [] → t.On (Parts.Still s.mem s.full) := fun bare => by
    rw [isT]
    exact State.on_setTBar (Parts.still_bears _ _) (State.on_setStrand (Parts.still_bears _ _) (State.still_self bare))
  have tbar := isT ▸ State.arrivesTile_tbar (st := st) (m := m) there
  have released := t.completeTBar_complete tbar (or_bitOf_ne_zero _ small) last (some s.cur)
  obtain ⟨v, isV⟩ : ∃ v : State, v = t.completeTBar (some s.cur) s.cur.tile p := ⟨_, rfl⟩
  have mine : v.strand? s.cur = some (st.arrives false p m).releaseBar := by
    rw [isV, released]
    refine State.strand?_release (State.strand?_setTBar here (Strand.arrives_calm plain false p m) _ _ _ _) ?_ ?_
    · rw [own]
      exact wave
    · refine List.mem_map.mpr ⟨s.cur.member, List.mem_filter.mpr ⟨List.mem_range.mpr small, and_bitOf_ne_zero _ small⟩, slotOf_member slot⟩
  have next : (v.tile s.cur.tile).tbar[p]? = some { b with arr := 0, gen := b.gen + 1 } := by
    rw [isV, released, State.tile_release_apart Tile.apart_tbar]
    exact State.tbar_setTBar tbar _ _
  rw [exec_barTile_arrives clear named performed there, ← isT, ← isV, State.modStrand_of_strand mine, finish_placed (State.strand?_setStrand ..),
    Strand.arrives_released plain]
  refine ⟨_, rfl, fun bare => unwritten_of_still ?_, State.strand?_setStrand .., ?_⟩
  · have bears := Parts.still_bears s.mem s.full
    refine State.on_setStrand bears (State.on_setStrand bears ?_)
    rw [isV]
    exact State.on_completeTBar bears (still bare)
  · rw [State.tile_setStrand_apart Tile.apart_tbar, State.tile_setStrand_apart Tile.apart_tbar, next]

end

section
variable {k3 : BitVec 3} (named : s.barOf st true k3.toNat = some p) (performed : s.barWaits 1 = false)
variable (there : (s.rowAt (s.tileRow s.cur.tile)).bars[p]? = some b) (alone : b.gang = 0)

/-- The row barrier with the arrival of the executing strand, at which it is held. -/
def State.arrivesRow (s : State) (st : Strand) (m : Bool) (p : Nat) : State :=
  (s.setStrand s.cur (st.arrives true p m)).modRow (s.tileRow s.cur.tile) fun r =>
    { r with bars := vecMod r.bars p fun b => { b with arr := b.arr ||| bitOf (s.tileCol s.cur.tile), gang := b.gang } }

theorem State.rowAt_modRow (s : State) (r : Nat) (f : Row → Row) : (s.modRow r f).rowAt r = f (s.rowAt r) := by
  rw [State.rowAt, State.modRow, assocGet_assocSet, if_pos rfl, Option.getD_some]

theorem vecMod_getElem? {α : Type} {n i : Nat} {v : Vector α n} {a : α} (there : v[i]? = some a) (f : α → α) : (vecMod v i f)[i]? = some (f a) := by
  have small : i < n := by
    by_contra large
    rw [Vector.getElem?_eq_none (by omega)] at there
    cases there
  rw [vecMod, there]
  simp [small]

theorem State.arrivesRow_here : (s.arrivesRow st m p).strand? s.cur = some (st.arrives true p m) :=
  State.strand?_setStrand s s.cur (st.arrives true p m)

include there in
theorem State.arrivesRow_bars :
    ((s.arrivesRow st m p).rowAt (s.tileRow s.cur.tile)).bars[p]? = some { b with arr := b.arr ||| bitOf (s.tileCol s.cur.tile) } := by
  rw [State.arrivesRow, State.rowAt_modRow]
  exact vecMod_getElem? there _

theorem State.completeRBar_incomplete {t : State} {r : Nat} {c : Barrier} (there : (t.rowAt r).bars[p]? = some c) (open_ : c.arr ≠ c.mem) :
    t.completeRBar r p = t := by
  rw [State.completeRBar, vector_getD_of_some there]
  exact if_neg (by simp [open_])

/-- What a completed row barrier without a joint operation comes to: a new generation, and its members released. -/
theorem State.completeRBar_complete {t : State} {r : Nat} {c : Barrier} {wv : Wave} (there : (t.rowAt r).bars[p]? = some c) (some_ : c.arr ≠ 0)
    (complete : c.arr = c.mem) (own : c.wave = some w) (wave : t.waves.find? (fun v => v.num = w) = some wv) (alone : c.gang = 0) :
    t.completeRBar r p = (t.modRow r fun y => { y with bars := y.bars.setIfInBounds p { c with gen := c.gen + 1, arr := 0, gang := 0 } }).release wv.num
      wv.members := by
  have found : (c.wave.bind fun w => t.waves.find? fun v => v.num = w) = some wv := by rw [own]; exact wave
  rw [State.completeRBar, vector_getD_of_some there]
  dsimp only
  rw [if_pos (by rw [decide_eq_true complete, Bool.and_true]; exact bne_iff_ne.mpr some_)]
  have found : (c.wave.bind fun w => (t.modRow r fun y => { y with bars := y.bars.setIfInBounds p { c with gen := c.gen + 1, arr := 0, gang := 0 } }).waves.find?
    fun v => v.num = w) = some wv := found
  rw [found]
  exact if_pos alone

include clear named performed

theorem exec_barRow_arrives : exec (.barRow m k3) s = .next (s.finish s.cur m (.placed
    (((s.arrivesRow st m p).completeRBar (s.tileRow s.cur.tile) p).modStrand s.cur fun k => k.lastToArrive st))) := by
  refine State.issue_body clear m ?_
  simp only [named, performed]
  rw [if_neg Bool.false_ne_true, State.arriveRow, clear.here, State.modStrand_of_strand clear.here]
  rfl

include there

theorem exec_barRow_waits (open_ : b.arr ||| bitOf (s.tileCol s.cur.tile) ≠ b.mem) :
    ∃ t : State, exec (.barRow m k3) s = .next t ∧ unwritten s t ∧ t.strand? s.cur = some { st with run := .held (.bar true p false), mark := m }
      ∧ (t.rowAt (s.tileRow s.cur.tile)).bars[p]? = some { b with arr := b.arr ||| bitOf (s.tileCol s.cur.tile) } := by
  obtain ⟨t, isT⟩ : ∃ t : State, t = s.arrivesRow st m p := ⟨_, rfl⟩
  have here : t.strand? s.cur = some (st.arrives true p m) := isT ▸ State.arrivesRow_here
  have bars := isT ▸ State.arrivesRow_bars (st := st) (m := m) there
  have unwritten_ : unwritten s t := by rw [isT]; exact ⟨rfl, rfl⟩
  rw [exec_barRow_arrives clear named performed, ← isT, State.completeRBar_incomplete bars open_, State.modStrand_of_strand here,
    finish_placed (State.strand?_setStrand ..), Strand.arrives_lastToArrive, Strand.arrives_afterMark]
  exact ⟨_, rfl, unwritten_, State.strand?_setStrand .., bars⟩

include plain alone

theorem exec_barRow_completes {wv : Wave} (wave : st.wave = some w) (own : b.wave = some w) (placed : s.waves.find? (fun v => v.num = w) = some wv)
    (mine : s.cur ∈ wv.members) (last : b.arr ||| bitOf (s.tileCol s.cur.tile) = b.mem) :
    ∃ t : State, exec (.barRow m k3) s = .next t ∧ (s.spills = [] → unwritten s t)
      ∧ t.strand? s.cur = some (({ st with mark := m } : Strand).after m (st.regs.pc + 4))
      ∧ (t.rowAt (s.tileRow s.cur.tile)).bars[p]? = some { b with arr := 0, gen := b.gen + 1 } := by
  have small : s.tileCol s.cur.tile < 24 := by
    have := s.tileCol_lt s.cur.tile
    omega
  have number : wv.num = w := by simpa using List.find?_some placed
  obtain ⟨t, isT⟩ : ∃ t : State, t = s.arrivesRow st m p := ⟨_, rfl⟩
  have here : t.strand? s.cur = some (st.arrives true p m) := isT ▸ State.arrivesRow_here
  have waves : t.waves = s.waves := by rw [isT]; rfl
  have still : s.spills = [] → t.On (Parts.Still s.mem s.full) := fun bare => by
    rw [isT]
    exact State.still_self bare
  have bars := isT ▸ State.arrivesRow_bars (st := st) (m := m) there
  have released := State.completeRBar_complete bars (or_bitOf_ne_zero _ small) last own (waves ▸ placed) alone
  obtain ⟨v, isV⟩ : ∃ v : State, v = t.completeRBar (s.tileRow s.cur.tile) p := ⟨_, rfl⟩
  have free : v.strand? s.cur = some (st.arrives true p m).releaseBar := by
    rw [isV, released]
    exact State.strand?_release (s := t.modRow _ _) here (wave.trans (congrArg some number.symm)) mine
  have next : (v.rowAt (s.tileRow s.cur.tile)).bars[p]? = some { b with arr := 0, gen := b.gen + 1 } := by
    rw [isV, released, State.rowAt, State.release_rows, ← State.rowAt, State.rowAt_modRow]
    have small : p < 8 := by
      by_contra large
      rw [Vector.getElem?_eq_none (by omega)] at there
      cases there
    simp [small, alone]
  rw [exec_barRow_arrives clear named performed, ← isT, ← isV, State.modStrand_of_strand free, finish_placed (State.strand?_setStrand ..),
    Strand.arrives_released plain]
  refine ⟨_, rfl, fun bare => unwritten_of_still ?_, State.strand?_setStrand .., next⟩
  have bears := Parts.still_bears s.mem s.full
  refine State.on_setStrand bears (State.on_setStrand bears ?_)
  rw [isV]
  exact State.on_completeRBar bears (still bare)

end

end

/-- Settles O50: each word by what it sends, pushes or asks for, and by whom it releases. -/
theorem strandWords : Obligations.StrandWords := by
  intro s st m disp a row col k2 k3 closed plain
  refine ⟨fun clear room settled => exec_fork_pushes clear disp room settled, fun clear => ⟨?joinSends, ?joinAnswered, ?joinLeft, ?gang⟩, fun clear => ⟨?migOdd, ?mig⟩,
    fun clear => ⟨?exit, ?exitWaits, ?yieldStays, ?yieldLeaves, ?barTile, ?barRow⟩⟩
  case joinSends => exact fun p tr ready aligned place => exec_join_sends clear closed plain ready aligned place
  case joinAnswered =>
    exact fun id e held flies done unmarked bare => ⟨exec_join_goesOn clear held flies done unmarked bare, exec_join_leaves clear held flies done unmarked bare⟩
  case joinLeft => exact fun left held drained => exec_join_left clear held drained
  case gang => exact fun w aligned record good => exec_gang_asks clear aligned record good
  case migOdd => exact exec_mig_misaligned clear row col
  case mig => exact fun n aligned there holds drained settled => exec_mig_leaves clear row col aligned there holds drained settled
  case exit => exact exec_exit_leaves clear m
  case exitWaits => exact exec_exit_waits clear m
  case yieldStays => exact exec_yield_stays clear
  case yieldLeaves => exact fun wanted ready => exec_yield_leaves closed plain clear wanted ready
  case barTile =>
    exact fun p b w named performed there wave own slot =>
      ⟨exec_barTile_waits clear plain named performed there, exec_barTile_completes clear plain named performed there wave own slot⟩
  case barRow =>
    exact fun p b w wv named performed there wave own placed mine alone =>
      ⟨exec_barRow_waits clear named performed there, exec_barRow_completes clear plain named performed there alone wave own placed mine⟩

end Sys2Proof.Machine
end

section
/-!
PROOF. Commands: what dispatch makes of a command that may run, and the firmware operations (spec/14 R285, R286, R289, Tables 14.4 to 14.6, 14.9).
-/

namespace Sys2Proof.Machine

set_option Elab.async false

/-! ## What reads of engines leave -/

/-- `t` is `s` but for translation buffers and what folds of reduction words have written, and of that readers were told. -/
def State.Reads (s t : State) : Prop := t = { s with
  tiles := t.tiles
  rows := t.rows
  spills := t.spills
  watches := t.watches
  mem := t.mem
  full := t.full
  lags := t.lags
  redWords := t.redWords
  badWords := t.badWords
  weakWords := t.weakWords }

theorem State.Reads.refl (s : State) : s.Reads s := rfl

theorem State.Reads.trans {s t u : State} (h : s.Reads t) (k : t.Reads u) : s.Reads u := by
  unfold State.Reads at *
  rw [k, h]

theorem State.reads_foldl {α : Type} {f : State → α → State} (step : ∀ s a, State.Reads s (f s a)) (l : List α) (s : State) : s.Reads (l.foldl f s) := by
  induction l generalizing s with
  | nil => exact State.Reads.refl s
  | cons a r ih => exact (step s a).trans (ih _)

theorem State.Told.reads {s t : State} (h : s.Told t) : s.Reads t := by
  unfold State.Reads
  rw [h.rest]

section
variable (s : State)

theorem State.store_reads (w : Option SlotId) (a : Nat) (bs : List Byte) (cls op : Nat) (shadow : List (Nat × Nat)) :
    s.Reads (s.store w a bs cls op shadow) := by
  refine State.Reads.trans (t := (s.lagWrite cls op a bs.length shadow).putBytes a bs) ?_ (State.told_notify _ _ _ _).reads
  rw [State.lagWrite_eq]
  rfl

theorem State.foldFor_reads (l : Loc) (n : Nat) : s.Reads (s.foldFor l n) := by
  unfold State.foldFor
  split
  · exact State.Reads.refl s
  · refine State.reads_foldl (fun s r => ?_) _ s
    unfold State.foldWord
    split
    · exact State.Reads.refl s
    · exact (s.store_reads none r.addr _ _ _ _).trans rfl

/-- A translation of an engine fills translation buffers alone. -/
theorem State.engineLoc_buffers (tile : Nat) (ptroot : Word) (sup : Bool) (va : Nat) (kind : AccKind) :
    (s.engineLoc tile ptroot sup va kind).2
      = { s with tiles := (s.engineLoc tile ptroot sup va kind).2.tiles, rows := (s.engineLoc tile ptroot sup va kind).2.rows } := by
  have tr (ea : Word) : (s.engineTr tile ptroot sup ea kind).2 = s ∨ ∃ l, (s.engineTr tile ptroot sup ea kind).2 = s.fillTlb tile l := by
    unfold State.engineTr
    split
    · split
      · exact .inl rfl
      · exact .inr ⟨_, rfl⟩
    · exact .inl rfl
  have is : (s.engineLoc tile ptroot sup va kind).2 = s
      ∨ (s.engineLoc tile ptroot sup va kind).2 = (s.engineTr tile ptroot sup (BitVec.ofNat 64 va) kind).2 := by
    unfold State.engineLoc
    split
    · exact .inl rfl
    · split <;> next same => exact .inr (by rw [same])
  rcases is with is | is
  · rw [is]
  · rcases tr (BitVec.ofNat 64 va) with same | ⟨l, fills⟩
    · rw [is, same]
    · rw [is, fills]
      rfl

theorem State.engineLoc_reads (tile : Nat) (ptroot : Word) (sup : Bool) (va : Nat) (kind : AccKind) :
    s.Reads (s.engineLoc tile ptroot sup va kind).2 := by
  unfold State.Reads
  rw [State.engineLoc_buffers]

/-- So do all the translations of an access. -/
theorem State.vaFill_buffers (v : Via) (va n : Nat) (kind : AccKind) :
    s.vaFill v va n kind = { s with tiles := (s.vaFill v va n kind).tiles, rows := (s.vaFill v va n kind).rows } := by
  unfold State.vaFill
  generalize pagesOf va n = ps
  induction ps generalizing s with
  | nil => rfl
  | cons p r ih =>
    rw [List.foldl_cons, ih, State.engineLoc_buffers]

theorem State.vaTouch_reads (v : Via) (va n : Nat) (kind : AccKind) : s.Reads (s.vaTouch v va n kind) := by
  refine State.reads_foldl (fun s q => ?_) _ s
  have fills := s.engineLoc_reads v.tile v.ptroot v.sup q.1 kind
  split
  · next p t is =>
    rw [is] at fills
    exact State.Reads.trans fills (State.foldFor_reads t _ _)
  · next c t is =>
    rw [is] at fills
    exact fills

theorem State.vaTouch_buffers (noRed : s.redWords = []) (v : Via) (va n : Nat) (kind : AccKind) :
    s.vaTouch v va n kind = { s with tiles := (s.vaTouch v va n kind).tiles, rows := (s.vaTouch v va n kind).rows } := by
  unfold State.vaTouch
  generalize pagesOf va n = ps
  induction ps generalizing s with
  | nil => rfl
  | cons q r ih =>
    have fills := s.engineLoc_buffers v.tile v.ptroot v.sup q.1 kind
    rw [List.foldl_cons]
    split
    · next p t is =>
      rw [is] at fills
      dsimp only at fills
      have none_ : t.redWords = [] := by rw [fills, noRed]
      rw [State.foldFor_noRed none_, ih t none_, fills]
    · next c t is =>
      rw [is] at fills
      dsimp only at fills
      rw [ih t (by rw [fills, noRed]), fills]

end

/-! ## What writes of engines leave -/

section
variable (s : State)

theorem State.cells_portPut (sup : Bool) (off : Nat) (v : Word) : (s.portPut sup off v).cells = s.cells := by
  unfold State.portPut
  dsimp only
  split
  · split
    · unfold State.commitTicket
      dsimp only
      split <;> rfl
    · split
      · rfl
      · split
        · rfl
        · split
          · split <;> rfl
          · split <;> rfl
  · split
    · split <;> rfl
    · rfl

theorem State.cells_pokeWord (writer : Option SlotId) (sup : Bool) (l : Loc) (bs : List Byte) : (s.pokeWord writer sup l bs).cells = s.cells := by
  unfold State.pokeWord
  split
  · split
    · unfold State.setSem
      rw [(State.told_notifyLine _ _ _).rest]
      rfl
    · rfl
  · dsimp only
    split
    · rfl
    · exact s.cells_portPut _ _ _
  · rfl

theorem State.cells_poke (writer : Option SlotId) (sup : Bool) (l : Loc) (bs : List Byte) (cls op : Nat) :
    (s.poke writer sup l bs cls op).cells = s.cells := by
  have words : ∀ ps : List (Nat × List Byte), (ps.foldl (fun s p => s.pokeWord writer sup ⟨thisDev, p.1⟩ p.2) s).cells = s.cells := fun ps =>
    List.foldlRecOn ps (motive := fun t : State => t.cells = s.cells) _ rfl fun t same p _ => (t.cells_pokeWord _ _ _ _).trans same
  have stored (sh : List (Nat × Nat)) : ((s.foldFor l bs.length).store writer l.addr bs cls op sh).cells = s.cells := by
    rw [((s.foldFor_reads l bs.length).trans (State.store_reads _ writer l.addr bs cls op sh) : s.Reads _)]
  unfold State.poke
  split
  · rfl
  · split
    · exact stored _
    · exact stored _
    · exact words _
    · exact words _
    · rfl

theorem State.cells_zeroRange (v : Via) (va len : Nat) : (s.zeroRange v va len).cells = s.cells := by
  unfold State.zeroRange
  generalize (List.replicate len (0 : Byte)) = bs
  induction bs generalizing s va with
  | nil => rfl
  | cons b r ih =>
    rw [State.vaWrite, ih]
    split
    · exact s.cells_poke _ _ _ _ _ _
    · rfl

end

/-! ## Dispatch (R285, R286) -/

/-- The device `t`, with the command that was dispatched from `s` in its list. -/
def State.noted (s t : State) (n : Nat) (w : List Nat) (at_ : Option Loc) (res : Option Word) (lid : Nat) : State :=
  { t with commands := t.commands ++ [⟨s.nextId, n, (s.ring n).head, w.getD 0 0 / 2 ^ 56, at_, res, lid⟩] }

/-- What a command's own checks and action come to, of a dispatch from `s`. -/
def State.concludes (s : State) (n : Nat) (w : List Nat) (at_ : Option Loc) : CmdEnd → State
  | .waits => s
  | .refused t st c k => s.noted t n w at_ (some (statusWord st c k 0)) noLaunch
  | .done t v => s.noted t n w at_ (some (statusWord 1 0 0 v)) noLaunch
  | .started t lid => s.noted t n w at_ none lid

section
variable {s : State} {n : Nat} {w : List Nat} {at_ : Option Loc} (may : Dispatchable s n w at_) {sel : List Nat → Bool} (takes : sel w = true)
include may takes

theorem State.dispatch_may (act : Cmd → State → CmdEnd) : s.dispatch n sel act =
    if cmdReserved w || !cmdKnown w || fieldBad w then s.noted (dispatched s n w) n w at_ (some (statusWord 0x81 0 0 0)) noLaunch
    else if opcOf w = 4 && !(s.ring n).priv then s.noted (dispatched s n w) n w at_ (some (statusWord 0x82 0 0 0)) noLaunch
    else s.concludes n w at_ (act ⟨(s.ring n).rasid, w, s.nextId⟩ (dispatched s n w)) := by
  obtain ⟨num, on, head, wait, turn, ⟨ready, alive, idle⟩, compl⟩ := may
  obtain ⟨p, found, words⟩ := Option.map_eq_some_iff.mp head
  have ticket : p.1 = (s.ring n).head := by simpa using List.find?_some found
  have free : (decide (w.getD 0 0 / 2 ^ 52 % 2 = 1) && s.commands.any fun c => c.ring = n) = false := by
    rcases wait with clear | none_
    · rw [clear]
      rfl
    · simp only [Bool.and_eq_false_iff, List.any_eq_false]
      exact .inr fun c hc => by simp [none_ c hc]
  unfold State.dispatch
  dsimp only
  rw [found]
  dsimp only
  rw [words, if_neg (by simp only [num, on, takes, free, turn, ready, alive, idle]; decide)]
  rcases compl with ⟨zero, rfl⟩ | ⟨some_, aligned, passes, q, rfl, place⟩
  · simp only [dispatched, zero, ticket]
    rfl
  · have filled := s.vaFill_buffers (s.spaceVia (s.ring n).rasid) (w.getD 1 0 % 2 ^ 56) 8 .write
    have aligned_ : w.getD 1 0 % 2 ^ 56 % 8 = 0 := by omega
    rw [State.cmdVia, if_neg (by simp only [passes, Bool.and_false]; exact Bool.false_ne_true)]
    obtain ⟨t, isT⟩ : ∃ t, t = s.vaFill (s.spaceVia (s.ring n).rasid) (w.getD 1 0 % 2 ^ 56) 8 .write := ⟨_, rfl⟩
    have nextId : t.nextId = s.nextId := by rw [isT, filled]
    simp only [dispatched, aligned_, some_, place, ticket, ← isT, nextId, bne_self_eq_false, if_false, decide_false, Bool.or_false, Bool.false_eq_true, Except.map]
    rfl

/-- A command that sets a reserved bit, or that names nothing, is refused with 0x81. -/
theorem dispatch_illegal (act : Cmd → State → CmdEnd) (bad : (cmdReserved w || !cmdKnown w || fieldBad w) = true) :
    (.next (s.dispatch n sel act) : Host.Outcome State Fault Refusal) = commanded s (dispatched s n w) n w at_ (some 0x81) 4096 := by
  rw [State.dispatch_may may takes, if_pos bad]
  rfl

/-- One that names an operation, without a reserved bit set, is that operation's; a firmware operation wants PRIV. -/
theorem dispatch_legal (act : Cmd → State → CmdEnd) (good : (cmdReserved w || !cmdKnown w || fieldBad w) = false)
    (priv : (decide (opcOf w = 4) && !(s.ring n).priv) = false) :
    (.next (s.dispatch n sel act) : Host.Outcome State Fault Refusal)
      = .next (s.concludes n w at_ (act ⟨(s.ring n).rasid, w, s.nextId⟩ (dispatched s n w))) := by
  rw [State.dispatch_may may takes, if_neg (by rw [good]; exact Bool.false_ne_true), if_neg (by rw [priv]; exact Bool.false_ne_true)]

theorem dispatch_unprivileged (act : Cmd → State → CmdEnd) (good : (cmdReserved w || !cmdKnown w || fieldBad w) = false) (opc : opcOf w = 4)
    (plain : (s.ring n).priv = false) :
    (.next (s.dispatch n sel act) : Host.Outcome State Fault Refusal) = commanded s (dispatched s n w) n w at_ (some 0x82) 4096 := by
  rw [State.dispatch_may may takes, if_neg (by rw [good]; exact Bool.false_ne_true), if_pos (by rw [opc, plain]; rfl)]
  rfl

end

theorem concludes_refused (s t : State) (n : Nat) (w : List Nat) (at_ : Option Loc) (st c k : Nat) :
    (.next (s.concludes n w at_ (.refused t st c k)) : Host.Outcome State Fault Refusal)
      = commanded s t n w at_ (some (st + 2 ^ 8 * c + 2 ^ 16 * k)) 4096 := rfl

theorem concludes_done (s t : State) (n : Nat) (w : List Nat) (at_ : Option Loc) (v : Nat) :
    (.next (s.concludes n w at_ (.done t v)) : Host.Outcome State Fault Refusal) = commanded s t n w at_ (some (1 + 2 ^ 32 * v)) 4096 := by
  show Host.Outcome.next (s.noted t n w at_ (some (BitVec.ofNat 64 (1 + 2 ^ 8 * 0 + 2 ^ 16 * 0 + 2 ^ 32 * v))) noLaunch) = _
  rw [show 1 + 2 ^ 8 * 0 + 2 ^ 16 * 0 + 2 ^ 32 * v = 1 + 2 ^ 32 * v by omega]
  rfl

theorem concludes_started (s t : State) (n : Nat) (w : List Nat) (at_ : Option Loc) :
    (.next (s.concludes n w at_ (.started t noLaunch)) : Host.Outcome State Fault Refusal) = commanded s t n w at_ none 4096 := rfl

/-! ## The device in which a command is judged -/

/-- Its ring and the translation buffers apart, the device is as it was. -/
theorem dispatched_rest (s : State) (n : Nat) (w : List Nat) : ∃ tiles rows round rings k,
    dispatched s n w = { s with tiles := tiles, rows := rows, roundRings := round, cmdRings := rings, nextId := k } := by
  have fills : ∃ tiles rows, (if w.getD 1 0 % 2 ^ 56 = 0 then s else s.vaFill (s.spaceVia (s.ring n).rasid) (w.getD 1 0 % 2 ^ 56) 8 .write)
      = { s with tiles := tiles, rows := rows } := by
    split
    · exact ⟨s.tiles, s.rows, rfl⟩
    · exact ⟨_, _, s.vaFill_buffers _ _ _ _⟩
  obtain ⟨tiles, rows, is⟩ := fills
  rw [dispatched, is]
  exact ⟨tiles, rows, _, _, _, rfl⟩

/-! ## What is refused before the operation is looked at -/

section
variable {w : List Nat}

theorem cmdReserved_clean : cmdReserved w = false ↔ w.getD 0 0 % 2 ^ 50 = 0 ∧ w.getD 1 0 / 2 ^ 56 = 0 := by
  rw [cmdReserved, Bool.or_eq_false_iff, bne_eq_false_iff_eq, bne_eq_false_iff_eq]

theorem cmdKnown_iff : cmdKnown w = true ↔ (1 ≤ opcOf w ∧ opcOf w ≤ 7) ∧ (opcOf w = 4 → 1 ≤ fopOf w ∧ fopOf w ≤ 6) := by
  by_cases four : opcOf w = 4 <;> simp [cmdKnown, four]

theorem fieldBad_iff : fieldBad w = true ↔ opcOf w = 4 ∧ fopOf w = 5 ∧ 1536 ≤ w.getD 3 0 := by
  simp only [fieldBad, Bool.and_eq_true, decide_eq_true_eq]
  exact and_assoc

/-- A firmware operation without a reserved bit set, of which no field is out of its range. -/
theorem fop_good {k : Nat} (clean : w.getD 0 0 % 2 ^ 50 = 0 ∧ w.getD 1 0 / 2 ^ 56 = 0) (opc : opcOf w = 4) (fop : fopOf w = k) (some_ : 1 ≤ k) (last : k ≤ 6)
    (inside : k = 5 → w.getD 3 0 < 1536) : (cmdReserved w || !cmdKnown w || fieldBad w) = false := by
  have known : cmdKnown w = true := cmdKnown_iff.mpr ⟨by omega, fun _ => by omega⟩
  have fields : fieldBad w = false := Bool.eq_false_iff.mpr fun bad => by
    obtain ⟨-, five, large⟩ := fieldBad_iff.mp bad
    have := inside (fop.symm.trans five)
    omega
  rw [cmdReserved_clean.mpr clean, known, fields]
  rfl

end

/-- Each firmware operation is dispatched by its FOP. -/
theorem exec_fop {n : Nat} {q : Instr × Nat}
    (mem : q ∈ [(Instr.sheetnew n, 1), (.cellnew n, 2), (.sheetend n, 3), (.launchend n, 4), (.fwopSelftest n, 5), (.turnarm n, 6)]) (s : State) :
    (1 ≤ q.2 ∧ q.2 ≤ 6) ∧ ∃ act, exec q.1 s = .next (s.dispatch n (fopIs q.2) act) := by
  simp only [List.mem_cons, List.not_mem_nil, or_false] at mem
  rcases mem with rfl | rfl | rfl | rfl | rfl | rfl <;> exact ⟨⟨by simp, by simp⟩, _, rfl⟩

/-- The other commands that start work are dispatched by their OPC. -/
theorem exec_opc {n : Nat} {q : Instr × Nat} (mem : q ∈ [(Instr.launch n, 1), (.commit n, 2), (.bind n, 3), (.reduce n, 6)]) (s : State) :
    ∃ act, exec q.1 s = .next (s.dispatch n (fun w => opcOf w = q.2) act) := by
  simp only [List.mem_cons, List.not_mem_nil, or_false] at mem
  rcases mem with rfl | rfl | rfl | rfl <;> exact ⟨_, rfl⟩

theorem fopIs_iff {k : Nat} {w : List Nat} : fopIs k w = true ↔ opcOf w = 4 ∧ fopOf w = k := by
  rw [fopIs, Bool.and_eq_true, decide_eq_true_eq, decide_eq_true_eq]

/-! ## The firmware operations (R289, Table 14.9) -/

section
variable {s : State} {n : Nat} {w : List Nat} {at_ : Option Loc} (may : Dispatchable s n w at_)
variable (clean : w.getD 0 0 % 2 ^ 50 = 0 ∧ w.getD 1 0 / 2 ^ 56 = 0) (opc : opcOf w = 4) (priv : (s.ring n).priv = true)

theorem priv_passes (priv : (s.ring n).priv = true) : (decide (opcOf w = 4) && !(s.ring n).priv) = false := by rw [priv, Bool.not_true, Bool.and_false]

include may clean opc priv

/-- A firmware operation that is not refused before it is looked at. -/
theorem dispatch_fop {k : Nat} (fop : fopOf w = k) (some_ : 1 ≤ k) (last : k ≤ 6) (inside : k = 5 → w.getD 3 0 < 1536) (act : Cmd → State → CmdEnd) :
    (.next (s.dispatch n (fopIs k) act) : Host.Outcome State Fault Refusal)
      = .next (s.concludes n w at_ (act ⟨(s.ring n).rasid, w, s.nextId⟩ (dispatched s n w))) :=
  dispatch_legal may (fopIs_iff.mpr ⟨opc, fop⟩) act (fop_good clean opc fop some_ last inside) (priv_passes priv)

theorem exec_sheetnew_refused (fop : fopOf w = 1) (bad : 2 ^ 12 ≤ w.getD 3 0 ∨ ((dispatched s n w).sheet? (w.getD 3 0)).isSome = true) :
    exec (.sheetnew n) s = commanded s (dispatched s n w) n w at_ (some (0x84 + 2 ^ 8 + 12 * 2 ^ 16)) 4096 := by
  refine ((dispatch_fop may clean opc priv fop (by decide) (by decide) (by omega) _).trans ?_).trans (concludes_refused s (dispatched s n w) n w at_ 0x84 1 12)
  by_cases large : w.getD 3 0 < 2 ^ 12
  · simp only [Cmd.word, sheetField, large, bad.resolve_left (by omega), if_true]
  · simp only [Cmd.word, sheetField, large, if_false]

theorem exec_sheetnew_done (fop : fopOf w = 1) (small : w.getD 3 0 < 2 ^ 12) (new : (dispatched s n w).sheet? (w.getD 3 0) = none) :
    exec (.sheetnew n) s = commanded s (({ dispatched s n w with sheets := (dispatched s n w).sheets ++ [⟨w.getD 3 0, 1, 1, [], [], [], none⟩] } : State).notifyLine
      none ⟨sheetDev, w.getD 3 0⟩) n w at_ (some 1) 4096 := by
  refine ((dispatch_fop may clean opc priv fop (by decide) (by decide) (by omega) _).trans ?_).trans (concludes_done s _ n w at_ 0)
  simp only [Cmd.word, sheetField, small, if_true, new, Option.isSome_none, Bool.false_eq_true, if_false]

theorem exec_sheetend_refused (fop : fopOf w = 3) (bad : 2 ^ 12 ≤ w.getD 3 0 ∨ (dispatched s n w).sheet? (w.getD 3 0) = none) :
    exec (.sheetend n) s = commanded s (dispatched s n w) n w at_ (some (0x84 + 2 ^ 8 + 12 * 2 ^ 16)) 4096 := by
  refine ((dispatch_fop may clean opc priv fop (by decide) (by decide) (by omega) _).trans ?_).trans (concludes_refused s (dispatched s n w) n w at_ 0x84 1 12)
  by_cases large : w.getD 3 0 < 2 ^ 12
  · simp only [Cmd.word, sheetField, large, bad.resolve_left (by omega), if_true, Option.bind_some]
  · simp only [Cmd.word, sheetField, large, if_false, Option.bind_none]

theorem exec_sheetend_starts (fop : fopOf w = 3) {sh : Sheet} (small : w.getD 3 0 < 2 ^ 12) (there : (dispatched s n w).sheet? (w.getD 3 0) = some sh)
    (lives : sh.ending = none) :
    exec (.sheetend n) s = commanded s
      { dispatched s n w with sheets := (dispatched s n w).sheets.map fun x => if x.num = sh.num then { x with ending := some s.nextId } else x }
      n w at_ none 4096 := by
  refine ((dispatch_fop may clean opc priv fop (by decide) (by decide) (by omega) _).trans ?_).trans (concludes_started s _ n w at_)
  simp only [Cmd.word, sheetField, small, if_true, Option.bind_some, there, lives, Option.isSome_none, Bool.false_eq_true, if_false]
  rfl

theorem exec_launchend (fop : fopOf w = 4) :
    ((∀ l ∈ s.launches, l.lid ≠ w.getD 3 0) → exec (.launchend n) s = commanded s (dispatched s n w) n w at_ (some 0x85) 4096)
    ∧ ((∃ l ∈ s.launches, l.lid = w.getD 3 0) →
      exec (.launchend n) s = commanded s ((dispatched s n w).endLaunch (w.getD 3 0) 2) n w at_ (some 1) 4096) := by
  have launches : (dispatched s n w).launches = s.launches := by
    obtain ⟨tiles, rows, round, rings, k, is⟩ := dispatched_rest s n w
    rw [is]
  constructor
  · intro gone
    refine ((dispatch_fop may clean opc priv fop (by decide) (by decide) (by omega) _).trans ?_).trans (concludes_refused s (dispatched s n w) n w at_ 0x85 0 0)
    rw [if_neg (by rw [launches]; simpa [Cmd.word] using gone)]
  · rintro ⟨l, mem, lid⟩
    refine ((dispatch_fop may clean opc priv fop (by decide) (by decide) (by omega) _).trans ?_).trans (concludes_done s _ n w at_ 0)
    rw [if_pos (by rw [launches]; exact List.any_eq_true.mpr ⟨l, mem, decide_eq_true lid⟩)]
    rfl

theorem exec_fwopSelftest_busy (fop : fopOf w = 5) (inside : w.getD 3 0 < 1536) (busy : (dispatched s n w).holdsLaunch (w.getD 3 0) = true
      ∨ ((dispatched s n w).tile (w.getD 3 0)).testing = true ∨ ((dispatched s n w).tile (w.getD 3 0)).fenced = true) :
    exec (.fwopSelftest n) s = commanded s (dispatched s n w) n w at_ (some (1 + 2 ^ 62)) 4096 := by
  refine ((dispatch_fop may clean opc priv fop (by decide) (by decide) (fun _ => inside) _).trans ?_).trans
    (concludes_done s (dispatched s n w) n w at_ (2 ^ 30))
  refine congrArg (fun e => Host.Outcome.next (s.concludes n w at_ e)) (if_pos ?_)
  simpa only [Cmd.word, Bool.or_eq_true, or_assoc] using busy

theorem exec_fwopSelftest_starts (fop : fopOf w = 5) (inside : w.getD 3 0 < 1536) (free : (dispatched s n w).holdsLaunch (w.getD 3 0) = false)
    (idle : ((dispatched s n w).tile (w.getD 3 0)).testing = false) (open_ : ((dispatched s n w).tile (w.getD 3 0)).fenced = false) :
    exec (.fwopSelftest n) s = commanded s ((dispatched s n w).setTile (w.getD 3 0)
      { (dispatched s n w).tile (w.getD 3 0) with testing := true, testCmd := some s.nextId, testMask := 0x3FF, testFail := 0 }) n w at_ none 4096 := by
  refine ((dispatch_fop may clean opc priv fop (by decide) (by decide) (fun _ => inside) _).trans ?_).trans (concludes_started s _ n w at_)
  refine congrArg (fun e => Host.Outcome.next (s.concludes n w at_ e)) ((if_neg ?_).trans rfl)
  simp only [Cmd.word, free, idle, open_]
  decide

/-! ### TURNARM -/

section
variable (fop : fopOf w = 6) {t : State} (touched : t = (dispatched s n w).vaTouch ((dispatched s n w).spaceVia (s.ring n).rasid) (w.getD 4 0) 128 .read)
variable (reached : (dispatched s n w).reaches ((dispatched s n w).spaceVia (s.ring n).rasid) (w.getD 4 0) 128 .read = true)
include fop touched reached

theorem exec_turnarm_unread {e : Nat} (fails : t.cmdWords ((dispatched s n w).spaceVia (s.ring n).rasid) (w.getD 4 0) 8 16 = .error e) :
    exec (.turnarm n) s = commanded s t n w at_ (some (0x83 + 2 ^ 8 * e)) 4096 := by
  refine ((dispatch_fop may clean opc priv fop (by decide) (by decide) (by omega) _).trans ?_).trans (concludes_refused s t n w at_ 0x83 e 0)
  simp only [Cmd.word, State.cmdVia, reached, Bool.not_true, Bool.false_eq_true, if_false, ← touched, fails]

variable {v : List Nat} (image : t.cmdWords ((dispatched s n w).spaceVia (s.ring n).rasid) (w.getD 4 0) 8 16 = .ok v)

omit may clean opc priv fop reached in
theorem turnout_touched (k : Nat) : t.turnout k = s.turnout k := by
  have turnouts : t.turnouts = s.turnouts := by
    obtain ⟨tiles, rows, round, rings, k, is⟩ := dispatched_rest s n w
    rw [touched, (State.vaTouch_reads _ _ _ _ _ : State.Reads _ _), is]
  rw [State.turnout, turnouts]
  rfl

include image

theorem exec_turnarm_refused (bad : 2 ^ 11 ≤ w.getD 3 0 ∨ ((s.turnout (w.getD 3 0)).v = true ∧ (s.turnout (w.getD 3 0)).armed = true)) :
    exec (.turnarm n) s = commanded s t n w at_ (some (0x84 + 2 ^ 8 + 12 * 2 ^ 16)) 4096 := by
  have old := turnout_touched touched (w.getD 3 0)
  refine ((dispatch_fop may clean opc priv fop (by decide) (by decide) (by omega) _).trans ?_).trans (concludes_refused s t n w at_ 0x84 1 12)
  by_cases small : w.getD 3 0 < 2 ^ 11
  · have armed := bad.resolve_left (by omega)
    simp only [Cmd.word, State.cmdVia, reached, Bool.not_true, Bool.false_eq_true, if_false, ← touched, image, turnoutField, small, if_true, old, armed,
      Bool.and_self]
  · simp only [Cmd.word, State.cmdVia, reached, Bool.not_true, Bool.false_eq_true, if_false, ← touched, image, turnoutField, small]

theorem exec_turnarm_arms (noRed : s.redWords = []) (small : w.getD 3 0 < 2 ^ 11)
    (free : (s.turnout (w.getD 3 0)).v = false ∨ (s.turnout (w.getD 3 0)).armed = false) :
    ∃ u : State, exec (.turnarm n) s = .next u ∧ unwritten s u ∧ u.turnout (w.getD 3 0) = turnoutOf v := by
  have old := turnout_touched touched (w.getD 3 0)
  have still : unwritten s t := by
    obtain ⟨tiles, rows, round, rings, k, is⟩ := dispatched_rest s n w
    rw [touched, State.vaTouch_buffers _ (by rw [is]; exact noRed), is]
    exact ⟨rfl, rfl⟩
  refine ⟨_, ((dispatch_fop may clean opc priv fop (by decide) (by decide) (by omega) _).trans ?_).trans
    (concludes_done s { t with turnouts := assocSet t.turnouts (w.getD 3 0) (turnoutOf v) } n w at_ 0), still, ?_⟩
  · have free : ((s.turnout (w.getD 3 0)).v && (s.turnout (w.getD 3 0)).armed) = false := Bool.and_eq_false_iff.mpr free
    simp only [Cmd.word, State.cmdVia, reached, Bool.not_true, Bool.false_eq_true, if_false, ← touched, image, turnoutField, small, if_true, old, free]
  · show (assocGet (assocSet t.turnouts (w.getD 3 0) (turnoutOf v)) (w.getD 3 0)).getD Turnout.initial = turnoutOf v
    rw [assocGet_assocSet, if_pos rfl, Option.getD_some]

end

/-! ### CELLNEW -/

section
variable (fop : fopOf w = 2) {via : Via} (isVia : via = (dispatched s n w).spaceVia (s.ring n).rasid) {len : Nat} (isLen : len = w.getD 4 0 % 2 ^ 32)
variable (reached0 : (dispatched s n w).reaches via (w.getD 5 0) len .write = true) (reached1 : (dispatched s n w).reaches via (w.getD 6 0) len .write = true)
variable {t : State} (touched : t = ((dispatched s n w).vaTouch via (w.getD 5 0) len .write).vaTouch via (w.getD 6 0) len .write)
include fop isVia isLen reached0 reached1 touched

theorem exec_cellnew_unplaced {e : Nat} (bad : t.rangeBad via (w.getD 5 0) len .write = some e
      ∨ (t.rangeBad via (w.getD 5 0) len .write = none ∧ t.rangeBad via (w.getD 6 0) len .write = some e)) :
    exec (.cellnew n) s = commanded s t n w at_ (some (0x83 + 2 ^ 8 * e)) 4096 := by
  refine ((dispatch_fop may clean opc priv fop (by decide) (by decide) (by omega) _).trans ?_).trans (concludes_refused s t n w at_ 0x83 e 0)
  rcases bad with first | ⟨good, second⟩
  · simp only [Cmd.word, State.cmdVia, ← isVia, ← isLen, reached0, reached1, Bool.not_true, Bool.or_self, Bool.false_eq_true, if_false, ← touched, first]
  · simp only [Cmd.word, State.cmdVia, ← isVia, ← isLen, reached0, reached1, Bool.not_true, Bool.or_self, Bool.false_eq_true, if_false, ← touched, good, second]

variable (placed0 : t.rangeBad via (w.getD 5 0) len .write = none) (placed1 : t.rangeBad via (w.getD 6 0) len .write = none)
include placed0 placed1

theorem exec_cellnew_refused (bad : 2 ^ 12 ≤ w.getD 3 0 / 2 ^ 32 ∨ 2 ^ 24 ≤ w.getD 3 0 % 2 ^ 32 ∨ t.sheet? (w.getD 3 0 / 2 ^ 32) = none
      ∨ (t.cell? (w.getD 3 0 % 2 ^ 32)).isSome = true) :
    exec (.cellnew n) s = commanded s t n w at_ (some (0x84 + 2 ^ 8 + 12 * 2 ^ 16)) 4096 := by
  refine ((dispatch_fop may clean opc priv fop (by decide) (by decide) (by omega) _).trans ?_).trans (concludes_refused s t n w at_ 0x84 1 12)
  simp only [Cmd.word, State.cmdVia, ← isVia, ← isLen, reached0, reached1, Bool.not_true, Bool.or_self, Bool.false_eq_true, if_false, ← touched, placed0, placed1]
  by_cases fits : w.getD 3 0 / 2 ^ 32 < 2 ^ 12 ∧ w.getD 3 0 % 2 ^ 32 < 2 ^ 24
  · have field : cellField (w.getD 3 0) = some (w.getD 3 0 / 2 ^ 32, w.getD 3 0 % 2 ^ 32) := if_pos (by simp only [fits, and_self, Bool.and_eq_true, decide_true])
    have taken : ((t.sheet? (w.getD 3 0 / 2 ^ 32)).isNone || (t.cell? (w.getD 3 0 % 2 ^ 32)).isSome) = true := by
      rcases bad with large | large | none_ | some_
      · omega
      · omega
      · rw [none_]
        rfl
      · rw [some_, Bool.or_true]
    rw [field]
    simp only [taken, if_true]
  · have field : cellField (w.getD 3 0) = none := if_neg (by simpa only [Bool.and_eq_true, decide_eq_true_eq] using fits)
    rw [field]

theorem exec_cellnew_makes (small : w.getD 3 0 / 2 ^ 32 < 2 ^ 12) (field : w.getD 3 0 % 2 ^ 32 < 2 ^ 24)
    (sheet : (t.sheet? (w.getD 3 0 / 2 ^ 32)).isSome = true) (new : t.cell? (w.getD 3 0 % 2 ^ 32) = none) (aligned0 : w.getD 5 0 % 64 = 0)
    (aligned1 : w.getD 6 0 % 64 = 0) :
    ∃ u : State, exec (.cellnew n) s = .next u ∧ u.mem = ((t.zeroRange via (w.getD 5 0) len).zeroRange via (w.getD 6 0) len).mem
      ∧ u.cells = s.cells ++ [Cell.new (w.getD 3 0 % 2 ^ 32) (w.getD 3 0 / 2 ^ 32) len (w.getD 5 0) (w.getD 6 0) (s.ring n).rasid] := by
  obtain ⟨x, isX⟩ : ∃ x, x = Cell.new (w.getD 3 0 % 2 ^ 32) (w.getD 3 0 / 2 ^ 32) len (w.getD 5 0) (w.getD 6 0) (s.ring n).rasid := ⟨_, rfl⟩
  obtain ⟨z, isZ⟩ : ∃ z : State, z = (t.zeroRange via (w.getD 5 0) len).zeroRange via (w.getD 6 0) len := ⟨_, rfl⟩
  obtain ⟨u, isU⟩ : ∃ u : State, u = { z.dropLags (inRanges (z.bufPieces x false ++ z.bufPieces x true)) fun _ => true with cells := z.cells ++ [x] } := ⟨_, rfl⟩
  have told := u.told_notifyLine none ⟨cellDev, w.getD 3 0 % 2 ^ 32⟩
  have cells : z.cells = s.cells := by
    obtain ⟨tiles, rows, round, rings, k, is⟩ := dispatched_rest s n w
    have reads : (dispatched s n w).Reads t := by
      rw [touched]
      exact (State.vaTouch_reads _ _ _ _ _).trans (State.vaTouch_reads _ _ _ _ _)
    rw [isZ, State.cells_zeroRange, State.cells_zeroRange, reads, is]
  refine ⟨_, ((dispatch_fop may clean opc priv fop (by decide) (by decide) (by omega) _).trans ?_).trans
    (concludes_done s (u.notifyLine none ⟨cellDev, w.getD 3 0 % 2 ^ 32⟩) n w at_ 0), ?_, ?_⟩
  · have field : cellField (w.getD 3 0) = some (w.getD 3 0 / 2 ^ 32, w.getD 3 0 % 2 ^ 32) := if_pos (by simp only [small, field, Bool.and_self, decide_true])
    have free : ((t.sheet? (w.getD 3 0 / 2 ^ 32)).isNone || (t.cell? (w.getD 3 0 % 2 ^ 32)).isSome) = false := by
      rw [new, Option.isNone_eq_false_iff.mpr sheet]
      rfl
    simp only [Cmd.word, State.cmdVia, ← isVia, ← isLen, reached0, reached1, Bool.not_true, Bool.or_self, Bool.false_eq_true, if_false, ← touched, placed0,
      placed1, field, free, aligned0, aligned1, bne_self_eq_false, ← isX, ← isZ]
    rw [isU]
    rfl
  · show (u.notifyLine none ⟨cellDev, w.getD 3 0 % 2 ^ 32⟩).mem = _
    rw [told.rest, isU, ← isZ]
    rfl
  · show (u.notifyLine none ⟨cellDev, w.getD 3 0 % 2 ^ 32⟩).cells = _
    rw [told.rest, isU, ← cells, ← isX]

end

end

/-- A buffer that starts above an address's 56 bits fails translation with 0x33 (R49). -/
theorem State.rangeBad_large (t : State) (via : Via) {va len : Nat} (large : 2 ^ 56 ≤ va) (some_ : 0 < len) (kind : AccKind) :
    t.rangeBad via va len kind = some 0x33 := by
  have place : t.viaLoc via va kind = .error 0x33 := by
    rw [State.viaLoc, State.engineLoc, if_pos large]
  have first : Nat.min (va + 0 * 2 ^ 16) (va + len - 1) = va := by
    show min _ _ = _
    omega
  rw [State.rangeBad, show len / 2 ^ 16 + 2 = (len / 2 ^ 16 + 1) + 1 from rfl, List.range_succ_eq_map, List.map_cons, List.findSome?_cons, first, place]

/-- A command whose COMPL cannot be written is dropped and counted (R286). -/
theorem exec_nop_unplaced {s : State} {n : Nat} {w : List Nat} (num : n < 64) (on : (s.ring n).on = true)
    (head : ((s.ring n).slots.find? fun p => p.1 = (s.ring n).head).map (fun p => p.2.map fun x => x.toNat) = some w) (opc : opcOf w = 7)
    (free : w.getD 0 0 / 2 ^ 52 % 2 = 0) (ready : s.ctl.ready = true) (alive : s.ctl.fatal = false) (idle : s.ctl.ckpt = none) (turn : s.ringTurn n = true)
    (odd : w.getD 1 0 % 8 ≠ 0) :
    exec (.nop n) s = .next ((s.serveRing n).putCmdRing { s.ring n with
      head := (s.ring n).head + 1
      slots := (s.ring n).slots.filter fun p => p.1 != (s.ring n).head
      errCount := (s.ring n).errCount + 1
      errLast := (s.ring n).head }) := by
  obtain ⟨p, found, words⟩ := Option.map_eq_some_iff.mp head
  have ticket : p.1 = (s.ring n).head := by simpa using List.find?_some found
  have odd_ : (w.getD 1 0 % 2 ^ 56 % 8 != 0) = true := bne_iff_ne.mpr (by omega)
  have asked : ¬ w.getD 1 0 % 2 ^ 56 = 0 := by omega
  have unaligned : ¬ w.getD 1 0 % 2 ^ 56 % 8 = 0 := by omega
  have takes : (decide (opcOf w = 7) || !cmdKnown w) = true := by rw [opc]; rfl
  have waits : (decide (w.getD 0 0 / 2 ^ 52 % 2 = 1) && s.commands.any fun c => c.ring = n) = false := by
    rw [free]
    rfl
  have untouched : ¬ (w.getD 1 0 % 2 ^ 56 != 0 && w.getD 1 0 % 2 ^ 56 % 8 = 0 && s.viaWaits (s.cmdVia (s.ring n).rasid) (w.getD 1 0 % 2 ^ 56) 8) = true := by
    rw [decide_eq_false unaligned, Bool.and_false, Bool.false_and]
    exact Bool.false_ne_true
  refine congrArg Host.Outcome.next ?_
  unfold State.dispatch
  dsimp only
  rw [found]
  dsimp only
  rw [words, if_neg (by simp only [num, on, takes, waits, turn, ready, alive, idle]; decide), if_neg untouched, if_neg asked, if_pos odd_, if_pos (by rw [odd_, Bool.or_true]), ticket]
  rfl

theorem State.ring_num (s : State) (n : Nat) : (s.ring n).num = n := by
  unfold State.ring
  cases found : s.cmdRings.find? fun r => r.num = n with
  | none => rfl
  | some r => simpa using List.find?_some found

theorem State.ring_putCmdRing_self (s : State) {n : Nat} {r : CmdRing} (num : r.num = n) : (s.putCmdRing r).ring n = r := by
  simp [State.ring, State.putCmdRing, num]

/-- Settles O56: dispatch judges the words of a command, and each operation then its own. -/
theorem firmwareCommands : Obligations.FirmwareCommands := by
  intro s n w at_
  refine ⟨fun may => ⟨fun clean opc => ?nop, fun unknown => ?unknown, fun dirty => ⟨fun opc => ?nopBad, fun q mem opc => ?opcBad, fun q mem opc fop => ?fopBad⟩,
    fun clean opc => ⟨fun fop large => ?tile, fun plain inside q mem fop => ?plain, fun priv => ⟨fun fop => ?sheetnew, fun fop => ?sheetend, fun fop => ?launchend,
      fun fop inside => ?selftest, fun fop reached => ?turnarm, fun fop => ?cellnew⟩⟩⟩, ?unplaced⟩
  case nop =>
    have opc : opcOf w = 7 := opc
    have known : cmdKnown w = true := cmdKnown_iff.mpr ⟨by omega, fun four => by omega⟩
    have fields : fieldBad w = false := Bool.eq_false_iff.mpr fun bad => by
      have := (fieldBad_iff.mp bad).1
      omega
    have good : (cmdReserved w || !cmdKnown w || fieldBad w) = false := by
      rw [cmdReserved_clean.mpr clean, known, fields]
      rfl
    refine ((dispatch_legal may (by rw [opc]; rfl) _ good (by rw [opc]; rfl)).trans ?_).trans (concludes_done s _ n w at_ 0)
    rfl
  case unknown =>
    have unknown : opcOf w = 0 ∨ 7 < opcOf w ∨ (opcOf w = 4 ∧ (fopOf w = 0 ∨ 6 < fopOf w)) := unknown
    have unknown : cmdKnown w = false := Bool.eq_false_iff.mpr fun known => by
      obtain ⟨⟨low, high⟩, four⟩ := cmdKnown_iff.mp known
      rcases unknown with zero | large | ⟨isFour, none_⟩
      · omega
      · omega
      · have := four isFour
        omega
    exact dispatch_illegal may (by rw [unknown, Bool.not_false, Bool.or_true]) _ (by rw [unknown, Bool.not_false, Bool.or_true, Bool.true_or])
  case nopBad =>
    have bad : cmdReserved w = true := Bool.eq_true_of_not_eq_false fun good => dirty (cmdReserved_clean.mp good)
    exact dispatch_illegal may (by rw [show opcOf w = 7 from opc]; rfl) _ (by rw [bad, Bool.true_or, Bool.true_or])
  case opcBad =>
    have bad : cmdReserved w = true := Bool.eq_true_of_not_eq_false fun good => dirty (cmdReserved_clean.mp good)
    obtain ⟨act, runs⟩ := exec_opc mem s
    exact runs.trans (dispatch_illegal may (decide_eq_true opc) act (by rw [bad, Bool.true_or, Bool.true_or]))
  case fopBad =>
    have bad : cmdReserved w = true := Bool.eq_true_of_not_eq_false fun good => dirty (cmdReserved_clean.mp good)
    obtain ⟨-, act, runs⟩ := exec_fop mem s
    exact runs.trans (dispatch_illegal may (fopIs_iff.mpr ⟨opc, fop⟩) act (by rw [bad, Bool.true_or, Bool.true_or]))
  case tile =>
    exact dispatch_illegal may (fopIs_iff.mpr ⟨opc, fop⟩) _ (by rw [fieldBad_iff.mpr ⟨opc, fop, large⟩, Bool.or_true])
  case plain =>
    obtain ⟨⟨some_, last⟩, act, runs⟩ := exec_fop mem s
    exact runs.trans (dispatch_unprivileged may (fopIs_iff.mpr ⟨opc, fop⟩) act
      (fop_good clean opc fop some_ last fun five => inside (fop.trans five)) opc plain)
  case sheetnew => exact ⟨exec_sheetnew_refused may clean opc priv fop, exec_sheetnew_done may clean opc priv fop⟩
  case sheetend =>
    exact ⟨exec_sheetend_refused may clean opc priv fop, fun sh small there lives => exec_sheetend_starts may clean opc priv fop small there lives⟩
  case launchend => exact exec_launchend may clean opc priv fop
  case selftest => exact ⟨exec_fwopSelftest_busy may clean opc priv fop inside, exec_fwopSelftest_starts may clean opc priv fop inside⟩
  case turnarm =>
    refine ⟨fun e fails => exec_turnarm_unread may clean opc priv fop rfl reached fails, fun v image =>
      ⟨exec_turnarm_refused may clean opc priv fop rfl reached image, fun noRed small free => ?_⟩⟩
    obtain ⟨u, runs, still, record⟩ := exec_turnarm_arms may clean opc priv fop rfl reached image noRed small free
    refine ⟨u, runs, still, by rw [record]; rfl, by rw [record]; rfl, fun i low => ?_⟩
    rw [record]
    simp [turnoutOf, Vector.getD, low]
  case cellnew =>
    refine fun reached0 reached1 => ⟨fun large some_ => ?_, fun e placed bad => ?_, fun placed0 placed1 => ⟨?_, ?_⟩⟩
    · exact exec_cellnew_unplaced may clean opc priv fop rfl rfl reached0 reached1 rfl (.inl (State.rangeBad_large _ _ large some_ _))
    · exact exec_cellnew_unplaced may clean opc priv fop rfl rfl reached0 reached1 rfl (.inr ⟨placed, bad⟩)
    · exact exec_cellnew_refused may clean opc priv fop rfl rfl reached0 reached1 rfl placed0 placed1
    · intro small field sheet new aligned0 aligned1
      obtain ⟨u, runs, mem, cells⟩ := exec_cellnew_makes may clean opc priv fop rfl rfl reached0 reached1 rfl placed0 placed1 small field sheet new aligned0 aligned1
      exact ⟨u, _, runs, mem, cells, rfl, rfl, rfl, rfl, rfl, rfl, rfl, rfl, rfl, rfl, rfl, rfl⟩
  case unplaced =>
    intro num on head opc free ready alive idle turn odd
    refine ⟨_, exec_nop_unplaced num on head opc free ready alive idle turn odd, ⟨rfl, rfl⟩, rfl, ?_⟩
    exact State.ring_putCmdRing_self _ (s.ring_num n)

end Sys2Proof.Machine
end

section
/-!
PROOF. The matrix words of the strand that owns the accumulator store (spec/09 R165 to R171, R180, R181, R184, R186, R187, Tables 9.1 to 9.3).
-/

namespace Sys2Proof.Machine

set_option Elab.async false

/-! ## The frame of a matrix word: the claim (R167) -/

/-- The engine as the strand that executes a matrix word finds it: its own, or a free one that it claims. -/
def Matrix.asOwned (e : Matrix) (uid : Nat) : Matrix := if e.owner.isSome then e else { Matrix.initial with owner := some uid }

/-- The state in which the executing strand owns its tile's engine. -/
def State.claims (s : State) (uid : Nat) : State := s.modTile s.cur.tile fun t => { t with mat := t.mat.claimed uid }

section
variable {s : State} {st : Strand}

theorem State.claims_engine (s : State) (uid : Nat) : (s.claims uid).engine = (s.tile s.cur.tile).mat.asOwned uid := by
  show ((s.claims uid).tile s.cur.tile).mat = _
  rw [State.claims, State.tile_modTile]
  rfl

theorem State.claims_here (here : s.strand? s.cur = some st) (uid : Nat) : (s.claims uid).strand? s.cur = some st :=
  (s.strand?_modTile_same s.cur s.cur.tile (f := fun t => { t with mat := t.mat.claimed uid }) fun _ => rfl).trans here

/-- The store is free, or the executing strand's own. -/
def State.mayOwn (s : State) (st : Strand) : Prop := (s.tile s.cur.tile).mat.owner = none ∨ (s.tile s.cur.tile).mat.owner = some st.uid

/-- A matrix word of the owner acts on the state in which it owns the store. -/
theorem State.matrix_owned {u : Uses} (clear : s.Clear st { u with aborts := true }) (m : Bool) (mine : s.mayOwn st) (body : Strand → State → Act) :
    s.matrix m u body = .next (s.finish s.cur m (body st (s.claims st.uid))) := by
  refine State.issue_body clear m (if_neg ?_)
  rcases mine with free | own
  · rw [free]
    exact Bool.false_ne_true
  · rw [own]
    simp

/-- A matrix word of another strand faults. -/
theorem State.matrix_foreign {u : Uses} (clear : s.Clear st { u with aborts := true }) (m : Bool) {k : Nat} (owner : (s.tile s.cur.tile).mat.owner = some k)
    (other : k ≠ st.uid) (body : Strand → State → Act) :
    s.matrix m u body = .next (s.faultTurn s.cur 4 (codeWord 0x30 0) st.regs.pc) :=
  State.issue_faults clear m (if_pos (by rw [owner]; simp [other]))

theorem State.matrix_faults {u : Uses} (clear : s.Clear st { u with aborts := true }) (m : Bool) (mine : s.mayOwn st) {body : Strand → State → Act}
    {detail : Word} (raises : body st (s.claims st.uid) = .fault 11 detail) : s.matrix m u body = .next (s.faultTurn s.cur 11 detail st.regs.pc) := by
  rw [State.matrix_owned clear m mine, raises, State.finish_faultTurn clear.here]
  rfl

/-- A word that leaves the engine as `good` wants it, and changes nothing else. -/
def State.becomesMat (s : State) (st : Strand) (m : Bool) (good : Matrix → Prop) (o : Host.Outcome State Fault Refusal) : Prop :=
  ∃ t : State, o = .next t ∧ good (t.tile s.cur.tile).mat ∧ t.strand? s.cur = some (st.after m (st.regs.pc + 4)) ∧ unwritten s t

theorem Tile.apart_mat : Tile.Apart Tile.mat := fun _ _ _ => rfl

/-- The word of an owner that completes with a changed engine. -/
theorem State.matrix_changes {u : Uses} (clear : s.Clear st { u with aborts := true }) (m : Bool) (mine : s.mayOwn st) {body : Strand → State → Act}
    {f : Matrix → Matrix} (comes : body st (s.claims st.uid) = .ok ((s.claims st.uid).modEngine f)) {good : Matrix → Prop}
    (is : good (f ((s.tile s.cur.tile).mat.asOwned st.uid))) : s.becomesMat st m good (s.matrix m u body) := by
  obtain ⟨t, isT⟩ : ∃ t : State, t = (s.claims st.uid).modEngine f := ⟨_, rfl⟩
  have here : t.strand? s.cur = some st := by
    rw [isT]
    exact ((s.claims st.uid).strand?_modTile_same s.cur s.cur.tile (f := fun t => { t with mat := f t.mat }) fun _ => rfl).trans (State.claims_here clear.here st.uid)
  have mat : (t.tile s.cur.tile).mat = f ((s.tile s.cur.tile).mat.asOwned st.uid) := by
    rw [isT, ← State.claims_engine]
    show (((s.claims st.uid).modTile s.cur.tile _).tile s.cur.tile).mat = _
    rw [State.tile_modTile]
    rfl
  have still : unwritten s t := by rw [isT]; exact ⟨rfl, rfl⟩
  rw [State.matrix_owned clear m mine, comes, ← isT, State.finish_ok here]
  refine ⟨_, rfl, ?_, State.strand?_setStrand .., still⟩
  rw [State.tile_setStrand_apart Tile.apart_mat, mat]
  exact is

end

/-! ## A snapshot of the records does not look at the engine's state -/

section
variable {s t : State} {x : SlotId} (rings : (t.tile x.tile).ringsAt = (s.tile x.tile).ringsAt) (resid : (t.tile x.tile).resid = (s.tile x.tile).resid)
  (st : Strand)
include rings resid

theorem State.ringCheckAt_congr (n : Nat) : t.ringCheckAt x st n = s.ringCheckAt x st n := by
  simp only [State.ringCheckAt, State.physRing, State.residOf, rings, resid]

theorem State.padAddr_congr (ea : Word) (len : Nat) : t.padAddr x st ea len = s.padAddr x st ea len := by
  simp only [State.padAddr, State.ringCheckAt_congr rings resid]

theorem State.matResolve_congr (base : Word) (len : Nat) : t.matResolve x st base len = s.matResolve x st base len := by
  simp only [State.matResolve, State.ringCheckAt_congr rings resid, State.padAddr_congr rings resid]

theorem State.matSnapshot_congr (r : Vector Rec 5) (gang : Bool) : t.matSnapshot x st r gang = s.matSnapshot x st r gang := by
  simp only [State.matSnapshot, State.matResolve_congr rings resid]

end

theorem State.claims_matSnapshot (s : State) (uid : Nat) (st : Strand) (r : Vector Rec 5) (gang : Bool) :
    (s.claims uid).matSnapshot s.cur st r gang = s.matSnapshot s.cur st r gang := by
  have tile : (s.claims uid).tile s.cur.tile = { s.tile s.cur.tile with mat := (s.tile s.cur.tile).mat.claimed uid } := State.tile_modTile ..
  exact State.matSnapshot_congr (by rw [tile]) (by rw [tile]) st r gang

/-! ## Pairs of the store (R166, R187) -/

namespace Matrix

theorem pair_zeroRows (e : Matrix) {f c r n : Nat} (col : n < 32) :
    (e.zeroRows f c).pair r n = if f ≤ r ∧ r < f + c then (0, 0) else e.pair r n := by
  have kept : assocGet (e.acc.filter fun p => !(decide (32 * f ≤ p.1) && decide (p.1 < 32 * (f + c)))) (32 * r + n)
      = if f ≤ r ∧ r < f + c then none else assocGet e.acc (32 * r + n) := by
    induction e.acc with
    | nil => simp [assocGet]
    | cons p l ih =>
      rw [List.filter_cons]
      split
      · next stays =>
        rw [assocGet, assocGet, ih]
        by_cases here : p.1 = 32 * r + n
        · have out : ¬ (f ≤ r ∧ r < f + c) := by
            simp only [Bool.not_eq_true', Bool.and_eq_false_iff, decide_eq_false_iff_not] at stays
            omega
          rw [if_pos here, if_pos here, if_neg out]
        · rw [if_neg here, if_neg here]
      · next goes =>
        rw [ih]
        split
        · rfl
        · next out =>
          have here : p.1 ≠ 32 * r + n := by
            simp only [Bool.not_eq_true', Bool.and_eq_false_iff, decide_eq_false_iff_not] at goes
            omega
          rw [assocGet, if_neg here]
  rw [Matrix.pair, Matrix.zeroRows, kept]
  split <;> rfl

theorem pair_setPair (e : Matrix) {r n r' n' : Nat} (col : n < 32) (col' : n' < 32) (p : BitVec 32 × BitVec 32) :
    (e.setPair r n p).pair r' n' = if r' = r ∧ n' = n then p else e.pair r' n' := by
  have key : (32 * r' + n' = 32 * r + n) ↔ (r' = r ∧ n' = n) := by omega
  rw [Matrix.pair, Matrix.setPair]
  split
  · next zero =>
    rw [assocGet_filter_key]
    by_cases same : r' = r ∧ n' = n
    · rw [if_pos (key.mpr same), if_pos same, zero]
      rfl
    · rw [if_neg (fun h => same (key.mp h)), if_neg same]
      rfl
  · rw [assocGet_assocSet]
    by_cases same : r' = r ∧ n' = n
    · rw [if_pos (key.mpr same).symm, if_pos same]
      rfl
    · rw [if_neg (fun h => same (key.mp h.symm)), if_neg same]
      rfl

/-- The pair that mwr leaves where it writes one half. -/
def written (e : Matrix) (row : Nat) (low : Bool) (v : V128) (n : Nat) : BitVec 32 × BitVec 32 :=
  if low then ((e.pair row n).1, BitVec.ofNat 32 (V128.elem v 4 n)) else (BitVec.ofNat 32 (V128.elem v 4 n), (e.pair row n).2)

theorem pair_writeRow (e : Matrix) (row : Nat) (low : Bool) (v : V128) {r n : Nat} (col : n < 32) :
    (e.writeRow row low v).pair r n = if r = row then e.written row low v n else e.pair r n := by
  have upto (k : Nat) (few : k ≤ 32) (e' : Matrix) (n : Nat) (col : n < 32) (r : Nat) :
      ((List.range k).foldl (fun (m : Matrix) n =>
        m.setPair row n (if low then ((m.pair row n).1, BitVec.ofNat 32 (V128.elem v 4 n)) else (BitVec.ofNat 32 (V128.elem v 4 n), (m.pair row n).2))) e').pair r n
        = if r = row ∧ n < k then e'.written row low v n else e'.pair r n := by
    induction k generalizing n r with
    | zero => simp
    | succ k ih =>
      rw [List.range_succ, List.foldl_append, List.foldl_cons, List.foldl_nil, pair_setPair _ (by omega) col, ih (by omega) n col r,
        ih (by omega) k (by omega) row]
      by_cases here : r = row ∧ n = k
      · obtain ⟨rfl, rfl⟩ := here
        simp [written]
      · rw [if_neg here]
        by_cases before : r = row ∧ n < k
        · rw [if_pos before, if_pos ⟨before.1, by omega⟩]
        · rw [if_neg before, if_neg (by omega)]
  have all := upto 32 (by decide) { e with badPairs := e.badPairs.filter fun p => !(p.1 / 32 = row && p.2 = low) } n col r
  by_cases here : r = row
  · rw [if_pos ⟨here, col⟩] at all
    rw [if_pos here]
    exact all
  · rw [if_neg fun h => here h.1] at all
    rw [if_neg here]
    exact all

theorem opsLeft_zero {e : Matrix} : e.opsLeft = 0 ↔ e.running = none ∧ e.pending = none := by
  unfold opsLeft
  cases e.running <;> cases e.pending <;> simp

end Matrix

/-! ## Records, zeroed and written rows (R168, R186, R187) -/

section
variable {s : State} {st : Strand} {m : Bool} {d a b : Spec}

theorem setRec_becomes (clear : s.Clear st { useAB0 a b with aborts := true }) (mine : s.mayOwn st) (k : Nat) :
    s.becomesMat st m (fun e => e = { (s.tile s.cur.tile).mat.asOwned st.uid with
      recs := ((s.tile s.cur.tile).mat.asOwned st.uid).recs.setIfInBounds k ⟨st.rs a, st.rs b⟩ }) (s.setRec m k a b) :=
  State.matrix_changes clear m mine (f := fun e => { e with recs := e.recs.setIfInBounds k ⟨st.rs a, st.rs b⟩ }) rfl rfl

theorem setRec_foreign (clear : s.Clear st { useAB0 a b with aborts := true }) {k : Nat} (owner : (s.tile s.cur.tile).mat.owner = some k) (other : k ≠ st.uid)
    (n : Nat) : s.setRec m n a b = .next (s.faultTurn s.cur 4 (BitVec.ofNat 64 (0x30 * 2 ^ 56)) st.regs.pc) := by
  unfold State.setRec
  exact State.matrix_foreign clear m owner other _

/-- The words that set a pointer record. -/
theorem exec_rec {q : Instr × Nat}
    (mem : q ∈ [(Instr.mptrOpa m a b, 0), (.mptrOpb m a b, 1), (.msclOpa m a b, 2), (.msclOpb m a b, 3), (.mspar m a b, 4)]) :
    exec q.1 s = s.setRec m q.2 a b := by
  simp only [List.mem_cons, List.not_mem_nil, or_false] at mem
  rcases mem with rfl | rfl | rfl | rfl | rfl <;> rfl

section
variable (mine : s.mayOwn st) (idle : ((s.tile s.cur.tile).mat.asOwned st.uid).opsLeft = 0)

/-- The fault 0x0A of a row that is out of range. -/
theorem codeWord_row (n : Nat) : codeWord 10 (n % 2 ^ 48) = BitVec.ofNat 64 (10 * 2 ^ 56 + n % 2 ^ 48) := by
  rw [codeWord, Nat.mod_eq_of_lt (a := n % 2 ^ 48) (by omega), show 0x100000000000000 = 2 ^ 56 from rfl]

section
variable (clear : s.Clear st { srcs := [(0, false, a)], aborts := true })
include clear mine idle

theorem exec_mzero_becomes (small : (st.rs a).toNat < 2 ^ 16) (inside : (st.rs a).toNat % 256 + (st.rs a).toNat / 256 % 256 ≤ 192) :
    s.becomesMat st m (fun e => e = ((s.tile s.cur.tile).mat.asOwned st.uid).zeroRows ((st.rs a).toNat % 256) ((st.rs a).toNat / 256 % 256))
      (exec (.mzero m a) s) := by
  unfold exec execMzero
  refine State.matrix_changes (u := { srcs := [(0, false, a)] }) clear m mine ?_ (f := fun e => e.zeroRows ((st.rs a).toNat % 256) ((st.rs a).toNat / 256 % 256)) rfl
  dsimp only
  rw [State.claims_engine, if_neg (by rw [idle]; decide), if_neg ?_]
  simp only [Bool.or_eq_true, bne_iff_ne, decide_eq_true_eq]
  omega

theorem exec_mzero_faults (bad : 2 ^ 16 ≤ (st.rs a).toNat ∨ 192 < (st.rs a).toNat % 256 + (st.rs a).toNat / 256 % 256) :
    exec (.mzero m a) s = .next (s.faultTurn s.cur 11 (BitVec.ofNat 64 (10 * 2 ^ 56 + (st.rs a).toNat % 2 ^ 48)) st.regs.pc) := by
  rw [← codeWord_row]
  unfold exec execMzero
  refine State.matrix_faults (u := { srcs := [(0, false, a)] }) clear m mine ?_
  dsimp only
  rw [State.claims_engine, if_neg (by rw [idle]; decide), if_pos ?_, rowFault]
  simp only [Bool.or_eq_true, bne_iff_ne, decide_eq_true_eq]
  omega

end

include mine idle in
theorem exec_mwr_becomes (clear : s.Clear st { srcs := [(0, false, a), (1, true, b)], aborts := true }) (small : (st.rs a).toNat < 2 ^ 9)
    (inside : (st.rs a).toNat % 256 ≤ 191) :
    s.becomesMat st m (fun e => e = ((s.tile s.cur.tile).mat.asOwned st.uid).writeRow ((st.rs a).toNat % 256) ((st.rs a).getLsbD 8) (st.rv b))
      (exec (.mwr m a b) s) := by
  unfold exec execMwr
  refine State.matrix_changes (u := { srcs := [(0, false, a), (1, true, b)] }) clear m mine ?_ (f := fun e => e.writeRow ((st.rs a).toNat % 256) ((st.rs a).getLsbD 8) (st.rv b)) rfl
  dsimp only
  rw [State.claims_engine, if_neg (by rw [idle]; decide), if_neg ?_]
  simp only [Bool.or_eq_true, bne_iff_ne, decide_eq_true_eq]
  omega

end

/-! ## Rows read (R181, R187) -/

/-- The state in which a row of the engine returns to the vector register d as a result that is ready. -/
theorem State.sendValue_long {t : State} (x : SlotId) (here : t.strand? x = some st) (named : d ≠ 41) (v : V128) :
    t.sendValue x st ⟨true, d⟩ false v = { t.setStrand x { st with longs := st.longs ++ [(⟨t.nextId, ⟨true, d⟩, false⟩ : Long)] } with
      flight := t.flight ++ [⟨t.nextId, x, st.lid, st.sid, st.uid, .result, ⟨thisDev, 0⟩, some ⟨true, d⟩, 0, false, false, [], none, st.inTx, true, v, none⟩]
      nextId := t.nextId + 1 } := by
  rw [State.sendValue, if_neg named, State.modStrand_of_strand here]
  rfl

section
variable (clear : s.Clear st { srcs := [(0, false, a)], dst := some (true, d), long := true, aborts := true }) (mine : s.mayOwn st)
  (idle : ((s.tile s.cur.tile).mat.asOwned st.uid).opsLeft = 0) {form : Nat}
include clear mine

theorem mrd_faults (large : 191 < (st.rs a).toNat) :
    s.mrd m form d a = .next (s.faultTurn s.cur 11 (BitVec.ofNat 64 (10 * 2 ^ 56 + (st.rs a).toNat % 2 ^ 48)) st.regs.pc) := by
  rw [← codeWord_row]
  unfold State.mrd
  exact State.matrix_faults (u := { srcs := [(0, false, a)], dst := some (true, d), long := true }) clear m mine (if_pos large)

variable (inside : (st.rs a).toNat ≤ 191)
include idle inside

theorem mrd_finds (bad : ((s.tile s.cur.tile).mat.asOwned st.uid).badRow form (st.rs a).toNat = true) : finds s st 4 (st.rs a).toNat (s.mrd m form d a) := by
  have runs : s.mrd m form d a = .next (s.finish s.cur m (.check s 4 (st.rs a))) := by
    unfold State.mrd
    refine (State.matrix_owned (u := { srcs := [(0, false, a)], dst := some (true, d), long := true }) clear m mine _).trans ?_
    dsimp only
    rw [State.claims_engine, if_neg (by omega), if_pos (by rw [idle, bad]; rfl)]
  rw [runs]
  have place : st.rs a = BitVec.ofNat 64 (st.rs a).toNat := (BitVec.ofNat_toNat 64 _).trans (BitVec.setWidth_eq _) |>.symm
  have found := finds_contained clear.here 4 (st.rs a).toNat
  rw [← place] at found
  exact found

variable (good : ((s.tile s.cur.tile).mat.asOwned st.uid).badRow form (st.rs a).toNat = false)
include good

theorem mrd_reads : s.mrd m form d a = .next (s.finish s.cur m (.ok ((s.claims st.uid).sendValue s.cur st ⟨true, d⟩ false
    (((s.tile s.cur.tile).mat.asOwned st.uid).readRow form (st.rs a).toNat)))) := by
  unfold State.mrd
  refine (State.matrix_owned (u := { srcs := [(0, false, a)], dst := some (true, d), long := true }) clear m mine _).trans ?_
  dsimp only
  rw [State.claims_engine, if_neg (by omega), if_neg (by rw [good, Bool.and_false]; exact Bool.false_ne_true), if_pos idle]
  rfl

/-- A row read to zv changes nothing but the claim. -/
theorem mrd_zero (zero : d = 41) : s.becomesMat st m (fun e => e = (s.tile s.cur.tile).mat.asOwned st.uid) (s.mrd m form d a) := by
  have still : (s.claims st.uid).sendValue s.cur st ⟨true, d⟩ false (((s.tile s.cur.tile).mat.asOwned st.uid).readRow form (st.rs a).toNat)
      = s.claims st.uid := if_pos zero
  rw [mrd_reads clear mine idle inside good, still, State.finish_ok (State.claims_here clear.here st.uid)]
  refine ⟨_, rfl, ?_, State.strand?_setStrand .., rfl, rfl⟩
  rw [State.tile_setStrand_apart Tile.apart_mat]
  exact s.claims_engine st.uid

theorem mrd_sends (named : d ≠ 41) : ∃ (t : State) (x : Access), s.mrd m form d a = .next t ∧ unwritten s t ∧ t.flight = s.flight ++ [x] ∧ x.id = s.nextId
    ∧ x.done = true ∧ x.dest = some ⟨true, d⟩ ∧ x.value = ((s.tile s.cur.tile).mat.asOwned st.uid).readRow form (st.rs a).toNat
    ∧ t.strand? s.cur = some (({ st with longs := st.longs ++ [(⟨s.nextId, ⟨true, d⟩, false⟩ : Long)] } : Strand).after m (st.regs.pc + 4)) := by
  obtain ⟨v, isV⟩ : ∃ v, v = ((s.tile s.cur.tile).mat.asOwned st.uid).readRow form (st.rs a).toNat := ⟨_, rfl⟩
  obtain ⟨t, isT⟩ : ∃ t : State, t = s.claims st.uid := ⟨_, rfl⟩
  have here : t.strand? s.cur = some st := isT ▸ State.claims_here clear.here st.uid
  have same : t.mem = s.mem ∧ t.full = s.full ∧ t.flight = s.flight ∧ t.nextId = s.nextId := by rw [isT]; exact ⟨rfl, rfl, rfl, rfl⟩
  obtain ⟨mem, full, flight, nextId⟩ := same
  obtain ⟨long, isLong⟩ : ∃ long : Strand, long = { st with longs := st.longs ++ [⟨s.nextId, ⟨true, d⟩, false⟩] } := ⟨_, rfl⟩
  obtain ⟨x, isX⟩ : ∃ x : Access, x
      = ⟨s.nextId, s.cur, st.lid, st.sid, st.uid, .result, ⟨thisDev, 0⟩, some ⟨true, d⟩, 0, false, false, [], none, st.inTx, true, v, none⟩ := ⟨_, rfl⟩
  obtain ⟨u, isU⟩ : ∃ u : State, u = t.sendValue s.cur st ⟨true, d⟩ false v := ⟨_, rfl⟩
  have sent := State.sendValue_long s.cur here named v
  rw [← isU, nextId, flight, ← isLong, ← isX] at sent
  have hereU : u.strand? s.cur = some long := by rw [sent]; exact State.strand?_setStrand ..
  have pc : long.regs.pc = st.regs.pc := by rw [isLong]
  rw [mrd_reads clear mine idle inside good, ← isT, ← isV, ← isU, State.finish_ok hereU, pc, ← isLong]
  refine ⟨_, x, rfl, ⟨?_, ?_⟩, ?_, by rw [isX], by rw [isX], by rw [isX], by rw [isX], State.strand?_setStrand ..⟩
  · rw [State.setStrand_mem, sent]
    exact mem
  · rw [State.setStrand_full, sent]
    exact full
  · rw [State.setStrand_flight, sent]

end

theorem readRow_elem (e : Matrix) {form r n : Nat} (col : n < 32) : V128.elem (e.readRow form r) 4 n
    = (if form = 0 then (e.pair r n).1.toNat else if form = 1 then (e.pair r n).2.toNat else f32add (e.pair r n).1.toNat (e.pair r n).2.toNat) % 2 ^ 32 :=
  elem_ofElems_range (by omega) _

/-! ## mmul (R169 to R171, R180) -/

theorem usedRecs_num {r : Vector Rec 5} {p : Nat × Rec × Nat} (used : p ∈ usedRecs r) : p.1 < 5 := by
  unfold usedRecs at used
  simp only [List.mem_append, List.mem_cons, List.not_mem_nil, or_false] at used
  rcases used with (((rfl | rfl) | h) | h) | h
  · exact Nat.zero_lt_succ 4
  · exact Nat.one_lt_succ_succ 3
  all_goals
    split at h
    · obtain rfl := List.mem_singleton.mp h
      show _ < _
      norm_num
    · cases h

/-- The record that a check names, or what the checks after it name. -/
theorem rec_of_check {p : Prop} [Decidable p] {n j c k : Nat} {later : Option (Nat × Nat)}
    (fails : (if p then some (n, j) else later) = some (c, k)) : k = j ∨ later = some (c, k) := by
  split at fails
  · exact .inl (Prod.mk.inj (Option.some.inj fails)).2.symm
  · exact .inr fails

theorem matCheck_rec {r : Vector Rec 5} {gang : Bool} {c k : Nat} (fails : matCheck r gang = some (c, k)) : k < 5 := by
  unfold matCheck at fails
  iterate 9
    obtain rfl | fails := rec_of_check fails
    · decide
  split at fails
  · next p found =>
    obtain ⟨-, rfl⟩ := Prod.mk.inj (Option.some.inj fails)
    exact usedRecs_num (List.mem_of_find?_eq_some found)
  · obtain ⟨p, found, is⟩ := Option.map_eq_some_iff.mp fails
    obtain ⟨-, rfl⟩ := Prod.mk.inj is
    exact usedRecs_num (List.mem_of_find?_eq_some found)

section
variable (clear : s.Clear st { aborts := true }) (mine : s.mayOwn st)
include clear mine

theorem exec_mmul_faults {c k : Nat} (fails : matCheck ((s.tile s.cur.tile).mat.asOwned st.uid).recs false = some (c, k)) :
    exec (.mmul m) s = .next (s.faultTurn s.cur 11 (BitVec.ofNat 64 (c * 2 ^ 56 + k * 2 ^ 48)) st.regs.pc) := by
  have detail : codeWord c (k * 2 ^ 48) = BitVec.ofNat 64 (c * 2 ^ 56 + k * 2 ^ 48) := by
    have few := matCheck_rec fails
    rw [codeWord, Nat.mod_eq_of_lt (a := k * 2 ^ 48) (by omega), show 0x100000000000000 = 2 ^ 56 from rfl]
  have none_ : (s.claims st.uid).matSnapshot s.cur st ((s.tile s.cur.tile).mat.asOwned st.uid).recs false = .error (matFault c k) := by
    rw [State.matSnapshot, fails]
  rw [← detail]
  unfold exec execMmul
  refine State.matrix_faults (u := {}) clear m mine ?_
  rw [State.claims_engine, show (s.claims st.uid).cur = s.cur from rfl, none_]
  rfl

variable {op : MatOp} (taken : s.matSnapshot s.cur st ((s.tile s.cur.tile).mat.asOwned st.uid).recs false = .ok op)
include taken

theorem exec_mmul_queues (room : ((s.tile s.cur.tile).mat.asOwned st.uid).isFull = false) :
    s.becomesMat st m (fun e => e = ((s.tile s.cur.tile).mat.asOwned st.uid).enqueue op) (exec (.mmul m) s) := by
  unfold exec execMmul
  refine State.matrix_changes (u := {}) clear m mine ?_ (f := fun e => e.enqueue op) rfl
  rw [State.claims_engine, show (s.claims st.uid).cur = s.cur from rfl, State.claims_matSnapshot, taken]
  exact if_neg (by rw [room]; exact Bool.false_ne_true)

theorem exec_mmul_waits (full : ((s.tile s.cur.tile).mat.asOwned st.uid).isFull = true) :
    ∃ t : State, exec (.mmul m) s = .next t ∧ t.strand? s.cur = some { st with run := .held .again, mark := m } ∧ unwritten s t := by
  have runs : exec (.mmul m) s = .next (s.finish s.cur m (.hold (s.claims st.uid) .again)) := by
    unfold exec execMmul
    refine (State.matrix_owned (u := {}) clear m mine _).trans ?_
    rw [State.claims_engine, show (s.claims st.uid).cur = s.cur from rfl, State.claims_matSnapshot, taken]
    dsimp only
    rw [if_pos full]
  rw [runs, State.finish_hold (State.claims_here clear.here st.uid) m (by nofun)]
  exact ⟨_, rfl, State.strand?_setStrand .., rfl, rfl⟩

end

end

/-! ## The statement -/

/-- The half of a row that mwr writes. -/
theorem getLsbD_8_iff {v : Word} (small : v.toNat < 2 ^ 9) : v.getLsbD 8 = decide (v.toNat / 256 = 1) := by
  rw [BitVec.getLsbD, Nat.testBit_eq_decide_div_mod_eq]
  have low : v.toNat / 2 ^ 8 % 2 = v.toNat / 256 := by omega
  rw [low]

theorem Matrix.badRow_iff (e : Matrix) (form row : Nat) :
    e.badRow form row = true ↔ ∃ p ∈ e.badPairs, p.1 / 32 = row ∧ (form = 2 ∨ p.2 = decide (form = 1)) := by
  simp [Matrix.badRow, List.any_eq_true]

/-- Settles O46: a word of the owner acts on the store as it has it; the three reads differ in the half that they give. -/
theorem matrixWords : Obligations.MatrixWords := by
  intro s st m d a b
  refine ⟨fun clear q mem => ⟨fun mine => ?set, fun k owner other => ?foreign⟩, fun mine => ⟨fun clear idle => ⟨fun small inside => ?mzero, fun bad => ?mzeroFaults⟩,
    fun clear idle small inside => ?mwr, fun clear idle q mem => ?mrd, fun clear => ⟨fun c k fails => ?mmulFaults, fun op taken => ⟨?mmulFirst, ?mmulNext, ?mmulFull⟩⟩⟩⟩
  case set =>
    rw [exec_rec mem]
    exact setRec_becomes clear mine q.2
  case foreign =>
    rw [exec_rec mem]
    exact setRec_foreign clear owner other q.2
  case mzero =>
    obtain ⟨t, runs, is, after, still⟩ := exec_mzero_becomes (m := m) mine idle clear small inside
    refine ⟨t, runs, fun r _ n col => ?_, after, still⟩
    rw [is, Matrix.pair_zeroRows _ col]
    rfl
  case mzeroFaults => exact exec_mzero_faults mine idle clear bad
  case mwr =>
    obtain ⟨t, runs, is, after, still⟩ := exec_mwr_becomes (m := m) mine idle clear small inside
    refine ⟨t, runs, fun r _ n col => ?_, after, still⟩
    rw [is, Matrix.pair_writeRow _ _ _ _ col, getLsbD_8_iff small]
    by_cases here : r = (st.rs a).toNat % 256
    · subst here
      rw [if_pos rfl, if_pos rfl, Matrix.written]
      simp only [decide_eq_true_eq]
      rfl
    · rw [if_neg here, if_neg here]
      rfl
  case mrd =>
    obtain ⟨form, runs, isForm, gives⟩ : ∃ form, exec q.1 s = s.mrd m form d a
        ∧ ((form = 2 ↔ q.1 = .mrds m d a) ∧ (form = 1 ↔ q.1 = .mrdlo m d a))
        ∧ ∀ p : BitVec 32 × BitVec 32, q.2 p = (if form = 0 then p.1.toNat else if form = 1 then p.2.toNat else f32add p.1.toNat p.2.toNat) % 2 ^ 32 := by
      simp only [List.mem_cons, List.not_mem_nil, or_false] at mem
      rcases mem with rfl | rfl | rfl
      · exact ⟨0, rfl, by simp, fun p => (Nat.mod_eq_of_lt p.1.isLt).symm⟩
      · exact ⟨1, rfl, by simp, fun p => (Nat.mod_eq_of_lt p.2.isLt).symm⟩
      · exact ⟨2, rfl, by simp, fun p => rfl⟩
    obtain ⟨both, low⟩ := isForm
    rw [runs]
    have sound_ : (∀ p ∈ ((s.tile s.cur.tile).mat.asOwned st.uid).badPairs, p.1 / 32 ≠ (st.rs a).toNat) →
        ((s.tile s.cur.tile).mat.asOwned st.uid).badRow form (st.rs a).toNat = false := fun none_ => by
      refine Bool.eq_false_iff.mpr fun bad => ?_
      obtain ⟨p, mem, row, -⟩ := (Matrix.badRow_iff _ _ _).mp bad
      exact none_ p mem row
    refine ⟨fun inside ⟨p, mem, row, half⟩ => ?_, fun inside none_ zero => ?_, fun inside none_ named => ?_, fun large => ?_⟩
    · refine mrd_finds clear mine idle inside ((Matrix.badRow_iff _ _ _).mpr ⟨p, mem, row, ?_⟩)
      rw [both, decide_eq_decide.mpr low]
      exact half
    · exact mrd_zero clear mine idle inside (sound_ none_) zero
    · obtain ⟨t, x, next, still, flight, id, done, dest, value, after⟩ := mrd_sends (m := m) clear mine idle inside (sound_ none_) named
      refine ⟨t, x, next, still, flight, id, done, dest, fun n col => ?_, after⟩
      rw [value, readRow_elem _ col, gives]
      rfl
    · exact mrd_faults clear mine large
  case mmulFaults => exact exec_mmul_faults clear mine fails
  case mmulFirst =>
    intro free
    have free : ((s.tile s.cur.tile).mat.asOwned st.uid).pending = none := free
    have queued : ((s.tile s.cur.tile).mat.asOwned st.uid).enqueue op = { (s.tile s.cur.tile).mat.asOwned st.uid with pending := some op } := by
      rw [Matrix.enqueue, free]
    have room : ((s.tile s.cur.tile).mat.asOwned st.uid).isFull = false := by
      rw [Matrix.isFull, Matrix.opsLeft, free]
      split <;> rfl
    obtain ⟨t, runs, is, after, still⟩ := exec_mmul_queues (m := m) clear mine taken room
    exact ⟨t, runs, is.trans queued, after, still⟩
  case mmulNext =>
    intro p waits free
    have waits : ((s.tile s.cur.tile).mat.asOwned st.uid).pending = some p := waits
    have free : ((s.tile s.cur.tile).mat.asOwned st.uid).running = none := free
    have queued : ((s.tile s.cur.tile).mat.asOwned st.uid).enqueue op
        = { (s.tile s.cur.tile).mat.asOwned st.uid with running := some p, pending := some op } := by
      rw [Matrix.enqueue, waits]
      dsimp only
      rw [free]
      rfl
    have room : ((s.tile s.cur.tile).mat.asOwned st.uid).isFull = false := by
      rw [Matrix.isFull, Matrix.opsLeft, free, waits]
      rfl
    obtain ⟨t, runs, is, after, still⟩ := exec_mmul_queues (m := m) clear mine taken room
    exact ⟨t, runs, is.trans queued, after, still⟩
  case mmulFull =>
    intro waits runs
    have waits : ((s.tile s.cur.tile).mat.asOwned st.uid).pending.isSome = true := waits
    have runs : ((s.tile s.cur.tile).mat.asOwned st.uid).running.isSome = true := runs
    refine exec_mmul_waits clear mine taken ?_
    rw [Matrix.isFull, Matrix.opsLeft, waits, runs]
    rfl

end Sys2Proof.Machine
end

section
/-!
PROOF. Context blocks and what they hold at which offset (spec/15 Table 15.8).
-/

namespace Sys2Proof.Machine

set_option Elab.async false

/-! ## Pieces of byte strings -/

/-- The n bytes of a byte string from an offset up. -/
def slice (bs : List Byte) (off n : Nat) : List Byte := (bs.drop off).take n

section
variable {a b : List Byte} {off n : Nat}

theorem slice_append_left (inside : off + n ≤ a.length) : slice (a ++ b) off n = slice a off n := by
  rw [slice, slice, List.drop_append_of_le_length (by omega), List.take_append_of_le_length (by rw [List.length_drop]; omega)]

theorem slice_append_right (past : a.length ≤ off) : slice (a ++ b) off n = slice b (off - a.length) n := by
  rw [slice, slice, List.drop_append, List.drop_eq_nil_of_le past, List.nil_append]

theorem wordAt_slice (bs : List Byte) (off : Nat) : wordAt bs off = BitVec.ofNat 64 (bytesToNat (slice bs off 8)) := rfl

theorem wordAt_append_left (inside : off + 8 ≤ a.length) : wordAt (a ++ b) off = wordAt a off := by
  rw [wordAt_slice, wordAt_slice, slice_append_left inside]

theorem wordAt_append_right (past : a.length ≤ off) : wordAt (a ++ b) off = wordAt b (off - a.length) := by
  rw [wordAt_slice, wordAt_slice, slice_append_right past]

theorem vecAt_append_left (inside : off + 128 ≤ a.length) : vecAt (a ++ b) off = vecAt a off :=
  congrArg (fun bs => BitVec.ofNat 1024 (bytesToNat bs)) (slice_append_left inside)

theorem vecAt_append_right (past : a.length ≤ off) : vecAt (a ++ b) off = vecAt b (off - a.length) :=
  congrArg (fun bs => BitVec.ofNat 1024 (bytesToNat bs)) (slice_append_right past)

end

section
variable {α β : Type} {f : α → List β} {n : Nat} (len : ∀ a, (f a).length = n)
include len

theorem length_flatMap_const (xs : List α) : (xs.flatMap f).length = n * xs.length := by
  induction xs with
  | nil => rfl
  | cons x r ih => rw [List.flatMap_cons, List.length_append, len, ih, List.length_cons, Nat.mul_succ, Nat.add_comm]

/-- The pieces of a string of pieces of one length. -/
theorem drop_flatMap_const {xs : List α} {i : Nat} {a : α} (there : xs[i]? = some a) : ((xs.flatMap f).drop (n * i)).take n = f a := by
  induction xs generalizing i with
  | nil => simp at there
  | cons x r ih =>
    rw [List.flatMap_cons]
    cases i with
    | zero =>
      obtain rfl : x = a := by simpa using there
      rw [Nat.mul_zero, List.drop_zero, List.take_append_of_le_length (by rw [len]), List.take_of_length_le (by rw [len])]
    | succ i =>
      rw [Nat.mul_succ, List.drop_append, List.drop_eq_nil_of_le (by rw [len]; omega), List.nil_append, len, Nat.add_sub_cancel]
      exact ih (by simpa using there)

theorem getElem?_flatMap_const {xs : List α} {c i : Nat} {a : α} (there : xs[c]? = some a) (inside : i < n) :
    (xs.flatMap f)[n * c + i]? = (f a)[i]? := by
  have piece := congrArg (·[i]?) (drop_flatMap_const len there)
  rw [← piece, List.getElem?_take, if_pos inside, List.getElem?_drop]

end

theorem length_wordBytes (ws : List Word) : (wordBytes ws).length = 8 * ws.length :=
  length_flatMap_const (f := fun w : Word => natToBytes 8 w.toNat) (fun _ => natToBytes_length ..) ws

/-- A word's bytes give the word again; so do a vector's. -/
theorem ofNat_natToBytes {n : Nat} (v : BitVec (8 * n)) : BitVec.ofNat (8 * n) (bytesToNat (natToBytes n v.toNat)) = v := by
  have fits : v.toNat < 256 ^ n := by
    rw [show (256 : Nat) = 2 ^ 8 from rfl, ← Nat.pow_mul]
    exact v.isLt
  rw [bytesToNat_natToBytes, Nat.mod_eq_of_lt fits, BitVec.ofNat_toNat, BitVec.setWidth_eq]

theorem wordAt_wordBytes {ws : List Word} {i : Nat} {w : Word} (there : ws[i]? = some w) : wordAt (wordBytes ws) (8 * i) = w := by
  have piece := drop_flatMap_const (f := fun w : Word => natToBytes 8 w.toNat) (fun _ => natToBytes_length ..) there
  exact (congrArg (fun bs => BitVec.ofNat 64 (bytesToNat bs)) piece).trans (ofNat_natToBytes (n := 8) w)

theorem vecAt_vecBytes {vs : List V128} {i : Nat} {v : V128} (there : vs[i]? = some v) : vecAt (vs.flatMap vecBytes) (128 * i) = v := by
  have piece := drop_flatMap_const (f := vecBytes) (fun _ => natToBytes_length ..) there
  exact (congrArg (fun bs => BitVec.ofNat 1024 (bytesToNat bs)) piece).trans (ofNat_natToBytes (n := 128) v)

theorem getElem?_middle {α : Type} {l a b c : List α} (is : l = a ++ b ++ c) {k i : Nat} (at_ : a.length = k) (inside : i < b.length) :
    l[k + i]? = b[i]? := by
  rw [is, List.append_assoc, List.getElem?_append_right (by omega), at_, Nat.add_sub_cancel_left, List.getElem?_append_left inside]

theorem getElem?_toList {α : Type} {n i : Nat} (v : Vector α n) (inside : i < n) (d : α) : v.toList[i]? = some (v.getD i d) := by
  have there : v[i]? = some v[i] := Vector.getElem?_eq_getElem inside
  rw [vector_getD_of_some there d, ← there, Vector.getElem?_toList]

/-! ## The head of a block: 233 words, then zeros up to 0x800 -/

section
variable (st : Strand) (core : Core)

/-- The words from 0x140 to 0x1B8. -/
def Strand.ctlWords : List Word :=
  [st.regs.q, st.regs.pc, st.regs.skipn.setWidth 64, st.regs.fctl, st.regs.slim, st.regs.padlo, st.regs.padhi, st.regs.ptroot, st.txstat, st.regs.txaddr,
    st.regs.cellbase, st.regs.cellgen, st.tepc, st.tcause, st.tdetail, st.status]

/-- The shadow fields, where the core has them. -/
def Strand.shadowWords : List Word := if core = .m then st.regs.shadow.toList.flatMap (·.toList) else List.replicate 168 0

def Strand.headWords : List Word :=
  st.regs.s.toList ++ st.regs.o.toList ++ st.ctlWords ++ st.regs.cycw.toList ++ st.shadowWords core ++ [st.outst]

theorem Strand.blockHead_eq : st.blockHead core = wordBytes (st.headWords core) ++ List.replicate 0xB8 0 := rfl

theorem Strand.length_shadowWords : (st.shadowWords core).length = 168 := by
  unfold Strand.shadowWords
  split
  · rw [length_flatMap_const (n := 42) (fun v => Vector.length_toList), Vector.length_toList]
  · exact List.length_replicate

theorem Strand.length_headWords : (st.headWords core).length = 233 := by
  simp only [Strand.headWords, List.length_append, Vector.length_toList, Strand.length_shadowWords]
  rfl

theorem Strand.length_blockHead : (st.blockHead core).length = 0x800 := by
  rw [Strand.blockHead_eq, List.length_append, length_wordBytes, Strand.length_headWords, List.length_replicate]

/-- A word of a block's head. -/
theorem Strand.wordAt_head {i : Nat} {w : Word} (there : (st.headWords core)[i]? = some w) (rest : List Byte) :
    wordAt (st.blockHead core ++ rest) (8 * i) = w := by
  have inside : i < 233 := by
    rw [← st.length_headWords core]
    exact (List.getElem?_eq_some_iff.mp there).1
  rw [Strand.blockHead_eq, wordAt_append_left (by rw [List.length_append, length_wordBytes, Strand.length_headWords]; omega),
    wordAt_append_left (by rw [length_wordBytes, Strand.length_headWords]; omega), wordAt_wordBytes there]

theorem Strand.headWords_s {i : Nat} (inside : i < 32) : (st.headWords core)[i]? = some (st.regs.s.getD i 0) := by
  have is : st.headWords core = [] ++ st.regs.s.toList ++ (st.regs.o.toList ++ st.ctlWords ++ st.regs.cycw.toList ++ st.shadowWords core ++ [st.outst]) := by
    simp only [Strand.headWords, List.append_assoc, List.nil_append]
  rw [← getElem?_toList st.regs.s inside 0, ← getElem?_middle is rfl (by rw [Vector.length_toList]; exact inside), List.length_nil, Nat.zero_add]

theorem Strand.headWords_o {i : Nat} (inside : i < 8) : (st.headWords core)[32 + i]? = some (st.regs.o.getD i 0) := by
  have is : st.headWords core = st.regs.s.toList ++ st.regs.o.toList ++ (st.ctlWords ++ st.regs.cycw.toList ++ st.shadowWords core ++ [st.outst]) := by
    simp only [Strand.headWords, List.append_assoc]
  rw [← getElem?_toList st.regs.o inside 0, ← getElem?_middle is Vector.length_toList (by rw [Vector.length_toList]; exact inside)]

theorem Strand.headWords_ctl {i : Nat} {w : Word} (there : st.ctlWords[i]? = some w) : (st.headWords core)[40 + i]? = some w := by
  have is : st.headWords core = (st.regs.s.toList ++ st.regs.o.toList) ++ st.ctlWords ++ (st.regs.cycw.toList ++ st.shadowWords core ++ [st.outst]) := by
    simp only [Strand.headWords, List.append_assoc]
  rw [← there, ← getElem?_middle is (by rw [List.length_append, Vector.length_toList, Vector.length_toList]) (List.getElem?_eq_some_iff.mp there).1]

theorem Strand.headWords_cycw {i : Nat} (inside : i < 8) : (st.headWords core)[56 + i]? = some (st.regs.cycw.getD i 0) := by
  have is : st.headWords core = (st.regs.s.toList ++ st.regs.o.toList ++ st.ctlWords) ++ st.regs.cycw.toList ++ (st.shadowWords core ++ [st.outst]) := by
    simp only [Strand.headWords, List.append_assoc]
  rw [← getElem?_toList st.regs.cycw inside 0, ← getElem?_middle is ?_ (by rw [Vector.length_toList]; exact inside)]
  simp only [List.length_append, Vector.length_toList]
  rfl

theorem Strand.shadowWords_getElem? {c i : Nat} (channel : c < 4) (inside : i < 42) : (st.shadowWords core)[42 * c + i]?
    = some (if core = .m then (st.regs.shadow.getD c (Vector.replicate 42 0)).getD i 0 else 0) := by
  unfold Strand.shadowWords
  split
  · rw [getElem?_flatMap_const (fun v => Vector.length_toList) (getElem?_toList st.regs.shadow channel (Vector.replicate 42 0)) inside,
      getElem?_toList _ inside 0]
  · rw [List.getElem?_replicate_of_lt (by omega)]

theorem Strand.headWords_shadow {c i : Nat} (channel : c < 4) (inside : i < 42) : (st.headWords core)[64 + (42 * c + i)]?
    = some (if core = .m then (st.regs.shadow.getD c (Vector.replicate 42 0)).getD i 0 else 0) := by
  have is : st.headWords core = (st.regs.s.toList ++ st.regs.o.toList ++ st.ctlWords ++ st.regs.cycw.toList) ++ st.shadowWords core ++ [st.outst] := by
    simp only [Strand.headWords, List.append_assoc]
  rw [← st.shadowWords_getElem? core channel inside, ← getElem?_middle is ?_ (by rw [Strand.length_shadowWords]; omega)]
  simp only [List.length_append, Vector.length_toList]
  rfl

theorem Strand.headWords_outst : (st.headWords core)[232]? = some st.outst := by
  have is : st.headWords core
      = (st.regs.s.toList ++ st.regs.o.toList ++ st.ctlWords ++ st.regs.cycw.toList ++ st.shadowWords core) ++ [st.outst] ++ [] := by
    simp only [Strand.headWords, List.append_assoc, List.append_nil]
  have len : (st.regs.s.toList ++ st.regs.o.toList ++ st.ctlWords ++ st.regs.cycw.toList ++ st.shadowWords core).length = 232 := by
    simp only [List.length_append, Vector.length_toList, Strand.length_shadowWords]
    rfl
  exact getElem?_middle is len (i := 0) Nat.zero_lt_one

/-- The rest of a block's head is zero. -/
theorem Strand.wordAt_head_zero {i : Nat} (inside : i < 23) (rest : List Byte) : wordAt (st.blockHead core ++ rest) (0x748 + 8 * i) = 0 := by
  have zeros : slice (List.replicate 0xB8 (0 : Byte)) (8 * i) 8 = List.replicate 8 0 := by
    rw [slice, List.drop_replicate, List.take_replicate, Nat.min_eq_left (by omega)]
  rw [wordAt_append_left (by rw [Strand.length_blockHead]; omega), Strand.blockHead_eq,
    wordAt_append_right (by rw [length_wordBytes, Strand.length_headWords]; omega), length_wordBytes, Strand.length_headWords, wordAt_slice,
    show 0x748 + 8 * i - 8 * 233 = 8 * i by omega, zeros]
  rfl

end

/-! ## The registers that await a result -/

/-- A number put together of bits has those bits. -/
theorem testBit_foldl_bits (f : Nat → Bool) (n : Nat) :
    (List.range n).foldl (fun m i => if f i = true then m + 2 ^ i else m) 0 < 2 ^ n
      ∧ ∀ i < n, ((List.range n).foldl (fun m i => if f i = true then m + 2 ^ i else m) 0).testBit i = f i := by
  induction n with
  | zero => exact ⟨Nat.one_pos, fun i h => absurd h (Nat.not_lt_zero i)⟩
  | succ n ih =>
    obtain ⟨low, bits⟩ := ih
    rw [List.range_succ, List.foldl_append, List.foldl_cons, List.foldl_nil]
    obtain ⟨m, isM⟩ : ∃ m, m = (List.range n).foldl (fun m i => if f i = true then m + 2 ^ i else m) 0 := ⟨_, rfl⟩
    rw [← isM] at low bits ⊢
    have double : 2 ^ (n + 1) = 2 ^ n + 2 ^ n := by rw [Nat.pow_succ]; omega
    by_cases set : f n = true
    · rw [if_pos set]
      refine ⟨by omega, fun i inside => ?_⟩
      rcases Nat.lt_succ_iff_lt_or_eq.mp inside with before | rfl
      · rw [Nat.add_comm, Nat.testBit_two_pow_add_gt before, bits i before]
      · rw [Nat.add_comm, Nat.testBit_two_pow_add_eq, Nat.testBit_lt_two_pow low, set]
        rfl
    · rw [if_neg set]
      refine ⟨by omega, fun i inside => ?_⟩
      rcases Nat.lt_succ_iff_lt_or_eq.mp inside with before | rfl
      · exact bits i before
      · rw [Nat.testBit_lt_two_pow low, Bool.eq_false_iff.mpr set]

theorem Strand.outst_bits (st : Strand) : st.outst.toNat < 2 ^ 42 ∧ ∀ i < 42, st.outst.getLsbD i = st.outstanding false (BitVec.ofNat 6 i) := by
  obtain ⟨low, bits⟩ := testBit_foldl_bits (fun i => st.outstanding false (BitVec.ofNat 6 i)) 42
  have value : st.outst.toNat
      = (List.range 42).foldl (fun m i => if st.outstanding false (BitVec.ofNat 6 i) = true then m + 2 ^ i else m) 0 :=
    (BitVec.toNat_ofNat _ _).trans (Nat.mod_eq_of_lt (Nat.lt_trans low (by decide)))
  rw [value]
  exact ⟨low, fun i inside => (congrArg (·.testBit i) value).trans (bits i inside)⟩

/-! ## The vector part, up to 0x1B00 -/

theorem toNat_of_bytes (x : BitVec 32) : bytesToNat (natToBytes 4 x.toNat) = x.toNat := by
  rw [bytesToNat_natToBytes]
  exact Nat.mod_eq_of_lt x.isLt

section
variable (st : Strand)

/-- The vectors from 0x880 up. -/
def Strand.blockVecs : List V128 := st.regs.w.toList ++ [st.regs.qv] ++ st.regs.v.toList

theorem Strand.blockVec_eq : st.blockVec = (st.regs.lfsr.toList.flatMap fun x => natToBytes 4 x.toNat) ++ st.blockVecs.flatMap vecBytes := by
  simp [Strand.blockVec, Strand.blockVecs]

theorem Strand.length_lfsrBytes : (st.regs.lfsr.toList.flatMap fun x => natToBytes 4 x.toNat).length = 0x80 := by
  rw [length_flatMap_const (n := 4) (fun _ => natToBytes_length ..), Vector.length_toList]

theorem Strand.length_blockVecs : st.blockVecs.length = 37 := by
  simp [Strand.blockVecs]

theorem Strand.length_blockVec : st.blockVec.length = 0x1300 := by
  rw [Strand.blockVec_eq, List.length_append, Strand.length_lfsrBytes,
    length_flatMap_const (f := vecBytes) (n := 128) (fun _ => natToBytes_length ..), Strand.length_blockVecs]

theorem Strand.lfsr_blockVec {i : Nat} (inside : i < 32) (rest : List Byte) :
    bytesToNat (slice (st.blockVec ++ rest) (4 * i) 4) = (st.regs.lfsr.getD i 0).toNat := by
  have piece := drop_flatMap_const (f := fun x : BitVec 32 => natToBytes 4 x.toNat) (fun _ => natToBytes_length ..) (getElem?_toList st.regs.lfsr inside 0)
  rw [slice_append_left (by rw [Strand.length_blockVec]; omega), Strand.blockVec_eq, slice_append_left (by rw [Strand.length_lfsrBytes]; omega), slice,
    piece, toNat_of_bytes]

theorem Strand.vecAt_blockVec {i : Nat} {v : V128} (there : st.blockVecs[i]? = some v) (rest : List Byte) :
    vecAt (st.blockVec ++ rest) (0x80 + 128 * i) = v := by
  have inside : i < 37 := by
    rw [← st.length_blockVecs]
    exact (List.getElem?_eq_some_iff.mp there).1
  rw [vecAt_append_left (by rw [Strand.length_blockVec]; omega), Strand.blockVec_eq, vecAt_append_right (by rw [Strand.length_lfsrBytes]; omega),
    Strand.length_lfsrBytes, Nat.add_sub_cancel_left, vecAt_vecBytes there]

theorem Strand.blockVecs_w {i : Nat} (inside : i < 4) : st.blockVecs[i]? = some (st.regs.w.getD i 0) := by
  have is : st.blockVecs = [] ++ st.regs.w.toList ++ ([st.regs.qv] ++ st.regs.v.toList) := by simp [Strand.blockVecs]
  rw [← getElem?_toList st.regs.w inside 0, ← getElem?_middle is rfl (by rw [Vector.length_toList]; exact inside), List.length_nil, Nat.zero_add]

theorem Strand.blockVecs_qv : st.blockVecs[4]? = some st.regs.qv := getElem?_middle (i := 0) rfl Vector.length_toList Nat.zero_lt_one

theorem Strand.blockVecs_v {i : Nat} (inside : i < 32) : st.blockVecs[5 + i]? = some (st.regs.v.getD i 0) := by
  have is : st.blockVecs = (st.regs.w.toList ++ [st.regs.qv]) ++ st.regs.v.toList ++ [] := by simp [Strand.blockVecs]
  rw [← getElem?_toList st.regs.v inside 0, ← getElem?_middle is (k := 5) (by simp) (by rw [Vector.length_toList]; exact inside)]

end

/-! ## The matrix part, up to 0xDC00 -/

/-- The words of five records. -/
def recWords (r : Vector Rec 5) : List Word := r.toList.flatMap fun k => [k.base, k.desc]

theorem length_recWords (r : Vector Rec 5) : (recWords r).length = 10 := by
  rw [recWords, length_flatMap_const (n := 2) (fun _ => rfl), Vector.length_toList]

theorem recWords_getElem? (r : Vector Rec 5) {i : Nat} (inside : i < 5) :
    (recWords r)[2 * i]? = some (r.getD i Rec.initial).base ∧ (recWords r)[2 * i + 1]? = some (r.getD i Rec.initial).desc := by
  have there := getElem?_toList r inside Rec.initial
  exact ⟨getElem?_flatMap_const (f := fun k : Rec => [k.base, k.desc]) (n := 2) (i := 0) (fun _ => rfl) there (by decide),
    getElem?_flatMap_const (f := fun k : Rec => [k.base, k.desc]) (n := 2) (i := 1) (fun _ => rfl) there (by decide)⟩

section
variable (e : Matrix)

/-- The records of an operation as a block holds them: zeros for one that is not there. -/
def blockRecs (o : Option MatOp) : Vector Rec 5 := (o.map (·.recs)).getD (Vector.replicate 5 Rec.initial)

/-- The words before the accumulator store. -/
def Matrix.blockWords : List Word := recWords e.recs
  ++ [BitVec.ofNat 64 e.mprog, BitVec.ofNat 64 ((if e.pending.isSome then 2 else 0) + if e.running.isSome then 1 else 0)]
  ++ recWords (blockRecs e.running) ++ recWords (blockRecs e.pending)

/-- The bytes of a pair of the store. -/
def Matrix.pairBytes (k : Nat) : List Byte :=
  natToBytes 4 ((assocGet e.acc k).getD (0, 0)).1.toNat ++ natToBytes 4 ((assocGet e.acc k).getD (0, 0)).2.toNat

theorem wordBytes_append (a b : List Word) : wordBytes (a ++ b) = wordBytes a ++ wordBytes b := List.flatMap_append

theorem Matrix.block_eq : e.block = wordBytes e.blockWords ++ (List.range 6144).flatMap e.pairBytes := by
  rw [Matrix.blockWords, wordBytes_append, wordBytes_append, wordBytes_append]
  rfl

theorem Matrix.length_blockWords : e.blockWords.length = 32 := by
  simp only [Matrix.blockWords, List.length_append, length_recWords]
  rfl

theorem Matrix.length_pairBytes (k : Nat) : (e.pairBytes k).length = 8 := by
  rw [Matrix.pairBytes, List.length_append, natToBytes_length, natToBytes_length]

theorem Matrix.length_block : e.block.length = 0xC100 := by
  rw [Matrix.block_eq, List.length_append, length_wordBytes, Matrix.length_blockWords, length_flatMap_const e.length_pairBytes, List.length_range]

theorem Matrix.wordAt_block {i : Nat} {w : Word} (there : e.blockWords[i]? = some w) : wordAt e.block (8 * i) = w := by
  have inside : i < 32 := by
    rw [← e.length_blockWords]
    exact (List.getElem?_eq_some_iff.mp there).1
  rw [Matrix.block_eq, wordAt_append_left (by rw [length_wordBytes, Matrix.length_blockWords]; omega), wordAt_wordBytes there]

theorem Matrix.blockWords_recs {i : Nat} (inside : i < 10) : e.blockWords[0 + i]? = (recWords e.recs)[i]? := by
  refine getElem?_middle (a := []) (c := [BitVec.ofNat 64 e.mprog, BitVec.ofNat 64 ((if e.pending.isSome then 2 else 0) + if e.running.isSome then 1 else 0)]
    ++ (recWords (blockRecs e.running) ++ recWords (blockRecs e.pending))) ?_ rfl (by rw [length_recWords]; exact inside)
  simp only [Matrix.blockWords, List.append_assoc, List.nil_append]

theorem Matrix.blockWords_state {i : Nat} (inside : i < 2) : e.blockWords[10 + i]?
    = [BitVec.ofNat 64 e.mprog, BitVec.ofNat 64 ((if e.pending.isSome then 2 else 0) + if e.running.isSome then 1 else 0)][i]? := by
  refine getElem?_middle (c := recWords (blockRecs e.running) ++ recWords (blockRecs e.pending)) ?_ (length_recWords e.recs) inside
  simp only [Matrix.blockWords, List.append_assoc]

theorem Matrix.blockWords_running {i : Nat} (inside : i < 10) : e.blockWords[12 + i]? = (recWords (blockRecs e.running))[i]? := by
  refine getElem?_middle (c := recWords (blockRecs e.pending)) rfl ?_ (by rw [length_recWords]; exact inside)
  rw [List.length_append, length_recWords]
  rfl

theorem Matrix.blockWords_pending {i : Nat} (inside : i < 10) : e.blockWords[22 + i]? = (recWords (blockRecs e.pending))[i]? := by
  refine getElem?_middle (c := []) (List.append_nil _).symm ?_ (by rw [length_recWords]; exact inside)
  simp only [List.length_append, length_recWords]
  rfl

/-- The halves of a pair. -/
theorem Matrix.pair_block {k : Nat} (inside : k < 6144) :
    bytesToNat (slice e.block (0x100 + 8 * k) 4) = ((assocGet e.acc k).getD (0, 0)).1.toNat
      ∧ bytesToNat (slice e.block (0x104 + 8 * k) 4) = ((assocGet e.acc k).getD (0, 0)).2.toNat := by
  have words : (wordBytes e.blockWords).length = 0x100 := by rw [length_wordBytes, Matrix.length_blockWords]
  have there : (List.range 6144)[k]? = some k := List.getElem?_range inside
  have piece := drop_flatMap_const e.length_pairBytes there
  have first : slice e.block (0x100 + 8 * k) 4 = natToBytes 4 ((assocGet e.acc k).getD (0, 0)).1.toNat := by
    rw [Matrix.block_eq, slice_append_right (by omega), words, Nat.add_sub_cancel_left]
    have part := congrArg (List.take 4) piece
    rw [List.take_take] at part
    refine part.trans ?_
    rw [Matrix.pairBytes, List.take_append_of_le_length (by rw [natToBytes_length]), List.take_of_length_le (by rw [natToBytes_length])]
  have second : slice e.block (0x104 + 8 * k) 4 = natToBytes 4 ((assocGet e.acc k).getD (0, 0)).2.toNat := by
    rw [Matrix.block_eq, slice_append_right (by omega), words, show 0x104 + 8 * k - 0x100 = 8 * k + 4 by omega]
    have part := congrArg (List.drop 4) piece
    rw [List.drop_take, List.drop_drop] at part
    refine part.trans ?_
    rw [Matrix.pairBytes, List.drop_append, List.drop_eq_nil_of_le (by rw [natToBytes_length]), natToBytes_length]
    rfl
  rw [first, second, toNat_of_bytes, toNat_of_bytes]
  exact ⟨rfl, rfl⟩

end

/-! ## A whole block -/

section
variable (p : Spilled)

/-- The bytes after a block's head. -/
def Spilled.blockRest : List Byte := (if p.at_.core = .m then [] else p.strand.blockVec) ++ (match p.mat with | some m => m.block | none => [])

theorem Spilled.block_eq : p.block = p.strand.blockHead p.at_.core ++ p.blockRest := List.append_assoc ..

/-- The size of a block that holds a matrix engine's state, and of one that holds none. -/
theorem Spilled.length_block : p.block.length = (if p.at_.core = .m then 0x800 else 0x1B00) + (if p.mat.isSome then 0xC100 else 0) := by
  rw [Spilled.block_eq, Spilled.blockRest, List.length_append, List.length_append, Strand.length_blockHead]
  have vec : (if p.at_.core = .m then [] else p.strand.blockVec : List Byte).length = if p.at_.core = .m then 0 else 0x1300 := by
    split
    · rfl
    · exact p.strand.length_blockVec
  have mat : (match p.mat with | some m => m.block | none => [] : List Byte).length = if p.mat.isSome then 0xC100 else 0 := by
    cases p.mat with
    | none => rfl
    | some m => exact m.length_block
  rw [vec, mat]
  split <;> split <;> rfl

theorem Spilled.wordAt_head {i : Nat} {w : Word} (there : (p.strand.headWords p.at_.core)[i]? = some w) : wordAt p.block (8 * i) = w := by
  rw [Spilled.block_eq, Strand.wordAt_head _ _ there]

/-- A block holds the registers of its strand. -/
theorem Spilled.block_holds : blockHolds p.block p.at_.core p.strand := by
  refine ⟨fun i inside => ?s, fun i inside => ?o, fun q mem => ?ctl, fun i inside => ?cycw, fun c channel i inside => ?shadow, fun i inside => ?bits, ?few,
    fun i inside => ?zeros, fun other => ?vec⟩
  case s => exact p.wordAt_head (p.strand.headWords_s _ inside)
  case o =>
    rw [show 0x100 + 8 * i = 8 * (32 + i) by omega]
    exact p.wordAt_head (p.strand.headWords_o _ inside)
  case ctl =>
    have place : ∃ i, q.1 = 8 * (40 + i) ∧ p.strand.ctlWords[i]? = some q.2 := by
      simp only [List.mem_cons, List.not_mem_nil, or_false] at mem
      rcases mem with rfl | rfl | rfl | rfl | rfl | rfl | rfl | rfl | rfl | rfl | rfl | rfl | rfl | rfl | rfl | rfl
      exacts [⟨0, rfl, rfl⟩, ⟨1, rfl, rfl⟩, ⟨2, rfl, rfl⟩, ⟨3, rfl, rfl⟩, ⟨4, rfl, rfl⟩, ⟨5, rfl, rfl⟩, ⟨6, rfl, rfl⟩, ⟨7, rfl, rfl⟩, ⟨8, rfl, rfl⟩,
        ⟨9, rfl, rfl⟩, ⟨10, rfl, rfl⟩, ⟨11, rfl, rfl⟩, ⟨12, rfl, rfl⟩, ⟨13, rfl, rfl⟩, ⟨14, rfl, rfl⟩, ⟨15, rfl, rfl⟩]
    obtain ⟨i, at_, there⟩ := place
    rw [at_]
    exact p.wordAt_head (p.strand.headWords_ctl _ there)
  case cycw =>
    rw [show 0x1C0 + 8 * i = 8 * (56 + i) by omega]
    exact p.wordAt_head (p.strand.headWords_cycw _ inside)
  case shadow =>
    rw [show 0x200 + 8 * (42 * c + i) = 8 * (64 + (42 * c + i)) by omega]
    exact p.wordAt_head (p.strand.headWords_shadow _ channel inside)
  case bits =>
    rw [show 0x740 = 8 * 232 from rfl, p.wordAt_head (p.strand.headWords_outst _)]
    exact p.strand.outst_bits.2 i inside
  case few =>
    rw [show 0x740 = 8 * 232 from rfl, p.wordAt_head (p.strand.headWords_outst _)]
    exact p.strand.outst_bits.1
  case zeros =>
    rw [Spilled.block_eq]
    exact p.strand.wordAt_head_zero _ inside _
  case vec =>
    have rest : p.blockRest = p.strand.blockVec ++ (match p.mat with | some m => m.block | none => []) := by rw [Spilled.blockRest, if_neg other]
    have vec {i : Nat} {v : V128} (there : p.strand.blockVecs[i]? = some v) : vecAt p.block (0x880 + 128 * i) = v := by
      rw [Spilled.block_eq, vecAt_append_right (by rw [Strand.length_blockHead]; omega), Strand.length_blockHead, rest,
        show 0x880 + 128 * i - 0x800 = 0x80 + 128 * i by omega, Strand.vecAt_blockVec _ there]
    refine ⟨fun i inside => ?_, fun i inside => vec (p.strand.blockVecs_w inside), ?_, fun i inside => ?_⟩
    · show bytesToNat (slice p.block (0x800 + 4 * i) 4) = _
      rw [Spilled.block_eq, slice_append_right (by rw [Strand.length_blockHead]; omega), Strand.length_blockHead, rest, Nat.add_sub_cancel_left,
        Strand.lfsr_blockVec _ inside]
    · rw [show 0xA80 = 0x880 + 128 * 4 from rfl]
      exact vec p.strand.blockVecs_qv
    · rw [show 0xB00 + 128 * i = 0x880 + 128 * (5 + i) by omega]
      exact vec (p.strand.blockVecs_v inside)

/-- The block of a matrix owner on an A-core holds the engine's state beside them. -/
theorem Spilled.block_holdsMatrix {e : Matrix} (core : p.at_.core = .a) (mat : p.mat = some e) : matrixHolds p.block e := by
  have is : p.block = (p.strand.blockHead p.at_.core ++ p.strand.blockVec) ++ e.block := by
    rw [Spilled.block_eq, Spilled.blockRest, mat, if_neg (by rw [core]; decide), List.append_assoc]
  have len : (p.strand.blockHead p.at_.core ++ p.strand.blockVec).length = 0x1B00 := by
    rw [List.length_append, Strand.length_blockHead, Strand.length_blockVec]
  have word {i off : Nat} {w : Word} (at_ : off = 0x1B00 + 8 * i) (there : e.blockWords[i]? = some w) : wordAt p.block off = w := by
    rw [is, at_, wordAt_append_right (by omega), len, Nat.add_sub_cancel_left, Matrix.wordAt_block _ there]
  have recs {k off : Nat} {r : Vector Rec 5} (at_ : off = 0x1B00 + 8 * k) (there : ∀ i < 10, e.blockWords[k + i]? = (recWords r)[i]?) (i : Nat) (inside : i < 5) :
      wordAt p.block (off + 16 * i) = (r.getD i Rec.initial).base ∧ wordAt p.block (off + 16 * i + 8) = (r.getD i Rec.initial).desc := by
    obtain ⟨base, desc⟩ := recWords_getElem? r inside
    exact ⟨word (i := k + 2 * i) (by omega) ((there _ (by omega)).trans base), word (i := k + (2 * i + 1)) (by omega) ((there _ (by omega)).trans desc)⟩
  refine ⟨recs rfl fun i inside => e.blockWords_recs inside, word (i := 10) rfl (e.blockWords_state (i := 0) (by decide)),
    word (i := 11) rfl (e.blockWords_state (i := 1) (by decide)), fun op running => ?_, fun op pending => ?_, fun k inside => ?_⟩
  · refine recs (k := 12) rfl fun i inside => ?_
    rw [e.blockWords_running inside, blockRecs, running]
    rfl
  · refine recs (k := 22) rfl fun i inside => ?_
    rw [e.blockWords_pending inside, blockRecs, pending]
    rfl
  · have piece {off n : Nat} (past : 0x1B00 ≤ off) : slice p.block off n = slice e.block (off - 0x1B00) n := by
      rw [is, slice_append_right (by omega), len]
    obtain ⟨high, low⟩ := e.pair_block inside
    refine ⟨Eq.trans (congrArg bytesToNat ?_) high, Eq.trans (congrArg bytesToNat ?_) low⟩
    · exact (piece (by omega)).trans (congrArg (slice e.block · 4) (by omega))
    · exact (piece (by omega)).trans (congrArg (slice e.block · 4) (by omega))

end

end Sys2Proof.Machine
end

section
/-!
PROOF. Strands that leave the rotation, are spilled and come back (spec/12 R238, R254, spec/14 R293, spec/15 R311 to R313).
-/

namespace Sys2Proof.Machine

set_option Elab.async false

/-! ## Requests to leave the rotation (R293, R311) -/

/-- A strand that is asked to leave the rotation at its next turn. -/
def Strand.asked (st : Strand) : Strand := { st with preReq := true }

section
variable {s : State} {x : SlotId} {st : Strand}

theorem State.abortTx_other (y : SlotId) (other : y.tile ≠ x.tile ∨ y.member ≠ x.member) (reason : BitVec 8) (addr : Word) :
    (s.abortTx y reason addr).strand? x = s.strand? x := by
  unfold State.abortTx
  split
  · rfl
  · split
    · rfl
    · split
      · rfl
      · exact (State.strand_dropWeir _ y x).trans (State.strand?_setStrand_other _ _ other)

theorem State.preempt_other (y : SlotId) (other : y.tile ≠ x.tile ∨ y.member ≠ x.member) : (s.preempt y).strand? x = s.strand? x := by
  unfold State.preempt
  split
  · rfl
  · rw [State.strand_modStrand_other _ _ other]
    refine Eq.trans ?_ (State.abortTx_other y other 6 0)
    rw [State.strand?_of_tiles (State.dropRsv_tiles _ y), State.strand_modStrand_other _ _ other]

theorem State.requestPreempt_other (y : SlotId) (other : y.tile ≠ x.tile ∨ y.member ≠ x.member) : (s.requestPreempt y).strand? x = s.strand? x := by
  unfold State.requestPreempt
  split
  · rfl
  · split
    · rfl
    · split
      · exact State.strand_modStrand_other _ _ other
      · exact State.strand_modStrand_other _ _ other
      · rfl
      · exact State.preempt_other y other

theorem State.requestPreempt_able (here : s.strand? x = some st) (user : st.sup = false) (able : st.run = .ready) :
    s.requestPreempt x = s.setStrand x st.asked := by
  rw [State.requestPreempt, here]
  simp only [user, able]
  rw [if_neg Bool.false_ne_true, State.modStrand_of_strand here]
  rfl

theorem State.strand?_requestPreempt (here : s.strand? x = some st) (user : st.sup = false) (able : st.run = .ready) (y : SlotId) :
    (s.requestPreempt y).strand? x = some (if y.tile = x.tile ∧ y.member = x.member then st.asked else st) := by
  by_cases same : y.tile = x.tile ∧ y.member = x.member
  · have there := (s.strand_congr same.1 same.2).trans here
    rw [if_pos same, State.requestPreempt_able there user able, ← State.strand_congr _ same.1 same.2, State.strand?_setStrand]
  · rw [if_neg same, State.requestPreempt_other y (by omega), here]

theorem State.strand?_requestPreempts_asked (here : s.strand? x = some st.asked) (user : st.sup = false) (able : st.run = .ready) (ys : List SlotId) :
    (ys.foldl (fun s y => s.requestPreempt y) s).strand? x = some st.asked :=
  List.foldlRecOn ys (motive := fun t : State => t.strand? x = some st.asked) _ here fun _ asked y _ =>
    (State.strand?_requestPreempt asked user able y).trans (congrArg some (ite_self _))

/-- An able strand of a wave that is asked to leave the rotation is asked itself. -/
theorem State.strand?_requestPreempts (here : s.strand? x = some st) (user : st.sup = false) (able : st.run = .ready) {ys : List SlotId} (mine : x ∈ ys) :
    (ys.foldl (fun s y => s.requestPreempt y) s).strand? x = some st.asked := by
  induction ys generalizing s with
  | nil => cases mine
  | cons y r ih =>
    have next := State.strand?_requestPreempt here user able y
    by_cases same : y.tile = x.tile ∧ y.member = x.member
    · rw [if_pos same] at next
      exact State.strand?_requestPreempts_asked next user able r
    · rw [if_neg same] at next
      refine ih next ?_
      rcases List.mem_cons.mp mine with rfl | later
      · exact absurd ⟨rfl, rfl⟩ same
      · exact later

theorem State.near_requestPreempts (s : State) (ys : List SlotId) : s.Near (ys.foldl (fun s y => s.requestPreempt y) s) :=
  List.foldlRecOn ys (motive := fun t : State => s.Near t) _ (State.Near.rfl' s) fun t near y _ => near.trans (t.near_requestPreempt y)

theorem exec_preemption_asks (here : s.strand? x = some st) (unasked : st.preReq = false) (idle : s.ctl.ckpt = none)
    (wanted : s.displaced x st = true ∨ s.yieldedWave x st = true) :
    exec (.preemption x) s = .next ((s.waveOf x st).foldl (fun s y => s.requestPreempt y) s) := by
  refine congrArg Host.Outcome.next ?_
  rw [here]
  dsimp only
  rw [unasked, idle, if_neg (by simp), if_pos (by simpa using wanted)]

theorem exec_preemption_leaves (here : s.strand? x = some st) (user : st.sup = false) (able : st.run = .ready) (asked : st.preReq = true) :
    exec (.preemption x) s = .next (s.preempt x) := by
  refine congrArg Host.Outcome.next ?_
  rw [here]
  dsimp only
  rw [user, able, asked]
  exact if_pos rfl

end

/-! ## Spilling (R312) -/

/-- The block that a spill writes for a strand outside transactions. -/
def State.spillOf (s : State) (x : SlotId) (base : Nat) (st : Strand) : Spilled :=
  ⟨x, base, st, if (s.tile x.tile).mat.owner = some st.uid then some (s.tile x.tile).mat else none⟩

section
variable {s : State} {x : SlotId} {st : Strand} {base : Nat}

theorem State.length_spillOf (core : (s.tile x.tile).mat.owner = some st.uid → x.core = .a) : (s.spillOf x base st).block.length
    = if (s.tile x.tile).mat.owner = some st.uid then 0xDC00 else if x.core = .m then 0x800 else 0x1B00 := by
  rw [Spilled.length_block]
  by_cases owner : (s.tile x.tile).mat.owner = some st.uid
  · simp [State.spillOf, owner, core owner]
  · simp [State.spillOf, owner]

theorem exec_spill (here : s.strand? x = some st) (user : st.sup = false) (out : st.run = .preempted none) (closed : st.tx = none) (settled : st.longs = [])
    (wave : s.waveOut st = true) (due : s.spillDue x st = true)
    (room : s.areaFree base (if (s.tile x.tile).mat.owner = some st.uid then 0xDC00 else if x.core = .m then 0x800 else 0x1B00) = true) :
    ∃ t : State, exec (.spill x base) s = .next t ∧ t.strand? x = none ∧ t.spills = s.spills ++ [s.spillOf x base st]
      ∧ t.mem = memSetBytes s.mem base (s.spillOf x base st).block := by
  have size : blockSize x (decide ((s.tile x.tile).mat.owner = some st.uid))
      = if (s.tile x.tile).mat.owner = some st.uid then 0xDC00 else if x.core = .m then 0x800 else 0x1B00 := by
    simp only [blockSize, decide_eq_true_eq]
  have saved : st.asSpilled = st := by rw [Strand.asSpilled, closed]; rfl
  have block : (⟨x, base, st.asSpilled, if decide ((s.tile x.tile).mat.owner = some st.uid) = true then some (s.tile x.tile).mat else none⟩ : Spilled)
      = s.spillOf x base st := by
    simp only [State.spillOf, saved, decide_eq_true_eq]
  obtain ⟨u, isU⟩ : ∃ u : State, u = ((s.dropWeir x).dropStrand x).modTile x.tile fun t =>
      { t with
        lastSpilled := assocSet t.lastSpilled x.member st.sid
        mat := if decide ((s.tile x.tile).mat.owner = some st.uid) = true then { Matrix.initial with owner := t.mat.owner } else t.mat } := ⟨_, rfl⟩
  have runs : exec (.spill x base) s = .next { u.putBytes base (s.spillOf x base st).block with
      spills := u.spills ++ [s.spillOf x base st]
      waves := u.waves.map fun v => if some v.num = st.wave then { v with spilled := true } else v } := by
    refine congrArg Host.Outcome.next ?_
    rw [here]
    dsimp only
    rw [user, out, wave, settled, due, size, room, block, isU]
    rfl
  have gone : u.strand? x = none := by
    rw [isU]
    refine Eq.trans (State.strand?_modTile_same _ x x.tile ?_) (State.strand?_dropStrand_self (s.dropWeir x) x)
    exact fun _ => rfl
  have spills : u.spills = s.spills := by rw [isU]; rfl
  have mem : u.mem = s.mem := by rw [isU]; rfl
  refine ⟨_, runs, gone, ?_, ?_⟩
  · rw [← spills]
  · rw [← mem]
    rfl

end

/-! ## What a block gives back (R312) -/

theorem memBytes_drop (m : List Host.Cell) (a n k : Nat) : (memBytes m a n).drop k = memBytes m (a + k) (n - k) := by
  induction k generalizing a n with
  | zero => rfl
  | succ k ih =>
    cases n with
    | zero => rw [memBytes, List.drop_nil, Nat.zero_sub, memBytes]
    | succ n => rw [memBytes, List.drop_succ_cons, ih, Nat.succ_sub_succ, Nat.add_right_comm, Nat.add_assoc]

theorem memBytes_take (m : List Host.Cell) (a : Nat) {n k : Nat} (inside : k ≤ n) : (memBytes m a n).take k = memBytes m a k := by
  induction k generalizing a n with
  | zero => rfl
  | succ k ih =>
    cases n with
    | zero => omega
    | succ n => rw [memBytes, List.take_succ_cons, ih _ (by omega), memBytes]

section
variable (s : State)

theorem State.slice_readBytes {a n off k : Nat} (inside : off + k ≤ n) : slice (s.readBytes a n) off k = s.readBytes (a + off) k := by
  rw [slice, State.readBytes, memBytes_drop, memBytes_take _ _ (by omega)]
  rfl

theorem State.wordAt_readBytes {a n off : Nat} (inside : off + 8 ≤ n) : wordAt (s.readBytes a n) off = s.readWord (a + off) := by
  rw [wordAt_slice, s.slice_readBytes inside]
  rfl

theorem State.vecAt_readBytes {a n off : Nat} (inside : off + 128 ≤ n) :
    vecAt (s.readBytes a n) off = BitVec.ofNat 1024 (s.readNat (a + off) 128) := by
  have piece := congrArg (fun bs => BitVec.ofNat 1024 (bytesToNat bs)) (s.slice_readBytes (a := a) inside)
  exact piece

variable {s} {p : Spilled}

theorem State.blockNow_same (same : s.readBytes p.base p.block.length = p.block) : s.blockNow p = p := if_pos same

theorem State.blockNow_mat (plain : p.mat = none) : (s.blockNow p).mat = none := by
  unfold State.blockNow
  dsimp only
  split
  · exact plain
  · rw [plain]
    rfl

/-- The strand of a block that was changed, from the bytes that stand there. -/
theorem State.blockNow_changed (changed : s.readBytes p.base p.block.length ≠ p.block) : (s.blockNow p).strand
    = if p.at_.core = .m then p.strand.readHead p.at_.core (s.readBytes p.base p.block.length)
      else (p.strand.readHead p.at_.core (s.readBytes p.base p.block.length)).readVec (s.readBytes p.base p.block.length) := by
  unfold State.blockNow
  dsimp only
  rw [if_neg changed]

end

/-! ## Coming back (R312, R314) -/

theorem State.waveBack_rest (s : State) (w : Option Nat) : s.waveBack w = { s with waves := (s.waveBack w).waves } := by
  unfold State.waveBack
  split
  · rfl
  · split
    · split <;> rfl
    · rfl

section
variable {s : State} {x : SlotId} {p : Spilled}

/-- The state in which a spilled strand has come back to its slot, with what its block holds in `t`. -/
def State.comesBack (t : State) (x : SlotId) (p : Spilled) : State :=
  ({ t.setStrand x (t.blockNow p).strand with spills := t.spills.filter fun q => q != p } : State).waveBack p.strand.wave

theorem State.comesBack_strand (t : State) : (t.comesBack x p).strand? x = some (t.blockNow p).strand := by
  rw [State.comesBack, State.waveBack_rest]
  exact State.strand?_setStrand t x (t.blockNow p).strand

theorem State.comesBack_rest (t : State) :
    t.comesBack x p = { t with tiles := (t.setStrand x (t.blockNow p).strand).tiles, spills := t.spills.filter (fun q => q != p), waves := (t.comesBack x p).waves } := by
  conv_lhs => rw [State.comesBack, State.waveBack_rest]
  rfl

/-- A strand without a matrix engine's state that has room comes back, after what its launch gets back. -/
theorem exec_restore_spilled (empty : s.strand? x = none) (there : s.spills.find? (fun q => q.at_ = x && q.strand.uid = p.strand.uid) = some p)
    (plain : p.mat = none) (open_ : (s.tile x.tile).fenced = false) (idle : (s.tile x.tile).testing = false)
    (place : ((s.evicted.find? fun e => e.tile = x.tile && e.res.lid = p.strand.lid).map fun e => s.canReturn e).getD true = true) :
    exec (.restore x p.strand.uid) s = .next ((s.backFor x.tile p.strand.lid).comesBack x p) := by
  refine congrArg Host.Outcome.next ?_
  rw [empty]
  dsimp only
  rw [there]
  dsimp only
  rw [open_, idle, place, if_neg (by decide), State.blockNow_mat plain]
  rfl

theorem State.backFor_none (none_ : s.evicted = []) (t lid : Nat) : s.backFor t lid = s := by rw [State.backFor, none_]; rfl

theorem State.giveRings_evicted (s : State) (t : Nat) (rs : List (Nat × Ring)) :
    (s.giveRings t rs).evicted = s.evicted ∧ ((s.giveRings t rs).tile t).resid = (s.tile t).resid := by
  refine List.foldlRecOn rs (motive := fun u : State => u.evicted = s.evicted ∧ (u.tile t).resid = (s.tile t).resid) _ ⟨rfl, rfl⟩ fun u same k _ => ?_
  have put : (u.putRing none t k.1 k.2).evicted = u.evicted ∧ ((u.putRing none t k.1 k.2).tile t).resid = (u.tile t).resid := by
    have apart : Tile.Apart Tile.resid := fun _ _ _ => rfl
    rw [State.putRing]
    split
    · exact ⟨rfl, by rw [State.tile_modTile]⟩
    · refine ⟨by rw [(State.told_notifyLine _ _ _).rest]; rfl, ?_⟩
      rw [State.tile_notifyLine_apart apart, State.tile_modTile]
  refine ⟨put.1.trans same.1, ?_⟩
  rw [State.tile_modTile]
  exact put.2.trans same.2

/-- A launch that was evicted gets back its place on the tile before a strand of it returns. -/
theorem State.backFor_evicted {e : Evicted} (one : s.evicted = [e]) {lid : Nat} (lid_ : e.res.lid = lid) (may : s.canReturn e = true) :
    (s.backFor e.tile lid).evicted = [] ∧ ((s.backFor e.tile lid).tile e.tile).resid = (s.tile e.tile).resid ++ [e.res] := by
  have gives : s.backFor e.tile lid = s.giveBack e := by
    rw [State.backFor, one, List.find?_cons_of_pos (by simp [lid_])]
    exact if_pos may
  rw [gives]
  unfold State.giveBack
  extract_lets b as ws bs bits lines u v
  have evicted : u.evicted = s.evicted := rfl
  have tiles : u.tiles = s.tiles := rfl
  clear_value u
  have rings := State.giveRings_evicted (u.modTile e.tile fun t => { t with resid := t.resid ++ [e.res] }) e.tile
    ((e.rings.zipIdx).map fun k => (k.1.1, k.1.2.fromLine (u.readBytes (lines + 64 * k.2) 64)))
  refine ⟨?_, ?_⟩
  · have left : v.evicted = [e] := rings.1.trans (evicted.trans one)
    show v.evicted.filter (fun k => k != e) = []
    rw [left]
    simp
  · refine rings.2.trans ?_
    rw [State.tile_modTile, State.tile, tiles]
    rfl

/-- A strand of the rotation's that has been left out of it goes on (R311). -/
theorem exec_restore_resident {st : Strand} (here : s.strand? x = some st) (out : st.run = .preempted none) (closed : st.tx = none) (bare : s.spills = []) :
    exec (.restore x st.uid) s = .next (s.setStrand x { st with
      run := if st.mark && !st.longs.isEmpty then .parked else .ready
      wakeReq := none
      yielded := false }) := by
  have returns : st.unpreempt = { st with run := if st.mark && !st.longs.isEmpty then .parked else .ready, wakeReq := none, yielded := false } := by
    simp only [Strand.unpreempt, out, closed]
    rfl
  refine congrArg Host.Outcome.next ?_
  rw [here]
  dsimp only
  rw [out, bare, if_pos (by simp [Run.isPreempted]), State.modStrand_of_strand here, returns]

end

/-! ## The deadline of a spilled wave (R293, R248) -/

/-- A choice among candidates that are all the same one. -/
theorem foldl_only {α : Type} {f : Option α → α → Option α} {l : List α} {v : α} (first : ∀ v, f none v = some v) (again : ∀ v, f (some v) v = some v)
    (all : ∀ u ∈ l, u = v) (some_ : v ∈ l) : l.foldl f none = some v := by
  have kept (l : List α) (all : ∀ u ∈ l, u = v) : l.foldl f (some v) = some v := by
    induction l with
    | nil => rfl
    | cons u r ih =>
      obtain rfl : u = v := all u List.mem_cons_self
      rw [List.foldl_cons, again]
      exact ih fun k hk => all k (List.mem_cons_of_mem _ hk)
  cases l with
  | nil => cases some_
  | cons u r =>
    obtain rfl : u = v := all u List.mem_cons_self
    rw [List.foldl_cons, first]
    exact kept r fun k hk => all k (List.mem_cons_of_mem _ hk)

theorem exec_restoreDeadline_asks {s : State} {n w : Nat} {y : SlotId} {v : Wave} {st : Strand} (placed : v ∈ s.waves) (whole : v.spilled = false)
    (other : v.num ≠ w) (alone : v.members = [y]) (only : ∀ u ∈ s.waves, u = v ∨ u.spilled = true) (here : s.strand? y = some st)
    (wave : st.wave = some v.num) (able : st.run = .ready) (user : st.sup = false) (spilled : ∃ p ∈ s.spills, p.strand.wave = some w ∧ p.at_ = y)
    (tile : y.tile = n) : exec (.restoreDeadline n w) s = .next (s.setStrand y st.asked) := by
  obtain ⟨p, mem, of, at_⟩ := spilled
  refine congrArg Host.Outcome.next ?_
  have wanted : ((s.spills.filter fun p => p.isOf w && p.at_.tile = n).map (·.at_)).contains y = true := by
    rw [List.contains_iff_mem]
    refine List.mem_map.mpr ⟨p, List.mem_filter.mpr ⟨mem, ?_⟩, at_⟩
    simp [Spilled.isOf, of, at_, tile]
  rw [foldl_only (v := v) (fun _ => ?first) (fun _ => ?again) ?all ?there]
  case first => rfl
  case again => exact ite_self _
  case all =>
    intro u mem
    obtain ⟨mem, holds⟩ := List.mem_filter.mp mem
    refine (only u mem).resolve_right fun gone => ?_
    simp [gone] at holds
  case there =>
    refine List.mem_filter.mpr ⟨placed, ?_⟩
    simp only [alone, List.any_cons, List.any_nil, wanted, here, wave, whole, Option.bind_some, Bool.not_false, bne_iff_ne.mpr other]
    simp
  dsimp only
  rw [alone]
  exact State.requestPreempt_able here user able

end Sys2Proof.Machine
end

section
/-!
PROOF. What an eviction saves of a launch's place on a tile (spec/15 R314), and pre-emption as a whole.
-/

namespace Sys2Proof.Machine

set_option Elab.async false

/-! ## Bits as bytes -/

theorem bitBytes_eight (b0 b1 b2 b3 b4 b5 b6 b7 : Bool) : ∀ i < 8,
    (BitVec.ofNat 8 ((if b0 then 1 else 0) + (if b1 then 2 else 0) + (if b2 then 4 else 0) + (if b3 then 8 else 0) + (if b4 then 16 else 0)
      + (if b5 then 32 else 0) + (if b6 then 64 else 0) + (if b7 then 128 else 0))).getLsbD i = [b0, b1, b2, b3, b4, b5, b6, b7].getD i false := by
  decide +revert

/-- The last byte, of fewer than eight bits. -/
theorem bitBytes_few {r : List Bool} (few : r.length < 8) : ∀ i < 8,
    (BitVec.ofNat 8 (r.zipIdx.foldl (fun n p => if p.1 then n + 2 ^ p.2 else n) 0)).getLsbD i = r.getD i false := by
  match r, few with
  | [], _ => decide
  | [a], _ => decide +revert
  | [a, b], _ => decide +revert
  | [a, b, c], _ => decide +revert
  | [a, b, c, d], _ => decide +revert
  | [a, b, c, d, e], _ => decide +revert
  | [a, b, c, d, e, f], _ => decide +revert
  | [a, b, c, d, e, f, g], _ => decide +revert

/-- Bits as bytes: as many as they need, each bit at its place. -/
theorem bitBytes_bits (bs : List Bool) : (bitBytes bs).length = (bs.length + 7) / 8
    ∧ ∀ i < bs.length, ((bitBytes bs).getD (i / 8) 0).getLsbD (i % 8) = bs.getD i false := by
  induction bs using bitBytes.induct with
  | case1 b0 b1 b2 b3 b4 b5 b6 b7 r ih =>
    obtain ⟨len, bits⟩ := ih
    rw [bitBytes]
    refine ⟨?_, fun i inside => ?_⟩
    · simp only [List.length_cons, len]
      omega
    · by_cases first : i < 8
      · rw [show i / 8 = 0 by omega, Nat.mod_eq_of_lt first, List.getD_cons_zero, bitBytes_eight b0 b1 b2 b3 b4 b5 b6 b7 i first]
        simp only [List.getD_eq_getElem?_getD]
        rw [show b0 :: b1 :: b2 :: b3 :: b4 :: b5 :: b6 :: b7 :: r = [b0, b1, b2, b3, b4, b5, b6, b7] ++ r from rfl, List.getElem?_append_left (by simpa using first)]
      · obtain ⟨j, rfl⟩ : ∃ j, i = 8 + j := ⟨i - 8, by omega⟩
        simp only [List.length_cons] at inside
        rw [show (8 + j) / 8 = j / 8 + 1 by omega, show (8 + j) % 8 = j % 8 by omega, List.getD_cons_succ, bits j (by omega)]
        simp only [List.getD_eq_getElem?_getD]
        rw [show b0 :: b1 :: b2 :: b3 :: b4 :: b5 :: b6 :: b7 :: r = [b0, b1, b2, b3, b4, b5, b6, b7] ++ r from rfl,
          List.getElem?_append_right (by simp), List.length_cons]
        congr 2
        simp
  | case2 => exact ⟨rfl, fun i h => absurd h (Nat.not_lt_zero i)⟩
  | case3 r large some_ =>
    have few : r.length < 8 := by
      match r, large with
      | [], _ | [_], _ | [_, _], _ | [_, _, _], _ | [_, _, _, _], _ | [_, _, _, _, _], _ | [_, _, _, _, _, _], _ | [_, _, _, _, _, _, _], _ => simp
      | b0 :: b1 :: b2 :: b3 :: b4 :: b5 :: b6 :: b7 :: l, large => exact absurd rfl (large b0 b1 b2 b3 b4 b5 b6 b7 l)
    have pos : 0 < r.length := List.length_pos_iff.mpr some_
    rw [bitBytes]
    · refine ⟨?_, fun i inside => ?_⟩
      · rw [List.length_singleton]
        omega
      · rw [show i / 8 = 0 by omega, Nat.mod_eq_of_lt (by omega), List.getD_cons_zero, bitBytes_few few i (by omega)]
    · exact large
    · exact some_

/-! ## Status lines of rings (Table 5.4) -/

theorem Ring.length_line (g : Ring) : g.line.length = 64 := by
  rw [Ring.line, length_wordBytes, List.length_map, List.length_range]

theorem Ring.wordAt_line (g : Ring) {i : Nat} (inside : i < 8) : wordAt g.line (8 * i) = g.word i := by
  refine wordAt_wordBytes ?_
  rw [List.getElem?_map, List.getElem?_range inside]
  rfl

/-- The words of a status line as numbers. -/
theorem Ring.word_toNat (g : Ring) : (g.word 0).toNat = (if g.cfg then 2 ^ 63 else 0) + g.desc.toNat ∧ (g.word 1).toNat = g.pgen.toNat * 2 ^ 32 + g.cgen.toNat
    ∧ (g.word 2).toNat = g.cmem.toNat * 2 ^ 24 + g.pmem.toNat ∧ (g.word 3).toNat = g.carr.toNat * 2 ^ 24 + g.parr.toNat
    ∧ ∀ i, 4 ≤ i → i < 8 → (g.word i).toNat = 0 := by
  have joined {v w : Nat} (a : BitVec v) (b : BitVec w) : (a ++ b).toNat = a.toNat * 2 ^ w + b.toNat := by
    rw [BitVec.toNat_append, ← Nat.shiftLeft_add_eq_or_of_lt b.isLt, Nat.shiftLeft_eq]
  refine ⟨?_, joined _ _, ?_, ?_, fun i low high => ?_⟩
  · rw [show g.word 0 = BitVec.ofBool g.cfg ++ g.desc from rfl, joined]
    cases g.cfg <;> rfl
  · rw [show g.word 2 = (0#16 ++ g.cmem ++ g.pmem : BitVec 64) from rfl, joined, joined]
    simp
  · rw [show g.word 3 = (0#16 ++ g.carr ++ g.parr : BitVec 64) from rfl, joined, joined]
    simp
  · rw [Ring.word, if_neg (by omega), if_neg (by omega), if_neg (by omega), if_neg (by omega)]
    rfl

theorem slice_slice {bs : List Byte} {a m b n : Nat} (inside : b + n ≤ m) : slice (slice bs a m) b n = slice bs (a + b) n := by
  rw [slice, slice, slice, List.drop_take, List.take_take, List.drop_drop, Nat.min_eq_left (by omega)]

/-- The lines of a launch's rings one after another. -/
theorem wordAt_lines {α : Type} {f : α → Ring} {rs : List α} {j i : Nat} {a : α} (there : rs[j]? = some a) (inside : i < 8) :
    wordAt (rs.flatMap fun k => (f k).line) (64 * j + 8 * i) = (f a).word i := by
  have line : slice (rs.flatMap fun k => (f k).line) (64 * j) 64 = (f a).line := drop_flatMap_const (fun k => (f k).length_line) there
  rw [wordAt_slice, ← slice_slice (m := 64) (by omega), line, ← wordAt_slice, Ring.wordAt_line _ inside]

/-! ## Evictions (R314) -/

/-- A tile without a launch's place. -/
def Tile.forget (t : Tile) (lid : Nat) : Tile := { t with resid := t.resid.filter fun q => q.lid != lid }

section
variable {s : State} {n lid base : Nat} {r : Resident}

theorem exec_launchEvict (there : s.residOf n lid = some r) (left : ∀ p ∈ (s.tile n).strands, p.2.lid ≠ lid)
    (quiet : ∀ q ∈ s.tiles, ∀ c ∈ q.2.chans.toList, ∀ t ∈ c.queue, t.lid ≠ lid ∧ s.writesInto q.1 n r t = false) (wanted : s.padWanted n lid = true)
    (room : s.areaFree base r.savedSize = true) :
    exec (.launchEvict n ⟨lid, base⟩) s = .next { (s.putBytes base (s.savedArea n r)).modTile n fun t => t.forget lid with
      evicted := s.evicted ++ [⟨n, r, base, r.rings.map fun k => (k, (s.tile n).rings.getD k Ring.initial)⟩] } := by
  have strands : ((s.tile n).strands.any fun p => p.2.lid = lid && !p.2.sup) = false := by
    rw [List.any_eq_false]
    intro p mem
    simp [left p mem]
  have chans : (s.tiles.any fun q => q.2.chans.any fun c => c.queue.any fun t => t.lid = lid || s.writesInto q.1 n r t) = false := by
    rw [List.any_eq_false]
    intro q mem
    rw [Bool.not_eq_true, Vector.any_eq_false]
    intro i inside
    rw [Bool.not_eq_true, List.any_eq_false]
    intro t queued
    obtain ⟨other, free⟩ := quiet q mem q.2.chans[i] (by simp) t queued
    simp [other, free]
  refine congrArg Host.Outcome.next ?_
  unfold Tile.forget
  rw [there]
  dsimp only
  rw [strands, chans, wanted, room, if_neg (by decide)]
  rfl

/-- The bytes, the bits and the lines of what an eviction saves. -/
theorem State.savedArea_parts (s : State) (n : Nat) (r : Resident) : ∃ bits lines : List Byte,
    s.savedArea n r = r.addrs.map (fun a => memGet s.mem (s.padBase n + a)) ++ bits ++ lines ∧ bits.length = (r.words.length + 7) / 8
      ∧ (∀ i w, r.words[i]? = some w → (bits.getD (i / 8) 0).getLsbD (i % 8) = decide (s.padBase n / 8 + w ∈ s.full))
      ∧ lines.length = 64 * r.rings.length
      ∧ ∀ (j k i : Nat) (g : Ring), r.rings[j]? = some k → (s.tile n).rings[k]? = some g → i < 8 → wordAt lines (64 * j + 8 * i) = g.word i := by
  obtain ⟨len, bits⟩ := bitBytes_bits (r.words.map fun w => s.full.contains (s.padBase n / 8 + w))
  refine ⟨_, _, rfl, by rw [len, List.length_map], fun i w there => ?_,
    length_flatMap_const (fun k => ((s.tile n).rings.getD k Ring.initial).length_line) _, fun j k i g ring is inside => ?_⟩
  · have inside : i < r.words.length := (List.getElem?_eq_some_iff.mp there).1
    rw [bits i (by rw [List.length_map]; exact inside), List.getD_eq_getElem?_getD, List.getElem?_map, there]
    simp [List.contains_eq_mem]
  · rw [wordAt_lines ring inside, vector_getD_of_some is]

end

/-! ## The registers of a block that was changed -/

theorem vector_getD_ofFn {α : Type} {n i : Nat} (f : Fin n → α) (inside : i < n) (d : α) : (Vector.ofFn f).getD i d = f ⟨i, inside⟩ :=
  vector_getD_of_some (by rw [Vector.getElem?_eq_getElem inside, Vector.getElem_ofFn]) d

/-- The registers of a strand that an event's window and the others read from a context block, with their offsets there (Table 15.8). -/
def Strand.headed (st : Strand) : List (Nat × Word) :=
  [(0x140, st.regs.q), (0x158, st.regs.fctl), (0x160, st.regs.slim), (0x168, st.regs.padlo), (0x170, st.regs.padhi), (0x178, st.regs.ptroot),
    (0x188, st.regs.txaddr), (0x190, st.regs.cellbase), (0x198, st.regs.cellgen), (0x1A0, st.tepc), (0x1A8, st.tcause), (0x1B0, st.tdetail)]

/-- The offsets of those registers. -/
def headedOffsets : List Nat := [0x140, 0x158, 0x160, 0x168, 0x170, 0x178, 0x188, 0x190, 0x198, 0x1A0, 0x1A8, 0x1B0]

theorem headedOffsets_inside : ∀ off ∈ headedOffsets, off < 0x1B8 := by
  decide

theorem Strand.readHead_headed (st : Strand) (core : Core) (bs : List Byte) :
    (st.readHead core bs).headed = headedOffsets.map fun off => (off, wordAt bs off) := rfl

theorem Strand.readHead_kept (st : Strand) (core : Core) (bs : List Byte) :
    (st.readHead core bs).run = st.run ∧ (st.readHead core bs).lid = st.lid ∧ (st.readHead core bs).regs.s = Vector.ofFn (fun i => wordAt bs (8 * i.val))
      ∧ (st.readHead core bs).regs.o = Vector.ofFn (fun i => wordAt bs (8 * (32 + i.val))) := by
  unfold Strand.readHead
  exact ⟨rfl, rfl, rfl, rfl⟩

theorem Strand.readVec_v (st : Strand) (bs : List Byte) : (st.readVec bs).regs.v = Vector.ofFn (fun i => vecAt bs (0xB00 + 128 * i.val)) := by
  unfold Strand.readVec
  rfl

/-- The vector registers of a block come after what its head holds. -/
theorem Strand.readVec_kept (st : Strand) (bs : List Byte) : (st.readVec bs).run = st.run ∧ (st.readVec bs).lid = st.lid
    ∧ (st.readVec bs).headed = st.headed ∧ (st.readVec bs).regs.s = st.regs.s ∧ (st.readVec bs).regs.o = st.regs.o := by
  unfold Strand.readVec Strand.headed
  exact ⟨rfl, rfl, rfl, rfl, rfl⟩

/-- What a changed block gives back: all that the head holds, and the vector registers of a core that has them. -/
theorem State.blockNow_head {s : State} {p : Spilled} (changed : s.readBytes p.base p.block.length ≠ p.block) :
    (s.blockNow p).strand.run = p.strand.run ∧ (s.blockNow p).strand.lid = p.strand.lid
      ∧ (s.blockNow p).strand.headed = headedOffsets.map (fun off => (off, wordAt (s.readBytes p.base p.block.length) off))
      ∧ (s.blockNow p).strand.regs.s = Vector.ofFn (fun i => wordAt (s.readBytes p.base p.block.length) (8 * i.val))
      ∧ (s.blockNow p).strand.regs.o = Vector.ofFn (fun i => wordAt (s.readBytes p.base p.block.length) (8 * (32 + i.val)))
      ∧ (p.at_.core ≠ .m → (s.blockNow p).strand.regs.v = Vector.ofFn (fun i => vecAt (s.readBytes p.base p.block.length) (0xB00 + 128 * i.val))) := by
  rw [State.blockNow_changed changed]
  generalize s.readBytes p.base p.block.length = bs
  split
  case isTrue m =>
    obtain ⟨run, lid, regs, outs⟩ := p.strand.readHead_kept p.at_.core bs
    exact ⟨run, lid, Strand.readHead_headed .., regs, outs, fun other => absurd m other⟩
  case isFalse =>
    obtain ⟨run, lid, regs, outs⟩ := p.strand.readHead_kept p.at_.core bs
    obtain ⟨sameRun, sameLid, sameHead, sameRegs, sameOuts⟩ := (p.strand.readHead p.at_.core bs).readVec_kept bs
    exact ⟨sameRun.trans run, sameLid.trans lid, sameHead.trans (Strand.readHead_headed ..), sameRegs.trans regs, sameOuts.trans outs, fun _ => Strand.readVec_v ..⟩

theorem State.blockNow_registers {s : State} {x : SlotId} {p : Spilled} (changed : s.readBytes p.base p.block.length ≠ p.block) (core : p.at_.core = x.core) :
    (s.blockNow p).strand.run = p.strand.run ∧ (s.blockNow p).strand.lid = p.strand.lid
      ∧ (∀ i < 32, (s.blockNow p).strand.regs.s.getD i 0 = s.readWord (p.base + 8 * i))
      ∧ (∀ i < 8, (s.blockNow p).strand.regs.o.getD i 0 = s.readWord (p.base + 0x100 + 8 * i))
      ∧ (∀ q ∈ [(0x140, (s.blockNow p).strand.regs.q), (0x158, (s.blockNow p).strand.regs.fctl), (0x160, (s.blockNow p).strand.regs.slim),
          (0x168, (s.blockNow p).strand.regs.padlo), (0x170, (s.blockNow p).strand.regs.padhi), (0x178, (s.blockNow p).strand.regs.ptroot),
          (0x188, (s.blockNow p).strand.regs.txaddr), (0x190, (s.blockNow p).strand.regs.cellbase), (0x198, (s.blockNow p).strand.regs.cellgen),
          (0x1A0, (s.blockNow p).strand.tepc), (0x1A8, (s.blockNow p).strand.tcause), (0x1B0, (s.blockNow p).strand.tdetail)],
        q.2 = s.readWord (p.base + q.1))
      ∧ (x.core ≠ .m → ∀ i < 32, (s.blockNow p).strand.regs.v.getD i 0 = BitVec.ofNat 1024 (s.readNat (p.base + 0xB00 + 128 * i) 128)) := by
  obtain ⟨run, lid, headed, regs, outs, vecs⟩ := State.blockNow_head changed
  have long : 0x800 ≤ p.block.length ∧ (p.at_.core ≠ .m → 0x1B00 ≤ p.block.length) := by
    rw [Spilled.length_block]
    refine ⟨by split <;> omega, fun vector => ?_⟩
    rw [if_neg vector]
    exact Nat.le_add_right ..
  refine ⟨run, lid, fun i inside => ?_, fun i inside => ?_, fun q mem => ?_, fun vector i inside => ?_⟩
  · rw [regs, vector_getD_ofFn _ inside]
    exact s.wordAt_readBytes (by omega)
  · rw [outs, vector_getD_ofFn _ inside, Nat.add_assoc, show 8 * (32 + i) = 0x100 + 8 * i by omega]
    exact s.wordAt_readBytes (by omega)
  · replace mem : q ∈ (s.blockNow p).strand.headed := mem
    rw [headed] at mem
    obtain ⟨off, listed, rfl⟩ := List.mem_map.mp mem
    have inside := headedOffsets_inside off listed
    exact s.wordAt_readBytes (by omega)
  · rw [vecs (core ▸ vector), vector_getD_ofFn _ inside, Nat.add_assoc]
    have size := long.2 (core ▸ vector)
    exact s.vecAt_readBytes (by omega)

/-! ## The statement -/

/-- Settles O52: each event by what it asks for, what it saves and what it gives back. -/
theorem preemptionSteps : Obligations.PreemptionSteps := by
  refine ⟨fun s x st here user able closed => ⟨?asks, ?leaves⟩, ?spill, fun s x p empty there plain open_ idle => ⟨?back, ?backEvicted⟩, ?resident, ?deadline, ?evict⟩
  case asks =>
    intro unasked running wanted
    have near := s.near_requestPreempts (s.waveOf x st)
    exact ⟨_, exec_preemption_asks here unasked running wanted, ⟨near.mem, near.full⟩, fun y mine k there user able =>
      State.strand?_requestPreempts there user able mine⟩
  case leaves =>
    intro asked
    have near := s.near_preempt x
    exact ⟨_, exec_preemption_leaves here user able asked, ⟨near.mem, near.full⟩, State.strand?_preempt here closed able⟩
  case spill =>
    intro s x st base here user out closed settled wave bare due
    dsimp only
    intro room core
    obtain ⟨t, runs, gone, spills, mem⟩ := exec_spill here user out closed settled wave due room
    rw [bare, List.nil_append] at spills
    refine ⟨t, s.spillOf x base st, runs, gone, spills, rfl, rfl, rfl, State.length_spillOf core, mem, (s.spillOf x base st).block_holds, fun owner => ?_⟩
    exact (s.spillOf x base st).block_holdsMatrix (core owner) (if_pos owner)
  case back =>
    intro none_
    have runs := exec_restore_spilled empty there plain open_ idle (by rw [none_]; rfl)
    rw [State.backFor_none none_] at runs
    have rest := s.comesBack_rest (x := x) (p := p)
    refine ⟨s.comesBack x p, (s.blockNow p).strand, runs, ⟨by rw [rest], by rw [rest]⟩, s.comesBack_strand, by rw [rest], fun same => ?_, fun changed core => ?_⟩
    · rw [State.blockNow_same same]
    · exact State.blockNow_registers changed core
  case backEvicted =>
    intro e one tile lid may
    have place : ((s.evicted.find? fun e => e.tile = x.tile && e.res.lid = p.strand.lid).map fun e => s.canReturn e).getD true = true := by
      rw [one, List.find?_cons_of_pos (by simp [tile, lid])]
      exact may
    obtain ⟨evicted, resid⟩ := State.backFor_evicted one lid may
    rw [tile] at evicted resid
    have rest := (s.backFor x.tile p.strand.lid).comesBack_rest (x := x) (p := p)
    refine ⟨_, exec_restore_spilled empty there plain open_ idle place, ?_, ?_, ?_⟩
    · rw [State.comesBack_strand]
      rfl
    · rw [rest]
      exact evicted
    · rw [← resid, rest]
      exact State.tile_setStrand_apart (f := Tile.resid) (fun _ _ _ => rfl) ..
  case resident => exact fun s x st here out closed bare => exec_restore_resident here out closed bare
  case deadline =>
    exact fun s n w y v st placed whole other alone only here wave able user spilled tile =>
      exec_restoreDeadline_asks placed whole other alone only here wave able user spilled tile
  case evict =>
    intro s n lid base r there left quiet wanted room
    obtain ⟨bits, lines, is, bitLen, bitAt, lineLen, lineAt⟩ := s.savedArea_parts n r
    refine ⟨_, _, bits, lines, exec_launchEvict there left quiet wanted room, rfl, rfl, rfl, rfl, ?_, ?_, bitLen, bitAt, lineLen, fun j k g ring is => ?_⟩
    · exact congrArg Tile.resid (State.tile_modTile (s.putBytes base (s.savedArea n r)) n fun t => t.forget lid)
    · show memSetBytes s.mem base (s.savedArea n r) = _
      rw [is]
    · have word (i : Nat) (inside : i < 8) := lineAt j k i g ring is inside
      obtain ⟨w0, w1, w2, w3, zeros⟩ := g.word_toNat
      exact ⟨(congrArg BitVec.toNat (word 0 (by decide))).trans w0, (congrArg BitVec.toNat (word 1 (by decide))).trans w1,
        (congrArg BitVec.toNat (word 2 (by decide))).trans w2, (congrArg BitVec.toNat (word 3 (by decide))).trans w3,
        fun i low high => (congrArg BitVec.toNat (word i high)).trans (zeros i low high)⟩

end Sys2Proof.Machine
end

section
/-!
PROOF. Serving does not hold of every state: the sluice's walk of a prompt's first page can drop the translation of its second.
-/

namespace Sys2Proof.Machine

set_option Elab.async false

/-- An entry for the buffer's second page in address space 0, which the tables have since given another place. -/
def oldLeaf : Leaf := ⟨0x20000, 0, 0x3002F, 0⟩

/-- An entry of another address space. -/
def otherLeaf : Leaf := ⟨0x10000000000, 0, 0, 1⟩

/-- A prompt whose shadow has half of its 8 bytes on each of two pages. -/
def splitPrompt : Cell := ⟨0, 0, true, false, false, 0, 0, 0, 0, 0, 0, 0, 0, 0x1FFFC, 8, 0, [], [], [], none⟩

/-- The request that is about to commit no ids to it, through address space 5 on tile 1. -/
def splitJob : IntkJob := ⟨5, 0, 0, 0, 0, 0, none, false, []⟩
def splitRequest : IntkReq := ⟨0, 0, 0, 1, false, some splitJob⟩

/-- Tile 0's buffer is full, and its oldest entry is the stale one; address space 0 maps its first 2^30 bytes to themselves, and so does address
space 5. The cell class may miss what the io path writes. -/
def splitPrompts : State :=
  { State.reset with
    mem := memSetBytes (memSetBytes (memSetBytes [] 0 (natToBytes 8 0x1001)) 0x1000 (natToBytes 8 0x2F)) 0x20000 [7]
    tiles := [(0, { Tile.initial with tlb := oldLeaf :: List.replicate 63 otherLeaf }), (1, { Tile.initial with tlb := [⟨0, 2, 0x2F, 5⟩] })]
    cells := [splitPrompt]
    sheets := [⟨0, 0, 0, [], [], [], none⟩]
    intkReqs := [splitRequest]
    lagOn := [(pathIo, pathCell)] }

/-- What the engine wrote to the second page is undone as a write that the cell class has missed. -/
theorem exec_splitPrompts : (match exec (.intake 0) splitPrompts with | .next t => memGet t.mem 0x20000 | _ => 0) = 7 := by
  decide +kernel

/-- The engine's own writes. -/
def splitPromptsWritten : State := (splitPrompts.vaTouch ⟨1, 5, false⟩ 0x1FFFC 8 .write).vaWrite ⟨1, 5, false⟩ 0x1FFFC pathIo (List.replicate 8 0)

theorem mem_splitPromptsWritten : memGet splitPromptsWritten.mem 0x20000 = 0 := by
  decide +kernel

/-- Refutes O54: an intake's commit need not leave memory as its engine wrote it. Where the sluice's walk of the prompt's first page drops a stale entry
for the second from the buffers, what the engine wrote there, and the cell class may still miss, is put back as it was. -/
theorem not_serving : ¬ Obligations.Serving := by
  intro h
  obtain ⟨-, -, intakes, -⟩ := h
  obtain ⟨-, -, commits⟩ := intakes splitPrompts 0 splitRequest rfl (fun _ mem => absurd mem List.not_mem_nil)
  obtain ⟨-, commits⟩ := commits splitJob splitPrompt ⟨0, 0, 0, [], [], [], none⟩ rfl rfl rfl rfl
  obtain ⟨t, y, runs, -, -, -, -, -, -, -, mem⟩ := commits rfl (by decide +kernel) rfl rfl rfl rfl rfl (by decide) rfl (by decide) (by decide +kernel)
  have undone := exec_splitPrompts
  rw [runs] at undone
  have kept : memGet t.mem 0x20000 = 0 := (congrArg (memGet · 0x20000) mem).trans mem_splitPromptsWritten
  exact absurd (kept.symm.trans undone) (by decide)

end Sys2Proof.Machine
end

section
/-!
PROOF. What ends with a launch leaves the list of launches as it is, but for marks of the ending; so a fatal error ends every launch (spec/15 R316).
-/

namespace Sys2Proof.Machine

set_option Elab.async false

/-! ## Launches under the steps of an ending -/

theorem State.launches_foldl {α : Type} {f : State → α → State} (step : ∀ s a, (f s a).launches = s.launches) (l : List α) (s : State) :
    (l.foldl f s).launches = s.launches :=
  List.foldlRecOn l (motive := fun t : State => t.launches = s.launches) f rfl fun t same a _ => (step t a).trans same

section
variable (s : State)

@[simp] theorem State.launches_modStrand (x : SlotId) (f : Strand → Strand) : (s.modStrand x f).launches = s.launches := by
  rw [State.modStrand_rest]

@[simp] theorem State.launches_notifyLine (w : Option SlotId) (l : Loc) : (s.notifyLine w l).launches = s.launches := by
  rw [(s.told_notifyLine w l).rest]

@[simp] theorem State.launches_modSpilled (sel : Spilled → Bool) (f : Spilled → Spilled) : (s.modSpilled sel f).launches = s.launches := by
  unfold State.modSpilled
  extract_lets changed u
  exact (State.launches_foldl (f := fun t p => t.putBytes p.base p.block) (fun _ _ => rfl) changed u).trans rfl

@[simp] theorem State.launches_modUid (x : SlotId) (uid : Nat) (f : Strand → Strand) : (s.modUid x uid f).launches = s.launches := by
  rw [State.modUid]
  split <;> simp

@[simp] theorem State.launches_modMember (w : Nat) (x : SlotId) (f : Strand → Strand) : (s.modMember w x f).launches = s.launches := by
  rw [State.modMember]
  split <;> simp

@[simp] theorem State.launches_modMemberMat (w : Nat) (x : SlotId) (f : Matrix → Matrix) : (s.modMemberMat w x f).launches = s.launches := by
  rw [State.modMemberMat]
  split <;> simp

@[simp] theorem State.launches_putCell (c : Cell) : (s.putCell c).launches = s.launches := by
  rw [State.putCell]
  split <;> simp

@[simp] theorem State.launches_modCell (n : Nat) (f : Cell → Cell) : (s.modCell n f).launches = s.launches := by
  rw [State.modCell]
  split <;> simp

@[simp] theorem State.launches_modSheet (n : Nat) (f : Sheet → Sheet) : (s.modSheet n f).launches = s.launches := rfl

@[simp] theorem State.launches_modGens (n : Nat) (f : Sheet → Sheet) : (s.modGens n f).launches = s.launches := by
  unfold State.modGens
  extract_lets t
  split
  · rfl
  · exact t.launches_notifyLine _ _

@[simp] theorem State.launches_modEdits (n : Nat) (f : List Edit → List Edit) : (s.modEdits n f).launches = s.launches := by
  unfold State.modEdits
  split
  · rfl
  · exact State.launches_foldl (fun t c => t.launches_notifyLine _ _) _ _

@[simp] theorem State.launches_faultSeed (n c h : Nat) : (s.faultSeed n c h).launches = s.launches :=
  State.launches_modCell _ c _

theorem State.launches_cascade (n : Nat) : (s.cascade n).launches = s.launches := by
  unfold State.cascade
  split
  · rfl
  · refine State.launches_foldl (fun t q => ?_) _ s
    split <;> simp

@[simp] theorem State.launches_deliver (x : SlotId) (uid : Nat) (sid : Word) (lid code : Nat) (detail : Word) :
    (s.deliver x uid sid lid code detail).launches = s.launches := by
  rw [State.deliver]
  split <;> simp

@[simp] theorem State.launches_dropLong (id : Nat) (who : SlotId) (uid : Nat) : (s.dropLong id who uid).launches = s.launches :=
  State.launches_modUid _ who uid _

@[simp] theorem State.launches_finishLong (id : Nat) (v : Word) : (s.finishLong id v).launches = s.launches := by
  unfold State.finishLong
  split
  · rfl
  · split <;> simp

theorem State.launches_answerWaits (n : Nat) : (s.answerWaits n).launches = s.launches := by
  refine State.launches_foldl (fun t w => ?_) _ s
  dsimp only
  repeat' split
  all_goals simp

@[simp] theorem State.launches_taskFailed (c h : Nat) : (s.taskFailed c h).launches = s.launches := by
  unfold State.taskFailed State.settle
  split
  · rfl
  · rw [State.launches_answerWaits, State.launches_modGens, State.launches_cascade, State.launches_faultSeed]

@[simp] theorem State.launches_setTBar (w : Option SlotId) (t k : Nat) (b : Barrier) : (s.setTBar w t k b).launches = s.launches := by
  unfold State.setTBar
  dsimp only
  split <;> simp

@[simp] theorem State.launches_completeTBar (w : Option SlotId) (t k : Nat) : (s.completeTBar w t k).launches = s.launches := by
  unfold State.completeTBar
  dsimp only
  split
  · refine (State.launches_foldl (fun u m => ?_) _ _).trans (s.launches_setTBar ..)
    split <;> simp
  · rfl

theorem State.launches_startGang (w : Nat) (ms : List SlotId) (came : SlotId → Bool) : (s.startGang w ms came).launches = s.launches := by
  unfold State.startGang
  extract_lets descs ok m
  split
  · exact State.launches_foldl (fun u x => by simp) _ s
  · refine State.launches_foldl (fun u x => ?_) _ s
    split <;> simp

@[simp] theorem State.launches_completeRBar (r k : Nat) : (s.completeRBar r k).launches = s.launches := by
  unfold State.completeRBar
  dsimp only
  split
  · split
    · rfl
    · split
      · exact State.launches_foldl (fun u x => by simp) _ _
      · exact State.launches_startGang ..
  · rfl

theorem State.launches_leaveBars (x : SlotId) (wv : Wave) : (s.leaveBars x wv).launches = s.launches := by
  unfold State.leaveBars
  split <;> exact State.launches_foldl (fun u p => by simp) _ s

theorem State.launches_leaveRings (x : SlotId) (uid : Nat) : (s.leaveRings x uid).launches = s.launches := by
  unfold State.leaveRings
  dsimp only
  refine State.launches_foldl (fun u k => ?_) _ s
  split
  · unfold State.setRing State.putRing
    dsimp only
    split <;> simp
  · rfl

end

/-! ## The marks of the ending -/

/-- Of each launch, its number and whether it is ending. -/
def State.endings (s : State) : List (Nat × Bool) := s.launches.map fun l => (l.lid, l.ending)

theorem State.endings_congr {s t : State} (h : t.launches = s.launches) : t.endings = s.endings := by
  rw [State.endings, h, State.endings]

theorem State.endings_foldl {α : Type} {f : State → α → State} (step : ∀ s a, (f s a).endings = s.endings) (l : List α) (s : State) :
    (l.foldl f s).endings = s.endings :=
  List.foldlRecOn l (motive := fun t : State => t.endings = s.endings) f rfl fun t same a _ => (step t a).trans same

/-- The end of a wave is counted in its launch. -/
theorem State.endings_leaveWave (s : State) (x : SlotId) (w : Nat) : (s.leaveWave x w).endings = s.endings := by
  unfold State.leaveWave
  split
  · rfl
  · refine (State.endings_congr (State.launches_leaveBars ..)).trans ?_
    rw [State.endings, State.endings]
    dsimp only
    split
    · rw [List.map_map]
      refine List.map_congr_left fun l _ => ?_
      dsimp only [Function.comp]
      split <;> rfl
    · rfl

theorem State.endings_leaveAs (s : State) (x : SlotId) (st : Strand) (goes : Bool) : (s.leaveAs x st goes).endings = s.endings := by
  unfold State.leaveAs
  extract_lets s1 s2 s3 s4 s5
  have rings : s1.launches = s.launches := s.launches_leaveRings x st.uid
  clear_value s1
  have left : s3.endings = s.endings := State.endings_congr rings
  have wave : s4.endings = s.endings := by
    simp only [s4]
    split
    · exact (s3.endings_leaveWave ..).trans left
    · exact left
  have task : s5.endings = s.endings := by
    simp only [s5]
    split
    · exact wave
    · refine (State.endings_congr ?_).trans wave
      rw [State.endTask]
      split <;> simp
  exact task

theorem State.endings_leave (s : State) (x : SlotId) (goes : Bool) : (s.leave x goes).endings = s.endings := by
  unfold State.leave
  split
  · rfl
  · refine (State.endings_leaveAs ..).trans (State.endings_congr ?_)
    simp [State.dropRsv, State.endRsv, State.dropWeir]

/-- The end of a launch marks it, and no other. -/
theorem State.endings_endLaunch (s : State) (lid : Nat) (status : Word) :
    (s.endLaunch lid status).endings = s.endings.map fun p => if p.1 = lid then (lid, true) else p := by
  unfold State.endLaunch
  split
  case isFalse none_ =>
    rw [State.endings, List.map_map]
    refine List.map_congr_left fun l mem => ?_
    dsimp only [Function.comp]
    split
    case isTrue same =>
      have ends : l.ending = true := by
        by_contra open_
        exact none_ (List.any_eq_true.mpr ⟨l, mem, by simp [same, open_]⟩)
      rw [same, ends]
    case isFalse => rfl
  case isTrue =>
    dsimp only
    refine (State.endings_congr (State.launches_foldl (fun u n => u.launches_modEdits n _) _ _)).trans ?_
    refine (State.endings_congr (State.launches_foldl (fun u q => u.launches_taskFailed _ _) _ _)).trans ?_
    refine (State.endings_foldl (fun u p => u.endings_leaveAs ..) _ _).trans ?_
    refine (State.endings_foldl (fun u x => ?_) _ _).trans ?_
    · split
      · split
        · exact u.endings_leave _ _
        · rfl
      · rfl
    · rw [State.endings, State.endings, List.map_map, List.map_map]
      refine List.map_congr_left fun l _ => ?_
      dsimp only [Function.comp]
      split
      case isTrue same => exact congrArg (·, true) same
      case isFalse => rfl

/-- The ends of the launches of some numbers. -/
theorem State.endings_endLaunches (lids : List Nat) (status : Word) (s : State) :
    ∀ q ∈ (lids.foldl (fun s l => s.endLaunch l status) s).endings, q.2 = true ∨ (q.1 ∉ lids ∧ q ∈ s.endings) := by
  induction lids generalizing s with
  | nil => exact fun q mem => .inr ⟨List.not_mem_nil, mem⟩
  | cons l r ih =>
    intro q mem
    rcases ih (s.endLaunch l status) q mem with ends | ⟨fresh, before⟩
    · exact .inl ends
    · rw [State.endings_endLaunch] at before
      obtain ⟨p, there, rfl⟩ := List.mem_map.mp before
      split
      · exact .inl rfl
      · next other =>
        rw [if_neg other] at fresh
        exact .inr ⟨by rw [List.mem_cons, not_or]; exact ⟨other, fresh⟩, there⟩

/-! ## Fatal errors (R316) -/

theorem CmdRing.disable_off (r : CmdRing) : r.disable.rcfg.getLsbD 63 = false := by
  unfold CmdRing.disable
  split
  · rw [BitVec.getLsbD_and]
    exact (Bool.and_false _)
  · next off => exact Bool.not_eq_true _ ▸ off

/-- A fatal error ends the launches, and then disables the rings. -/
theorem State.fatal_eq (s : State) (bank : BankId) (src : BitVec 8) (addr detail : Word) : ∃ v : State, v.ctl.fatal = true ∧ v.ctl.ckpt = none
    ∧ s.fatal bank src addr detail = { (v.launches.map (·.lid)).foldl (fun s l => s.endLaunch l (codeWord 0 0x1002)) v with
      cmdRings := ((v.launches.map (·.lid)).foldl (fun s l => s.endLaunch l (codeWord 0 0x1002)) v).cmdRings.map CmdRing.disable } :=
  ⟨_, rfl, rfl, rfl⟩

theorem Parts.ctl_bears (c : Ctl) : Parts.Bears fun p => p.ctl = c where
  spilled s sel f same := by
    unfold State.modSpilled
    extract_lets changed u
    exact State.On.foldl (P := fun p => p.ctl = c) (f := fun t p => t.putBytes p.base p.block) (fun _ _ same => same) changed (s := u) same
  map _ _ same := same
  filter _ _ same := same

theorem State.fatal_ends (s : State) (bank : BankId) (src : BitVec 8) (addr detail : Word) :
    (s.fatal bank src addr detail).ctl.fatal = true ∧ (∀ l ∈ (s.fatal bank src addr detail).launches, l.ending = true)
      ∧ (∀ r ∈ (s.fatal bank src addr detail).cmdRings, r.rcfg.getLsbD 63 = false) ∧ (s.fatal bank src addr detail).ctl.ckpt = none := by
  obtain ⟨v, fatal, ckpt, is⟩ := s.fatal_eq bank src addr detail
  have ends := State.endings_endLaunches (v.launches.map (·.lid)) (codeWord 0 0x1002) v
  have ctl : ((v.launches.map (·.lid)).foldl (fun s l => s.endLaunch l (codeWord 0 0x1002)) v).ctl = v.ctl :=
    State.On.foldl (P := fun p => p.ctl = v.ctl) (fun t l same => State.on_endLaunch (Parts.ctl_bears v.ctl) same) _ (s := v) rfl
  rw [is]
  generalize (v.launches.map (·.lid)).foldl (fun s l => s.endLaunch l (codeWord 0 0x1002)) v = w at ends ctl
  refine ⟨(congrArg Ctl.fatal ctl).trans fatal, fun l mem => ?_, fun r mem => ?_, (congrArg Ctl.ckpt ctl).trans ckpt⟩
  · rcases ends (l.lid, l.ending) (List.mem_map_of_mem (f := fun l : Launch => (l.lid, l.ending)) mem) with ends | ⟨fresh, there⟩
    · exact ends
    · obtain ⟨k, mem, same⟩ := List.mem_map.mp there
      exact absurd (List.mem_map.mpr ⟨k, mem, congrArg Prod.fst same⟩) fresh
  · obtain ⟨k, -, rfl⟩ := List.mem_map.mp mem
    exact k.disable_off

/-- A fatal error is logged, here while no launch is there to be ended. -/
theorem State.fatal_logs {s : State} (idle : s.launches = []) (bank : BankId) (src : BitVec 8) (addr detail : Word) :
    (s.fatal bank src addr detail).bankOf bank = (s.bankOf bank).log 3 src 0 addr detail := by
  have none_ : (s.modBank bank fun b => b.log 3 src 0 addr detail).launches = [] := by
    cases bank <;> exact idle
  refine Eq.trans ?_ (s.bankOf_modBank bank fun b => b.log 3 src 0 addr detail)
  unfold State.fatal
  dsimp only
  rw [none_]
  cases bank <;> rfl

end Sys2Proof.Machine
end

section
/-!
PROOF. Accesses that fail without a response (spec/17 R356), and errors of memory (spec/15 R315, R318, R319).
-/

namespace Sys2Proof.Machine

set_option Elab.async false

/-! ## Accesses that fail -/

section
variable (s : State)

theorem State.flight_modSpilled (sel : Spilled → Bool) (f : Spilled → Spilled) : (s.modSpilled sel f).flight = s.flight := by
  unfold State.modSpilled
  extract_lets changed u
  exact List.foldlRecOn changed (motive := fun t : State => t.flight = s.flight) (fun t p => t.putBytes p.base p.block) rfl fun t same _ _ => same

theorem State.flight_modUid (x : SlotId) (uid : Nat) (f : Strand → Strand) : (s.modUid x uid f).flight = s.flight := by
  rw [State.modUid]
  split
  · rw [State.modStrand_rest]
  · exact s.flight_modSpilled _ _

theorem State.flight_deliver (x : SlotId) (uid : Nat) (sid : Word) (lid code : Nat) (detail : Word) :
    (s.deliver x uid sid lid code detail).flight = s.flight := by
  rw [State.deliver]
  split
  · exact s.flight_modUid x uid _
  · rfl

theorem State.flight_modOwner (id : Nat) (who : SlotId) (f : Strand → Strand) : (s.modOwner id who f).flight = s.flight := by
  unfold State.modOwner
  dsimp only
  split
  · rw [State.modStrand_rest]
  · exact s.flight_modSpilled _ _

theorem State.flight_dropAccess (a : Access) : (s.dropAccess a).flight = s.flight.filter fun e => e.id != a.id := by
  unfold State.dropAccess
  dsimp only
  rw [State.flight_modOwner]

/-- The state with two of its free values given out. -/
def State.twiceFree : State := s.free.2.free.2

/-- An access's failure logged and delivered. -/
def State.failed (a : Access) : State :=
  (s.twiceFree.modBank (s.twiceFree.bankFor a.loc) fun b =>
    b.log 2 (s.twiceFree.srcFor a.loc) (BitVec.ofNat 5 a.who.member) (BitVec.ofNat 64 (s.twiceFree.lineAddr false a.loc)) s.free.1).deliverTo a
      (if a.ordered then 15 + 512 else 15) s.free.2.free.1

/-- Beside the access itself, the other half of a long vector load goes. -/
theorem State.failAccess_eq (a : Access) : ∃ halves : List Access, ((∀ u, a.op ≠ .loadV u) → halves = [])
    ∧ s.failAccess a = ((halves.foldl (fun (t : State) e => t.dropAccess e) (s.failed a)).dropAccess a).modUid a.who a.uid fun st => st.unhome a.id := by
  unfold State.failAccess
  split
  next d1 t1 first =>
  split
  next d2 t2 second =>
  obtain rfl : d1 = s.free.1 := by rw [first]
  obtain rfl : t1 = s.free.2 := by rw [first]
  obtain rfl : d2 = s.free.2.free.1 := by rw [second]
  obtain rfl : t2 = s.twiceFree := by rw [State.twiceFree, second]
  dsimp only
  split
  · next op => exact ⟨_, fun whole => absurd op (whole _), rfl⟩
  · exact ⟨[], fun _ => rfl, rfl⟩

theorem State.flight_failed (a : Access) : (s.failed a).flight = s.flight := by
  refine (State.flight_deliver ..).trans ?_
  unfold State.modBank
  split <;> rfl

/-- What stays in flight was there before, and is not the access that failed. -/
theorem State.flight_failAccess (a : Access) : ∀ e ∈ (s.failAccess a).flight, e ∈ s.flight ∧ e.id ≠ a.id := by
  obtain ⟨halves, -, is⟩ := s.failAccess_eq a
  have fewer : ∀ e ∈ (halves.foldl (fun (t : State) e => t.dropAccess e) (s.failed a)).flight, e ∈ s.flight := by
    rw [← s.flight_failed a]
    refine List.foldlRecOn (motive := fun t : State => ∀ e ∈ t.flight, e ∈ (s.failed a).flight) _ _ (fun e mem => mem) fun t few b _ e mem => ?_
    rw [State.flight_dropAccess] at mem
    exact few e (List.mem_of_mem_filter mem)
  intro e mem
  rw [is, State.flight_modUid, State.flight_dropAccess] at mem
  obtain ⟨there, other⟩ := List.mem_filter.mp mem
  exact ⟨fewer e there, by simpa using other⟩

end

/-- The accesses of a list that are in flight still fail, one after the other. -/
theorem State.flight_failAccesses (l : List Access) (s : State) :
    ∀ e ∈ (l.foldl (fun (s : State) a => if s.flight.any fun e => e.id = a.id then s.failAccess a else s) s).flight, e ∈ s.flight ∧ ∀ a ∈ l, e.id ≠ a.id := by
  induction l generalizing s with
  | nil => exact fun e mem => ⟨mem, fun a h => absurd h List.not_mem_nil⟩
  | cons a r ih =>
    intro e mem
    obtain ⟨there, others⟩ := ih _ e mem
    have here : e ∈ s.flight ∧ e.id ≠ a.id := by
      dsimp only at there
      split at there
      · exact s.flight_failAccess a e there
      · next none_ =>
        exact ⟨there, fun same => none_ (List.any_eq_true.mpr ⟨e, there, by simpa using same⟩)⟩
    exact ⟨here.1, List.forall_mem_cons.mpr ⟨here.2, others⟩⟩

theorem exec_peerReset (s : State) (dev : BitVec 12) (away : dev.toNat ≠ thisDev) : ∃ t : State, exec (.peerReset dev) s = .next t
    ∧ (∀ e ∈ t.flight, e.loc.dev = dev.toNat → e.done = true ∨ e.op.isResult = true) ∧ ∀ e ∈ t.flight, e ∈ s.flight := by
  refine ⟨_, rfl, fun e mem there => ?_, fun e mem => (State.flight_failAccesses _ s e mem).1⟩
  obtain ⟨before, others⟩ := State.flight_failAccesses _ s e mem
  by_contra open_
  rw [not_or, Bool.not_eq_true, Bool.not_eq_true] at open_
  refine others e (List.mem_filter.mpr ⟨before, ?_⟩) rfl
  simp [there, away, open_.1, open_.2]

/-! ### One access, of a strand in its slot -/

theorem State.modSpilled_bare {s : State} (bare : s.spills = []) (sel : Spilled → Bool) (f : Spilled → Spilled) : s.modSpilled sel f = s :=
  State.modSpilled_none (by rw [bare]; exact fun p mem => absurd mem List.not_mem_nil) f

/-- The strand that had the access has no mark of it any more. -/
theorem State.strand?_dropAccess_who {s : State} {a : Access} {st : Strand} (bare : s.spills = []) (here : s.strand? a.who = some st) :
    (s.dropAccess a).strand? a.who = some { st with longs := st.longs.filter fun l => l.id != a.id } := by
  have tiles : (s.dropAccess a).tiles = (s.modOwner a.id a.who fun st => { st with longs := st.longs.filter fun l => l.id != a.id }).tiles := by
    unfold State.dropAccess
    dsimp only
  rw [State.strand?_of_tiles tiles, State.modOwner]
  dsimp only
  split
  · rw [State.modStrand_of_strand here, State.strand?_setStrand]
  · next unmarked =>
    rw [State.modSpilled_bare bare, here]
    have none_ : ∀ l ∈ st.longs, l.id ≠ a.id := by simpa [here] using unmarked
    have same : (st.longs.filter fun l => l.id != a.id) = st.longs := List.filter_eq_self.mpr fun l mem => by simpa using none_ l mem
    rw [same]

theorem State.bankOf_dropAccess {s : State} (bare : s.spills = []) (b : Nat) (a : Access) : (s.dropAccess a).bankOf (.port b) = s.bankOf (.port b) := by
  rw [State.dropAccess, State.modOwner_rest (State.blocksFree_bare bare a.id)]
  rfl

/-- A strand in its slot is changed there. -/
theorem State.modUid_here {s : State} {x : SlotId} {st : Strand} (here : s.strand? x = some st) (f : Strand → Strand) :
    s.modUid x st.uid f = s.setStrand x (f st) := by
  rw [State.modUid, here, Option.map_some, if_pos rfl, State.modStrand_of_strand here]

theorem State.deliver_here {s : State} {x : SlotId} {st : Strand} (here : s.strand? x = some st) (sid : Word) (lid code : Nat) (detail : Word) :
    s.deliver x st.uid sid lid code detail = s.setStrand x { st with asyncs := st.asyncs ++ [(code, detail)] } := by
  rw [State.deliver, if_pos (by simp [State.lives, here]), State.modUid_here here]

section
variable {s : State} {a : Access} {st : Strand} (away : a.loc.dev ≠ thisDev)
include away

theorem State.bankFor_away (s : State) : s.bankFor a.loc = .port (8 + Config.portOf a.loc.dev % 18) := if_pos (bne_iff_ne.mpr away)

theorem State.srcFor_away (s : State) : s.srcFor a.loc = 9 := if_pos (bne_iff_ne.mpr away)

theorem State.lineAddr_away (s : State) (device : a.loc.dev < 2 ^ 12) : s.lineAddr false a.loc = a.loc.dev * 2 ^ 44 + a.loc.addr := by
  have cell : a.loc.dev ≠ cellDev := by unfold cellDev; omega
  have sheet : a.loc.dev ≠ sheetDev := by unfold sheetDev; omega
  simp [State.lineAddr, away, cell, sheet]

/-- The failure of a remote access, logged at its port and delivered to its strand. -/
theorem State.failed_away (device : a.loc.dev < 2 ^ 12) (here : s.strand? a.who = some st) (own : st.uid = a.uid) :
    s.failed a = (s.twiceFree.modBank (.port (8 + Config.portOf a.loc.dev % 18)) fun b => b.log 2 9 (BitVec.ofNat 5 a.who.member)
      (BitVec.ofNat 64 (a.loc.dev * 2 ^ 44 + a.loc.addr)) s.free.1).setStrand a.who
        { st with asyncs := st.asyncs ++ [(if a.ordered then 15 + 512 else 15, s.free.2.free.1)] } := by
  rw [State.failed, State.bankFor_away away, State.srcFor_away away, State.lineAddr_away away _ device, State.deliverTo, ← own]
  refine State.deliver_here ?_ _ _ _ _
  exact here

end

theorem exec_remoteTimeout {s : State} {a : Access} {st : Strand} (flies : s.flight.find? (fun e => e.id = a.id) = some a) (away : a.loc.dev ≠ thisDev)
    (device : a.loc.dev < 2 ^ 12) (open_ : a.done = false) (asks : a.op.isResult = false) (whole : ∀ u, a.op ≠ .loadV u) (here : s.strand? a.who = some st)
    (own : st.uid = a.uid) (bare : s.spills = []) :
    ∃ (t : State) (d : Word), exec (.remoteTimeout a.id) s = .next t ∧ unwritten s t ∧ t.flight = s.flight.filter (fun e => e.id != a.id)
      ∧ (∃ e, t.bankOf (s.bankFor a.loc) = (s.bankOf (s.bankFor a.loc)).log 2 9 (BitVec.ofNat 5 a.who.member)
        (BitVec.ofNat 64 (a.loc.dev * 2 ^ 44 + a.loc.addr)) e)
      ∧ (∃ p, s.bankFor a.loc = .port p ∧ 8 ≤ p ∧ p < 26)
      ∧ t.strand? a.who = some { st with
        run := if st.run = .held (.home a.id) then .ready
          else if st.run = .preempted (some (.home a.id)) then .preempted none else st.run
        asyncs := st.asyncs ++ [(if a.ordered then 15 + 512 else 15, d)]
        longs := st.longs.filter fun l => l.id != a.id } := by
  obtain ⟨halves, none_, is⟩ := s.failAccess_eq a
  obtain rfl := none_ whole
  rw [List.foldl_nil] at is
  have bank := State.bankFor_away away s
  have failed := State.failed_away away device here own
  obtain ⟨v, isV⟩ : ∃ v : State, v = s.failed a := ⟨_, rfl⟩
  rw [← isV] at failed
  have mem : v.mem = s.mem := by rw [failed]; rfl
  have full : v.full = s.full := by rw [failed]; rfl
  have bareV : v.spills = [] := by rw [failed]; exact bare
  have freeV := State.blocksFree_bare bareV a.id
  have hereV : v.strand? a.who = some { st with asyncs := st.asyncs ++ [(if a.ordered then 15 + 512 else 15, s.free.2.free.1)] } := by
    rw [failed, State.strand?_setStrand]
  have hereW := State.strand?_dropAccess_who bareV hereV
  have logs : v.bankOf (s.bankFor a.loc) = (s.bankOf (s.bankFor a.loc)).log 2 9 (BitVec.ofNat 5 a.who.member)
      (BitVec.ofNat 64 (a.loc.dev * 2 ^ 44 + a.loc.addr)) s.free.1 := by
    rw [failed, bank]
    exact s.twiceFree.bankOf_modBank (.port (8 + Config.portOf a.loc.dev % 18)) fun b => b.log 2 9 (BitVec.ofNat 5 a.who.member)
      (BitVec.ofNat 64 (a.loc.dev * 2 ^ 44 + a.loc.addr)) s.free.1
  have runs : exec (.remoteTimeout a.id) s = .next ((v.dropAccess a).modUid a.who a.uid fun st => st.unhome a.id) := by
    refine congrArg Host.Outcome.next ?_
    rw [flies]
    dsimp only
    rw [if_pos (by simp [away, open_, asks]), is, ← isV]
  rw [← own, State.modUid_here hereW] at runs
  refine ⟨_, s.free.2.free.1, runs, ⟨?mem, ?full⟩, ?flight, ⟨s.free.1, ?bank⟩, ⟨_, bank, by omega, by omega⟩, ?strand⟩
  case mem => exact (State.dropAccess_mem freeV).trans mem
  case full => exact (State.dropAccess_full freeV).trans full
  case flight => exact (State.dropAccess_flight freeV).trans (by rw [isV, State.flight_failed])
  case bank =>
    rw [bank] at logs ⊢
    exact (State.bankOf_dropAccess bareV _ a).trans logs
  case strand =>
    rw [State.strand?_setStrand, Strand.unhome]
    dsimp only
    split
    · rfl
    · split <;> rfl

end Sys2Proof.Machine
end

section
/-!
PROOF. Errors of memory: their log in a bank, the scrubber, and the memories of a supervisor (spec/15 R315, R318, R319).
-/

namespace Sys2Proof.Machine

set_option Elab.async false

/-! ## Banks (R318) -/

theorem Bank.log_counts (b : Bank) (cls : BitVec 2) (src : BitVec 8) (k : BitVec 5) (addr detail : Word) :
    (b.log cls src k addr detail).v = true ∧ (b.log cls src k addr detail).corr = (if cls = 1 then satInc b.corr else b.corr)
      ∧ (b.log cls src k addr detail).unc = (if cls = 1 then b.unc else satInc b.unc) ∧ (b.log cls src k addr detail).ovf = b.v := by
  unfold Bank.log
  dsimp only
  split
  case isTrue fresh =>
    have invalid : b.v = false := by simpa using fresh
    refine ⟨rfl, ?_, ?_, invalid.symm⟩ <;> dsimp only <;> split <;> rfl
  case isFalse held =>
    have valid : b.v = true := by simpa using held
    split
    all_goals
      refine ⟨?_, ?_, ?_, valid.symm⟩ <;> dsimp only <;> split
      · exact valid
      · exact valid
    all_goals rfl

/-- A bank keeps what it holds but for an error of a higher class. -/
theorem Bank.log_fields (b : Bank) (cls : BitVec 2) (src : BitVec 8) (k : BitVec 5) (addr detail : Word) :
    (b.v = false ∨ b.cls.toNat < cls.toNat → (b.log cls src k addr detail).cls = cls ∧ (b.log cls src k addr detail).src = src
      ∧ (b.log cls src k addr detail).strand = k ∧ (b.log cls src k addr detail).addr = addr ∧ (b.log cls src k addr detail).detail = detail)
    ∧ (b.v = true → cls.toNat ≤ b.cls.toNat → (b.log cls src k addr detail).cls = b.cls ∧ (b.log cls src k addr detail).src = b.src
      ∧ (b.log cls src k addr detail).strand = b.strand ∧ (b.log cls src k addr detail).addr = b.addr ∧ (b.log cls src k addr detail).detail = b.detail) := by
  refine ⟨fun new => ?_, fun valid high => ?_⟩
  · unfold Bank.log
    dsimp only
    split
    · exact ⟨rfl, rfl, rfl, rfl, rfl⟩
    · next valid =>
      rw [if_pos (new.resolve_left (by simpa using valid))]
      exact ⟨rfl, rfl, rfl, rfl, rfl⟩
  · unfold Bank.log
    dsimp only
    rw [if_neg (by simp [valid]), if_neg (by omega)]
    split <;> exact ⟨rfl, rfl, rfl, rfl, rfl⟩

/-! ## The scrubber (R315) -/

/-- What the scrubber logs of a word, whose address it gives. -/
def State.scrubbed (s : State) (pa : Nat) (cls : BitVec 2) (here : Word) : State :=
  s.free.2.modBank (s.free.2.bankFor ⟨thisDev, pa⟩) fun b => b.log cls (s.free.2.srcFor ⟨thisDev, pa⟩) 0 here s.free.1

theorem exec_patrolScrub {s : State} {pa : Nat} {err found : ErrKind} {here : Word} (is : s.scrubErr pa err = found)
    (at_ : here = BitVec.ofNat 64 (s.devno.toNat * 2 ^ 44 + pa)) :
    (found = .ok → exec (.patrolScrub pa err) s = .next s)
    ∧ (found = .corrected →
      exec (.patrolScrub pa err) s = .next (({ s with weakWords := s.weakWords.filter fun w => w != pa / 8 } : State).scrubbed pa 1 here))
    ∧ (found = .uncorrectable → exec (.patrolScrub pa err) s = .next (s.scrubbed pa 2 here)) := by
  have log (t : State) (same : t.devno = s.devno) (cls : BitVec 2) : (t.free.2.modBank (t.free.2.bankFor ⟨thisDev, pa⟩) fun b =>
      b.log cls (t.free.2.srcFor ⟨thisDev, pa⟩) 0 (BitVec.ofNat 64 (t.free.2.lineAddr false ⟨thisDev, pa⟩)) t.free.1) = t.scrubbed pa cls here := by
    rw [State.lineAddr_here_of_devno (s := s) (t := t.free.2) same, ← at_, State.scrubbed]
  refine ⟨fun h => ?_, fun h => ?_, fun h => ?_⟩
  all_goals
    subst h
    refine congrArg Host.Outcome.next ?_
    rw [is]
  · exact log { s with weakWords := s.weakWords.filter fun w => w != pa / 8 } rfl 1
  · exact log s rfl 2

theorem State.srcFor_of_fuses {s t : State} (rows : t.fusedRows = s.fusedRows) (cols : t.fusedCols = s.fusedCols) (l : Loc) : t.srcFor l = s.srcFor l := by
  unfold State.srcFor
  rw [State.region_of_fuses rows cols]

theorem State.scrubbed_logs (s : State) (pa : Nat) (cls : BitVec 2) (here : Word) {b : BankId} {src : BitVec 8} (bank : s.bankFor ⟨thisDev, pa⟩ = b)
    (unit : s.srcFor ⟨thisDev, pa⟩ = src) : unwritten s (s.scrubbed pa cls here) ∧ (s.scrubbed pa cls here).weakWords = s.weakWords
      ∧ ∃ d, (s.scrubbed pa cls here).bankOf b = (s.bankOf b).log cls src 0 here d := by
  have is : s.scrubbed pa cls here = s.free.2.modBank b fun k => k.log cls src 0 here s.free.1 := by
    rw [State.scrubbed, State.bankFor_of_fuses (s := s) (t := s.free.2) rfl rfl, State.srcFor_of_fuses (s := s) (t := s.free.2) rfl rfl, bank, unit]
  rw [is]
  refine ⟨?_, ?_, s.free.1, ?_⟩
  · cases b <;> exact ⟨rfl, rfl⟩
  · cases b <;> rfl
  · refine (s.free.2.bankOf_modBank b fun k => k.log cls src 0 here s.free.1).trans ?_
    cases b <;> rfl

section
variable {s : State} {n pa off : Nat}

theorem State.scrubErr_hbm (hbm : s.region pa = .hbm) (k : ErrKind) : s.scrubErr pa k = k := by
  unfold State.scrubErr
  rw [hbm]

theorem State.bankFor_hbm (hbm : s.region pa = .hbm) : s.bankFor ⟨thisDev, pa⟩ = .home (homeOf pa) := by
  unfold State.bankFor
  rw [if_neg (by simp), hbm]

theorem State.srcFor_hbm (hbm : s.region pa = .hbm) : s.srcFor ⟨thisDev, pa⟩ = 8 := by
  unfold State.srcFor
  rw [if_neg (by simp), hbm]

theorem State.scrubErr_pad (pad : s.region pa = .pad n off) (k : ErrKind) : s.scrubErr pa k
    = if s.badWords.contains (pa / 8) then .uncorrectable else if s.weakWords.contains (pa / 8) then .corrected else .ok := by
  unfold State.scrubErr
  rw [pad]

theorem State.bankFor_pad (pad : s.region pa = .pad n off) : s.bankFor ⟨thisDev, pa⟩ = .tile n := by
  unfold State.bankFor
  rw [if_neg (by simp), pad]

theorem State.srcFor_pad (pad : s.region pa = .pad n off) : s.srcFor ⟨thisDev, pa⟩ = 5 := by
  unfold State.srcFor
  rw [if_neg (by simp), pad]

end

/-- A word of HBM, whose error the step tells. -/
theorem exec_patrolScrub_hbm {s : State} {pa : Nat} (hbm : s.region pa = .hbm) : exec (.patrolScrub pa .ok) s = .next s
    ∧ ∀ q ∈ [(ErrKind.corrected, 1#2), (.uncorrectable, 2#2)], ∃ t : State, exec (.patrolScrub pa q.1) s = .next t ∧ unwritten s t
      ∧ ∃ d, t.bankOf (.home (homeOf pa)) = (s.bankOf (.home (homeOf pa))).log q.2 8 0 (BitVec.ofNat 64 (s.devno.toNat * 2 ^ 44 + pa)) d := by
  obtain ⟨here, at_⟩ : ∃ here : Word, here = BitVec.ofNat 64 (s.devno.toNat * 2 ^ 44 + pa) := ⟨_, rfl⟩
  rw [← at_]
  have err := State.scrubErr_hbm hbm
  have bank := State.bankFor_hbm hbm
  have unit := State.srcFor_hbm hbm
  refine ⟨(exec_patrolScrub (err .ok) at_).1 rfl, List.forall_mem_cons.mpr ⟨?_, List.forall_mem_cons.mpr ⟨?_, fun q h => absurd h List.not_mem_nil⟩⟩⟩
  · obtain ⟨same, -, logs⟩ := State.scrubbed_logs { s with weakWords := s.weakWords.filter fun w => w != pa / 8 } pa 1 here
      ((State.bankFor_of_fuses (s := s) (t := { s with weakWords := s.weakWords.filter fun w => w != pa / 8 }) rfl rfl _).trans bank)
      ((State.srcFor_of_fuses (s := s) (t := { s with weakWords := s.weakWords.filter fun w => w != pa / 8 }) rfl rfl _).trans unit)
    exact ⟨_, (exec_patrolScrub (err .corrected) at_).2.1 rfl, same, logs⟩
  · obtain ⟨same, -, logs⟩ := s.scrubbed_logs pa 2 here bank unit
    exact ⟨_, (exec_patrolScrub (err .uncorrectable) at_).2.2 rfl, same, logs⟩

/-- A word of a scratchpad, which holds its own error. -/
theorem exec_patrolScrub_pad {s : State} {n pa off : Nat} (pad : s.region pa = .pad n off) (k : ErrKind) :
    (pa / 8 ∈ s.badWords → ∃ t : State, exec (.patrolScrub pa k) s = .next t ∧ unwritten s t
      ∧ ∃ d, t.bankOf (.tile n) = (s.bankOf (.tile n)).log 2 5 0 (BitVec.ofNat 64 (s.devno.toNat * 2 ^ 44 + pa)) d)
    ∧ (pa / 8 ∉ s.badWords → pa / 8 ∈ s.weakWords → ∃ t : State, exec (.patrolScrub pa k) s = .next t ∧ unwritten s t
      ∧ (∃ d, t.bankOf (.tile n) = (s.bankOf (.tile n)).log 1 5 0 (BitVec.ofNat 64 (s.devno.toNat * 2 ^ 44 + pa)) d) ∧ pa / 8 ∉ t.weakWords)
    ∧ (pa / 8 ∉ s.badWords → pa / 8 ∉ s.weakWords → exec (.patrolScrub pa k) s = .next s) := by
  obtain ⟨here, at_⟩ : ∃ here : Word, here = BitVec.ofNat 64 (s.devno.toNat * 2 ^ 44 + pa) := ⟨_, rfl⟩
  rw [← at_]
  have err := State.scrubErr_pad pad k
  have bank := State.bankFor_pad pad
  have unit := State.srcFor_pad pad
  refine ⟨fun bad => ?_, fun good weak => ?_, fun good strong => ?_⟩
  · rw [if_pos (by simpa using bad)] at err
    obtain ⟨same, -, logs⟩ := s.scrubbed_logs pa 2 here bank unit
    exact ⟨_, (exec_patrolScrub err at_).2.2 rfl, same, logs⟩
  · rw [if_neg (by simpa using good), if_pos (by simpa using weak)] at err
    obtain ⟨same, words, logs⟩ := State.scrubbed_logs { s with weakWords := s.weakWords.filter fun w => w != pa / 8 } pa 1 here
      ((State.bankFor_of_fuses (s := s) (t := { s with weakWords := s.weakWords.filter fun w => w != pa / 8 }) rfl rfl _).trans bank)
      ((State.srcFor_of_fuses (s := s) (t := { s with weakWords := s.weakWords.filter fun w => w != pa / 8 }) rfl rfl _).trans unit)
    refine ⟨_, (exec_patrolScrub err at_).2.1 rfl, same, logs, ?_⟩
    rw [words]
    simp
  · rw [if_neg (by simpa using good), if_neg (by simpa using strong)] at err
    exact (exec_patrolScrub err at_).1 rfl

/-! ## The memories of a supervisor (R319, R320) -/

/-- A supervisor memory's error as it is logged. -/
def State.supervisorErr (s : State) (n : Nat) : State := s.free.2.modBank (.tile n) fun b => b.log 2 7 0 0 s.free.1

theorem State.supervisorErr_tile (s : State) (n : Nat) : (s.supervisorErr n).tile n = { s.tile n with bank := (s.tile n).bank.log 2 7 0 0 s.free.1 } :=
  s.free.2.tile_modTile n _

/-- The code store comes back from a signed image, and the supervisor starts at its entry. -/
theorem exec_supervisorMemoryError_code {s : State} {n : Nat} {st : Strand} (here : s.strand? ⟨n, .m, 0⟩ = some st) (digest : digestOk s.fwImage = true)
    (signed : s.signedOk s.fwImage = true) : ∃ t : State, exec (.supervisorMemoryError n false false) s = .next t ∧ unwritten s t
      ∧ (∃ d, t.bankOf (.tile n) = (s.bankOf (.tile n)).log 2 7 0 0 d) ∧ t.codeStore = []
      ∧ t.strand? ⟨n, .m, 0⟩ = some (st.restart s.fwImage) := by
  have same : (s.supervisorErr n).strand? (supSlot n) = some st := by
    rw [State.strand?, show (supSlot n).tile = n from rfl, State.supervisorErr_tile]
    exact here
  obtain ⟨u, isU⟩ : ∃ u : State, u = ({ s.supervisorErr n with codeStore := [] } : State) := ⟨_, rfl⟩
  have hereU : u.strand? (supSlot n) = some st := by rw [isU]; exact same
  have runs : exec (.supervisorMemoryError n false false) s = .next (u.setStrand (supSlot n) (st.restart s.fwImage)) := by
    have restarts : exec (.supervisorMemoryError n false false) s = .next (u.modStrand (supSlot n) fun st =>
        if digestOk s.fwImage && s.signedOk s.fwImage then st.restart s.fwImage else { st with run := .out }) := by
      rw [isU]
      rfl
    rw [restarts, State.modStrand_of_strand hereU, digest, signed]
    rfl
  refine ⟨_, runs, ?_, ⟨s.free.1, ?_⟩, ?_, State.strand?_setStrand ..⟩
  · rw [isU]
    exact ⟨rfl, rfl⟩
  · refine (State.tile_setStrand_apart (f := Tile.bank) (fun _ _ _ => rfl) n u _ _).trans ?_
    rw [isU]
    exact congrArg Tile.bank (s.supervisorErr_tile n)
  · rw [isU]
    rfl

/-- Queue tables that come back from their mirror. -/
theorem exec_supervisorMemoryError_queues {s : State} {n : Nat} (mirror : (s.tile n).mirrorLost = false) :
    ∃ t : State, exec (.supervisorMemoryError n true false) s = .next t ∧ unwritten s t
      ∧ ∃ d, t.bankOf (.tile n) = (s.bankOf (.tile n)).log 2 7 0 0 d := by
  refine ⟨s.supervisorErr n, ?_, ⟨rfl, rfl⟩, s.free.1, congrArg Tile.bank (s.supervisorErr_tile n)⟩
  have kept : ((s.supervisorErr n).tile n).mirrorLost = false := by
    rw [State.supervisorErr_tile]
    exact mirror
  show Host.Outcome.next (if false || ((s.supervisorErr n).tile n).mirrorLost then (s.supervisorErr n).fence n else s.supervisorErr n) = _
  rw [kept]
  rfl

/-- Queue tables that are lost: the tile is fenced. -/
theorem exec_supervisorMemoryError_lost {s : State} {n : Nat} {lost : Bool} (gone : lost = true ∨ (s.tile n).mirrorLost = true) :
    exec (.supervisorMemoryError n true lost) s = .next ((s.supervisorErr n).fence n) := by
  show Host.Outcome.next (if lost || ((s.supervisorErr n).tile n).mirrorLost then (s.supervisorErr n).fence n else s.supervisorErr n) = _
  rw [State.supervisorErr_tile, if_pos (by simpa using gone)]

theorem Parts.fused_bears (s : State) : Parts.Bears fun p => p.fusedRows = s.fusedRows ∧ p.fusedCols = s.fusedCols where
  spilled t sel f same := by
    unfold State.modSpilled
    extract_lets changed u
    exact State.On.foldl (P := fun p => p.fusedRows = s.fusedRows ∧ p.fusedCols = s.fusedCols) (f := fun t p => t.putBytes p.base p.block)
      (fun _ _ same => same) changed (s := u) same
  map _ _ same := same
  filter _ _ same := same

theorem State.tileRow_congr {s t : State} (rows : t.fusedRows = s.fusedRows) (n : Nat) : t.tileRow n = s.tileRow n := by
  unfold State.tileRow State.physRow
  rw [rows]

/-- A fenced tile: its strands are gone, its row is degraded, and so is the mirror that it kept. -/
theorem State.fence_leaves (s : State) (n : Nat) : ((s.fence n).tile n).fenced = true ∧ ((s.fence n).tile n).strands = []
    ∧ ((s.fence n).rowAt (s.tileRow n)).degraded = true ∧ ((s.fence n).tile (leftTile n)).mirrorLost = true := by
  unfold State.fence
  extract_lets lids held s1 homes s2 s3 s4
  have fused : s2.On fun p => p.fusedRows = s.fusedRows ∧ p.fusedCols = s.fusedCols :=
    State.On.foldl (fun t q same => State.on_taskFailed (Parts.fused_bears s) same) homes
      (State.On.foldl (fun t l same => State.on_endLaunch (Parts.fused_bears s) same) held (s := s) ⟨rfl, rfl⟩)
  have row : s4.tileRow n = s.tileRow n := State.tileRow_congr fused.1 n
  clear_value s2
  have left : s4.tile n = s3.tile n := State.tile_modTile_other _ _ (leftTile_ne n)
  have here : s3.tile n = { s2.tile n with fenced := true, strands := [], deque := [], overflow := [] } := s2.tile_modTile n _
  refine ⟨?_, ?_, ?_, ?_⟩
  · show (s4.tile n).fenced = true
    rw [left, here]
  · show (s4.tile n).strands = []
    rw [left, here]
  · rw [row, State.rowAt_modRow]
  · show (s4.tile (leftTile n)).mirrorLost = true
    exact congrArg Tile.mirrorLost (s3.tile_modTile (leftTile n) fun x => { x with mirrorLost := true })

/-! ## Links (R315) -/

theorem foldl_range_iterate {α : Type} (f : α → α) (n : Nat) (a : α) : (List.range n).foldl (fun a _ => f a) a = Nat.iterate f n a := by
  induction n with
  | zero => rfl
  | succ n ih => rw [List.range_succ, List.foldl_append, ih, List.foldl_cons, List.foldl_nil, Function.iterate_succ_apply']

theorem exec_linkResend_resent (s : State) (bank : BankId) {fails : Nat} (few : fails ≤ 4) (addr detail : Word) :
    exec (.linkResend bank fails addr detail) s = .next (Nat.iterate (fun (t : State) => t.modBank bank fun b => b.log 1 9 0 addr detail) fails s) := by
  have runs : exec (.linkResend bank fails addr detail) s = .next ((List.range (Nat.min fails 4)).foldl (fun (s : State) _ =>
      s.modBank bank fun b => b.log 1 9 0 addr detail) s) := congrArg Host.Outcome.next (if_neg (by omega))
  rw [runs, show Nat.min fails 4 = fails from Nat.min_eq_left few, foldl_range_iterate]

theorem exec_linkResend_fatal (s : State) (bank : BankId) {fails : Nat} (many : 5 ≤ fails) (addr detail : Word) :
    ∃ t : State, exec (.linkResend bank fails addr detail) s = .next t ∧ t.ctl.fatal = true :=
  ⟨_, congrArg Host.Outcome.next (if_pos many), (State.fatal_ends _ bank 9 addr detail).1⟩

end Sys2Proof.Machine
end

section
/-!
PROOF. The end of a self-test: a cleared tile, its failing units logged (spec/15 R321, R326).
-/

namespace Sys2Proof.Machine

set_option Elab.async false

/-! ## A cleared scratchpad -/

theorem memGet_filter (p : Nat → Bool) (m : List Host.Cell) (a : Nat) : memGet (m.filter fun c => p c.1) a = if p a then memGet m a else 0 := by
  induction m with
  | nil => rw [List.filter_nil, memGet, ite_self]
  | cons c r ih =>
    obtain ⟨k, b⟩ := c
    by_cases kept : p k = true
    · rw [List.filter_cons_of_pos (p := fun c : Host.Cell => p c.1) kept, memGet, memGet, ih]
      by_cases same : k = a
      · rw [if_pos same, if_pos same, if_pos (same ▸ kept)]
      · rw [if_neg same, if_neg same]
    · rw [List.filter_cons_of_neg (p := fun c : Host.Cell => p c.1) kept, ih]
      by_cases same : k = a
      · rw [if_neg (same ▸ kept), if_neg (same ▸ kept)]
      · rw [memGet, if_neg same]

/-- The byte lies outside of a tile's scratchpad. -/
def State.outsidePad (s : State) (n a : Nat) : Bool := decide (a < s.padBase n) || decide (s.padBase n + 2 ^ 20 ≤ a)

theorem State.outsidePad_inside (s : State) (n : Nat) {i : Nat} (inside : i < 2 ^ 20) : s.outsidePad n (s.padBase n + i) = false := by
  unfold State.outsidePad
  generalize s.padBase n = b
  rw [decide_eq_false (by omega), decide_eq_false (by omega), Bool.or_false]

theorem State.outsidePad_outside (s : State) (n : Nat) {i : Nat} (outside : i < s.padBase n ∨ s.padBase n + 2 ^ 20 ≤ i) : s.outsidePad n i = true := by
  unfold State.outsidePad
  rw [Bool.or_eq_true, decide_eq_true_eq, decide_eq_true_eq]
  exact outside

theorem State.eight_dvd_padBase (s : State) (n : Nat) : 8 ∣ s.padBase n := by
  unfold State.padBase
  generalize s.tileRow n * 16 + s.tileCol n = k
  omega

/-- The words of the scratchpad are the eights of its bytes. -/
theorem State.outsidePad_word (s : State) (n : Nat) {i : Nat} (inside : i < 2 ^ 20) : s.outsidePad n (8 * ((s.padBase n + i) / 8)) = false := by
  have aligned := s.eight_dvd_padBase n
  unfold State.outsidePad
  generalize s.padBase n = b at aligned
  rw [decide_eq_false (by omega), decide_eq_false (by omega), Bool.or_false]

/-- What a cleared scratchpad leaves of memory and of the state. -/
theorem State.clearPad_leaves (s : State) (n : Nat) : (s.clearPad n).mem = s.mem.filter (fun c => s.outsidePad n c.1)
    ∧ (s.clearPad n).full = s.full.filter (fun w => s.outsidePad n (8 * w)) ∧ (s.clearPad n).commands = s.commands
    ∧ (s.clearPad n).heldWrites = s.heldWrites
    ∧ ∀ {α : Type} (f : Tile → α), Tile.Apart f → f ((s.clearPad n).tile n) = f (s.tile n) := by
  unfold State.clearPad
  extract_lets b e out u
  have told := State.told_foldl (fun (t : State) (l : Loc) => t.told_notifyLine none l) (u.watchedLines b e) u
  refine ⟨?_, ?_, ?_, ?_, fun f apart => ?_⟩
  · rw [told.rest]
    rfl
  · rw [told.rest]
    rfl
  · rw [told.rest]
  · rw [told.rest]
  · exact State.tile_foldl_apart n (fun t l => State.tile_notifyLine_apart apart n t none l) _ u

/-! ## The steps of the end of a test -/

/-- The tile after its test, its accumulator store empty. -/
def State.endsTest (s : State) (n : Nat) (found : BitVec 10) : State :=
  (s.clearPad n).modTile n fun x =>
    { x with
      testing := false
      testCmd := none
      testFail := found
      mustFence := x.mustFence || found != 0
      mat := { x.mat with acc := [], badPairs := [] } }

/-- Its channels idle. -/
def State.idleChans (s : State) (n : Nat) : State :=
  (List.range 4).foldl (fun (s : State) k => s.setChan none n k { s.chan n k with queue := [], halted := false, cause := 0, line := [] }) s

/-- The failing unit of one bit logged. -/
def State.logsFail (n : Nat) (found : BitVec 10) (s : State) (i : Nat) : State :=
  if found.getLsbD i then s.free.2.modBank (.tile n) fun b => b.log 2 (failSrc i) 0 0 s.free.1 else s

/-- The command that asked for the test answered. -/
def State.answersTest (s : State) (cmd : Option Nat) (found : BitVec 10) : State :=
  match cmd with
  | some k => s.finishCommand k (statusWord 1 0 0 (2 ^ 31 + found.toNat))
  | none => s

theorem exec_selftestComplete {s : State} {n : Nat} {fail found : BitVec 10} (tests : (s.tile n).testing = true) (is : fail &&& (s.tile n).testMask = found) :
    exec (.selftestComplete n fail) s = .next
      (((List.range 10).foldl (State.logsFail n found) ((s.endsTest n found).idleChans n)).answersTest (s.tile n).testCmd found).flushHeld := by
  subst is
  refine congrArg Host.Outcome.next ((if_neg ?_).trans rfl)
  rw [tests]
  decide

theorem State.answersTest_rest (s : State) (cmd : Option Nat) (found : BitVec 10) :
    s.answersTest cmd found = { s with commands := (s.answersTest cmd found).commands } := by
  unfold State.answersTest
  split <;> rfl

/-- The fields of a tile that a test's end sets, or logs to. -/
def Tile.tested (t : Tile) : Bool × BitVec 10 × Bool × Matrix × Bank := (t.testing, t.testFail, t.mustFence, t.mat, t.bank)

theorem State.setChan_leaves (s : State) (w : Option SlotId) (n k : Nat) (c : Chan) : s.Told (s.setChan w n k c)
    ∧ ∀ m, ((s.setChan w n k c).tile m).tested = (s.tile m).tested := by
  unfold State.setChan
  extract_lets old u
  have told : s.Told u := s.told_modTile n _
  have same (m : Nat) : (u.tile m).tested = (s.tile m).tested := State.tile_modTile_apart (f := Tile.tested) m s n fun _ => rfl
  split
  · exact ⟨told, same⟩
  · exact ⟨told.trans (u.told_notifyLine ..), fun m => (State.tile_notifyLine_apart (f := Tile.tested) (fun _ _ _ => rfl) m u ..).trans (same m)⟩

theorem State.idleChans_leaves (s : State) (n : Nat) : s.Told (s.idleChans n) ∧ ((s.idleChans n).tile n).tested = (s.tile n).tested :=
  ⟨State.told_foldl (fun t k => (t.setChan_leaves none n k _).1) _ s,
    State.tile_foldl_apart (f := Tile.tested) n (fun t k => (t.setChan_leaves none n k _).2 n) _ s⟩

/-! ### The log of the failing units -/

/-- A number of errors of tile n logged as uncorrectable, and nothing else changed. -/
structure State.Logs (n k : Nat) (s t : State) : Prop where
  rest : t = { s with tiles := t.tiles, freeCount := t.freeCount }
  tile : t.tile n = { s.tile n with bank := (t.tile n).bank }
  unc : (t.tile n).bank.unc.toNat = Nat.min ((s.tile n).bank.unc.toNat + k) 0xFFFFFFFF

theorem satInc_toNat (x : BitVec 32) : (satInc x).toNat = Nat.min (x.toNat + 1) 0xFFFFFFFF := by
  unfold satInc
  split
  · next top => rw [top]; rfl
  · next low =>
    have below : x.toNat ≠ 0xFFFFFFFF := fun h => low (BitVec.eq_of_toNat_eq h)
    have bound := x.isLt
    show (x + 1).toNat = min (x.toNat + 1) 0xFFFFFFFF
    rw [BitVec.toNat_add, show (1 : BitVec 32).toNat = 1 from rfl]
    omega

theorem State.logs_fail (n : Nat) (found : BitVec 10) (s : State) (i : Nat) : State.Logs n (if found.getLsbD i then 1 else 0) s (State.logsFail n found s i) := by
  unfold State.logsFail
  split
  · have tile : (s.free.2.modBank (.tile n) fun b => b.log 2 (failSrc i) 0 0 s.free.1).tile n
        = { s.tile n with bank := (s.tile n).bank.log 2 (failSrc i) 0 0 s.free.1 } := s.free.2.tile_modTile n _
    refine ⟨rfl, ?_, ?_⟩
    · rw [tile]
    · rw [tile]
      dsimp only
      rw [((s.tile n).bank.log_counts 2 (failSrc i) 0 0 s.free.1).2.2.1, if_neg (by decide), satInc_toNat]
  · refine ⟨rfl, rfl, ?_⟩
    show _ = min ((s.tile n).bank.unc.toNat + 0) 0xFFFFFFFF
    have bound := (s.tile n).bank.unc.isLt
    omega

theorem State.Logs.trans {n k j : Nat} {s t u : State} (h : State.Logs n k s t) (g : State.Logs n j t u) : State.Logs n (k + j) s u := by
  refine ⟨?_, ?_, ?_⟩
  · rw [g.rest, h.rest]
  · rw [g.tile, h.tile]
  · have first : (t.tile n).bank.unc.toNat = min ((s.tile n).bank.unc.toNat + k) 0xFFFFFFFF := h.unc
    have second : (u.tile n).bank.unc.toNat = min ((t.tile n).bank.unc.toNat + j) 0xFFFFFFFF := g.unc
    show _ = min ((s.tile n).bank.unc.toNat + (k + j)) 0xFFFFFFFF
    omega

theorem State.logs_fails (n : Nat) (found : BitVec 10) (l : List Nat) (s : State) :
    State.Logs n (l.filter fun i => found.getLsbD i).length s (l.foldl (State.logsFail n found) s) := by
  induction l generalizing s with
  | nil =>
    refine ⟨rfl, rfl, ?_⟩
    show _ = min ((s.tile n).bank.unc.toNat + 0) 0xFFFFFFFF
    have bound := (s.tile n).bank.unc.isLt
    rw [List.foldl_nil]
    omega
  | cons i r ih =>
    have both := (State.logs_fail n found s i).trans (ih _)
    rw [List.foldl_cons, List.filter_cons]
    split
    · next fails =>
      rw [if_pos fails, Nat.add_comm] at both
      exact both
    · next works =>
      rw [if_neg works, Nat.zero_add] at both
      exact both

/-! ## The end of a test -/

theorem statusWord_tested (found : BitVec 10) : statusWord 1 0 0 (2 ^ 31 + found.toNat) = BitVec.ofNat 64 (1 + 2 ^ 63 + 2 ^ 32 * found.toNat) := by
  unfold statusWord
  congr 1
  have bound := found.isLt
  omega

theorem exec_selftestComplete_clears {s : State} {n : Nat} {fail : BitVec 10} (tests : (s.tile n).testing = true) (none_ : s.heldWrites = []) :
    let found := fail &&& (s.tile n).testMask
    ∃ t : State, exec (.selftestComplete n fail) s = .next t ∧ (t.tile n).testing = false ∧ (t.tile n).testFail = found
      ∧ ((t.tile n).mustFence = true ↔ (s.tile n).mustFence = true ∨ found ≠ 0) ∧ (t.tile n).mat.acc = []
      ∧ (t.tile n).bank.unc.toNat = Nat.min ((s.tile n).bank.unc.toNat + ((List.range 10).filter fun i => found.getLsbD i).length) 0xFFFFFFFF
      ∧ (∀ i < 2 ^ 20, memGet t.mem (s.padBase n + i) = 0 ∧ t.isFull (s.padBase n + i) = false)
      ∧ (∀ i, i < s.padBase n ∨ s.padBase n + 2 ^ 20 ≤ i → memGet t.mem i = memGet s.mem i)
      ∧ ∀ k, (s.tile n).testCmd = some k → t.commands = s.commands.map fun c =>
        if c.cid = k ∧ c.result = none then { c with result := some (BitVec.ofNat 64 (1 + 2 ^ 63 + 2 ^ 32 * found.toNat)) } else c := by
  obtain ⟨found, is⟩ : ∃ f, fail &&& (s.tile n).testMask = f := ⟨_, rfl⟩
  rw [is]
  have runs := exec_selftestComplete tests is
  obtain ⟨mem, full, commands, held, apart⟩ := s.clearPad_leaves n
  have cleared : ((s.clearPad n).tile n).mustFence = (s.tile n).mustFence ∧ ((s.clearPad n).tile n).bank = (s.tile n).bank :=
    ⟨apart Tile.mustFence fun _ _ _ => rfl, apart Tile.bank fun _ _ _ => rfl⟩
  obtain ⟨told, chans⟩ := (s.endsTest n found).idleChans_leaves n
  obtain ⟨t1, isT1⟩ : ∃ t, t = (s.endsTest n found).idleChans n := ⟨_, rfl⟩
  rw [← isT1] at told chans runs
  have logs := State.logs_fails n found (List.range 10) t1
  obtain ⟨t2, isT2⟩ : ∃ t, t = (List.range 10).foldl (State.logsFail n found) t1 := ⟨_, rfl⟩
  rw [← isT2] at logs runs
  obtain ⟨rest, tile, unc⟩ := logs
  have ended : (s.endsTest n found).tile n = _ := State.tile_modTile (s.clearPad n) n _
  rw [ended] at chans
  obtain ⟨testing, testFail, mustFence, mat, bank⟩ : (t1.tile n).testing = false ∧ (t1.tile n).testFail = found
      ∧ (t1.tile n).mustFence = ((s.tile n).mustFence || found != 0) ∧ (t1.tile n).mat.acc = [] ∧ (t1.tile n).bank = (s.tile n).bank := by
    have fields := chans
    rw [Tile.tested, Tile.tested, Prod.mk.injEq, Prod.mk.injEq, Prod.mk.injEq, Prod.mk.injEq] at fields
    obtain ⟨testing, testFail, mustFence, mat, bank⟩ := fields
    exact ⟨testing, testFail, by rw [mustFence, cleared.1], by rw [mat], by rw [bank, cleared.2]⟩
  have afterMem : t2.mem = s.mem.filter fun c => s.outsidePad n c.1 := by rw [rest, told.rest]; exact mem
  have afterFull : t2.full = s.full.filter fun w => s.outsidePad n (8 * w) := by rw [rest, told.rest]; exact full
  have afterCommands : t2.commands = s.commands := by rw [rest, told.rest]; exact commands
  have afterHeld : t2.heldWrites = [] := by rw [rest, told.rest]; exact held.trans none_
  have answers := t2.answersTest_rest (s.tile n).testCmd found
  rw [State.flushHeld_none (by rw [answers]; exact afterHeld)] at runs
  refine ⟨_, runs, ?_⟩
  have same : (t2.answersTest (s.tile n).testCmd found).tile n = t2.tile n := by rw [answers]; rfl
  have sameMem : (t2.answersTest (s.tile n).testCmd found).mem = t2.mem := by rw [answers]
  have sameFull : (t2.answersTest (s.tile n).testCmd found).full = t2.full := by rw [answers]
  rw [same, sameMem, afterMem]
  refine ⟨?_, ?_, ?_, ?_, ?_, fun i inside => ⟨?_, ?_⟩, fun i outside => ?_, fun k asked => ?_⟩
  · exact (congrArg Tile.testing tile).trans testing
  · exact (congrArg Tile.testFail tile).trans testFail
  · rw [(congrArg Tile.mustFence tile).trans mustFence, Bool.or_eq_true, bne_iff_ne]
  · exact (congrArg (fun x : Tile => x.mat.acc) tile).trans mat
  · rw [unc, bank]
  · rw [memGet_filter, s.outsidePad_inside n inside, if_neg Bool.false_ne_true]
  · show (t2.answersTest (s.tile n).testCmd found).full.contains ((s.padBase n + i) / 8) = false
    rw [sameFull, afterFull, ← Bool.not_eq_true, List.contains_iff_mem, List.mem_filter, s.outsidePad_word n inside]
    exact fun h => Bool.false_ne_true h.2
  · rw [memGet_filter, if_pos (s.outsidePad_outside n outside)]
  · rw [asked, State.answersTest, State.finishCommand, afterCommands, statusWord_tested]
    refine List.map_congr_left fun c _ => ?_
    simp

end Sys2Proof.Machine
end

section
/-!
PROOF. Between instructions: walks that end, and the commits of deterministic lanes (spec/03 R52 to R57, spec/14 R298 to R300).
-/

namespace Sys2Proof.Machine

set_option Elab.async false

/-! ## Annulled words and deliveries (R112, R310) -/

theorem exec_annulledWord {s : State} {st : Strand} (here : s.strand? s.cur = some st) (annuls : st.regs.skipn ≠ 0) (goes : st.chunkStop {} = false) :
    exec .annulledWord s = .next (s.setStrand s.cur { st with
      regs := { st.regs with pc := st.regs.pc + 4, skipn := st.regs.skipn - 1 }
      chunk := st.chunk.map fun c => { c with count := c.count + 1 } }) := by
  refine congrArg Host.Outcome.next ?_
  rw [here]
  dsimp only
  rw [if_neg annuls, goes]
  rfl

theorem exec_asyncDelivery {s : State} {st : Strand} (here : s.strand? s.cur = some st) {code : Nat} {detail : Word} {l : List (Nat × Word)}
    (small : code < 256) (first : st.asyncs = (code, detail) :: l) :
    exec .asyncDelivery s = .next ((s.setStrand s.cur { st with asyncs := l }).takeFault s.cur true code detail st.regs.pc) := by
  refine congrArg Host.Outcome.next ?_
  rw [here]
  dsimp only
  rw [first]
  dsimp only
  rw [Nat.mod_eq_of_lt small]

/-! ## The end of a walk (R56, R57) -/

theorem tlbAdd_mem (cap : Nat) (b : List Leaf) (l : Leaf) : l ∈ tlbAdd cap b l := List.mem_append_right _ (List.mem_singleton.mpr rfl)

theorem length_tlbAdd_le {cap : Nat} (pos : 0 < cap) {b : List Leaf} (fits : b.length ≤ cap) (l : Leaf) : (tlbAdd cap b l).length ≤ cap := by
  have fewer : (b.filter fun k => k != l).length ≤ b.length := List.length_filter_le ..
  unfold tlbAdd
  dsimp only
  rw [List.length_append, List.length_singleton]
  split
  · omega
  · rw [List.length_drop]
    omega

section
variable {s : State} {x : SlotId} {st : Strand} {miss : Miss} (here : s.strand? x = some st) (own : st.uid = miss.uid) (who : miss.who = x)
  (held : st.run = .held (.walk miss.va miss.kind)) (walks : s.walks = [miss]) (walking : miss.walking = true)
include here own who held walks walking

omit here own held in
/-- The one walk there is ends for its miss. -/
theorem exec_translationWalk : exec (.translationWalk x) s = .next (({ s with walks := [] } : State).endMiss (s.walkFrom miss.ptroot miss.va) miss) := by
  have itself : miss.sameWalk miss = true := by simp [Miss.sameWalk]
  have found : s.walks.find? (fun m => m.who = x && m.walking) = some miss := by
    rw [walks, List.find?_cons_of_pos (by simp [who, walking])]
  have ends : s.walks.filter (fun k => k.walking && k.sameWalk miss) = [miss] := by
    rw [walks, List.filter_cons_of_pos (by simp [walking, itself]), List.filter_nil]
  have stays : s.walks.filter (fun k => !(k.walking && k.sameWalk miss)) = [] := by
    rw [walks, List.filter_cons_of_neg (by simp [walking, itself]), List.filter_nil]
  refine congrArg Host.Outcome.next ?_
  rw [found]
  dsimp only
  rw [ends, stays]
  rfl

/-- The miss with its leaf: the strand attempts its access again. -/
theorem exec_translationWalk_ok {l : Leaf} (leaf : s.walkFrom miss.ptroot miss.va = .ok l) : exec (.translationWalk x) s
    = .next ((({ s with walks := [] } : State).fillTlb x.tile l).setStrand x { st with run := .ready }) := by
  have same : (({ s with walks := [] } : State).fillTlb x.tile l).strand? x = some st :=
    (State.strand?_modTile_same { s with walks := [] } x x.tile (f := fun t => { t with tlb := tlbAdd 64 t.tlb l }) fun _ => rfl).trans here
  rw [exec_translationWalk who walks walking, leaf]
  refine congrArg Host.Outcome.next ?_
  unfold State.endMiss
  dsimp only
  rw [who, same]
  dsimp only
  rw [if_neg (by simp [own]), held]

/-- The miss without one: the strand takes the fault, unless something stands before it. -/
theorem exec_translationWalk_error {c : Nat} (fails : s.walkFrom miss.ptroot miss.va = .error c) : exec (.translationWalk x) s
    = .next (if ({ s with walks := [] } : State).beforeFault x st then ({ s with walks := [] } : State).setStrand x { st with run := .ready }
      else ({ s with walks := [] } : State).faultTurn x (trFault c miss.va).1 (trFault c miss.va).2 st.regs.pc) := by
  have same : ({ s with walks := [] } : State).strand? x = some st := here
  rw [exec_translationWalk who walks walking, fails]
  refine congrArg Host.Outcome.next ?_
  unfold State.endMiss
  dsimp only
  rw [who, same]
  dsimp only
  rw [if_neg (by simp [own]), held]

theorem exec_translationWalk_fills {l : Leaf} (leaf : s.walkFrom miss.ptroot miss.va = .ok l) :
    ∃ t : State, exec (.translationWalk x) s = .next t ∧ unwritten s t ∧ t.walks = []
      ∧ t.strand? x = some { st with run := .ready } ∧ l ∈ (t.tile x.tile).tlb ∧ l ∈ (t.rowAt (s.tileRow x.tile)).tlb
      ∧ ((s.tile x.tile).tlb.length ≤ 64 → (t.tile x.tile).tlb.length ≤ 64) := by
  obtain ⟨u, isU⟩ : ∃ u : State, u = ({ s with walks := [] } : State).fillTlb x.tile l := ⟨_, rfl⟩
  have runs := exec_translationWalk_ok here own who held walks walking leaf
  rw [← isU] at runs
  have tlb : ((u.setStrand x { st with run := .ready }).tile x.tile).tlb = tlbAdd 64 (s.tile x.tile).tlb l := by
    refine (State.tile_setStrand_apart (f := Tile.tlb) (fun _ _ _ => rfl) x.tile u x _).trans ?_
    rw [isU]
    exact congrArg Tile.tlb (State.tile_modTile { s with walks := [] } x.tile fun t => { t with tlb := tlbAdd 64 t.tlb l })
  have row : l ∈ (u.rowAt (s.tileRow x.tile)).tlb := by
    have filled := State.rowAt_modRow (({ s with walks := [] } : State).modTile x.tile fun t => { t with tlb := tlbAdd 64 t.tlb l }) (s.tileRow x.tile)
      fun r => { r with tlb := tlbAdd 4096 r.tlb l }
    have is : u.rowAt (s.tileRow x.tile) = _ := (congrArg (fun t : State => t.rowAt (s.tileRow x.tile)) isU).trans filled
    rw [is]
    exact tlbAdd_mem ..
  refine ⟨_, runs, ?_, ?_, State.strand?_setStrand .., ?_, row, fun fits => ?_⟩
  · rw [isU]
    exact ⟨rfl, rfl⟩
  · rw [isU]
    rfl
  · rw [tlb]
    exact tlbAdd_mem ..
  · rw [tlb]
    exact length_tlbAdd_le (by decide) fits l

theorem exec_translationWalk_faults {c : Nat} (fails : s.walkFrom miss.ptroot miss.va = .error c) (canonical : miss.va < 2 ^ 56) :
    (st.preReq = false → st.asyncs = [] → st.tx = none →
      exec (.translationWalk x) s = .next (({ s with walks := [] } : State).faultTurn x (if c < 0x40 then 8 else 9)
        (BitVec.ofNat 64 (c * 2 ^ 56 + miss.va)) st.regs.pc))
    ∧ ((st.preReq = true ∨ st.asyncs ≠ []) →
      exec (.translationWalk x) s = .next (({ s with walks := [] } : State).setStrand x { st with run := .ready })) := by
  have runs := exec_translationWalk_error here own who held walks walking fails
  have fault : trFault c miss.va = (if c < 0x40 then 8 else 9, BitVec.ofNat 64 (c * 2 ^ 56 + miss.va)) := by
    unfold trFault codeWord
    have small : miss.va % 0x100000000000000 = miss.va := Nat.mod_eq_of_lt canonical
    rw [Nat.mod_eq_of_lt canonical, small]
    norm_num
  refine ⟨fun calm silent closed => ?_, fun before => ?_⟩
  · have none_ : ({ s with walks := [] } : State).beforeFault x st = false := by
      simp [State.beforeFault, calm, silent, Strand.inTx, Strand.depth, closed]
    rw [runs, none_, if_neg Bool.false_ne_true, fault]
  · have some_ : ({ s with walks := [] } : State).beforeFault x st = true := by
      simp only [State.beforeFault, Bool.or_eq_true]
      exact .inl (before.imp id fun waits => by simpa using waits)
    rw [runs, if_pos some_]

end

/-! ## The commits of deterministic lanes (R298 to R300) -/

theorem State.launches_nextPlace (s : State) (lid : Nat) : (s.nextPlace lid).launches = s.launches.map fun q =>
    if q.lid = lid then { q with lanePos :=
      if q.lanePos + 1 < q.lanes then q.lanePos + 1
      else if q.lanePos < 2 ^ 40 ∧ 0 < q.taskLanes then 2 ^ 40
      else if 2 ^ 40 ≤ q.lanePos ∧ q.lanePos + 1 < 2 ^ 40 + q.taskLanes then q.lanePos + 1 else 0 } else q := by
  refine List.map_congr_left fun q _ => ?_
  have place : q.placeAfter = if q.lanePos + 1 < q.lanes then q.lanePos + 1
      else if q.lanePos < 2 ^ 40 ∧ 0 < q.taskLanes then 2 ^ 40
      else if 2 ^ 40 ≤ q.lanePos ∧ q.lanePos + 1 < 2 ^ 40 + q.taskLanes then q.lanePos + 1 else 0 := by
    unfold Launch.placeAfter
    generalize 2 ^ 40 = k
    split_ifs <;> omega
  rw [place]

section
variable {s : State} {l : Launch} {x : SlotId} {st : Strand} {c : Chunk} (launch : s.launch? l.lid = some l) (det : l.det = true)
  (slot : s.laneSlot l.lid l.lanePos = some x) (here : s.strand? x = some st)
include launch det slot here

/-- A lane that waits as in a retry contributes an empty chunk. -/
theorem exec_chunkCommit_retries (held : st.run = .held .chunk) (waits : s.laneRetries x st = true) :
    exec (.chunkCommit l.lid) s = .next (s.nextPlace l.lid) := by
  refine congrArg Host.Outcome.next ?_
  simp only [launch, det, slot, here, Bool.not_true, Bool.false_eq_true, if_false]
  rw [if_pos (by simp [held, waits, Run.isPreempted])]

/-- So does one at a barrier. -/
theorem exec_chunkCommit_bar {row : Bool} {p : Nat} {g : Bool} (bar : st.run = .held (.bar row p g)) : exec (.chunkCommit l.lid) s = .next (s.nextPlace l.lid) := by
  refine congrArg Host.Outcome.next ?_
  simp only [launch, det, slot, here, bar, Bool.not_true, Bool.false_eq_true, if_false, ite_self]

/-- One asleep has run its chunk to the retry. -/
theorem exec_chunkCommit_asleep (asleep : st.run = .asleep) : exec (.chunkCommit l.lid) s = .next ((s.setStrand x st.rested).nextPlace l.lid) := by
  refine congrArg Host.Outcome.next ?_
  simp only [launch, det, slot, here, Bool.not_true, Bool.false_eq_true, if_false]
  rw [if_neg (by simp [asleep]), asleep, State.modStrand_of_strand here]

section
variable (held : st.run = .held .chunk) (chunk : st.chunk = some c) (settled : s.unfinished x st = false) (quiet : s.laneRetries x st = false)
  (ended : c.ended = true)
include held chunk settled quiet ended

/-- A chunk that has read what was written since starts again. -/
theorem exec_chunkCommit_squashed (stale : ∃ k ∈ c.reads, k.2 = true) : exec (.chunkCommit l.lid) s = .next ((s.setStrand x (st.squash c)).dropWeir x) := by
  refine congrArg Host.Outcome.next ?_
  simp only [launch, det, slot, here, Bool.not_true, Bool.false_eq_true, if_false]
  rw [if_neg (by simp [quiet]), held, chunk]
  dsimp only
  rw [settled, ended, if_neg (by simp), if_pos (List.any_eq_true.mpr stale)]

/-- Any other commits, its stores in order. -/
theorem exec_chunkCommit_commits (fresh : ∀ k ∈ c.reads, k.2 = false) (some_ : 0 < c.count) : exec (.chunkCommit l.lid) s
    = .next (((c.wset.foldl (fun s e => s.applyEntry x e) s).modStrand x fun st => st.nextChunk c).nextPlace l.lid) := by
  have valid : ¬ c.reads.any (·.2) = true := by
    rw [List.any_eq_true]
    rintro ⟨k, mem, hit⟩
    exact Bool.false_ne_true ((fresh k mem).symm.trans hit)
  refine congrArg Host.Outcome.next ?_
  simp only [launch, det, slot, here, Bool.not_true, Bool.false_eq_true, if_false]
  rw [if_neg (by simp [quiet]), held, chunk]
  dsimp only
  rw [settled, ended, if_neg (by simp), if_neg valid, if_neg (by omega)]

end

end

/-- Nothing of a lane is on its way whose accesses are all performed. -/
theorem State.unfinished_none {s : State} {x : SlotId} {st : Strand} (none_ : st.longs = []) (done : ∀ a ∈ s.flight, a.who = x → a.done = true) :
    s.unfinished x st = false ∧ s.laneRetries x st = false := by
  constructor
  · rw [State.unfinished, none_, List.isEmpty_nil, Bool.not_true, Bool.false_or, List.any_eq_false]
    intro a mem
    by_cases mine : a.who = x
    · simp [done a mem mine]
    · simp [mine]
  · rw [State.laneRetries, none_, List.any_nil, Bool.or_false, List.any_eq_false]
    intro a mem
    by_cases mine : a.who = x
    · simp [done a mem mine]
    · simp [mine]

/-- An ldc whose word is empty waits as in a retry. -/
theorem State.laneRetries_ldc {s : State} {x : SlotId} {st : Strand} {a : Access} (flies : a ∈ s.flight) (who : a.who = x) (own : a.uid = st.uid)
    (open_ : a.done = false) (waits : s.waitsAtHome a = true) (is : a.op = .ldc) (plain : a.ovFull = none) (local_ : a.loc.dev = thisDev)
    (empty : a.loc.addr / 8 ∉ s.full) : s.laneRetries x st = true := by
  have full : s.fullAt a 0 = false := by
    unfold State.fullAt
    rw [plain]
    dsimp only
    rw [if_neg (by simp [local_]), State.isFull]
    simpa [List.contains_eq_mem] using empty
  unfold State.laneRetries
  rw [Bool.or_eq_true, List.any_eq_true]
  refine .inl ⟨a, flies, ?_⟩
  rw [open_, waits, is]
  dsimp only
  rw [full]
  simp [who, own]

/-! ### What a commit writes -/

theorem State.applyEntry_store {s : State} {x : SlotId} {k : Loc} {i : Nat} {bs : List Byte} {leaf : Option Leaf} (here : k.dev = thisDev)
    (hbm : s.region (k.addr + i) = .hbm) (settled : s.redWords = []) : written s (s.applyEntry x ⟨k, 0, [.store i bs leaf]⟩) (k.addr + i) bs := by
  obtain ⟨u, isU, mem, full, red, fuses⟩ : ∃ u : State, s.applyEntry x ⟨k, 0, [.store i bs leaf]⟩ = u.poke (some x) (isSup x) ⟨k.dev, k.addr + i⟩ bs
      ∧ u.mem = s.mem ∧ u.full = s.full ∧ u.redWords = s.redWords ∧ u.fusedRows = s.fusedRows ∧ u.fusedCols = s.fusedCols := by
    refine ⟨_, rfl, ?_⟩
    split <;> exact ⟨rfl, rfl, rfl, rfl, rfl⟩
  rw [isU, here, State.poke_hbm ((State.region_of_fuses fuses.1 fuses.2 _).trans hbm) (red.trans settled)]
  have wrote := (u.store_wrote (some x) (k.addr + i) bs).written
  rw [written, mem, full] at wrote
  exact wrote

/-! ## The statement -/

/-- Settles O60: each step between instructions, and each error, by what it leaves. -/
theorem machineSteps : Obligations.MachineSteps := by
  refine ⟨fun s st here => ⟨exec_annulledWord here, fun code detail l => exec_asyncDelivery here⟩,
    fun s x st miss here own who held walks walking canonical =>
      ⟨fun l leaf => exec_translationWalk_fills here own who held walks walking leaf,
        fun c fails => exec_translationWalk_faults here own who held walks walking fails canonical⟩,
    fun s l x st c launch det slot here => ?commits, fun b cls src k addr detail => ?bank, fun s n pa bank src addr detail st => ?errors,
    fun s a st flies away device open_ asks whole here own bare => exec_remoteTimeout flies away device open_ asks whole here own bare, exec_peerReset⟩
  case bank =>
    obtain ⟨valid, corr, unc, ovf⟩ := b.log_counts cls src k addr detail
    obtain ⟨new, old⟩ := b.log_fields cls src k addr detail
    exact ⟨valid, corr, unc, ovf, new, old⟩
  case errors =>
    refine ⟨exec_patrolScrub_hbm, fun off k pad => exec_patrolScrub_pad pad k, fun here digest signed => ?code, fun mirror => exec_supervisorMemoryError_queues mirror,
      fun lost gone => ?lost, ?fatal, fun fails few => exec_linkResend_resent s bank few addr detail,
      fun fails many => exec_linkResend_fatal s bank many addr detail, fun fail tests none_ => exec_selftestComplete_clears tests none_⟩
    case code => exact exec_supervisorMemoryError_code here digest signed
    case lost =>
      obtain ⟨fenced, strands, degraded, mirror⟩ := (s.supervisorErr n).fence_leaves n
      exact ⟨_, exec_supervisorMemoryError_lost gone, fenced, strands, degraded, mirror⟩
    case fatal =>
      obtain ⟨fatal, launches, rings, ckpt⟩ := s.fatal_ends bank src addr detail
      exact ⟨_, rfl, fatal, launches, rings, ckpt, fun idle => State.fatal_logs idle bank src addr detail⟩
  case commits =>
    refine ⟨fun row p g bar => ?_, fun asleep => ?_, fun a d held flies who own open_ waits is dest plain local_ empty => ?_, fun held chunk none_ done ended =>
      ⟨fun stale => ?_, fun fresh some_ empty => ?_, fun fresh some_ k i bs leaf one local_ nonempty inside aligned hbm end_ settled lags lagOn => ?_⟩⟩
    · exact ⟨_, exec_chunkCommit_bar launch det slot here bar, ⟨rfl, rfl⟩, s.launches_nextPlace _, here⟩
    · refine ⟨_, exec_chunkCommit_asleep launch det slot here asleep, ⟨rfl, rfl⟩, State.launches_nextPlace .., fun plain => ?_, fun chunk => ?_⟩
      · refine (State.strand?_setStrand ..).trans ?_
        rw [Strand.rested, plain]
      · refine (State.strand?_setStrand ..).trans ?_
        rw [Strand.rested, chunk]
        rfl
    · exact ⟨_, exec_chunkCommit_retries launch det slot here held (State.laneRetries_ldc flies who own open_ waits is plain local_ empty), ⟨rfl, rfl⟩,
        s.launches_nextPlace _, here⟩
    · obtain ⟨settled, quiet⟩ := State.unfinished_none none_ done
      refine ⟨_, exec_chunkCommit_squashed launch det slot here held chunk settled quiet ended stale, ⟨rfl, rfl⟩, rfl, ?_⟩
      exact (State.strand?_modTile_same (s.setStrand x (st.squash c)) x x.tile
        (f := fun t => { t with weir := t.weir.filter fun e => e.member != x.member }) fun _ => rfl).trans (State.strand?_setStrand ..)
    · obtain ⟨settled, quiet⟩ := State.unfinished_none none_ done
      have runs := exec_chunkCommit_commits launch det slot here held chunk settled quiet ended fresh some_
      rw [empty, List.foldl_nil, State.modStrand_of_strand here] at runs
      exact ⟨_, runs, State.launches_nextPlace .., ⟨rfl, rfl⟩, State.strand?_setStrand ..⟩
    · obtain ⟨still, quiet⟩ := State.unfinished_none none_ done
      have runs := exec_chunkCommit_commits launch det slot here held chunk still quiet ended fresh some_
      have within : s.region (k.addr + i) = .hbm := by
        rw [State.region_hbm_iff] at end_ ⊢
        have pos := List.length_pos_iff.mpr nonempty
        omega
      have wrote := State.applyEntry_store (x := x) (leaf := leaf) (bs := bs) local_ within settled
      rw [one, List.foldl_cons, List.foldl_nil] at runs
      refine ⟨_, runs, ?_⟩
      have rest := (s.applyEntry x ⟨k, 0, [.store i bs leaf]⟩).modStrand_rest x fun st => st.nextChunk c
      rw [written, State.nextPlace, rest]
      exact wrote

end Sys2Proof.Machine
end
